-- ==== Sys2Proof/Word.lean ====
section
/-! DEFINITION. The word types of the device (R5: little-endian, bit 0 least significant). -/

namespace Sys2Proof

/-- A 64-bit scalar value (R7, R26). -/
abbrev Word := BitVec 64
/-- One byte of any store. -/
abbrev Byte := BitVec 8
/-- A code-stream halfword address, held in 17 bits (R42). -/
abbrev CodeAddr := BitVec 17
/-- A vector register or one tower row (R21, R22). -/
abbrev Row := BitVec 256
/-- A latch, an express entry or a wide fragment (R181, R187). -/
abbrev Frag := BitVec 512

end Sys2Proof
end

