-- ==== Sys2Proof/Config.lean ====
section
/-! DEFINITION. What the manual leaves to the device: free values with no body, and the figures it fixes. -/

namespace Sys2Proof.Config

/-- The device's choice of the n-th R_Key (R402 says only: chosen by the device, never repeated before reset).
Free value, log entry 11. -/
opaque freeRKey : Nat → BitVec 32

/-- Whether an ECDSA P-384 signature verifies under a public key (R406): key, signed bytes, signature bytes.
The manual names the algorithm and does not define it: an uninterpreted function, log entry 9. -/
opaque signatureVerifies : List Byte → List Byte → List Byte → Bool

/-- The root-certificate hash that a slot of the platform trust store holds before any TRUST_SET: the store is non-volatile and
the manual does not give its contents (R394). Free value, log entry 55. -/
opaque trustRoot : Nat → List (BitVec 8)

/-- The value read where the manual states an effect and no value; the counter is State.freeCtr (DESIGN CHOICE, log entry 11). -/
opaque freeWord : Nat → Word

/-- Compute cores of the package (R18, R23). -/
def cores : Nat := 128
/-- Hardware contexts of a core (R19). -/
def contexts : Nat := 4
/-- Cells of a core (R19). -/
def cells : Nat := 256
/-- CMEM bytes of a core (R19). -/
def cmemBytes : Nat := 262144
/-- Launch queues of the starter (R350). -/
def queues : Nat := 64
/-- Relay ports (R16). -/
def ports : Nat := 48
/-- Cycles of the 850 MHz reference clock in one microsecond (R17). -/
def cyclesPerUs : Nat := 850

end Sys2Proof.Config
end

