-- ==== Sys2Proof/Machine/Bits.lean ====
section
/-! DEFINITION. Bit fields, extension and byte order (R5, R59), and the small list operations everything uses. -/

namespace Sys2Proof.Machine

/-- Field of `w` bits of `x` from bit `lo` up: `bits(x, lo + w - 1, lo)` of R59. -/
def field {n : Nat} (x : BitVec n) (lo w : Nat) : BitVec w := x.extractLsb' lo w

/-- The same field as a number. -/
def fieldN {n : Nat} (x : BitVec n) (lo w : Nat) : Nat := (x.extractLsb' lo w).toNat

/-- Bit `i` of `x` (R5). -/
def bit {n : Nat} (x : BitVec n) (i : Nat) : Bool := x.getLsbD i

/-- `sext(x, n)` of R59, to 64 bits. -/
def sext64 {n : Nat} (x : BitVec n) : Word := x.signExtend 64

/-- `zext(x, n)` of R59, to 64 bits. -/
def zext64 {n : Nat} (x : BitVec n) : Word := x.setWidth 64

/-- Number of one bits. -/
def popCount {n : Nat} (x : BitVec n) : Nat := (List.range n).foldl (fun c i => if bit x i then c + 1 else c) 0

/-- Index of the highest one bit plus one, 0 for zero. -/
def bitLength {n : Nat} (x : BitVec n) : Nat := if x.toNat = 0 then 0 else x.toNat.log2 + 1

/-- The first `n` bytes of a number, least significant first (R5). -/
def leBytes : Nat → Nat → List Byte
  | 0, _ => []
  | n + 1, v => BitVec.ofNat 8 v :: leBytes n (v / 256)

/-- The number that a little-endian byte list spells (R5). -/
def leNat : List Byte → Nat
  | [] => 0
  | b :: bs => b.toNat + 256 * leNat bs

/-- A field whose place is set in a wider word: `v` at bit `lo`. -/
def place (w lo v : Nat) : BitVec w := BitVec.ofNat w (v <<< lo)

/-- Replace `w` bits of `x` from `lo` up by the low bits of `v`. -/
def setField {n : Nat} (x : BitVec n) (lo w v : Nat) : BitVec n :=
  (x &&& ~~~ (BitVec.ofNat n ((2 ^ w - 1) <<< lo))) ||| BitVec.ofNat n ((v % 2 ^ w) <<< lo)

/-- Element at index `i` of a list with a default. -/
def nth {α : Type} (d : α) : List α → Nat → α
  | [], _ => d
  | x :: _, 0 => x
  | _ :: xs, i + 1 => nth d xs i

/-- Replace element `i` of a list where it has one. -/
def setNth {α : Type} : List α → Nat → α → List α
  | [], _, _ => []
  | _ :: xs, 0, v => v :: xs
  | x :: xs, i + 1, v => x :: setNth xs i v

/-- The elements with their positions, from `i`. -/
def indexed {α : Type} : Nat → List α → List (Nat × α)
  | _, [] => []
  | i, x :: xs => (i, x) :: indexed (i + 1) xs

/-- Whether two numbers' sets, given as bit masks, share a bit. -/
def maskMeets {n : Nat} (x y : BitVec n) : Bool := (x &&& y) != 0

/-- Numbers below `n` whose bit is set in the mask. -/
def maskList {n : Nat} (x : BitVec n) : List Nat := (List.range n).filter (bit x)

/-- The cut of a 512-bit or 256-bit word into `w`-bit elements: element `j` (R125). -/
def elem {n : Nat} (x : BitVec n) (w j : Nat) : BitVec w := x.extractLsb' (w * j) w

/-- A word of `n` bits assembled from `w`-bit elements, element 0 lowest (R125). -/
def joinElems (n w : Nat) (es : List Nat) : BitVec n :=
  BitVec.ofNat n (es.foldr (fun e acc => e % 2 ^ w + (acc <<< w)) 0)

/-- Saturating addition at `2 ^ w - 1`. -/
def satAdd (w a b : Nat) : Nat := min (a + b) (2 ^ w - 1)

/-- Round a quotient up. -/
def ceilDiv (a b : Nat) : Nat := (a + b - 1) / b

end Sys2Proof.Machine
end

