-- ==== Sys2Proof/Machine/Formats.lean ====
section
/-! DEFINITION. Element formats, their codes and widths, and rounding modes (R54, R100, R103, R105, R114). -/

namespace Sys2Proof.Machine

/-- The element formats named by FP1 and FP2 codes 0 to 11 (R54). -/
inductive Fmt where
  | fp32 | fp16 | bf16 | e4m3 | e5m2 | mxfp4 | mxfp8 | i8 | n8 | i16 | i32 | lq8
  deriving DecidableEq, Repr

/-- The rounding modes of R54. -/
inductive RMode where
  | rne | rtz | rup | rdn
  deriving DecidableEq, Repr

/-- Format code to format; codes 12 (region) and above name no format of their own (R54). -/
def Fmt.ofCode : Nat → Option Fmt
  | 0 => some .fp32 | 1 => some .fp16 | 2 => some .bf16 | 3 => some .e4m3 | 4 => some .e5m2
  | 5 => some .mxfp4 | 6 => some .mxfp8 | 7 => some .i8 | 8 => some .n8 | 9 => some .i16
  | 10 => some .i32 | 11 => some .lq8 | _ => none

/-- The code of a format (R54). -/
def Fmt.code : Fmt → Nat
  | .fp32 => 0 | .fp16 => 1 | .bf16 => 2 | .e4m3 => 3 | .e5m2 => 4 | .mxfp4 => 5 | .mxfp8 => 6
  | .i8 => 7 | .n8 => 8 | .i16 => 9 | .i32 => 10 | .lq8 => 11

/-- Element width in bits (R100, R103); an LQ8 codeword is counted as 16 bits (R105). -/
def Fmt.width : Fmt → Nat
  | .fp32 => 32 | .i32 => 32 | .fp16 => 16 | .bf16 => 16 | .i16 => 16
  | .e4m3 => 8 | .e5m2 => 8 | .mxfp8 => 8 | .i8 => 8 | .n8 => 8 | .mxfp4 => 4 | .lq8 => 16

/-- Integer element formats (R103). -/
def Fmt.isInt : Fmt → Bool
  | .i8 => true | .n8 => true | .i16 => true | .i32 => true | _ => false

/-- Plain floating-point element formats (R100). -/
def Fmt.isFloat : Fmt → Bool
  | .fp32 => true | .fp16 => true | .bf16 => true | .e4m3 => true | .e5m2 => true | _ => false

/-- Formats whose elements share block scales (R105). -/
def Fmt.isBlock : Fmt → Bool
  | .mxfp4 => true | .mxfp8 => true | .lq8 => true | _ => false

/-- The format of a page or region FMT code 1 to 6 (R114); FMT 0 is plain and has none. -/
def Fmt.ofRegion : Nat → Option Fmt
  | 1 => some .bf16 | 2 => some .e4m3 | 3 => some .e5m2 | 4 => some .mxfp4 | 5 => some .mxfp8 | 6 => some .lq8
  | _ => none

/-- RM and fn[9:7] codes (R54). -/
def RMode.ofCode : Nat → RMode
  | 0 => .rne | 1 => .rtz | 2 => .rup | _ => .rdn

end Sys2Proof.Machine
end

