-- ==== Sys2Proof/Syntax.lean ====
section
/-! DEFINITION. The instruction set as data: one constructor of Instr for each row of spec/opcode_table.json.
Rows are of two kinds: the slot instructions of a Nimub bundle (R48 to R58), whose constructor carries the slot's
fields as the encoding lays them out, and the device's own steps and events, whose constructor carries what the
step acts on. -/

namespace Sys2Proof

/-- Register form of an S slot (R50), without its opcode. -/
structure RForm where
  d : BitVec 6
  a : BitVec 6
  b : BitVec 6
  pr : BitVec 3
  pn : BitVec 1
  fn : BitVec 18
  deriving DecidableEq, Repr

/-- Immediate form of an S slot (R50). -/
structure IForm where
  d : BitVec 6
  a : BitVec 6
  pr : BitVec 3
  pn : BitVec 1
  imm : BitVec 24
  deriving DecidableEq, Repr

/-- Long immediate form of an S slot (R50); not predicated. -/
structure LForm where
  d : BitVec 6
  imm : BitVec 34
  deriving DecidableEq, Repr

/-- The M slot (R51). -/
structure MForm where
  d : BitVec 6
  a : BitVec 6
  b : BitVec 6
  pr : BitVec 3
  pn : BitVec 1
  attr : BitVec 8
  imm : BitVec 26
  deriving DecidableEq, Repr

/-- The F slot (R52). -/
structure FForm where
  pr : BitVec 3
  pn : BitVec 1
  a : BitVec 6
  b : BitVec 6
  tgt : BitVec 40
  deriving DecidableEq, Repr

/-- The C slot (R53): the fields in the manual's names (`as_`, `bs` are the source selects AS, BS;
`ta`, `tb`, `td` the tower addresses; `fp1`, `fp2` the format pair; `cn` the count; `im` the immediate). -/
structure CForm where
  sq : BitVec 4
  lm : BitVec 3
  co : BitVec 3
  d : BitVec 5
  a : BitVec 5
  b : BitVec 5
  cc : BitVec 5
  as_ : BitVec 4
  bs : BitVec 4
  ta : BitVec 10
  tb : BitVec 10
  td : BitVec 10
  rt : BitVec 8
  fp1 : BitVec 4
  fp2 : BitVec 4
  rm : BitVec 3
  cn : BitVec 11
  im : BitVec 22
  deriving DecidableEq, Repr

/-- A unit that the targeted self-test of R439 examines, as the health log of R400 names it. -/
inductive ErrUnit where
  /-- A bank of a cell's tower; bank 8 is the layer's XOR bank. -/
  | towerBank (core cell layer bank : Nat)
  /-- A cell register, accumulator or lane, by its number. -/
  | cellUnit (core cell number : Nat)
  /-- A CMEM doubleword, by its offset divided by 8. -/
  | cmemWord (core word : Nat)
  /-- A lane of a Relay port. -/
  | relayLane (port lane : Nat)
  deriving DecidableEq, Repr

/-- Where an error that its code does not correct arises (R433). Dictionary entries, bitmap words and cached translations
carry parity: their errors are mended by reading again. -/
inductive ErrPlace where
  | towerRow (core cell row : Nat)
  /-- The XOR row of a row's stripe. -/
  | xorRow (core cell row : Nat)
  /-- A 32-bit word of a cell register: 0 to 31 v, 32 to 39 m, 40 and 41 a0 and a1, whose words are their elements. -/
  | cellRegister (core cell number word : Nat)
  /-- A 32-bit word of latch N, E, S, W. -/
  | latch (core cell dir word : Nat)
  /-- A 32-bit word of a fragment of a cell's receive buffer, counted from the oldest. -/
  | receive (core cell entry word : Nat)
  | cmem (core offset : Nat)
  | dict (core entry : Nat)
  | bitmap (core word : Nat)
  | memory (address : Nat)
  | tlb (core index : Nat)
  | walkCache (die index : Nat)
  deriving DecidableEq, Repr

/-- What SELF_TEST stands for: an error met that its code corrects, an error that it does not correct, the end of the
self-test of a unit (R433, R439), or a launch that Filzan places for self-test, with its record's words and its image
(R385). -/
inductive TestEvent where
  | corrected (u : ErrUnit)
  | upset (p : ErrPlace)
  | verdict (u : ErrUnit)
  | launch (words : List (BitVec 64)) (image : List (BitVec 8))
  deriving DecidableEq, Repr

/-- What a limit of R380 asks for a cluster, most restrictive first. -/
inductive RailRequest where
  | stop
  | low
  | high
  deriving DecidableEq, Repr

/-- One limit's request: a rail and, for each core of the cluster in order, the grants GLO and GHI (R376, R380). -/
structure LimitRequest where
  rail : RailRequest
  grants : List (BitVec 13 × BitVec 13)
  deriving DecidableEq, Repr

/-- The requests for one cluster in a control interval (R380). The thermal rail request follows from the cluster's
temperature and is computed by the model; its grants, and the other three requests, come from measured power and
current, which are outside the architecture. -/
structure PowerRequest where
  cluster : Nat
  thermalGrants : List (BitVec 13 × BitVec 13)
  current : LimitRequest
  cap : LimitRequest
  boost : LimitRequest
  deriving DecidableEq, Repr

/-- What a Relay flit carries between packages (R303, R324, R404). A package number names the package that it is for, or that
asks and is answered; what is for a graph's home judge names the home package, where its sender knows it. -/
inductive RemoteOp where
  /-- One packet of a remote copy: bytes at virtual addresses of the domain bound to the fabric group. -/
  | writes (package group : Nat) (bytes : List (BitVec 64 × BitVec 8))
  /-- A packet's read at virtual addresses of the domain bound to the fabric group. -/
  | reads (package group : Nat) (addrs : List (BitVec 64))
  /-- What another package answers to the oldest unanswered read of an engine context. -/
  | data (core ectx : Nat) (bytes : List (BitVec 8))
  /-- A baton of a CROSS graph: graph identifier, destination unit, handle, handler and slot image, for the domain bound to
  the fabric group. -/
  | baton (package group : Nat) (graph : BitVec 64) (unit handle : Nat) (handler : BitVec 16) (bytes : List (BitVec 8))
  /-- A unit's delta batch of a CROSS graph, a PROG's or a baton's, for its home judge: (station, lap, signed delta). -/
  | deltas (home : Option Nat) (package : Nat) (graph : BitVec 64) (unit : Nat) (prog : Bool) (batch : List (Nat × BitVec 64 × Int))
  /-- The home judge's answer to the oldest unanswered batch of a unit: applied, or refused or ignored. -/
  | applied (package : Nat) (graph : BitVec 64) (unit : Nat) (ok : Bool)
  /-- An announcement of the home judge: station and frontier, none for closed. -/
  | announce (graph : BitVec 64) (station : Nat) (frontier : Option (BitVec 64))
  /-- A unit's cancel of a CROSS graph, for its home judge; unit 0x3FF for a kill. -/
  | cancel (home : Option Nat) (graph : BitVec 64) (unit : Nat)
  /-- The home judge has cancelled a CROSS graph: its cause. -/
  | cancelled (graph : BitVec 64) (cause : BitVec 48)
  /-- Batons dropped and PROGs ignored in another package, for the status block at home. -/
  | lost (home : Option Nat) (graph : BitVec 64) (dropped ignored : Nat)
  /-- A unit's FRONT of a station, for the home judge, and what that judge answers. -/
  | frontAsk (home : Option Nat) (package : Nat) (graph : BitVec 64) (unit station : Nat)
  | frontTell (package : Nat) (graph : BitVec 64) (unit station : Nat) (frontier : BitVec 64)
  /-- A baton of a unit has met an error at its destination, for the package of its sender: the error number of R328 (R247). -/
  | stopped (package : Nat) (graph : BitVec 64) (unit err : Nat)
  /-- A flit that carries an earlier part of an operation, which a later flit completes. -/
  | part
  deriving DecidableEq, Repr

/-- The queue pair of an operation of a host: its number, and the host, which is a master or, of a SEND, an endpoint (R401). -/
structure QueuePair where
  peer : Nat
  number : Nat
  deriving DecidableEq, Repr

/-- Where a request that is not supported comes in (R15, R398, R401). -/
inductive UnsupportedPath where
  /-- An option of a standard, over the host's interface or over I3C. -/
  | option (overHost : Bool)
  /-- A queue pair of a master: an atomic, an operation with immediate data, or one of another transport. -/
  | request (master qp : Nat)
  /-- I3C: a command with this tag, whose code is not assigned. -/
  | command (tag : BitVec 8)
  deriving DecidableEq, Repr

/-- What an endpoint presents for its authentication (R394): the hash of the root at which its chain ends, and whether the
rest of the authentication passes. -/
structure ChainProof where
  root : List (BitVec 8)
  passed : Bool
  deriving DecidableEq, Repr

/-- The detections of R408 that reach the alarm. -/
inductive TamperKind where
  | tamper
  | glitchUnrecovered
  | testPort
  deriving DecidableEq, Repr

/-- The fatal errors of R445, numbered as FATAL of R446; the Filzan watchdog (6) is an event of its own. -/
inductive FatalKind where
  | judge
  | hubState
  | keyStore
  | landingBuffer
  | filzanMemory
  | hubLasting
  deriving DecidableEq, Repr

/-- One constructor per row of spec/opcode_table.json. -/
inductive Instr where
  /-- NOP, in any slot (R48). -/
  | nop
  -- S slot (R55)
  /-- ADD, opcode 0x01. -/
  | add (f : RForm)
  /-- ADDI, opcode 0x02. -/
  | addi (f : IForm)
  /-- SUB, opcode 0x03. -/
  | sub (f : RForm)
  /-- MUL, opcode 0x04. -/
  | mul (f : RForm)
  /-- MULH, opcode 0x05. -/
  | mulh (f : RForm)
  /-- MULHN, opcode 0x06. -/
  | mulhn (f : RForm)
  /-- DIV, opcode 0x07. -/
  | div (f : RForm)
  /-- DIVN, opcode 0x08. -/
  | divn (f : RForm)
  /-- REM, opcode 0x09. -/
  | rem (f : RForm)
  /-- REMN, opcode 0x0A. -/
  | remn (f : RForm)
  /-- AND, opcode 0x10. -/
  | and (f : RForm)
  /-- ANDI, opcode 0x11. -/
  | andi (f : IForm)
  /-- OR, opcode 0x12. -/
  | or (f : RForm)
  /-- ORI, opcode 0x13. -/
  | ori (f : IForm)
  /-- XOR, opcode 0x14. -/
  | xor (f : RForm)
  /-- XORI, opcode 0x15. -/
  | xori (f : IForm)
  /-- SHL, opcode 0x16. -/
  | shl (f : RForm)
  /-- SHLI, opcode 0x17. -/
  | shli (f : IForm)
  /-- SHR, opcode 0x18. -/
  | shr (f : RForm)
  /-- SHRI, opcode 0x19. -/
  | shri (f : IForm)
  /-- SHRA, opcode 0x1A. -/
  | shra (f : RForm)
  /-- SHRAI, opcode 0x1B. -/
  | shrai (f : IForm)
  /-- ROTL, opcode 0x1C. -/
  | rotl (f : RForm)
  /-- CLZ, opcode 0x20. -/
  | clz (f : RForm)
  /-- POPC, opcode 0x21. -/
  | popc (f : RForm)
  /-- MIN, opcode 0x22. -/
  | min (f : RForm)
  /-- MAX, opcode 0x23. -/
  | max (f : RForm)
  /-- MINN, opcode 0x24. -/
  | minn (f : RForm)
  /-- MAXN, opcode 0x25. -/
  | maxn (f : RForm)
  /-- CMP, opcode 0x28. -/
  | cmp (f : RForm)
  /-- SEL, opcode 0x29. -/
  | sel (f : RForm)
  /-- MOV, opcode 0x2A. -/
  | mov (f : RForm)
  /-- LI, opcode 0x2B. -/
  | li (f : LForm)
  /-- LIH, opcode 0x2C. -/
  | lih (f : LForm)
  /-- ADDR, opcode 0x30. -/
  | addr (f : RForm)
  /-- EXTB, opcode 0x31. -/
  | extb (f : RForm)
  /-- EXTH, opcode 0x32. -/
  | exth (f : RForm)
  /-- EXTW, opcode 0x33. -/
  | extw (f : RForm)
  /-- BFX, opcode 0x34. -/
  | bfx (f : RForm)
  /-- BFI, opcode 0x35. -/
  | bfi (f : RForm)
  /-- PAND, opcode 0x38. -/
  | pand (f : RForm)
  /-- POR, opcode 0x39. -/
  | por (f : RForm)
  /-- PNOT, opcode 0x3A. -/
  | pnot (f : RForm)
  /-- FCVTS, opcode 0x3C. -/
  | fcvts (f : RForm)
  /-- FCMPS, opcode 0x3D. -/
  | fcmps (f : RForm)
  /-- LAPSET, opcode 0x40. -/
  | lapset (f : RForm)
  /-- LAPADD, opcode 0x41. -/
  | lapadd (f : RForm)
  /-- LAPGET, opcode 0x42. -/
  | lapget (f : RForm)
  -- F slot (R56)
  /-- BR, opcode 0x01. -/
  | br (f : FForm)
  /-- BRC, opcode 0x02. -/
  | brc (f : FForm)
  /-- JMP, opcode 0x03. -/
  | jmp (f : FForm)
  /-- CALL, opcode 0x04. -/
  | call (f : FForm)
  /-- RET, opcode 0x05. -/
  | ret (f : FForm)
  /-- LOOP, opcode 0x08. -/
  | loop (f : FForm)
  /-- LOOPI, opcode 0x09. -/
  | loopi (f : FForm)
  /-- BREAKL, opcode 0x0A. -/
  | breakl (f : FForm)
  /-- WAITB, opcode 0x10. -/
  | waitb (f : FForm)
  /-- WAITT, opcode 0x11. -/
  | waitt (f : FForm)
  /-- WAITF, opcode 0x12. -/
  | waitf (f : FForm)
  /-- ADVP, opcode 0x14. -/
  | advp (f : FForm)
  /-- ADVC, opcode 0x15. -/
  | advc (f : FForm)
  /-- YIELD, opcode 0x18. -/
  | yield (f : FForm)
  /-- END, opcode 0x19. -/
  | endOp (f : FForm)
  /-- SLEEP, opcode 0x1A. -/
  | sleep (f : FForm)
  /-- TRAP, opcode 0x1C. -/
  | trap (f : FForm)
  /-- RFT, opcode 0x1D. -/
  | rft (f : FForm)
  -- M slot (R57)
  /-- LDB, opcode 0x01. -/
  | ldb (f : MForm)
  /-- LDBN, opcode 0x02. -/
  | ldbn (f : MForm)
  /-- LDH, opcode 0x03. -/
  | ldh (f : MForm)
  /-- LDHN, opcode 0x04. -/
  | ldhn (f : MForm)
  /-- LDW, opcode 0x05. -/
  | ldw (f : MForm)
  /-- LDWN, opcode 0x06. -/
  | ldwn (f : MForm)
  /-- LDD, opcode 0x07. -/
  | ldd (f : MForm)
  /-- STB, opcode 0x08. -/
  | stb (f : MForm)
  /-- STH, opcode 0x09. -/
  | sth (f : MForm)
  /-- STW, opcode 0x0A. -/
  | stw (f : MForm)
  /-- STD, opcode 0x0B. -/
  | std (f : MForm)
  /-- AMOADD, opcode 0x10. -/
  | amoadd (f : MForm)
  /-- AMOAND, opcode 0x11. -/
  | amoand (f : MForm)
  /-- AMOOR, opcode 0x12. -/
  | amoor (f : MForm)
  /-- AMOXOR, opcode 0x13. -/
  | amoxor (f : MForm)
  /-- AMOMIN, opcode 0x14. -/
  | amomin (f : MForm)
  /-- AMOMAX, opcode 0x15. -/
  | amomax (f : MForm)
  /-- AMOMINN, opcode 0x16. -/
  | amominn (f : MForm)
  /-- AMOMAXN, opcode 0x17. -/
  | amomaxn (f : MForm)
  /-- AMOSWP, opcode 0x18. -/
  | amoswp (f : MForm)
  /-- AMOCAS, opcode 0x19. -/
  | amocas (f : MForm)
  /-- FENCE, opcode 0x1C. -/
  | fence (f : MForm)
  /-- TLINC, opcode 0x20. -/
  | tlinc (f : MForm)
  /-- TLREAD, opcode 0x21. -/
  | tlread (f : MForm)
  /-- CPGO, opcode 0x24. -/
  | cpgo (f : MForm)
  /-- CPSTEP, opcode 0x25. -/
  | cpstep (f : MForm)
  /-- CPSTAT, opcode 0x26. -/
  | cpstat (f : MForm)
  /-- GIDX, opcode 0x28. -/
  | gidx (f : MForm)
  /-- GCFG, opcode 0x29. -/
  | gcfg (f : MForm)
  /-- BSEND, opcode 0x2C. -/
  | bsend (f : MForm)
  /-- PROG, opcode 0x2D. -/
  | prog (f : MForm)
  /-- FRONT, opcode 0x2E. -/
  | front (f : MForm)
  /-- GCANCEL, opcode 0x2F. -/
  | gcancel (f : MForm)
  /-- XPUT, opcode 0x30. -/
  | xput (f : MForm)
  /-- TDEFER, opcode 0x34. -/
  | tdefer (f : MForm)
  /-- TPWR, opcode 0x35. -/
  | tpwr (f : MForm)
  /-- VPWR, opcode 0x36. -/
  | vpwr (f : MForm)
  /-- SYSR, opcode 0x38. -/
  | sysr (f : MForm)
  /-- SYSW, opcode 0x39. -/
  | sysw (f : MForm)
  /-- TLBINV, opcode 0x3A. -/
  | tlbinv (f : MForm)
  /-- TLBSYNC, opcode 0x3B. -/
  | tlbsync (f : MForm)
  /-- EVPOP, opcode 0x3C. -/
  | evpop (f : MForm)
  /-- WATCH, opcode 0x3D. -/
  | watch (f : MForm)
  -- C slot (R58)
  /-- TLD, opcode 0x01. -/
  | tld (f : CForm)
  /-- TST, opcode 0x02. -/
  | tst (f : CForm)
  /-- TLDM, opcode 0x03. -/
  | tldm (f : CForm)
  /-- VADD, opcode 0x08. -/
  | vadd (f : CForm)
  /-- VSUB, opcode 0x09. -/
  | vsub (f : CForm)
  /-- VMUL, opcode 0x0A. -/
  | vmul (f : CForm)
  /-- VFMA, opcode 0x0B. -/
  | vfma (f : CForm)
  /-- VFMS, opcode 0x0C. -/
  | vfms (f : CForm)
  /-- VFNMA, opcode 0x0D. -/
  | vfnma (f : CForm)
  /-- VMIN, opcode 0x0E. -/
  | vmin (f : CForm)
  /-- VMAX, opcode 0x0F. -/
  | vmax (f : CForm)
  /-- VABS, opcode 0x10. -/
  | vabs (f : CForm)
  /-- VNEG, opcode 0x11. -/
  | vneg (f : CForm)
  /-- VCPS, opcode 0x12. -/
  | vcps (f : CForm)
  /-- VCMP, opcode 0x13. -/
  | vcmp (f : CForm)
  /-- VSEL, opcode 0x14. -/
  | vsel (f : CForm)
  /-- VRND, opcode 0x18. -/
  | vrnd (f : CForm)
  /-- VEXF, opcode 0x19. -/
  | vexf (f : CForm)
  /-- VLGF, opcode 0x1A. -/
  | vlgf (f : CForm)
  /-- VRCPF, opcode 0x1B. -/
  | vrcpf (f : CForm)
  /-- VRSQF, opcode 0x1C. -/
  | vrsqf (f : CForm)
  /-- VSCL, opcode 0x1D. -/
  | vscl (f : CForm)
  /-- VIADD, opcode 0x20. -/
  | viadd (f : CForm)
  /-- VISUB, opcode 0x21. -/
  | visub (f : CForm)
  /-- VIMUL, opcode 0x22. -/
  | vimul (f : CForm)
  /-- VIMAD, opcode 0x23. -/
  | vimad (f : CForm)
  /-- VAND, opcode 0x24. -/
  | vand (f : CForm)
  /-- VOR, opcode 0x25. -/
  | vor (f : CForm)
  /-- VXOR, opcode 0x26. -/
  | vxor (f : CForm)
  /-- VSHL, opcode 0x27. -/
  | vshl (f : CForm)
  /-- VSHR, opcode 0x28. -/
  | vshr (f : CForm)
  /-- VSHRA, opcode 0x29. -/
  | vshra (f : CForm)
  /-- VIMIN, opcode 0x2A. -/
  | vimin (f : CForm)
  /-- VIMAX, opcode 0x2B. -/
  | vimax (f : CForm)
  /-- VICMP, opcode 0x2C. -/
  | vicmp (f : CForm)
  /-- VCVT, opcode 0x30. -/
  | vcvt (f : CForm)
  /-- VPACK, opcode 0x31. -/
  | vpack (f : CForm)
  /-- VUNPK, opcode 0x32. -/
  | vunpk (f : CForm)
  /-- VPERM, opcode 0x33. -/
  | vperm (f : CForm)
  /-- VBCAST, opcode 0x34. -/
  | vbcast (f : CForm)
  /-- VRSUM, opcode 0x38. -/
  | vrsum (f : CForm)
  /-- VRMAX, opcode 0x39. -/
  | vrmax (f : CForm)
  /-- VSPAR, opcode 0x3A. -/
  | vspar (f : CForm)
  /-- KAND, opcode 0x3C. -/
  | kand (f : CForm)
  /-- KOR, opcode 0x3D. -/
  | kor (f : CForm)
  /-- KNOT, opcode 0x3E. -/
  | knot (f : CForm)
  /-- KMOV, opcode 0x3F. -/
  | kmov (f : CForm)
  /-- KPOP, opcode 0x40. -/
  | kpop (f : CForm)
  /-- SHN, opcode 0x44. -/
  | shn (f : CForm)
  /-- SHE, opcode 0x45. -/
  | she (f : CForm)
  /-- SHS, opcode 0x46. -/
  | shs (f : CForm)
  /-- SHW, opcode 0x47. -/
  | shw (f : CForm)
  /-- XSND, opcode 0x48. -/
  | xsnd (f : CForm)
  /-- XRCV, opcode 0x49. -/
  | xrcv (f : CForm)
  /-- MMA, opcode 0x50. -/
  | mma (f : CForm)
  /-- MZERO, opcode 0x51. -/
  | mzero (f : CForm)
  /-- MDRAIN, opcode 0x52. -/
  | mdrain (f : CForm)
  /-- MLOAD, opcode 0x53. -/
  | mload (f : CForm)
  /-- MREAD, opcode 0x54. -/
  | mread (f : CForm)
  /-- PATCH, opcode 0x55. -/
  | patch (f : CForm)
  /-- LQNEAR, opcode 0x58. -/
  | lqnear (f : CForm)
  /-- LQDEC, opcode 0x59. -/
  | lqdec (f : CForm)
  /-- LQSCALE, opcode 0x5A. -/
  | lqscale (f : CForm)
  /-- LQMERGE, opcode 0x5B. -/
  | lqmerge (f : CForm)
  -- steps and events of the device, those of masters and of the alarm last
  /-- BUNDLE_FETCH. -/
  | bundleFetch (c k : Nat)
  /-- RESULT_LANDING. -/
  | resultLanding (c k : Nat)
  /-- CELL_RESULT_LANDING. -/
  | cellResultLanding (c k : Nat)
  /-- MMA_STEP. -/
  | mmaStep (c k n : Nat)
  /-- STREAM_ROW_READ. -/
  | streamRowRead (c k n : Nat)
  /-- MLOAD_PERFORM. -/
  | mloadPerform (c k n : Nat)
  /-- FRAGMENT_ARRIVAL. -/
  | fragmentArrival (c k : Nat)
  /-- EXPRESS_ARRIVAL. -/
  | expressArrival (n : Nat)
  /-- HANDLE_PUBLISH. -/
  | handlePublish (c k h : Nat)
  /-- TRAP_ENTRY. -/
  | trapEntry (c k : Nat)
  /-- LAYER_WAKE_DONE. -/
  | layerWakeDone (c cell layer : Nat)
  /-- GROUP_WAKE_DONE. -/
  | groupWakeDone (c cell group : Nat)
  /-- LAYER_POWER_CHANGE. -/
  | layerPowerChange (c : Nat)
  /-- REFRESH. -/
  | refresh (c tower group : Nat)
  /-- TEMP_READING. -/
  | tempReading (cluster celsius time : Nat)
  /-- RETENTION_GUARD. -/
  | retentionGuard (c k time : Nat)
  /-- DEFERRAL_EXPIRY. -/
  | deferralExpiry (c time : Nat)
  /-- SELF_TEST; whether an error was found counts where a self-test ends. -/
  | selfTest (e : TestEvent) (failed : Bool) (time : Nat)
  /-- COPY_OP_START. -/
  | copyOpStart (c e : Nat)
  /-- COLUMN_ROW_WRITE. -/
  | columnRowWrite (c e : Nat)
  /-- COPY_OP_COMPLETE. -/
  | copyOpComplete (c e : Nat)
  /-- COPY_OP_ERROR. -/
  | copyOpError (c e : Nat)
  /-- GATHER_ROW_FILL. -/
  | gatherRowFill (c : Nat)
  /-- XPUT_DELIVERY. -/
  | xputDelivery (n : Nat)
  /-- BATON_DELIVERY. -/
  | batonDelivery (n : Nat)
  /-- JUDGE_APPLY. -/
  | judgeApply (c k : Nat)
  /-- GRAPH_CANCEL. -/
  | graphCancel (l : Nat)
  /-- SCBASE_WRITE. -/
  | scbaseWrite (c k : Nat) (v : BitVec 64)
  /-- RGN_WRITE. -/
  | rgnWrite (c k n : Nat) (v : BitVec 64)
  /-- SQGEOM_WRITE. -/
  | sqgeomWrite (c k : Nat) (v : BitVec 64)
  /-- CURST_WRITE. -/
  | curstWrite (c k : Nat) (v : BitVec 64)
  /-- EVSTAT_WRITE. -/
  | evstatWrite (c : Nat) (v : BitVec 64)
  /-- EVFLAGS_WRITE. -/
  | evflagsWrite (c k : Nat) (v : BitVec 64)
  /-- TSAVE_WRITE. -/
  | tsaveWrite (c k : Nat) (v : BitVec 64)
  /-- QBELL_WRITE. -/
  | qbellWrite (c k : Nat) (v : BitVec 64)
  /-- STCFG_WRITE. -/
  | stcfgWrite (c k : Nat) (v : BitVec 64)
  /-- EWGRANT_WRITE. -/
  | ewgrantWrite (c k : Nat) (v : BitVec 64)
  /-- TCAUSE_READ. -/
  | tcauseRead (c k : Nat) (d : BitVec 6)
  /-- RETRISK_READ. -/
  | retriskRead (c k : Nat) (d : BitVec 6)
  /-- ENGFLT_READ. -/
  | engfltRead (c k : Nat) (b : Bool) (d : BitVec 6)
  /-- ERRLAST_READ. -/
  | errlastRead (c k : Nat) (d : BitVec 6)
  /-- SLICE_BOUNDARY. -/
  | sliceBoundary (time : Nat)
  /-- GO_SIGNAL. -/
  | goSignal (l : Nat)
  /-- PLACEMENT_FAIL. -/
  | placementFail (l cause : Nat)
  /-- DRAIN_DONE. -/
  | drainDone (l : Nat)
  /-- CHECKPOINT_DONE. -/
  | checkpointDone (l : Nat)
  /-- KILL_COMPLETE. -/
  | killComplete (l : Nat)
  /-- WATCHDOG_EXPIRY. -/
  | watchdogExpiry (l time : Nat)
  /-- WATCHDOG_KILL. -/
  | watchdogKill (l time : Nat)
  /-- CONTEXT_RETIRE. -/
  | contextRetire (c k : Nat)
  /-- LAUNCH_RETIRE. -/
  | launchRetire (l : Nat)
  /-- ISSUE_SLOT_TIMEOUT. -/
  | issueSlotTimeout (c : Nat)
  /-- GOVERNOR_STALL. -/
  | governorStall (c : Nat)
  /-- CONTROL_INTERVAL. -/
  | controlInterval (reqs : List PowerRequest) (watts time : Nat)
  /-- RAIL_CHANGE_END. -/
  | railChangeEnd (cluster : Nat)
  /-- NOC_FREQ_STEP. -/
  | nocFreqStep (die : Nat) (want : Nat)
  /-- LEASE_EXPIRY. -/
  | leaseExpiry (time : Nat)
  /-- HANDOVER_TIMEOUT. -/
  | handoverTimeout (time : Nat)
  /-- SPDM_SESSION. -/
  | spdmSession (endpoint : Nat) (passed : ChainProof) (time : Nat)
  /-- SESSION_END. -/
  | sessionEnd (m : Nat)
  /-- RDMA_WRITE. -/
  | rdmaWrite (m qp rkey offset : Nat) (data : List (BitVec 8))
  /-- RDMA_READ. -/
  | rdmaRead (q : QueuePair) (rkey offset len : Nat)
  /-- HOST_COMMAND_SEND. -/
  | hostCommandSend (q : QueuePair) (msg : List (BitVec 8))
  /-- FLIT_RECEIVE. -/
  | flitReceive (port seq : Nat) (crcOk : Bool) (w : Option RemoteOp)
  /-- FLIT_ACK. -/
  | flitAck (port seq : Nat) (nak : Bool) (err : Nat)
  /-- LANE_LOSS. -/
  | laneLoss (port lane : Nat)
  /-- PORT_TEST_DONE. -/
  | portTestDone (port : Nat) (errors : Bool)
  /-- PORT_REJOIN. -/
  | portRejoin (port : Nat)
  /-- LINK_LOST. -/
  | linkLost (c e : Nat)
  /-- CAP_SET. -/
  | capSet (m : Nat) (tag : BitVec 8) (body : List (BitVec 8))
  /-- CAP_GET. -/
  | capGet (m : Nat) (tag : BitVec 8) (body : List (BitVec 8))
  /-- CLAIM. -/
  | claim (m : Nat) (tag : BitVec 8) (body : List (BitVec 8))
  /-- RENEW. -/
  | renew (m : Nat) (tag : BitVec 8) (body : List (BitVec 8))
  /-- RELEASE. -/
  | release (m : Nat) (tag : BitVec 8) (body : List (BitVec 8))
  /-- HANDOVER. -/
  | handover (m : Nat) (tag : BitVec 8) (body : List (BitVec 8))
  /-- TRUST_SET. -/
  | trustSet (m : Nat) (tag : BitVec 8) (body : List (BitVec 8))
  /-- DOMAIN_SET. -/
  | domainSet (m : Nat) (tag : BitVec 8) (body : List (BitVec 8))
  /-- DOMAIN_CLEAR. -/
  | domainClear (m : Nat) (tag : BitVec 8) (body : List (BitVec 8))
  /-- WINDOW_SET. -/
  | windowSet (m : Nat) (tag : BitVec 8) (body : List (BitVec 8))
  /-- WINDOW_CLEAR. -/
  | windowClear (m : Nat) (tag : BitVec 8) (body : List (BitVec 8))
  /-- QUEUE_SET. -/
  | queueSet (m : Nat) (tag : BitVec 8) (body : List (BitVec 8))
  /-- QUEUE_CLEAR. -/
  | queueClear (m : Nat) (tag : BitVec 8) (body : List (BitVec 8))
  /-- DOORBELL. -/
  | doorbell (m : Nat) (tag : BitVec 8) (body : List (BitVec 8))
  /-- KILL. -/
  | kill (m : Nat) (tag : BitVec 8) (body : List (BitVec 8))
  /-- KEY_LOAD. -/
  | keyLoad (m : Nat) (tag : BitVec 8) (body : List (BitVec 8))
  /-- KEY_CLEAR. -/
  | keyClear (m : Nat) (tag : BitVec 8) (body : List (BitVec 8))
  /-- FABRIC_JOIN. -/
  | fabricJoin (m : Nat) (tag : BitVec 8) (body : List (BitVec 8))
  /-- FABRIC_LEAVE. -/
  | fabricLeave (m : Nat) (tag : BitVec 8) (body : List (BitVec 8))
  /-- FABRIC_BIND. -/
  | fabricBind (m : Nat) (tag : BitVec 8) (body : List (BitVec 8))
  /-- DEBUG_UNLOCK. -/
  | debugUnlock (m : Nat) (tag : BitVec 8) (body : List (BitVec 8))
  /-- DEBUG_LOCK. -/
  | debugLock (m : Nat) (tag : BitVec 8) (body : List (BitVec 8))
  /-- STATUS. -/
  | status (m : Nat) (tag : BitVec 8) (body : List (BitVec 8))
  /-- MEM_READ. -/
  | memRead (m : Nat) (tag : BitVec 8) (body : List (BitVec 8))
  /-- DUMP_READ. -/
  | dumpRead (m : Nat) (tag : BitVec 8) (body : List (BitVec 8))
  /-- DUMP_CLEAR. -/
  | dumpClear (m : Nat) (tag : BitVec 8) (body : List (BitVec 8))
  /-- HEALTH_READ. -/
  | healthRead (m : Nat) (tag : BitVec 8) (body : List (BitVec 8))
  /-- RESET. -/
  | reset (m : Nat) (tag : BitVec 8) (body : List (BitVec 8))
  /-- DBG_HALT. -/
  | dbgHalt (m : Nat) (tag : BitVec 8) (body : List (BitVec 8))
  /-- DBG_RESUME. -/
  | dbgResume (m : Nat) (tag : BitVec 8) (body : List (BitVec 8))
  /-- DBG_STEP. -/
  | dbgStep (m : Nat) (tag : BitVec 8) (body : List (BitVec 8))
  /-- DBG_READ. -/
  | dbgRead (m : Nat) (tag : BitVec 8) (body : List (BitVec 8))
  /-- DBG_WRITE. -/
  | dbgWrite (m : Nat) (tag : BitVec 8) (body : List (BitVec 8))
  /-- TAMPER_DETECT. -/
  | tamperDetect (kind : TamperKind) (time : Nat)
  /-- GLITCH_RECOVERED. -/
  | glitchRecovered (time : Nat)
  /-- AUTH_LOCKOUT_EXPIRY. -/
  | authLockoutExpiry (endpoint time : Nat)
  /-- FATAL_ERROR. -/
  | fatalError (kind : FatalKind) (time : Nat)
  /-- FILZAN_WATCHDOG_FAIL. -/
  | filzanWatchdogFail (time : Nat)
  /-- POWER_ON_RESET. -/
  | powerOnReset (verified : Bool) (failedCores : List Nat)
  /-- UNSUPPORTED_OPTION. -/
  | unsupportedOption (path : UnsupportedPath) (code : Nat)
  /-- MEASUREMENT_RETRIEVAL. -/
  | measurementRetrieval (m : Nat)
  deriving DecidableEq, Repr

end Sys2Proof
end

