-- ==== Sys2Proof/Machine/Legal.lean ====
section
/-! DEFINITION. The encoding rules of a slot that hold whatever the state: the reserved-field and sub-field checks
of R49 to R58, and the ILLEGAL_OP rules of the C instructions' own chapters. A slot that breaks one raises
ILLEGAL_OP at issue; the checks that need the state (a squad not held, R53) are made at issue in Check.lean. -/

namespace Sys2Proof.Machine

/-- The upper bits of a 6-bit register field are zero when it names a register of a small file (R50). -/
def low (x : BitVec 6) (w : Nat) : Bool := x.toNat < 2 ^ w

/-- A target field holds a 16-bit halfword address or count: tgt[39:16] zero (R52). -/
def addr16 (f : FForm) : Bool := fieldN f.tgt 16 24 == 0

/-- FCVTS format codes: 0 to 4 and 10 (R55). -/
def fcvtsFmt (c : Nat) : Bool := c ≤ 4 || c == 10

/-- attr of an atomic: scope 0 to 4, size 2 or 3, the last bit zero (R51). -/
def amoAttr (f : MForm) : Bool := fieldN f.attr 5 3 ≤ 4 && 2 ≤ fieldN f.attr 1 2 && !bit f.attr 0

/-- attr of FENCE: scope 0 to 4, a kind mask of 1 to 7 or 15, the last bit zero (R51). -/
def fenceAttr (f : MForm) : Bool :=
  fieldN f.attr 5 3 ≤ 4 && ((1 ≤ fieldN f.attr 1 4 && fieldN f.attr 1 4 ≤ 7) || fieldN f.attr 1 4 == 15) && !bit f.attr 0

/-- RM codes 0 to 3 (R54). -/
def rmOk (f : CForm) : Bool := f.rm.toNat ≤ 3

/-- Source selects 0 to 8, and a tower pair that stays in its bank (R54). -/
def selOk (sel : BitVec 4) (row : BitVec 10) : Bool := sel.toNat ≤ 8 && !(sel == 8 && fieldN row 0 4 == 15)

/-- Source selects that the vector instructions accept: 0 to 7 (R130). -/
def narrow (sel : BitVec 4) : Bool := sel.toNat ≤ 7

/-- A mask-register field: bits [4:3] zero (R128). -/
def lowReg (r : BitVec 5) : Bool := r.toNat < 8

/-- A field that names one of two things by its lowest bit, the rest zero (R58). -/
def oneBit (r : BitVec 5) : Bool := r.toNat < 2

/-- FP1 of VADD to VSCL: 0 to 2, or 12 with a tower source (R131). -/
def computeFmt (f : CForm) : Bool := f.fp1.toNat ≤ 2 || (f.fp1 == 12 && (f.as_ == 1 || f.bs == 1))

/-- FP1 of the raw-moving instructions: 0 to 4 and 7 to 10 (R149, R161, R162, R166, R197). -/
def moveFmt (c : BitVec 4) : Bool := c.toNat ≤ 4 || (7 ≤ c.toNat && c.toNat ≤ 10)

/-- FP1 of the integer instructions: 7 to 10 (R154). -/
def intFmt (c : BitVec 4) : Bool := 7 ≤ c.toNat && c.toNat ≤ 10

/-- FP1 of the reductions (R163). -/
def reduceFmt (c : BitVec 4) : Bool := c.toNat ≤ 2 || (7 ≤ c.toNat && c.toNat ≤ 10)

/-- Width of a plain element format code 0 to 4 and 7 to 10, 0 for the others. -/
def plainWidth (c : Nat) : Nat :=
  match Fmt.ofCode c with
  | some g => if g.isBlock then 0 else g.width
  | none => 0

/-- VCVT pairs of equal width; code 12 needs a tower row (R158). -/
def vcvtOk (f : CForm) : Bool :=
  plainWidth f.fp2.toNat != 0 &&
    (if f.fp1 == 12 then f.as_ == 1 else plainWidth f.fp1.toNat == plainWidth f.fp2.toNat)

/-- VPACK pairs, sources and register alignment (R160). A row named by code 12, which R160 does not list among VPACK's
sources, is illegal (DEDUCED, log entry 79). -/
def vpackOk (f : CForm) : Bool :=
  let ws := plainWidth f.fp1.toNat
  let wd := plainWidth f.fp2.toNat
  (ws == 32 || ws == 16) && wd != 0 &&
    ((ws == 2 * wd && ((f.as_ == 0 && f.a.toNat % 2 == 0) || f.as_ == 8)) ||
     (ws == 4 * wd && f.as_ == 0 && f.a.toNat % 4 == 0))

/-- The widening ratio of VUNPK's table, 0 where the pair is not in it (R159). -/
def unpackRatio (src dst : Fmt) : Nat :=
  match src, dst with
  | .mxfp4, .bf16 => 4 | .mxfp4, .fp16 => 4 | .mxfp4, .fp32 => 8
  | .mxfp8, .bf16 => 2 | .mxfp8, .fp16 => 2 | .mxfp8, .fp32 => 4
  | .e4m3, .bf16 => 2 | .e4m3, .fp16 => 2 | .e4m3, .fp32 => 4
  | .e5m2, .bf16 => 2 | .e5m2, .fp16 => 2 | .e5m2, .fp32 => 4
  | .i8, .i16 => 2 | .i8, .i32 => 4 | .i8, .fp16 => 2 | .i8, .bf16 => 2 | .i8, .fp32 => 4
  | .n8, .i16 => 2 | .n8, .i32 => 4 | .n8, .fp16 => 2 | .n8, .bf16 => 2 | .n8, .fp32 => 4
  | .fp16, .fp32 => 2 | .bf16, .fp32 => 2 | .i16, .i32 => 2 | .i16, .fp32 => 2
  | _, _ => 0

/-- D of VUNPK: a multiple of k with D + k at most 32 (R159). -/
def unpackDest (k : Nat) (d : BitVec 5) : Bool := k != 0 && d.toNat % k == 0 && d.toNat + k ≤ 32

/-- VUNPK's static rules (R159): the pair, the destination, and AS = 1 for the MX sources and code 12. -/
def vunpkOk (f : CForm) : Bool :=
  !(f.as_ == 6) && !(f.as_ == 8) &&
    match Fmt.ofCode f.fp2.toNat with
    | none => false
    | some dst =>
      if f.fp1 == 12 then f.as_ == 1 && (f.fp2 == 0 || f.fp2 == 1 || f.fp2 == 2 || f.fp2 == 9 || f.fp2 == 10)
      else
        match Fmt.ofCode f.fp1.toNat with
        | none => false
        | some src => unpackDest (unpackRatio src dst) f.d && (!src.isBlock || f.as_ == 1)

/-- A pair of MMA formats: rank k, then the widths of the A and B fragments in rows of 256 bits (R172). -/
structure MmaPair where
  k : Nat
  aw : Nat
  bw : Nat
  int : Bool
  deriving DecidableEq, Repr

/-- The table of R172. -/
def mmaPair (a b : Fmt) : Option MmaPair :=
  match a, b with
  | .bf16, .bf16 => some ⟨1, 1, 2, false⟩
  | .fp16, .fp16 => some ⟨1, 1, 2, false⟩
  | .e4m3, .e4m3 => some ⟨2, 1, 2, false⟩
  | .e4m3, .e5m2 => some ⟨2, 1, 2, false⟩
  | .e5m2, .e4m3 => some ⟨2, 1, 2, false⟩
  | .e5m2, .e5m2 => some ⟨2, 1, 2, false⟩
  | .mxfp8, .mxfp8 => some ⟨2, 1, 2, false⟩
  | .mxfp4, .mxfp4 => some ⟨4, 1, 2, false⟩
  | .i8, .i8 => some ⟨2, 1, 2, true⟩
  | .i8, .n8 => some ⟨2, 1, 2, true⟩
  | .n8, .i8 => some ⟨2, 1, 2, true⟩
  | .n8, .n8 => some ⟨2, 1, 2, true⟩
  | .e4m3, .lq8 => some ⟨4, 2, 1, false⟩
  | .e5m2, .lq8 => some ⟨4, 2, 1, false⟩
  | _, _ => none

/-- The K extent of an MMA: IM[10:0], or CN × k when that is zero (R175). -/
def mmaKx (f : CForm) (k : Nat) : Nat := if fieldN f.im 0 11 == 0 then f.cn.toNat * k else fieldN f.im 0 11

/-- Whether a side of an MMA may inject from its tower: its edge latch, under edge stop (R185). -/
def mmaInjects (f : CForm) (sel edge : BitVec 4) : Bool := sel == edge && fieldN f.rt 4 2 == 0

/-- The rules of one side of an MMA that hold without its width (R174, R190): registers and rows named only where
used, and code 12 only with a tower source (R172). -/
def mmaSideShape (f : CForm) (sel edge : BitVec 4) (reg : BitVec 5) (row : BitVec 10) (fmt : BitVec 4) : Bool :=
  (sel == 0 || reg == 0) && (sel == 1 || sel == 8 || mmaInjects f sel edge || row == 0) &&
    (fmt != 12 || sel == 1 || sel == 8)

/-- The rules of one side that need its fragment width `w` in rows (R174, R185): a source that delivers it, an even
register or row for a 512-bit fragment, scales only where a source carries them, and the row limit. The rows of an injecting edge cell are TA + w × j for fragments j below ⌈KX/k⌉ and CN; the manual states no
limit for them, and rows past 1,023 are refused as R174 refuses them (DEDUCED, log entry 15). -/
def mmaSideWidth (f : CForm) (sel edge : BitVec 4) (reg : BitVec 5) (row : BitVec 10) (g : Fmt) (w k : Nat) : Bool :=
  !((sel == 0 || sel == 6) && g.isBlock) &&
    !(sel == 0 && w == 2 && bit reg 0) &&
    !(sel == 1 && w == 2) && !(sel == 8 && (w == 1 || bit row 0)) &&
    !((sel == 1 || sel == 8) && 1024 < row.toNat + f.cn.toNat * w) &&
    !(mmaInjects f sel edge &&
      ((w == 2 && bit row 0) || 1024 < row.toNat + w * min (ceilDiv (mmaKx f k) k) f.cn.toNat))

/-- A format code that can stand as an MMA's A format as written (R172). -/
def mmaACode (c : BitVec 4) : Bool := c == 12 || (1 ≤ c.toNat && c.toNat ≤ 8)

/-- MMA's static rules (R172 to R178, R185, R190). With a code 12 the rules that depend on the region's format are
made at issue and raise FORMAT_MISMATCH (R172). -/
def mmaOk (f : CForm) : Bool :=
  f.co.toNat ≤ 2 && oneBit f.d && fieldN f.im 12 10 == 0 &&
    mmaSideShape f f.as_ 5 f.a f.ta f.fp1 && mmaSideShape f f.bs 2 f.b f.tb f.fp2 && mmaACode f.fp1 &&
    f.fp2.toNat ≤ 12 &&
    (!bit f.im 11 || (f.as_ == 0 && !bit f.a 0 &&
      (f.fp1 == 1 || f.fp1 == 2 || f.fp1 == 3 || f.fp1 == 4 || f.fp1 == 7 || f.fp1 == 8))) &&
    match Fmt.ofCode f.fp1.toNat, Fmt.ofCode f.fp2.toNat with
    | some ga, some gb =>
      match mmaPair ga gb with
      | none => false
      | some p =>
        mmaKx f p.k ≤ f.cn.toNat * p.k && mmaSideWidth f f.as_ 5 f.a f.ta ga p.aw p.k &&
          mmaSideWidth f f.bs 2 f.b f.tb gb p.bw p.k
    | some ga, none => !((f.as_ == 0 || f.as_ == 6) && ga.isBlock)
    | none, some gb => !((f.bs == 0 || f.bs == 6) && gb.isBlock)
    | none, none => true

/-- Tower rows that `cn` accumulator rows take in a storage format (R192). -/
def drainRows (g : Fmt) (cn : Nat) : Nat :=
  match g with
  | .fp32 => 4 * cn | .i32 => 4 * cn
  | .fp16 => 2 * cn | .bf16 => 2 * cn | .i16 => 2 * cn
  | .mxfp4 => ceilDiv cn 2 | .lq8 => ceilDiv cn 4
  | _ => cn

/-- The rules of MDRAIN that need its storage format (R192). -/
def mdrainFmtOk (f : CForm) (g : Fmt) : Bool :=
  (g != .lq8 || f.cn.toNat % 2 == 0) && (!g.isBlock || f.lm == 0) && f.td.toNat + drainRows g f.cn.toNat ≤ 1024

/-- MDRAIN's static rules (R192). -/
def mdrainOk (f : CForm) : Bool :=
  f.cn.toNat ≤ 16 &&
    (f.fp2 == 12 || match Fmt.ofCode f.fp2.toNat with
      | some g => mdrainFmtOk f g
      | none => false)

/-- MLOAD's static rules (R194). -/
def mloadOk (f : CForm) : Bool :=
  f.cn.toNat ≤ 16 && (f.fp1 == 0 || f.fp1 == 1 || f.fp1 == 2 || f.fp1 == 10) &&
    match Fmt.ofCode f.fp1.toNat with
    | some g => f.ta.toNat + drainRows g f.cn.toNat ≤ 1024
    | none => false

/-- Source units of LQNEAR and LQSCALE by format code (R212). -/
def lqUnits (c : Nat) : Nat := if c == 0 then 8 else 4

/-- The source rules of LQNEAR and LQSCALE (R212). -/
def lqSourceOk (f : CForm) : Bool :=
  (f.as_ == 0 && f.fp1.toNat ≤ 2 && f.a.toNat % lqUnits f.fp1.toNat == 0) ||
    (f.as_ == 1 && (f.fp1 == 12 || (f.fp1.toNat ≤ 2 && f.ta.toNat + lqUnits f.fp1.toNat ≤ 1024)))

/-- LQDEC's rules (R215). -/
def lqdecOk (f : CForm) : Bool := f.as_.toNat ≤ 7 && !(f.as_ == 6) && f.d.toNat % 4 == 0

/-- Whether a slot instruction keeps every static encoding rule; the device's own steps are no encodings. LM of MLOAD is to be zero
(DESIGN CHOICE, log entry 65); RT[50:48] of XRCV, which R58 names and R199 gives no effect, may hold any code of R54 (DEDUCED, log
entry 66); IM of VCVT is to be zero whatever its source (DEDUCED, log entry 79). -/
def legal : Instr → Bool
  | .nop => true
  | .add f => f.fn == 0
  | .addi _ => true
  | .sub f => f.fn == 0
  | .mul f => f.fn == 0
  | .mulh f => f.fn == 0
  | .mulhn f => f.fn == 0
  | .div f => f.fn == 0
  | .divn f => f.fn == 0
  | .rem f => f.fn == 0
  | .remn f => f.fn == 0
  | .and f => f.fn == 0
  | .andi _ => true
  | .or f => f.fn == 0
  | .ori _ => true
  | .xor f => f.fn == 0
  | .xori _ => true
  | .shl f => f.fn == 0
  | .shli f => fieldN f.imm 6 18 == 0
  | .shr f => f.fn == 0
  | .shri f => fieldN f.imm 6 18 == 0
  | .shra f => f.fn == 0
  | .shrai f => fieldN f.imm 6 18 == 0
  | .rotl f => f.fn == 0
  | .clz f => f.b == 0 && f.fn == 0
  | .popc f => f.b == 0 && f.fn == 0
  | .min f => f.fn == 0
  | .max f => f.fn == 0
  | .minn f => f.fn == 0
  | .maxn f => f.fn == 0
  | .cmp f => f.d == 0 && fieldN f.fn 15 3 ≤ 5 && fieldN f.fn 0 12 == 0
  | .sel f => fieldN f.fn 15 3 == 0 && fieldN f.fn 0 12 == 0
  | .mov f => f.b == 0 && f.fn == 0
  | .li _ => true
  | .lih f => fieldN f.imm 30 4 == 0
  | .addr f => fieldN f.fn 3 15 == 0 && fieldN f.fn 0 3 ≤ 6
  | .extb f => f.b == 0 && fieldN f.fn 1 17 == 0
  | .exth f => f.b == 0 && fieldN f.fn 1 17 == 0
  | .extw f => f.b == 0 && fieldN f.fn 1 17 == 0
  | .bfx f => f.b == 0 && fieldN f.fn 13 5 == 0 && fieldN f.fn 6 6 + fieldN f.fn 0 6 + 1 ≤ 64
  | .bfi f => fieldN f.fn 12 6 == 0 && fieldN f.fn 6 6 + fieldN f.fn 0 6 + 1 ≤ 64
  | .pand f => low f.d 3 && low f.a 3 && low f.b 3 && fieldN f.fn 2 16 == 0
  | .por f => low f.d 3 && low f.a 3 && low f.b 3 && fieldN f.fn 2 16 == 0
  | .pnot f => low f.d 3 && low f.a 3 && f.b == 0 && f.fn == 0
  | .fcvts f =>
    f.b == 0 && fcvtsFmt (fieldN f.fn 14 4) && fcvtsFmt (fieldN f.fn 10 4) && !(fieldN f.fn 14 4 == 10 && fieldN f.fn 10 4 == 10) &&
    fieldN f.fn 7 3 ≤ 3 && fieldN f.fn 0 7 == 0
  | .fcmps f => f.d == 0 && fieldN f.fn 15 3 ≤ 3 && fieldN f.fn 8 4 ≤ 2 && fieldN f.fn 0 8 == 0
  | .lapset f => low f.d 2 && f.b == 0 && f.fn == 0
  | .lapadd f => low f.d 2 && low f.a 2 && fieldN f.fn 2 16 == 0
  | .lapget f => low f.a 2 && f.b == 0 && f.fn == 0
  | .br f => f.a == 0 && f.b == 0 && addr16 f
  | .brc f => fieldN f.b 3 3 ≤ 5 && fieldN f.b 0 3 == 0 && addr16 f
  | .jmp f => f.b == 0 && f.tgt == 0
  | .call f => f.b == 0 && addr16 f
  | .ret f => f.b == 0 && f.tgt == 0
  | .loop f => f.b == 0 && addr16 f
  | .loopi f => !(f.a == 0 && f.b == 0) && addr16 f
  | .breakl f => f.a == 0 && f.b == 0 && addr16 f
  | .waitb f => low f.a 4 && f.b == 0 && fieldN f.tgt 16 23 == 0
  | .waitt f => low f.a 3
  | .waitf f => low f.a 2 && f.b == 0 && fieldN f.tgt 8 32 == 0
  | .advp f => low f.a 4 && f.b == 0 && addr16 f
  | .advc f => low f.a 4 && f.b == 0 && addr16 f
  | .yield f => f.a == 0 && f.b == 0 && fieldN f.tgt 32 8 == 0
  | .endOp f => f.a == 0 && f.b == 0 && f.tgt == 0
  | .sleep f => f.a == 0 && f.b == 0 && f.tgt == 0
  | .trap f => f.a == 0 && f.b == 0 && addr16 f
  | .rft f => f.a == 0 && f.b == 0 && f.tgt == 0
  | .ldb f => f.b == 0 && f.attr == 0
  | .ldbn f => f.b == 0 && f.attr == 0
  | .ldh f => f.b == 0 && f.attr == 0
  | .ldhn f => f.b == 0 && f.attr == 0
  | .ldw f => f.b == 0 && f.attr == 0
  | .ldwn f => f.b == 0 && f.attr == 0
  | .ldd f => f.b == 0 && f.attr == 0
  | .stb f => f.d == 0 && f.attr == 0
  | .sth f => f.d == 0 && f.attr == 0
  | .stw f => f.d == 0 && f.attr == 0
  | .std f => f.d == 0 && f.attr == 0
  | .amoadd f => amoAttr f
  | .amoand f => amoAttr f
  | .amoor f => amoAttr f
  | .amoxor f => amoAttr f
  | .amomin f => amoAttr f
  | .amomax f => amoAttr f
  | .amominn f => amoAttr f
  | .amomaxn f => amoAttr f
  | .amoswp f => amoAttr f
  | .amocas f => amoAttr f
  | .fence f => f.d == 0 && f.a == 0 && f.b == 0 && fenceAttr f && f.imm == 0
  | .tlinc f => f.d == 0 && low f.a 3 && f.attr == 0
  | .tlread f => low f.a 3 && f.b == 0 && f.attr == 0 && f.imm == 0
  | .cpgo f => f.b == 0 && f.attr == 0 && fieldN f.imm 3 23 == 0
  | .cpstep f => f.d == 0 && f.a == 0 && f.b == 0 && f.attr == 0 && fieldN f.imm 12 14 == 0
  | .cpstat f => f.a == 0 && f.b == 0 && f.attr == 0 && fieldN f.imm 3 23 == 0
  | .gidx f => f.d == 0 && f.b == 0 && f.attr == 0 && fieldN f.imm 4 22 == 0
  | .gcfg f => f.d == 0 && f.b == 0 && f.attr == 0 && f.imm == 0
  | .bsend f => f.d == 0 && f.attr == 0 && fieldN f.imm 10 16 == 0
  | .prog f => f.d == 0 && f.b == 0 && f.attr == 0 && fieldN f.imm 8 18 == 0 && !(f.imm == 0)
  | .front f => f.a == 0 && f.b == 0 && f.attr == 0 && fieldN f.imm 8 18 == 0
  | .gcancel f => f.d == 0 && f.b == 0 && f.attr == 0 && f.imm == 0
  | .xput f => f.d == 0 && f.attr == 0 && fieldN f.imm 4 22 == 0
  | .tdefer f => f.d == 0 && f.b == 0 && f.attr == 0 && fieldN f.imm 12 14 == 0
  | .tpwr f => f.d == 0 && f.a == 0 && f.b == 0 && f.attr == 0 && fieldN f.imm 14 12 == 0
  | .vpwr f =>
    f.d == 0 && f.a == 0 && f.b == 0 && f.attr == 0 && fieldN f.imm 10 16 == 0 && fieldN f.imm 8 2 ≤ 2
  | .sysr f => f.a == 0 && f.b == 0 && f.attr == 0 && fieldN f.imm 12 14 == 0
  | .sysw f => f.d == 0 && f.a == 0 && f.attr == 0 && fieldN f.imm 12 14 == 0
  | .tlbinv f => f.d == 0 && f.b == 0 && f.attr == 0 && fieldN f.imm 2 24 == 0 && fieldN f.imm 0 2 ≤ 2
  | .tlbsync f => f.d == 0 && f.a == 0 && f.b == 0 && f.attr == 0 && f.imm == 0
  | .evpop f => f.a == 0 && f.b == 0 && f.attr == 0 && f.imm == 0 && !bit f.d 0
  | .watch f => f.d == 0 && f.b == 0 && f.attr == 0 && fieldN f.imm 3 23 == 0
  | .tld f =>
    f.co == 0 && f.a == 0 && f.b == 0 && f.cc == 0 && f.as_ == 0 && f.bs == 0 && f.tb == 0 && f.td == 0 &&
    f.rt == 0 && f.fp1 == 0 && f.fp2 == 0 && f.rm == 0 && f.cn == 0 && f.im == 0
  | .tst f =>
    f.co == 0 && f.d == 0 && f.b == 0 && f.cc == 0 && f.as_ == 0 && f.bs == 0 && f.ta == 0 && f.tb == 0 &&
    f.rt == 0 && f.fp1 == 0 && f.fp2 == 0 && f.rm == 0 && f.cn == 0 && f.im == 0
  | .tldm f =>
    f.lm == 0 && f.co == 0 && f.a == 0 && f.b == 0 && f.cc == 0 && f.as_ == 0 && f.bs == 0 && f.tb == 0 &&
    f.td == 0 && f.rt == 0 && f.fp1 == 0 && f.fp2 == 0 && f.rm == 0 && f.im == 0 && !(f.cn == 0) &&
    f.d.toNat + f.cn.toNat ≤ 32 && f.ta.toNat + f.cn.toNat ≤ 1024
  | .vadd f =>
    f.co == 0 && f.cc == 0 && f.td == 0 && f.rt == 0 && f.fp2 == 0 && f.cn == 0 && rmOk f &&
    selOk f.as_ f.ta && selOk f.bs f.tb && narrow f.as_ && narrow f.bs && computeFmt f
  | .vsub f =>
    f.co == 0 && f.cc == 0 && f.td == 0 && f.rt == 0 && f.fp2 == 0 && f.cn == 0 && rmOk f &&
    selOk f.as_ f.ta && selOk f.bs f.tb && narrow f.as_ && narrow f.bs && computeFmt f
  | .vmul f =>
    f.co == 0 && f.cc == 0 && f.td == 0 && f.rt == 0 && f.fp2 == 0 && f.cn == 0 && rmOk f &&
    selOk f.as_ f.ta && selOk f.bs f.tb && narrow f.as_ && narrow f.bs && computeFmt f
  | .vfma f =>
    f.co == 0 && f.td == 0 && f.rt == 0 && f.fp2 == 0 && f.cn == 0 && rmOk f && selOk f.as_ f.ta &&
    selOk f.bs f.tb && narrow f.as_ && narrow f.bs && computeFmt f
  | .vfms f =>
    f.co == 0 && f.td == 0 && f.rt == 0 && f.fp2 == 0 && f.cn == 0 && rmOk f && selOk f.as_ f.ta &&
    selOk f.bs f.tb && narrow f.as_ && narrow f.bs && computeFmt f
  | .vfnma f =>
    f.co == 0 && f.td == 0 && f.rt == 0 && f.fp2 == 0 && f.cn == 0 && rmOk f && selOk f.as_ f.ta &&
    selOk f.bs f.tb && narrow f.as_ && narrow f.bs && computeFmt f
  | .vmin f =>
    f.co == 0 && f.cc == 0 && f.td == 0 && f.rt == 0 && f.fp2 == 0 && f.cn == 0 && rmOk f &&
    selOk f.as_ f.ta && selOk f.bs f.tb && narrow f.as_ && narrow f.bs && computeFmt f
  | .vmax f =>
    f.co == 0 && f.cc == 0 && f.td == 0 && f.rt == 0 && f.fp2 == 0 && f.cn == 0 && rmOk f &&
    selOk f.as_ f.ta && selOk f.bs f.tb && narrow f.as_ && narrow f.bs && computeFmt f
  | .vabs f =>
    f.co == 0 && f.b == 0 && f.cc == 0 && f.bs == 0 && f.tb == 0 && f.td == 0 && f.rt == 0 && f.fp2 == 0 &&
    f.rm == 0 && f.cn == 0 && selOk f.as_ f.ta && narrow f.as_ && computeFmt f
  | .vneg f =>
    f.co == 0 && f.b == 0 && f.cc == 0 && f.bs == 0 && f.tb == 0 && f.td == 0 && f.rt == 0 && f.fp2 == 0 &&
    f.rm == 0 && f.cn == 0 && selOk f.as_ f.ta && narrow f.as_ && computeFmt f
  | .vcps f =>
    f.co == 0 && f.cc == 0 && f.td == 0 && f.rt == 0 && f.fp2 == 0 && f.cn == 0 && rmOk f &&
    selOk f.as_ f.ta && selOk f.bs f.tb && narrow f.as_ && narrow f.bs && computeFmt f
  | .vcmp f =>
    f.cc == 0 && f.td == 0 && f.rt == 0 && f.fp2 == 0 && f.rm == 0 && f.cn == 0 && selOk f.as_ f.ta &&
    selOk f.bs f.tb && narrow f.as_ && narrow f.bs && computeFmt f && lowReg f.d && f.co.toNat ≤ 4
  | .vsel f =>
    f.co == 0 && f.td == 0 && f.rt == 0 && f.fp2 == 0 && f.rm == 0 && f.cn == 0 && selOk f.as_ f.ta &&
    selOk f.bs f.tb && narrow f.as_ && narrow f.bs && moveFmt f.fp1 && lowReg f.cc
  | .vrnd f =>
    f.co == 0 && f.b == 0 && f.cc == 0 && f.bs == 0 && f.tb == 0 && f.td == 0 && f.rt == 0 && f.fp2 == 0 &&
    f.cn == 0 && rmOk f && selOk f.as_ f.ta && narrow f.as_ && computeFmt f
  | .vexf f =>
    f.co == 0 && f.b == 0 && f.cc == 0 && f.bs == 0 && f.tb == 0 && f.td == 0 && f.rt == 0 && f.fp2 == 0 &&
    f.cn == 0 && rmOk f && selOk f.as_ f.ta && narrow f.as_ && computeFmt f
  | .vlgf f =>
    f.co == 0 && f.b == 0 && f.cc == 0 && f.bs == 0 && f.tb == 0 && f.td == 0 && f.rt == 0 && f.fp2 == 0 &&
    f.cn == 0 && rmOk f && selOk f.as_ f.ta && narrow f.as_ && computeFmt f
  | .vrcpf f =>
    f.co == 0 && f.b == 0 && f.cc == 0 && f.bs == 0 && f.tb == 0 && f.td == 0 && f.rt == 0 && f.fp2 == 0 &&
    f.cn == 0 && rmOk f && selOk f.as_ f.ta && narrow f.as_ && computeFmt f
  | .vrsqf f =>
    f.co == 0 && f.b == 0 && f.cc == 0 && f.bs == 0 && f.tb == 0 && f.td == 0 && f.rt == 0 && f.fp2 == 0 &&
    f.cn == 0 && rmOk f && selOk f.as_ f.ta && narrow f.as_ && computeFmt f
  | .vscl f =>
    f.co == 0 && f.cc == 0 && f.td == 0 && f.rt == 0 && f.fp2 == 0 && f.cn == 0 && rmOk f &&
    selOk f.as_ f.ta && selOk f.bs f.tb && narrow f.as_ && narrow f.bs && computeFmt f
  | .viadd f =>
    f.co == 0 && f.cc == 0 && f.td == 0 && f.rt == 0 && f.fp2 == 0 && f.rm == 0 && f.cn == 0 &&
    selOk f.as_ f.ta && selOk f.bs f.tb && narrow f.as_ && narrow f.bs && intFmt f.fp1
  | .visub f =>
    f.co == 0 && f.cc == 0 && f.td == 0 && f.rt == 0 && f.fp2 == 0 && f.rm == 0 && f.cn == 0 &&
    selOk f.as_ f.ta && selOk f.bs f.tb && narrow f.as_ && narrow f.bs && intFmt f.fp1
  | .vimul f =>
    f.co == 0 && f.cc == 0 && f.td == 0 && f.rt == 0 && f.fp2 == 0 && f.rm == 0 && f.cn == 0 &&
    selOk f.as_ f.ta && selOk f.bs f.tb && narrow f.as_ && narrow f.bs && intFmt f.fp1
  | .vimad f =>
    f.co == 0 && f.td == 0 && f.rt == 0 && f.fp2 == 0 && f.rm == 0 && f.cn == 0 && selOk f.as_ f.ta &&
    selOk f.bs f.tb && narrow f.as_ && narrow f.bs && intFmt f.fp1
  | .vand f =>
    f.co == 0 && f.cc == 0 && f.td == 0 && f.rt == 0 && f.fp2 == 0 && f.rm == 0 && f.cn == 0 &&
    selOk f.as_ f.ta && selOk f.bs f.tb && narrow f.as_ && narrow f.bs && intFmt f.fp1
  | .vor f =>
    f.co == 0 && f.cc == 0 && f.td == 0 && f.rt == 0 && f.fp2 == 0 && f.rm == 0 && f.cn == 0 &&
    selOk f.as_ f.ta && selOk f.bs f.tb && narrow f.as_ && narrow f.bs && intFmt f.fp1
  | .vxor f =>
    f.co == 0 && f.cc == 0 && f.td == 0 && f.rt == 0 && f.fp2 == 0 && f.rm == 0 && f.cn == 0 &&
    selOk f.as_ f.ta && selOk f.bs f.tb && narrow f.as_ && narrow f.bs && intFmt f.fp1
  | .vshl f =>
    f.co == 0 && f.cc == 0 && f.td == 0 && f.rt == 0 && f.fp2 == 0 && f.rm == 0 && f.cn == 0 &&
    selOk f.as_ f.ta && selOk f.bs f.tb && narrow f.as_ && narrow f.bs && intFmt f.fp1
  | .vshr f =>
    f.co == 0 && f.cc == 0 && f.td == 0 && f.rt == 0 && f.fp2 == 0 && f.rm == 0 && f.cn == 0 &&
    selOk f.as_ f.ta && selOk f.bs f.tb && narrow f.as_ && narrow f.bs && intFmt f.fp1
  | .vshra f =>
    f.co == 0 && f.cc == 0 && f.td == 0 && f.rt == 0 && f.fp2 == 0 && f.rm == 0 && f.cn == 0 &&
    selOk f.as_ f.ta && selOk f.bs f.tb && narrow f.as_ && narrow f.bs && intFmt f.fp1
  | .vimin f =>
    f.co == 0 && f.cc == 0 && f.td == 0 && f.rt == 0 && f.fp2 == 0 && f.rm == 0 && f.cn == 0 &&
    selOk f.as_ f.ta && selOk f.bs f.tb && narrow f.as_ && narrow f.bs && intFmt f.fp1
  | .vimax f =>
    f.co == 0 && f.cc == 0 && f.td == 0 && f.rt == 0 && f.fp2 == 0 && f.rm == 0 && f.cn == 0 &&
    selOk f.as_ f.ta && selOk f.bs f.tb && narrow f.as_ && narrow f.bs && intFmt f.fp1
  | .vicmp f =>
    f.cc == 0 && f.td == 0 && f.rt == 0 && f.fp2 == 0 && f.rm == 0 && f.cn == 0 && selOk f.as_ f.ta &&
    selOk f.bs f.tb && narrow f.as_ && narrow f.bs && intFmt f.fp1 && lowReg f.d && f.co.toNat ≤ 5
  | .vcvt f =>
    f.co == 0 && f.b == 0 && f.cc == 0 && f.bs == 0 && f.tb == 0 && f.td == 0 && f.rt == 0 && f.cn == 0 &&
    f.im == 0 && rmOk f && selOk f.as_ f.ta && narrow f.as_ && vcvtOk f
  | .vpack f =>
    f.co == 0 && f.b == 0 && f.cc == 0 && f.bs == 0 && f.tb == 0 && f.td == 0 && f.rt == 0 && f.cn == 0 &&
    f.im == 0 && rmOk f && selOk f.as_ f.ta && vpackOk f
  | .vunpk f =>
    f.co == 0 && f.b == 0 && f.cc == 0 && f.bs == 0 && f.tb == 0 && f.td == 0 && f.rt == 0 && f.cn == 0 &&
    f.im == 0 && rmOk f && selOk f.as_ f.ta && vunpkOk f
  | .vperm f =>
    f.co == 0 && f.cc == 0 && f.as_ == 0 && f.bs == 0 && f.ta == 0 && f.tb == 0 && f.td == 0 && f.rt == 0 &&
    f.fp2 == 0 && f.rm == 0 && f.cn == 0 && f.im == 0 && moveFmt f.fp1
  | .vbcast f =>
    f.co == 0 && f.b == 0 && f.cc == 0 && f.as_ == 0 && f.bs == 0 && f.ta == 0 && f.tb == 0 && f.td == 0 &&
    f.rt == 0 && f.fp2 == 0 && f.rm == 0 && f.cn == 0 &&
    moveFmt f.fp1 && f.im.toNat < (if f.fp1 == 0 || f.fp1 == 10 then 8 else 16)
  | .vrsum f =>
    f.co == 0 && f.b == 0 && f.cc == 0 && f.as_ == 0 && f.bs == 0 && f.ta == 0 && f.tb == 0 && f.td == 0 &&
    f.rt == 0 && f.fp2 == 0 && f.cn == 0 && f.im == 0 && rmOk f && reduceFmt f.fp1
  | .vrmax f =>
    f.co == 0 && f.b == 0 && f.cc == 0 && f.as_ == 0 && f.bs == 0 && f.ta == 0 && f.tb == 0 && f.td == 0 &&
    f.rt == 0 && f.fp2 == 0 && f.cn == 0 && f.im == 0 && rmOk f && reduceFmt f.fp1
  | .vspar f =>
    f.co == 0 && f.b == 0 && f.cc == 0 && f.as_ == 0 && f.bs == 0 && f.ta == 0 && f.tb == 0 && f.td == 0 &&
    f.rt == 0 && f.fp2 == 0 && f.rm == 0 && f.cn == 0 && f.im == 0 && moveFmt f.fp1 && !bit f.d 0
  | .kand f =>
    f.lm == 0 && f.co == 0 && f.cc == 0 && f.as_ == 0 && f.bs == 0 && f.ta == 0 && f.tb == 0 && f.td == 0 &&
    f.rt == 0 && f.fp1 == 0 && f.fp2 == 0 && f.rm == 0 && f.cn == 0 && f.im == 0 &&
    lowReg f.d && lowReg f.a && lowReg f.b
  | .kor f =>
    f.lm == 0 && f.co == 0 && f.cc == 0 && f.as_ == 0 && f.bs == 0 && f.ta == 0 && f.tb == 0 && f.td == 0 &&
    f.rt == 0 && f.fp1 == 0 && f.fp2 == 0 && f.rm == 0 && f.cn == 0 && f.im == 0 &&
    lowReg f.d && lowReg f.a && lowReg f.b
  | .knot f =>
    f.lm == 0 && f.co == 0 && f.b == 0 && f.cc == 0 && f.as_ == 0 && f.bs == 0 && f.ta == 0 && f.tb == 0 &&
    f.td == 0 && f.rt == 0 && f.fp1 == 0 && f.fp2 == 0 && f.rm == 0 && f.cn == 0 && f.im == 0 &&
    lowReg f.d && lowReg f.a
  | .kmov f =>
    f.lm == 0 && f.co == 0 && f.b == 0 && f.cc == 0 && f.as_ == 0 && f.bs == 0 && f.ta == 0 && f.tb == 0 &&
    f.td == 0 && f.rt == 0 && f.fp1 == 0 && f.fp2 == 0 && f.rm == 0 && f.cn == 0 && f.im == 0 &&
    lowReg f.d && lowReg f.a
  | .kpop f =>
    f.lm == 0 && f.co == 0 && f.b == 0 && f.cc == 0 && f.as_ == 0 && f.bs == 0 && f.ta == 0 && f.tb == 0 &&
    f.td == 0 && f.rt == 0 && f.fp1 == 0 && f.fp2 == 0 && f.rm == 0 && f.cn == 0 && f.im == 0 && lowReg f.a
  | .shn f =>
    f.co == 0 && f.b == 0 && f.cc == 0 && f.as_ == 0 && f.bs == 0 && f.ta == 0 && f.tb == 0 && f.td == 0 &&
    f.fp2 == 0 && f.rm == 0 && f.cn == 0 && f.im == 0 && !(fieldN f.rt 4 2 == 3) &&
    moveFmt f.fp1 && fieldN f.rt 0 4 == 0 && fieldN f.rt 6 2 == 0
  | .she f =>
    f.co == 0 && f.b == 0 && f.cc == 0 && f.as_ == 0 && f.bs == 0 && f.ta == 0 && f.tb == 0 && f.td == 0 &&
    f.fp2 == 0 && f.rm == 0 && f.cn == 0 && f.im == 0 && !(fieldN f.rt 4 2 == 3) &&
    moveFmt f.fp1 && fieldN f.rt 0 4 == 0 && fieldN f.rt 6 2 == 0
  | .shs f =>
    f.co == 0 && f.b == 0 && f.cc == 0 && f.as_ == 0 && f.bs == 0 && f.ta == 0 && f.tb == 0 && f.td == 0 &&
    f.fp2 == 0 && f.rm == 0 && f.cn == 0 && f.im == 0 && !(fieldN f.rt 4 2 == 3) &&
    moveFmt f.fp1 && fieldN f.rt 0 4 == 0 && fieldN f.rt 6 2 == 0
  | .shw f =>
    f.co == 0 && f.b == 0 && f.cc == 0 && f.as_ == 0 && f.bs == 0 && f.ta == 0 && f.tb == 0 && f.td == 0 &&
    f.fp2 == 0 && f.rm == 0 && f.cn == 0 && f.im == 0 && !(fieldN f.rt 4 2 == 3) &&
    moveFmt f.fp1 && fieldN f.rt 0 4 == 0 && fieldN f.rt 6 2 == 0
  | .xsnd f =>
    f.lm == 0 && f.co == 0 && f.d == 0 && f.b == 0 && f.cc == 0 && f.as_ == 0 && f.bs == 0 && f.ta == 0 &&
    f.tb == 0 && f.td == 0 && f.fp1 == 0 && f.fp2 == 0 && f.rm == 0 && f.cn == 0 && f.im == 0 &&
    !(fieldN f.rt 4 2 == 3) && fieldN f.rt 4 3 == 0 && !(bit f.rt 7 && bit f.a 0)
  | .xrcv f =>
    f.co == 0 && f.a == 0 && f.b == 0 && f.cc == 0 && f.as_ == 0 && f.bs == 0 && f.ta == 0 && f.tb == 0 &&
    f.td == 0 && f.fp1 == 0 && f.fp2 == 0 && f.rm == 0 && f.cn == 0 && f.im == 0 &&
    !(fieldN f.rt 4 2 == 3) && !(bit f.rt 7 && bit f.d 0)
  | .mma f =>
    f.lm == 0 && f.cc == 0 && f.td == 0 && f.rm == 0 && !(f.cn == 0) && selOk f.as_ f.ta &&
    selOk f.bs f.tb && !(fieldN f.rt 4 2 == 3) && mmaOk f
  | .mzero f =>
    f.lm == 0 && f.co == 0 && f.a == 0 && f.b == 0 && f.cc == 0 && f.as_ == 0 && f.bs == 0 && f.ta == 0 &&
    f.tb == 0 && f.td == 0 && f.rt == 0 && f.fp1 == 0 && f.fp2 == 0 && f.rm == 0 && f.cn == 0 &&
    f.im == 0 && oneBit f.d
  | .mdrain f =>
    f.co == 0 && f.d == 0 && f.b == 0 && f.cc == 0 && f.as_ == 0 && f.bs == 0 && f.ta == 0 && f.tb == 0 &&
    f.rt == 0 && f.fp1 == 0 && f.im == 0 && rmOk f && !(f.cn == 0) && oneBit f.a && mdrainOk f
  | .mload f =>
    f.lm == 0 && f.co == 0 && f.a == 0 && f.b == 0 && f.cc == 0 && f.as_ == 0 && f.bs == 0 && f.tb == 0 &&
    f.td == 0 && f.rt == 0 && f.fp2 == 0 && f.rm == 0 && f.im == 0 && !(f.cn == 0) && oneBit f.d && mloadOk f
  | .mread f =>
    f.co == 0 && f.b == 0 && f.cc == 0 && f.as_ == 0 && f.bs == 0 && f.ta == 0 && f.tb == 0 && f.td == 0 &&
    f.rt == 0 && f.fp1 == 0 && f.fp2 == 0 && f.rm == 0 && f.cn == 0 &&
    !bit f.d 0 && oneBit f.a && f.im.toNat < 32
  | .patch f =>
    f.a == 0 && f.cc == 0 && f.as_ == 0 && f.bs == 0 && f.ta == 0 && f.tb == 0 && f.td == 0 && f.rt == 0 &&
    f.fp1 == 0 && f.fp2 == 0 && f.rm == 0 && !(f.cn == 0) &&
    oneBit f.d && f.co.toNat ≤ 1 && f.im.toNat < 512 && f.cn.toNat ≤ 8 && fieldN f.im 0 5 + f.cn.toNat ≤ 32
  | .lqnear f =>
    f.co == 0 && f.b == 0 && f.cc == 0 && f.bs == 0 && f.tb == 0 && f.rt == 0 && f.fp2 == 0 && f.rm == 0 &&
    f.cn == 0 && f.im == 0 && selOk f.as_ f.ta && oneBit f.d && lqSourceOk f
  | .lqdec f =>
    f.co == 0 && f.b == 0 && f.cc == 0 && f.bs == 0 && f.tb == 0 && f.td == 0 && f.rt == 0 && f.fp1 == 0 &&
    f.fp2 == 0 && f.rm == 0 && f.cn == 0 && f.im == 0 && selOk f.as_ f.ta && lqdecOk f
  | .lqscale f =>
    f.co == 0 && f.b == 0 && f.cc == 0 && f.bs == 0 && f.tb == 0 && f.td == 0 && f.rt == 0 && f.fp2 == 0 &&
    f.rm == 0 && f.cn == 0 && f.im == 0 && selOk f.as_ f.ta && lqSourceOk f
  | .lqmerge f =>
    f.co == 0 && f.d == 0 && f.b == 0 && f.cc == 0 && f.as_ == 0 && f.bs == 0 && f.tb == 0 && f.rt == 0 &&
    f.fp1 == 0 && f.fp2 == 0 && f.rm == 0 && !(f.cn == 0) &&
    f.cn.toNat ≤ 8 && f.im.toNat < 8 && f.im.toNat + f.cn.toNat ≤ 8
  | .bundleFetch _ _ => false
  | .resultLanding _ _ => false
  | .cellResultLanding _ _ => false
  | .mmaStep _ _ _ => false
  | .streamRowRead _ _ _ => false
  | .mloadPerform _ _ _ => false
  | .fragmentArrival _ _ => false
  | .expressArrival _ => false
  | .handlePublish _ _ _ => false
  | .trapEntry _ _ => false
  | .layerWakeDone _ _ _ => false
  | .groupWakeDone _ _ _ => false
  | .layerPowerChange _ => false
  | .refresh _ _ _ => false
  | .tempReading _ _ _ => false
  | .retentionGuard _ _ _ => false
  | .deferralExpiry _ _ => false
  | .selfTest _ _ _ => false
  | .copyOpStart _ _ => false
  | .columnRowWrite _ _ => false
  | .copyOpComplete _ _ => false
  | .copyOpError _ _ => false
  | .gatherRowFill _ => false
  | .xputDelivery _ => false
  | .batonDelivery _ => false
  | .judgeApply _ _ => false
  | .graphCancel _ => false
  | .scbaseWrite _ _ _ => false
  | .rgnWrite _ _ _ _ => false
  | .sqgeomWrite _ _ _ => false
  | .curstWrite _ _ _ => false
  | .evstatWrite _ _ => false
  | .evflagsWrite _ _ _ => false
  | .tsaveWrite _ _ _ => false
  | .qbellWrite _ _ _ => false
  | .stcfgWrite _ _ _ => false
  | .ewgrantWrite _ _ _ => false
  | .tcauseRead _ _ _ => false
  | .retriskRead _ _ _ => false
  | .engfltRead _ _ _ _ => false
  | .errlastRead _ _ _ => false
  | .sliceBoundary _ => false
  | .goSignal _ => false
  | .placementFail _ _ => false
  | .drainDone _ => false
  | .checkpointDone _ => false
  | .killComplete _ => false
  | .watchdogExpiry _ _ => false
  | .watchdogKill _ _ => false
  | .contextRetire _ _ => false
  | .launchRetire _ => false
  | .issueSlotTimeout _ => false
  | .governorStall _ => false
  | .controlInterval _ _ _ => false
  | .railChangeEnd _ => false
  | .nocFreqStep _ _ => false
  | .capSet _ _ _ => false
  | .capGet _ _ _ => false
  | .claim _ _ _ => false
  | .renew _ _ _ => false
  | .release _ _ _ => false
  | .handover _ _ _ => false
  | .leaseExpiry _ => false
  | .handoverTimeout _ => false
  | .spdmSession _ _ _ => false
  | .sessionEnd _ => false
  | .trustSet _ _ _ => false
  | .domainSet _ _ _ => false
  | .domainClear _ _ _ => false
  | .windowSet _ _ _ => false
  | .windowClear _ _ _ => false
  | .queueSet _ _ _ => false
  | .queueClear _ _ _ => false
  | .doorbell _ _ _ => false
  | .kill _ _ _ => false
  | .keyLoad _ _ _ => false
  | .keyClear _ _ _ => false
  | .fabricJoin _ _ _ => false
  | .fabricLeave _ _ _ => false
  | .fabricBind _ _ _ => false
  | .debugUnlock _ _ _ => false
  | .debugLock _ _ _ => false
  | .status _ _ _ => false
  | .memRead _ _ _ => false
  | .dumpRead _ _ _ => false
  | .dumpClear _ _ _ => false
  | .healthRead _ _ _ => false
  | .reset _ _ _ => false
  | .dbgHalt _ _ _ => false
  | .dbgResume _ _ _ => false
  | .dbgStep _ _ _ => false
  | .dbgRead _ _ _ => false
  | .dbgWrite _ _ _ => false
  | .rdmaWrite _ _ _ _ _ => false
  | .rdmaRead _ _ _ _ => false
  | .hostCommandSend _ _ => false
  | .flitReceive _ _ _ _ => false
  | .flitAck _ _ _ _ => false
  | .laneLoss _ _ => false
  | .portTestDone _ _ => false
  | .portRejoin _ => false
  | .linkLost _ _ => false
  | .tamperDetect _ _ => false
  | .glitchRecovered _ => false
  | .authLockoutExpiry _ _ => false
  | .fatalError _ _ => false
  | .filzanWatchdogFail _ => false
  | .powerOnReset _ _ => false
  | .unsupportedOption _ _ => false
  | .measurementRetrieval _ => false

end Sys2Proof.Machine
end

