-- ==== Sys2Proof/WellFormed.lean ====
section
/-! DEFINITION. Well-formed instructions: the slot instructions that keep every static encoding rule (R49). -/

namespace Sys2Proof

/-- A slot instruction that the decoder can give: no reserved field set, every sub-field at an assigned value. -/
def WellFormed (i : Instr) : Bool := Machine.legal i

end Sys2Proof
end

