-- ==== Sys2Proof/Decode.lean ====
section
/-! DEFINITION. The decoder and the encoder of the four slot layouts (R46 to R58), and the cut of a 384-bit bundle. -/

namespace Sys2Proof

open Machine (field bit)

/-- Why a slot word is no instruction; either way the slot raises ILLEGAL_OP (R49). -/
inductive DecodeError where
  /-- The slot's map assigns no instruction to the opcode. Safe: the manual's own refusal. -/
  | unassigned (opcode : Nat)
  /-- A field marked zero is not, or a sub-field holds a value its table marks ILLEGAL_OP. Safe likewise. -/
  | badField
  deriving DecidableEq, Repr

/-- The register form of R50. -/
def RForm.unpack (w : BitVec 48) : RForm :=
  ⟨field w 34 6, field w 28 6, field w 22 6, field w 19 3, field w 18 1, field w 0 18⟩

/-- The immediate form of R50. -/
def IForm.unpack (w : BitVec 48) : IForm := ⟨field w 34 6, field w 28 6, field w 25 3, field w 24 1, field w 0 24⟩

/-- The long immediate form of R50. -/
def LForm.unpack (w : BitVec 48) : LForm := ⟨field w 34 6, field w 0 34⟩

/-- The M layout of R51. -/
def MForm.unpack (w : BitVec 64) : MForm :=
  ⟨field w 50 6, field w 44 6, field w 38 6, field w 35 3, field w 34 1, field w 26 8, field w 0 26⟩

/-- The F layout of R52. -/
def FForm.unpack (w : BitVec 64) : FForm := ⟨field w 53 3, field w 52 1, field w 46 6, field w 40 6, field w 0 40⟩

/-- The C layout of R53. -/
def CForm.unpack (w : BitVec 128) : CForm :=
  ⟨field w 116 4, field w 113 3, field w 110 3, field w 105 5, field w 100 5, field w 95 5, field w 90 5,
   field w 86 4, field w 82 4, field w 72 10, field w 62 10, field w 52 10, field w 44 8, field w 40 4,
   field w 36 4, field w 33 3, field w 22 11, field w 0 22⟩

/-- The register form's word (R50). -/
def RForm.pack (op : BitVec 8) (f : RForm) : BitVec 48 := op ++ f.d ++ f.a ++ f.b ++ f.pr ++ f.pn ++ f.fn
/-- The immediate form's word (R50). -/
def IForm.pack (op : BitVec 8) (f : IForm) : BitVec 48 := op ++ f.d ++ f.a ++ f.pr ++ f.pn ++ f.imm
/-- The long immediate form's word (R50). -/
def LForm.pack (op : BitVec 8) (f : LForm) : BitVec 48 := op ++ f.d ++ f.imm
/-- The M slot's word (R51). -/
def MForm.pack (op : BitVec 8) (f : MForm) : BitVec 64 := op ++ f.d ++ f.a ++ f.b ++ f.pr ++ f.pn ++ f.attr ++ f.imm
/-- The F slot's word (R52). -/
def FForm.pack (op : BitVec 8) (f : FForm) : BitVec 64 := op ++ f.pr ++ f.pn ++ f.a ++ f.b ++ f.tgt
/-- The C slot's word (R53). -/
def CForm.pack (op : BitVec 8) (f : CForm) : BitVec 128 :=
  op ++ f.sq ++ f.lm ++ f.co ++ f.d ++ f.a ++ f.b ++ f.cc ++ f.as_ ++ f.bs ++ f.ta ++ f.tb ++ f.td ++ f.rt ++
    f.fp1 ++ f.fp2 ++ f.rm ++ f.cn ++ f.im

/-- The major opcode: the top eight bits of a slot (R48). -/
def fieldOp {n : Nat} (w : BitVec n) : Nat := Machine.fieldN w (n - 8) 8

/-- The S map before the field checks (R55); a NOP slot is all zero (R48). -/
def mapS (w : BitVec 48) : Option Instr :=
  match fieldOp w with
  | 0x00 => if w = 0 then some .nop else none
  | 0x01 => some (.add (RForm.unpack w))
  | 0x02 => some (.addi (IForm.unpack w))
  | 0x03 => some (.sub (RForm.unpack w))
  | 0x04 => some (.mul (RForm.unpack w))
  | 0x05 => some (.mulh (RForm.unpack w))
  | 0x06 => some (.mulhn (RForm.unpack w))
  | 0x07 => some (.div (RForm.unpack w))
  | 0x08 => some (.divn (RForm.unpack w))
  | 0x09 => some (.rem (RForm.unpack w))
  | 0x0A => some (.remn (RForm.unpack w))
  | 0x10 => some (.and (RForm.unpack w))
  | 0x11 => some (.andi (IForm.unpack w))
  | 0x12 => some (.or (RForm.unpack w))
  | 0x13 => some (.ori (IForm.unpack w))
  | 0x14 => some (.xor (RForm.unpack w))
  | 0x15 => some (.xori (IForm.unpack w))
  | 0x16 => some (.shl (RForm.unpack w))
  | 0x17 => some (.shli (IForm.unpack w))
  | 0x18 => some (.shr (RForm.unpack w))
  | 0x19 => some (.shri (IForm.unpack w))
  | 0x1A => some (.shra (RForm.unpack w))
  | 0x1B => some (.shrai (IForm.unpack w))
  | 0x1C => some (.rotl (RForm.unpack w))
  | 0x20 => some (.clz (RForm.unpack w))
  | 0x21 => some (.popc (RForm.unpack w))
  | 0x22 => some (.min (RForm.unpack w))
  | 0x23 => some (.max (RForm.unpack w))
  | 0x24 => some (.minn (RForm.unpack w))
  | 0x25 => some (.maxn (RForm.unpack w))
  | 0x28 => some (.cmp (RForm.unpack w))
  | 0x29 => some (.sel (RForm.unpack w))
  | 0x2A => some (.mov (RForm.unpack w))
  | 0x2B => some (.li (LForm.unpack w))
  | 0x2C => some (.lih (LForm.unpack w))
  | 0x30 => some (.addr (RForm.unpack w))
  | 0x31 => some (.extb (RForm.unpack w))
  | 0x32 => some (.exth (RForm.unpack w))
  | 0x33 => some (.extw (RForm.unpack w))
  | 0x34 => some (.bfx (RForm.unpack w))
  | 0x35 => some (.bfi (RForm.unpack w))
  | 0x38 => some (.pand (RForm.unpack w))
  | 0x39 => some (.por (RForm.unpack w))
  | 0x3A => some (.pnot (RForm.unpack w))
  | 0x3C => some (.fcvts (RForm.unpack w))
  | 0x3D => some (.fcmps (RForm.unpack w))
  | 0x40 => some (.lapset (RForm.unpack w))
  | 0x41 => some (.lapadd (RForm.unpack w))
  | 0x42 => some (.lapget (RForm.unpack w))
  | _ => none

/-- The F map before the field checks (R56). -/
def mapF (w : BitVec 64) : Option Instr :=
  match fieldOp w with
  | 0x00 => if w = 0 then some .nop else none
  | 0x01 => some (.br (FForm.unpack w))
  | 0x02 => some (.brc (FForm.unpack w))
  | 0x03 => some (.jmp (FForm.unpack w))
  | 0x04 => some (.call (FForm.unpack w))
  | 0x05 => some (.ret (FForm.unpack w))
  | 0x08 => some (.loop (FForm.unpack w))
  | 0x09 => some (.loopi (FForm.unpack w))
  | 0x0A => some (.breakl (FForm.unpack w))
  | 0x10 => some (.waitb (FForm.unpack w))
  | 0x11 => some (.waitt (FForm.unpack w))
  | 0x12 => some (.waitf (FForm.unpack w))
  | 0x14 => some (.advp (FForm.unpack w))
  | 0x15 => some (.advc (FForm.unpack w))
  | 0x18 => some (.yield (FForm.unpack w))
  | 0x19 => some (.endOp (FForm.unpack w))
  | 0x1A => some (.sleep (FForm.unpack w))
  | 0x1C => some (.trap (FForm.unpack w))
  | 0x1D => some (.rft (FForm.unpack w))
  | _ => none

/-- The M map before the field checks (R57). -/
def mapM (w : BitVec 64) : Option Instr :=
  match fieldOp w with
  | 0x00 => if w = 0 then some .nop else none
  | 0x01 => some (.ldb (MForm.unpack w))
  | 0x02 => some (.ldbn (MForm.unpack w))
  | 0x03 => some (.ldh (MForm.unpack w))
  | 0x04 => some (.ldhn (MForm.unpack w))
  | 0x05 => some (.ldw (MForm.unpack w))
  | 0x06 => some (.ldwn (MForm.unpack w))
  | 0x07 => some (.ldd (MForm.unpack w))
  | 0x08 => some (.stb (MForm.unpack w))
  | 0x09 => some (.sth (MForm.unpack w))
  | 0x0A => some (.stw (MForm.unpack w))
  | 0x0B => some (.std (MForm.unpack w))
  | 0x10 => some (.amoadd (MForm.unpack w))
  | 0x11 => some (.amoand (MForm.unpack w))
  | 0x12 => some (.amoor (MForm.unpack w))
  | 0x13 => some (.amoxor (MForm.unpack w))
  | 0x14 => some (.amomin (MForm.unpack w))
  | 0x15 => some (.amomax (MForm.unpack w))
  | 0x16 => some (.amominn (MForm.unpack w))
  | 0x17 => some (.amomaxn (MForm.unpack w))
  | 0x18 => some (.amoswp (MForm.unpack w))
  | 0x19 => some (.amocas (MForm.unpack w))
  | 0x1C => some (.fence (MForm.unpack w))
  | 0x20 => some (.tlinc (MForm.unpack w))
  | 0x21 => some (.tlread (MForm.unpack w))
  | 0x24 => some (.cpgo (MForm.unpack w))
  | 0x25 => some (.cpstep (MForm.unpack w))
  | 0x26 => some (.cpstat (MForm.unpack w))
  | 0x28 => some (.gidx (MForm.unpack w))
  | 0x29 => some (.gcfg (MForm.unpack w))
  | 0x2C => some (.bsend (MForm.unpack w))
  | 0x2D => some (.prog (MForm.unpack w))
  | 0x2E => some (.front (MForm.unpack w))
  | 0x2F => some (.gcancel (MForm.unpack w))
  | 0x30 => some (.xput (MForm.unpack w))
  | 0x34 => some (.tdefer (MForm.unpack w))
  | 0x35 => some (.tpwr (MForm.unpack w))
  | 0x36 => some (.vpwr (MForm.unpack w))
  | 0x38 => some (.sysr (MForm.unpack w))
  | 0x39 => some (.sysw (MForm.unpack w))
  | 0x3A => some (.tlbinv (MForm.unpack w))
  | 0x3B => some (.tlbsync (MForm.unpack w))
  | 0x3C => some (.evpop (MForm.unpack w))
  | 0x3D => some (.watch (MForm.unpack w))
  | _ => none

/-- The C map before the field checks (R58). -/
def mapC (w : BitVec 128) : Option Instr :=
  match fieldOp w with
  | 0x00 => if w = 0 then some .nop else none
  | 0x01 => some (.tld (CForm.unpack w))
  | 0x02 => some (.tst (CForm.unpack w))
  | 0x03 => some (.tldm (CForm.unpack w))
  | 0x08 => some (.vadd (CForm.unpack w))
  | 0x09 => some (.vsub (CForm.unpack w))
  | 0x0A => some (.vmul (CForm.unpack w))
  | 0x0B => some (.vfma (CForm.unpack w))
  | 0x0C => some (.vfms (CForm.unpack w))
  | 0x0D => some (.vfnma (CForm.unpack w))
  | 0x0E => some (.vmin (CForm.unpack w))
  | 0x0F => some (.vmax (CForm.unpack w))
  | 0x10 => some (.vabs (CForm.unpack w))
  | 0x11 => some (.vneg (CForm.unpack w))
  | 0x12 => some (.vcps (CForm.unpack w))
  | 0x13 => some (.vcmp (CForm.unpack w))
  | 0x14 => some (.vsel (CForm.unpack w))
  | 0x18 => some (.vrnd (CForm.unpack w))
  | 0x19 => some (.vexf (CForm.unpack w))
  | 0x1A => some (.vlgf (CForm.unpack w))
  | 0x1B => some (.vrcpf (CForm.unpack w))
  | 0x1C => some (.vrsqf (CForm.unpack w))
  | 0x1D => some (.vscl (CForm.unpack w))
  | 0x20 => some (.viadd (CForm.unpack w))
  | 0x21 => some (.visub (CForm.unpack w))
  | 0x22 => some (.vimul (CForm.unpack w))
  | 0x23 => some (.vimad (CForm.unpack w))
  | 0x24 => some (.vand (CForm.unpack w))
  | 0x25 => some (.vor (CForm.unpack w))
  | 0x26 => some (.vxor (CForm.unpack w))
  | 0x27 => some (.vshl (CForm.unpack w))
  | 0x28 => some (.vshr (CForm.unpack w))
  | 0x29 => some (.vshra (CForm.unpack w))
  | 0x2A => some (.vimin (CForm.unpack w))
  | 0x2B => some (.vimax (CForm.unpack w))
  | 0x2C => some (.vicmp (CForm.unpack w))
  | 0x30 => some (.vcvt (CForm.unpack w))
  | 0x31 => some (.vpack (CForm.unpack w))
  | 0x32 => some (.vunpk (CForm.unpack w))
  | 0x33 => some (.vperm (CForm.unpack w))
  | 0x34 => some (.vbcast (CForm.unpack w))
  | 0x38 => some (.vrsum (CForm.unpack w))
  | 0x39 => some (.vrmax (CForm.unpack w))
  | 0x3A => some (.vspar (CForm.unpack w))
  | 0x3C => some (.kand (CForm.unpack w))
  | 0x3D => some (.kor (CForm.unpack w))
  | 0x3E => some (.knot (CForm.unpack w))
  | 0x3F => some (.kmov (CForm.unpack w))
  | 0x40 => some (.kpop (CForm.unpack w))
  | 0x44 => some (.shn (CForm.unpack w))
  | 0x45 => some (.she (CForm.unpack w))
  | 0x46 => some (.shs (CForm.unpack w))
  | 0x47 => some (.shw (CForm.unpack w))
  | 0x48 => some (.xsnd (CForm.unpack w))
  | 0x49 => some (.xrcv (CForm.unpack w))
  | 0x50 => some (.mma (CForm.unpack w))
  | 0x51 => some (.mzero (CForm.unpack w))
  | 0x52 => some (.mdrain (CForm.unpack w))
  | 0x53 => some (.mload (CForm.unpack w))
  | 0x54 => some (.mread (CForm.unpack w))
  | 0x55 => some (.patch (CForm.unpack w))
  | 0x58 => some (.lqnear (CForm.unpack w))
  | 0x59 => some (.lqdec (CForm.unpack w))
  | 0x5A => some (.lqscale (CForm.unpack w))
  | 0x5B => some (.lqmerge (CForm.unpack w))
  | _ => none

/-- A mapped word is an instruction when it keeps the encoding rules (R49). -/
def checked (op : Nat) : Option Instr → Except DecodeError Instr
  | none => .error (if op = 0 then .badField else .unassigned op)
  | some i => if WellFormed i then .ok i else .error .badField

/-- The S slot decoder. -/
def decodeS (w : BitVec 48) : Except DecodeError Instr := checked (fieldOp w) (mapS w)
/-- The F slot decoder. -/
def decodeF (w : BitVec 64) : Except DecodeError Instr := checked (fieldOp w) (mapF w)
/-- The M slot decoder. -/
def decodeM (w : BitVec 64) : Except DecodeError Instr := checked (fieldOp w) (mapM w)
/-- The C slot decoder. -/
def decodeC (w : BitVec 128) : Except DecodeError Instr := checked (fieldOp w) (mapC w)

/-- The slot an instruction is encoded in, with its word. -/
inductive SlotWord where
  | s (w : BitVec 48)
  | f (w : BitVec 64)
  | m (w : BitVec 64)
  | c (w : BitVec 128)
  /-- A step of the device: it has no encoding. -/
  | none
  deriving DecidableEq, Repr

/-- The encoder: the word of a slot instruction, from the same maps (R55 to R58). NOP is encoded as an S slot. -/
def encode : Instr → SlotWord
  | .nop => .s 0
  | .add f => .s (f.pack 0x01)
  | .addi f => .s (f.pack 0x02)
  | .sub f => .s (f.pack 0x03)
  | .mul f => .s (f.pack 0x04)
  | .mulh f => .s (f.pack 0x05)
  | .mulhn f => .s (f.pack 0x06)
  | .div f => .s (f.pack 0x07)
  | .divn f => .s (f.pack 0x08)
  | .rem f => .s (f.pack 0x09)
  | .remn f => .s (f.pack 0x0A)
  | .and f => .s (f.pack 0x10)
  | .andi f => .s (f.pack 0x11)
  | .or f => .s (f.pack 0x12)
  | .ori f => .s (f.pack 0x13)
  | .xor f => .s (f.pack 0x14)
  | .xori f => .s (f.pack 0x15)
  | .shl f => .s (f.pack 0x16)
  | .shli f => .s (f.pack 0x17)
  | .shr f => .s (f.pack 0x18)
  | .shri f => .s (f.pack 0x19)
  | .shra f => .s (f.pack 0x1A)
  | .shrai f => .s (f.pack 0x1B)
  | .rotl f => .s (f.pack 0x1C)
  | .clz f => .s (f.pack 0x20)
  | .popc f => .s (f.pack 0x21)
  | .min f => .s (f.pack 0x22)
  | .max f => .s (f.pack 0x23)
  | .minn f => .s (f.pack 0x24)
  | .maxn f => .s (f.pack 0x25)
  | .cmp f => .s (f.pack 0x28)
  | .sel f => .s (f.pack 0x29)
  | .mov f => .s (f.pack 0x2A)
  | .li f => .s (f.pack 0x2B)
  | .lih f => .s (f.pack 0x2C)
  | .addr f => .s (f.pack 0x30)
  | .extb f => .s (f.pack 0x31)
  | .exth f => .s (f.pack 0x32)
  | .extw f => .s (f.pack 0x33)
  | .bfx f => .s (f.pack 0x34)
  | .bfi f => .s (f.pack 0x35)
  | .pand f => .s (f.pack 0x38)
  | .por f => .s (f.pack 0x39)
  | .pnot f => .s (f.pack 0x3A)
  | .fcvts f => .s (f.pack 0x3C)
  | .fcmps f => .s (f.pack 0x3D)
  | .lapset f => .s (f.pack 0x40)
  | .lapadd f => .s (f.pack 0x41)
  | .lapget f => .s (f.pack 0x42)
  | .br f => .f (f.pack 0x01)
  | .brc f => .f (f.pack 0x02)
  | .jmp f => .f (f.pack 0x03)
  | .call f => .f (f.pack 0x04)
  | .ret f => .f (f.pack 0x05)
  | .loop f => .f (f.pack 0x08)
  | .loopi f => .f (f.pack 0x09)
  | .breakl f => .f (f.pack 0x0A)
  | .waitb f => .f (f.pack 0x10)
  | .waitt f => .f (f.pack 0x11)
  | .waitf f => .f (f.pack 0x12)
  | .advp f => .f (f.pack 0x14)
  | .advc f => .f (f.pack 0x15)
  | .yield f => .f (f.pack 0x18)
  | .endOp f => .f (f.pack 0x19)
  | .sleep f => .f (f.pack 0x1A)
  | .trap f => .f (f.pack 0x1C)
  | .rft f => .f (f.pack 0x1D)
  | .ldb f => .m (f.pack 0x01)
  | .ldbn f => .m (f.pack 0x02)
  | .ldh f => .m (f.pack 0x03)
  | .ldhn f => .m (f.pack 0x04)
  | .ldw f => .m (f.pack 0x05)
  | .ldwn f => .m (f.pack 0x06)
  | .ldd f => .m (f.pack 0x07)
  | .stb f => .m (f.pack 0x08)
  | .sth f => .m (f.pack 0x09)
  | .stw f => .m (f.pack 0x0A)
  | .std f => .m (f.pack 0x0B)
  | .amoadd f => .m (f.pack 0x10)
  | .amoand f => .m (f.pack 0x11)
  | .amoor f => .m (f.pack 0x12)
  | .amoxor f => .m (f.pack 0x13)
  | .amomin f => .m (f.pack 0x14)
  | .amomax f => .m (f.pack 0x15)
  | .amominn f => .m (f.pack 0x16)
  | .amomaxn f => .m (f.pack 0x17)
  | .amoswp f => .m (f.pack 0x18)
  | .amocas f => .m (f.pack 0x19)
  | .fence f => .m (f.pack 0x1C)
  | .tlinc f => .m (f.pack 0x20)
  | .tlread f => .m (f.pack 0x21)
  | .cpgo f => .m (f.pack 0x24)
  | .cpstep f => .m (f.pack 0x25)
  | .cpstat f => .m (f.pack 0x26)
  | .gidx f => .m (f.pack 0x28)
  | .gcfg f => .m (f.pack 0x29)
  | .bsend f => .m (f.pack 0x2C)
  | .prog f => .m (f.pack 0x2D)
  | .front f => .m (f.pack 0x2E)
  | .gcancel f => .m (f.pack 0x2F)
  | .xput f => .m (f.pack 0x30)
  | .tdefer f => .m (f.pack 0x34)
  | .tpwr f => .m (f.pack 0x35)
  | .vpwr f => .m (f.pack 0x36)
  | .sysr f => .m (f.pack 0x38)
  | .sysw f => .m (f.pack 0x39)
  | .tlbinv f => .m (f.pack 0x3A)
  | .tlbsync f => .m (f.pack 0x3B)
  | .evpop f => .m (f.pack 0x3C)
  | .watch f => .m (f.pack 0x3D)
  | .tld f => .c (f.pack 0x01)
  | .tst f => .c (f.pack 0x02)
  | .tldm f => .c (f.pack 0x03)
  | .vadd f => .c (f.pack 0x08)
  | .vsub f => .c (f.pack 0x09)
  | .vmul f => .c (f.pack 0x0A)
  | .vfma f => .c (f.pack 0x0B)
  | .vfms f => .c (f.pack 0x0C)
  | .vfnma f => .c (f.pack 0x0D)
  | .vmin f => .c (f.pack 0x0E)
  | .vmax f => .c (f.pack 0x0F)
  | .vabs f => .c (f.pack 0x10)
  | .vneg f => .c (f.pack 0x11)
  | .vcps f => .c (f.pack 0x12)
  | .vcmp f => .c (f.pack 0x13)
  | .vsel f => .c (f.pack 0x14)
  | .vrnd f => .c (f.pack 0x18)
  | .vexf f => .c (f.pack 0x19)
  | .vlgf f => .c (f.pack 0x1A)
  | .vrcpf f => .c (f.pack 0x1B)
  | .vrsqf f => .c (f.pack 0x1C)
  | .vscl f => .c (f.pack 0x1D)
  | .viadd f => .c (f.pack 0x20)
  | .visub f => .c (f.pack 0x21)
  | .vimul f => .c (f.pack 0x22)
  | .vimad f => .c (f.pack 0x23)
  | .vand f => .c (f.pack 0x24)
  | .vor f => .c (f.pack 0x25)
  | .vxor f => .c (f.pack 0x26)
  | .vshl f => .c (f.pack 0x27)
  | .vshr f => .c (f.pack 0x28)
  | .vshra f => .c (f.pack 0x29)
  | .vimin f => .c (f.pack 0x2A)
  | .vimax f => .c (f.pack 0x2B)
  | .vicmp f => .c (f.pack 0x2C)
  | .vcvt f => .c (f.pack 0x30)
  | .vpack f => .c (f.pack 0x31)
  | .vunpk f => .c (f.pack 0x32)
  | .vperm f => .c (f.pack 0x33)
  | .vbcast f => .c (f.pack 0x34)
  | .vrsum f => .c (f.pack 0x38)
  | .vrmax f => .c (f.pack 0x39)
  | .vspar f => .c (f.pack 0x3A)
  | .kand f => .c (f.pack 0x3C)
  | .kor f => .c (f.pack 0x3D)
  | .knot f => .c (f.pack 0x3E)
  | .kmov f => .c (f.pack 0x3F)
  | .kpop f => .c (f.pack 0x40)
  | .shn f => .c (f.pack 0x44)
  | .she f => .c (f.pack 0x45)
  | .shs f => .c (f.pack 0x46)
  | .shw f => .c (f.pack 0x47)
  | .xsnd f => .c (f.pack 0x48)
  | .xrcv f => .c (f.pack 0x49)
  | .mma f => .c (f.pack 0x50)
  | .mzero f => .c (f.pack 0x51)
  | .mdrain f => .c (f.pack 0x52)
  | .mload f => .c (f.pack 0x53)
  | .mread f => .c (f.pack 0x54)
  | .patch f => .c (f.pack 0x55)
  | .lqnear f => .c (f.pack 0x58)
  | .lqdec f => .c (f.pack 0x59)
  | .lqscale f => .c (f.pack 0x5A)
  | .lqmerge f => .c (f.pack 0x5B)
  | .bundleFetch _ _ => .none
  | .resultLanding _ _ => .none
  | .cellResultLanding _ _ => .none
  | .mmaStep _ _ _ => .none
  | .streamRowRead _ _ _ => .none
  | .mloadPerform _ _ _ => .none
  | .fragmentArrival _ _ => .none
  | .expressArrival _ => .none
  | .handlePublish _ _ _ => .none
  | .trapEntry _ _ => .none
  | .layerWakeDone _ _ _ => .none
  | .groupWakeDone _ _ _ => .none
  | .layerPowerChange _ => .none
  | .refresh _ _ _ => .none
  | .tempReading _ _ _ => .none
  | .retentionGuard _ _ _ => .none
  | .deferralExpiry _ _ => .none
  | .selfTest _ _ _ => .none
  | .copyOpStart _ _ => .none
  | .columnRowWrite _ _ => .none
  | .copyOpComplete _ _ => .none
  | .copyOpError _ _ => .none
  | .gatherRowFill _ => .none
  | .xputDelivery _ => .none
  | .batonDelivery _ => .none
  | .judgeApply _ _ => .none
  | .graphCancel _ => .none
  | .scbaseWrite _ _ _ => .none
  | .rgnWrite _ _ _ _ => .none
  | .sqgeomWrite _ _ _ => .none
  | .curstWrite _ _ _ => .none
  | .evstatWrite _ _ => .none
  | .evflagsWrite _ _ _ => .none
  | .tsaveWrite _ _ _ => .none
  | .qbellWrite _ _ _ => .none
  | .stcfgWrite _ _ _ => .none
  | .ewgrantWrite _ _ _ => .none
  | .tcauseRead _ _ _ => .none
  | .retriskRead _ _ _ => .none
  | .engfltRead _ _ _ _ => .none
  | .errlastRead _ _ _ => .none
  | .sliceBoundary _ => .none
  | .goSignal _ => .none
  | .placementFail _ _ => .none
  | .drainDone _ => .none
  | .checkpointDone _ => .none
  | .killComplete _ => .none
  | .watchdogExpiry _ _ => .none
  | .watchdogKill _ _ => .none
  | .contextRetire _ _ => .none
  | .launchRetire _ => .none
  | .issueSlotTimeout _ => .none
  | .governorStall _ => .none
  | .controlInterval _ _ _ => .none
  | .railChangeEnd _ => .none
  | .nocFreqStep _ _ => .none
  | .capSet _ _ _ => .none
  | .capGet _ _ _ => .none
  | .claim _ _ _ => .none
  | .renew _ _ _ => .none
  | .release _ _ _ => .none
  | .handover _ _ _ => .none
  | .leaseExpiry _ => .none
  | .handoverTimeout _ => .none
  | .spdmSession _ _ _ => .none
  | .sessionEnd _ => .none
  | .trustSet _ _ _ => .none
  | .domainSet _ _ _ => .none
  | .domainClear _ _ _ => .none
  | .windowSet _ _ _ => .none
  | .windowClear _ _ _ => .none
  | .queueSet _ _ _ => .none
  | .queueClear _ _ _ => .none
  | .doorbell _ _ _ => .none
  | .kill _ _ _ => .none
  | .keyLoad _ _ _ => .none
  | .keyClear _ _ _ => .none
  | .fabricJoin _ _ _ => .none
  | .fabricLeave _ _ _ => .none
  | .fabricBind _ _ _ => .none
  | .debugUnlock _ _ _ => .none
  | .debugLock _ _ _ => .none
  | .status _ _ _ => .none
  | .memRead _ _ _ => .none
  | .dumpRead _ _ _ => .none
  | .dumpClear _ _ _ => .none
  | .healthRead _ _ _ => .none
  | .reset _ _ _ => .none
  | .dbgHalt _ _ _ => .none
  | .dbgResume _ _ _ => .none
  | .dbgStep _ _ _ => .none
  | .dbgRead _ _ _ => .none
  | .dbgWrite _ _ _ => .none
  | .rdmaWrite _ _ _ _ _ => .none
  | .rdmaRead _ _ _ _ => .none
  | .hostCommandSend _ _ => .none
  | .flitReceive _ _ _ _ => .none
  | .flitAck _ _ _ _ => .none
  | .laneLoss _ _ => .none
  | .portTestDone _ _ => .none
  | .portRejoin _ => .none
  | .linkLost _ _ => .none
  | .tamperDetect _ _ => .none
  | .glitchRecovered _ => .none
  | .authLockoutExpiry _ _ => .none
  | .fatalError _ _ => .none
  | .filzanWatchdogFail _ => .none
  | .powerOnReset _ _ => .none
  | .unsupportedOption _ _ => .none
  | .measurementRetrieval _ => .none

/-- The decoder of whichever slot a word belongs to. -/
def decodeSlot : SlotWord → Except DecodeError Instr
  | .s w => decodeS w
  | .f w => decodeF w
  | .m w => decodeM w
  | .c w => decodeC w
  | .none => .error .badField

/-- The header of a bundle (R47). -/
structure Header where
  ew : BitVec 6
  hw : Bool
  skip : BitVec 3
  ver : BitVec 4
  rsv : BitVec 18
  deriving DecidableEq, Repr

/-- The header's fields (R47). -/
def Header.unpack (w : BitVec 32) : Header := ⟨field w 26 6, bit w 25, field w 22 3, field w 18 4, field w 0 18⟩

/-- VER is 1 and the reserved field zero (R47, R49). -/
def Header.ok (h : Header) : Bool := h.ver == 1 && h.rsv == 0

/-- A decoded bundle: its header and its five slots (R46). -/
structure Bundle where
  hdr : Header
  s0 : Instr
  s1 : Instr
  m : Instr
  c : Instr
  f : Instr
  deriving DecidableEq, Repr

/-- The header word of a bundle (R46). -/
def bundleH (w : BitVec 384) : BitVec 32 := field w 352 32
/-- The S0 slot (R46). -/
def bundleS0 (w : BitVec 384) : BitVec 48 := field w 304 48
/-- The S1 slot (R46). -/
def bundleS1 (w : BitVec 384) : BitVec 48 := field w 256 48
/-- The M slot (R46). -/
def bundleM (w : BitVec 384) : BitVec 64 := field w 192 64
/-- The C slot (R46). -/
def bundleC (w : BitVec 384) : BitVec 128 := field w 64 128
/-- The F slot (R46). -/
def bundleF (w : BitVec 384) : BitVec 64 := field w 0 64

/-- A bundle's word from its parts (R46). -/
def bundleWord (h : BitVec 32) (s0 s1 : BitVec 48) (m : BitVec 64) (c : BitVec 128) (f : BitVec 64) : BitVec 384 :=
  h ++ s0 ++ s1 ++ m ++ c ++ f

/-- The whole-bundle decode: the decoded bundle, or the code of the first illegal slot in the order H, S0, S1, M, C, F
(R46, R49). -/
def decodeBundle (w : BitVec 384) : Except Nat Bundle :=
  let h := Header.unpack (bundleH w)
  if h.ok then
    match decodeS (bundleS0 w) with
    | .error _ => .error 0
    | .ok s0 =>
      match decodeS (bundleS1 w) with
      | .error _ => .error 1
      | .ok s1 =>
        match decodeM (bundleM w) with
        | .error _ => .error 2
        | .ok m =>
          match decodeC (bundleC w) with
          | .error _ => .error 3
          | .ok c =>
            match decodeF (bundleF w) with
            | .error _ => .error 4
            | .ok f => .ok ⟨h, s0, s1, m, c, f⟩
  else .error 7

/-- A decode's answer without its reason. -/
def okOf : Except DecodeError Instr → Option Instr
  | .ok i => some i
  | .error _ => none

/-- The header of a bundle that says nothing but its version: VER 1 (R47). -/
def plainHeader : BitVec 32 := 0x00040000

/-- A slot instruction's word as the table of instructions numbers it is one slot; the slot's width tells which:
48 bits an S slot, 128 a C slot, 64 an M slot, or an F slot where the M map does not assign the opcode, and 384 a whole
bundle. The 384-bit bundle a slot word stands in, its other slots NOP (DESIGN CHOICE, log entry 7). -/
def tableBundle (nbits w : Nat) : Option (BitVec 384) :=
  if nbits = 384 then some (BitVec.ofNat 384 w)
  else if nbits = 48 then some (bundleWord plainHeader (BitVec.ofNat 48 w) 0 0 0 0)
  else if nbits = 128 then some (bundleWord plainHeader 0 0 0 (BitVec.ofNat 128 w) 0)
  else if nbits = 64 then
    match decodeM (BitVec.ofNat 64 w) with
    | .ok _ => some (bundleWord plainHeader 0 0 (BitVec.ofNat 64 w) 0 0)
    | .error _ => some (bundleWord plainHeader 0 0 0 0 (BitVec.ofNat 64 w))
  else none

/-- The one slot of a bundle that is not NOP, or NOP. -/
def Bundle.single (b : Bundle) : Instr :=
  if b.s0 != .nop then b.s0
  else if b.s1 != .nop then b.s1
  else if b.m != .nop then b.m
  else if b.c != .nop then b.c
  else b.f

/-- The instruction that the decoder reads from a table row's word. -/
def decodeTableWord (nbits w : Nat) : Option Instr :=
  match tableBundle nbits w with
  | none => none
  | some b =>
    match decodeBundle b with
    | .ok d => some d.single
    | .error _ => none

end Sys2Proof
end

