-- ==== Sys2Proof/Machine/Dyadic.lean ====
section
/-! DEFINITION. Exact real values: integers times powers of two (R59, R108: results are exact before rounding). -/

namespace Sys2Proof.Machine

/-- The exact value `m × 2 ^ e`. -/
structure Dy where
  m : Int
  e : Int
  deriving DecidableEq, Repr

/-- Exact zero. -/
def Dy.zero : Dy := ⟨0, 0⟩

/-- The mantissa of a value seen at a lower exponent. -/
def Dy.at (x : Dy) (e : Int) : Int := x.m * (2 ^ (x.e - e).toNat : Nat)

/-- Exact sum. -/
def Dy.add (x y : Dy) : Dy :=
  if x.m = 0 then y
  else if y.m = 0 then x
  else
    let e := min x.e y.e
    ⟨x.at e + y.at e, e⟩

/-- Exact negation. -/
def Dy.neg (x : Dy) : Dy := ⟨-x.m, x.e⟩

/-- Exact difference. -/
def Dy.sub (x y : Dy) : Dy := x.add y.neg

/-- Exact product. -/
def Dy.mul (x y : Dy) : Dy := ⟨x.m * y.m, x.e + y.e⟩

/-- Exact product with a power of two. -/
def Dy.scale (x : Dy) (k : Int) : Dy := ⟨x.m, x.e + k⟩

/-- Exact absolute value. -/
def Dy.abs (x : Dy) : Dy := ⟨x.m.natAbs, x.e⟩

/-- Exact order: `x < y`. -/
def Dy.lt (x y : Dy) : Bool := decide ((x.sub y).m < 0)

/-- Exact order: `x ≤ y`. -/
def Dy.le (x y : Dy) : Bool := decide ((x.sub y).m ≤ 0)

/-- Exact equality of values. -/
def Dy.eqv (x y : Dy) : Bool := decide ((x.sub y).m = 0)

/-- Exact square. -/
def Dy.sq (x : Dy) : Dy := x.mul x

/-- Exact sum of a list. -/
def Dy.sum (xs : List Dy) : Dy := xs.foldl Dy.add .zero

/-- floor(log2 |x|) of a nonzero value. -/
def Dy.log2 (x : Dy) : Int := (x.m.natAbs.log2 : Int) + x.e

/-- The value rounded to an integer under a mode (R103, R150). -/
def Dy.toInt (x : Dy) (mode : RMode) : Int :=
  if 0 ≤ x.e then x.m * (2 ^ x.e.toNat : Nat)
  else
    let sh := (-x.e).toNat
    let n := x.m.natAbs
    -- past the length of the mantissa the value is below one half in magnitude
    let lo := if n.log2 + 1 < sh then 0 else n >>> sh
    let rem := if n.log2 + 1 < sh then n else n - (lo <<< sh)
    let twice := 2 * rem
    let small := decide (n.log2 + 1 < sh)
    let up : Bool := match mode with
      | .rne => !small && (decide (2 ^ sh < twice) || (decide (twice = 2 ^ sh) && lo % 2 == 1))
      | .rtz => false
      | .rup => decide (rem ≠ 0) && decide (0 < x.m)
      | .rdn => decide (rem ≠ 0) && decide (x.m < 0)
    let mag : Int := if up then lo + 1 else lo
    if x.m < 0 then -mag else mag

/-- One step of the integer square root, bit `i` of the root. -/
def isqrtStep (n : Nat) (r : Nat) (i : Nat) : Nat :=
  let t := r + 2 ^ i
  if t * t ≤ n then t else r

/-- floor(sqrt n), for roots below 2 ^ bits. -/
def isqrt : Nat → Nat → Nat → Nat
  | 0, _, r => r
  | i + 1, n, r => isqrt i n (isqrtStep n r i)

end Sys2Proof.Machine
end

