-- ==== Sys2Proof/Machine/Float.lean ====
section
/-! DEFINITION. Floating-point formats, rounding, NaN propagation and conversion, and the numeric events they raise
(R100 to R113, R150 to R153, R157). -/

namespace Sys2Proof.Machine

/-- A set of numeric event kinds: bit k for kind k of R120. -/
abbrev Kinds := BitVec 8

/-- No event. -/
def noKind : Kinds := 0
/-- Kind 1, invalid operation (R120). -/
def kInvalid : Kinds := 0x02
/-- Kind 2, overflow. -/
def kOverflow : Kinds := 0x04
/-- Kind 3, underflow-inexact. -/
def kUnderflow : Kinds := 0x08
/-- Kind 4, INT32 wrap. -/
def kWrap : Kinds := 0x10
/-- Kind 5, NaN quantised. -/
def kNanQuantised : Kinds := 0x20
/-- Kind 6, LQ8 shell overflow. -/
def kShell : Kinds := 0x40
/-- Kind 7, read of a gated register. -/
def kGated : Kinds := 0x80

/-- Which bit patterns of a format are special (R100). -/
inductive SpecialSet where
  /-- Infinities and NaNs at the all-ones exponent. -/
  | ieee
  /-- E4M3: one NaN per sign, no infinity. -/
  | nanOnly
  /-- E2M1: every code a number. -/
  | none
  deriving DecidableEq, Repr

/-- A floating-point layout (R100): mantissa bits, exponent bits, bias, specials. -/
structure FloatSpec where
  mbits : Nat
  ebits : Nat
  bias : Nat
  special : SpecialSet
  deriving DecidableEq, Repr

/-- The layouts of R100; E2M1 is the element of MXFP4 and E4M3 that of MXFP8 (R105). -/
def Fmt.spec : Fmt → FloatSpec
  | .fp16 => ⟨10, 5, 15, .ieee⟩
  | .bf16 => ⟨7, 8, 127, .ieee⟩
  | .e4m3 => ⟨3, 4, 7, .nanOnly⟩
  | .mxfp8 => ⟨3, 4, 7, .nanOnly⟩
  | .e5m2 => ⟨2, 5, 15, .ieee⟩
  | .mxfp4 => ⟨1, 2, 1, .none⟩
  | _ => ⟨23, 8, 127, .ieee⟩

/-- A decoded floating-point value. A NaN carries its quiet state and its payload: the mantissa bits below the quiet
bit, with their number (R101, R113). -/
inductive FVal where
  | nan (neg quiet : Bool) (pay bits : Nat)
  | inf (neg : Bool)
  | fin (neg : Bool) (m : Nat) (e : Int)
  deriving DecidableEq, Repr

/-- Sign of a layout's bit pattern. -/
def FloatSpec.signBit (s : FloatSpec) (x : Nat) : Bool := x / 2 ^ (s.mbits + s.ebits) % 2 == 1

/-- The value of a bit pattern (R100, R101). -/
def FloatSpec.decode (s : FloatSpec) (x : Nat) : FVal :=
  let neg := s.signBit x
  let e := x / 2 ^ s.mbits % 2 ^ s.ebits
  let m := x % 2 ^ s.mbits
  let top := 2 ^ s.ebits - 1
  let qmin : Int := 1 - (s.bias : Int) - s.mbits
  let number : FVal := if e = 0 then .fin neg m qmin else .fin neg (m + 2 ^ s.mbits) (qmin + (e : Int) - 1)
  match s.special with
  | .ieee =>
    if e = top then
      if m = 0 then .inf neg
      else .nan neg (m / 2 ^ (s.mbits - 1) == 1) (m % 2 ^ (s.mbits - 1)) (s.mbits - 1)
    else number
  | .nanOnly => if e = top ∧ m = 2 ^ s.mbits - 1 then .nan neg true 0 0 else number
  | .none => number

/-- Precision p = m + 1 (R108). -/
def FloatSpec.prec (s : FloatSpec) : Nat := s.mbits + 1

/-- Spacing exponent of the smallest values. -/
def FloatSpec.qmin (s : FloatSpec) : Int := 1 - (s.bias : Int) - s.mbits

/-- The largest finite code without sign (R100). -/
def FloatSpec.maxCode (s : FloatSpec) : Nat :=
  match s.special with
  | .ieee => (2 ^ s.ebits - 1) * 2 ^ s.mbits - 1
  | .nanOnly => 2 ^ (s.ebits + s.mbits) - 2
  | .none => 2 ^ (s.ebits + s.mbits) - 1

/-- The code of an infinity without sign. -/
def FloatSpec.infCode (s : FloatSpec) : Nat := (2 ^ s.ebits - 1) * 2 ^ s.mbits

/-- A code with its sign bit. -/
def FloatSpec.signed (s : FloatSpec) (neg : Bool) (code : Nat) : Nat :=
  if neg then code + 2 ^ (s.mbits + s.ebits) else code

/-- The default NaN (R102): positive and quiet. -/
def FloatSpec.defaultNan (s : FloatSpec) : Nat :=
  match s.special with
  | .nanOnly => 2 ^ (s.ebits + s.mbits) - 1
  | _ => s.infCode + 2 ^ (s.mbits - 1)

/-- `nan_result(x, dst)` of R113, for a NaN with this sign and payload. -/
def FloatSpec.nanResult (s : FloatSpec) (neg : Bool) (pay bits : Nat) : Nat :=
  match s.special with
  | .nanOnly => s.signed neg (2 ^ (s.ebits + s.mbits) - 1)
  | _ =>
    let w := s.mbits - 1
    let p := if w ≤ bits then pay / 2 ^ (bits - w) else pay * 2 ^ (w - bits)
    s.signed neg (s.infCode + 2 ^ w + p)

/-- The outcome of an overflow (R109). -/
def FloatSpec.overflow (s : FloatSpec) (neg : Bool) (mode : RMode) : Nat :=
  let toInf : Bool := match s.special with
    | .ieee => (match mode with
      | .rne => true
      | .rtz => false
      | .rup => !neg
      | .rdn => neg)
    | _ => false
  s.signed neg (if toInf then s.infCode else s.maxCode)

/-- `round(x, fmt, mode)` of R108 for x = (-1)^neg × m × 2^e; a zero keeps `neg` as its sign. The code and the events. -/
def FloatSpec.round (s : FloatSpec) (mode : RMode) (neg : Bool) (m : Nat) (e : Int) : Nat × Kinds :=
  if m = 0 then (s.signed neg 0, noKind)
  else
    let top : Int := (m.log2 : Int) + e
    let emin : Int := 1 - (s.bias : Int)
    let q : Int := max top emin - s.mbits
    let exact := decide (q ≤ e)
    let sh := (q - e).toNat
    -- a mantissa shorter than the shift by more than a bit lies below half of the spacing
    let far := decide (m.log2 + 1 < sh)
    let lo := if exact then m <<< (e - q).toNat else if far then 0 else m >>> sh
    let rem := if exact then 0 else if far then m else m - (lo <<< sh)
    let twice := 2 * rem
    let up : Bool := match mode with
      | .rne => !exact && !far && (decide (2 ^ sh < twice) || (decide (twice = 2 ^ sh) && lo % 2 == 1))
      | .rtz => false
      | .rup => decide (rem ≠ 0) && !neg
      | .rdn => decide (rem ≠ 0) && neg
    let mant := if up then lo + 1 else lo
    let tiny : Kinds := if top < emin ∧ rem ≠ 0 then kUnderflow else noKind
    -- the code of a value at spacing q: a carry out of the mantissa moves to the next exponent by itself
    let step := (q - s.qmin).toNat
    if s.maxCode < step * 2 ^ s.mbits + mant then (s.overflow neg mode, tiny ||| kOverflow)
    else (s.signed neg (step * 2 ^ s.mbits + mant), tiny)

/-- Round an exact value; `zneg` is the sign of an exact zero (R112). -/
def FloatSpec.roundDy (s : FloatSpec) (mode : RMode) (zneg : Bool) (x : Dy) : Nat × Kinds :=
  if x.m = 0 then (s.signed zneg 0, noKind) else s.round mode (decide (x.m < 0)) x.m.natAbs x.e

/-- The exact value of a finite operand. -/
def FVal.dy : FVal → Dy
  | .fin neg m e => ⟨if neg then -(m : Int) else m, e⟩
  | _ => .zero

/-- Sign of a value. -/
def FVal.isNeg : FVal → Bool
  | .nan n _ _ _ => n
  | .inf n => n
  | .fin n _ _ => n

/-- Whether a value is a NaN. -/
def FVal.isNan : FVal → Bool
  | .nan .. => true
  | _ => false

/-- Whether a value is a signalling NaN (R101). -/
def FVal.isSnan : FVal → Bool
  | .nan _ q _ _ => !q
  | _ => false

/-- Whether a value is infinite. -/
def FVal.isInf : FVal → Bool
  | .inf _ => true
  | _ => false

/-- Whether a value is zero. -/
def FVal.isZero : FVal → Bool
  | .fin _ m _ => m == 0
  | _ => false

/-- The value with its sign inverted. -/
def FVal.negate : FVal → FVal
  | .nan n q p b => .nan n q p b
  | .inf n => .inf (!n)
  | .fin n m e => .fin (!n) m e

/-- The first NaN operand's result with its event, when some operand is a NaN (R113). -/
def nanOf (s : FloatSpec) (xs : List FVal) : Option (Nat × Kinds) :=
  match xs.find? FVal.isNan with
  | some (.nan n _ p b) => some (s.nanResult n p b, if xs.any FVal.isSnan then kInvalid else noKind)
  | _ => none

/-- The default NaN with its invalid-operation event (R102). -/
def invalidNan (s : FloatSpec) : Nat × Kinds := (s.defaultNan, kInvalid)

/-- The product of two operands that are no NaN: none for 0 × ∞. -/
def FVal.times : FVal → FVal → Option FVal
  | .inf n, y => if y.isZero then none else some (.inf (n != y.isNeg))
  | x, .inf n => if x.isZero then none else some (.inf (n != x.isNeg))
  | .fin n m e, .fin n' m' e' => some (.fin (n != n') (m * m') (e + e'))
  | x, _ => some x

/-- The sign of a sum of these terms when it is exactly zero (R112). -/
def zeroSign (mode : RMode) (ts : List FVal) : Bool :=
  ts.all FVal.isNeg || (mode == .rdn && !ts.all (fun t => !t.isNeg))

/-- The exact sum of terms, none a NaN, rounded once (R108, R109, R112); opposite infinities are invalid (R145). -/
def sumRound (s : FloatSpec) (mode : RMode) (ts : List FVal) : Nat × Kinds :=
  let pos := ts.any (fun t => t.isInf && !t.isNeg)
  let neg := ts.any (fun t => t.isInf && t.isNeg)
  if pos && neg then invalidNan s
  else if pos || neg then (s.signed neg s.infCode, noKind)
  else s.roundDy mode (ts.all FVal.isZero && zeroSign mode ts || !ts.all FVal.isZero && mode == .rdn)
    (Dy.sum (ts.map FVal.dy))

/-- a × b + c of the fused forms, with the signs already in the operands (R145). -/
def fmaRound (s : FloatSpec) (mode : RMode) (a b c : FVal) : Nat × Kinds :=
  match nanOf s [a, b, c] with
  | some r => r
  | none =>
    match a.times b with
    | none => invalidNan s
    | some p => sumRound s mode [p, c]

/-- a × b (R145). -/
def mulRound (s : FloatSpec) (mode : RMode) (a b : FVal) : Nat × Kinds :=
  match nanOf s [a, b] with
  | some r => r
  | none =>
    match a.times b with
    | none => invalidNan s
    | some (.inf n) => (s.signed n s.infCode, noKind)
    | some p => s.roundDy mode p.isNeg p.dy

/-- a + b (R145). -/
def addRound (s : FloatSpec) (mode : RMode) (a b : FVal) : Nat × Kinds :=
  match nanOf s [a, b] with
  | some r => r
  | none => sumRound s mode [a, b]

/-- Order of two numbers, -0 below +0 when `signed` (R146), equal otherwise. -/
def FVal.below (x y : FVal) : Bool :=
  match x, y with
  | .inf n, .inf n' => n && !n'
  | .inf n, _ => n
  | _, .inf n => !n
  | a, b => a.dy.lt b.dy

/-- Equal numbers; +0 equals -0. -/
def FVal.same (x y : FVal) : Bool := !x.isNan && !y.isNan && !x.below y && !y.below x

/-- `minmax` of R146 on bit patterns. -/
def minmax (s : FloatSpec) (greater : Bool) (xa xb : Nat) : Nat × Kinds :=
  let a := s.decode xa
  let b := s.decode xb
  let k : Kinds := if a.isSnan || b.isSnan then kInvalid else noKind
  match a, b with
  | .nan n _ p w, .nan .. => (s.nanResult n p w, k)
  | .nan .., _ => (xb, k)
  | _, .nan .. => (xa, k)
  | _, _ =>
    let lt := a.below b || (a.isZero && b.isZero && a.isNeg && !b.isNeg)
    let gt := b.below a || (a.isZero && b.isZero && b.isNeg && !a.isNeg)
    (if greater then (if lt then xb else xa) else (if gt then xb else xa), k)

/-- The floating-point relations of R81 and R148: result and event. -/
inductive FRel where
  | eq | ne | lt | le | un
  deriving DecidableEq, Repr

/-- A comparison of two values (R81, R148). -/
def FRel.eval (r : FRel) (a b : FVal) : Bool × Kinds :=
  let un := a.isNan || b.isNan
  match r with
  | .eq => (!un && a.same b, noKind)
  | .ne => (un || !a.same b, noKind)
  | .lt => (!un && a.below b, if un then kInvalid else noKind)
  | .le => (!un && !b.below a, if un then kInvalid else noKind)
  | .un => (un, noKind)

/-- Range of an integer format (R103). -/
def Fmt.intRange (g : Fmt) : Int × Int :=
  match g with
  | .i8 => (-128, 127)
  | .n8 => (0, 255)
  | .i16 => (-32768, 32767)
  | _ => (-2147483648, 2147483647)

/-- Value of an integer element (R103). -/
def Fmt.intValue (g : Fmt) (x : Nat) : Int :=
  match g with
  | .n8 => (x % 256 : Nat)
  | _ => (BitVec.ofNat g.width x).toInt

/-- The bit pattern of an integer reduced to the element width. -/
def Fmt.intBits (g : Fmt) (v : Int) : Nat := (v % (2 ^ g.width : Nat)).toNat

/-- Saturation to an integer format with its event (R103). -/
def saturate (g : Fmt) (v : Int) : Nat × Kinds :=
  let r := g.intRange
  if v < r.1 then (g.intBits r.1, kInvalid)
  else if r.2 < v then (g.intBits r.2, kInvalid)
  else (g.intBits v, noKind)

/-- A floating-point value into an integer format (R103). -/
def toIntFmt (g : Fmt) (mode : RMode) : FVal → Nat × Kinds
  | .nan .. => (0, kInvalid)
  | .inf neg => saturate g (if neg then g.intRange.1 - 1 else g.intRange.2 + 1)
  | x => saturate g (x.dy.toInt mode)

/-- A value into a floating-point format (R108, R109, R113). -/
def toFloatFmt (s : FloatSpec) (mode : RMode) : FVal → Nat × Kinds
  | .nan n q p b => (s.nanResult n p b, if q then noKind else kInvalid)
  | .inf neg => if s.special = .ieee then (s.signed neg s.infCode, noKind) else (s.overflow neg mode, kOverflow)
  | .fin n m e => s.round mode n m e

/-- An exact integer as a value; zero is +0. -/
def FVal.ofInt (v : Int) : FVal := .fin (decide (v < 0)) v.natAbs 0

/-- The value of a plain element (R100, R103). -/
def Fmt.value (g : Fmt) (x : Nat) : FVal := if g.isInt then .ofInt (g.intValue x) else g.spec.decode x

/-- The conversion of one plain element (R157). -/
def convert (src dst : Fmt) (mode : RMode) (x : Nat) : Nat × Kinds :=
  if src.isInt && dst.isInt then saturate dst (src.intValue x)
  else if dst.isInt then toIntFmt dst mode (src.value x)
  else toFloatFmt dst.spec mode (src.value x)

/-- VRND on one element (R150). -/
def vrndElem (s : FloatSpec) (mode : RMode) (x : Nat) : Nat × Kinds :=
  match s.decode x with
  | .nan n q p b => (s.nanResult n p b, if q then noKind else kInvalid)
  | .inf _ => (x, noKind)
  | .fin n m e =>
    let v := (FVal.fin n m e).dy.toInt mode
    if v = 0 then (s.signed n 0, noKind) else ((s.roundDy .rtz n ⟨v, 0⟩).1, noKind)

/-- VSCL on one pair of elements (R152). Scales beyond ±2048 round as ±2048 do in every format here. -/
def vsclElem (s : FloatSpec) (mode : RMode) (xn xy : Nat) : Nat × Kinds :=
  match s.decode xn with
  | .nan n q p b => (s.nanResult n p b, if q then noKind else kInvalid)
  | .inf true => (0, noKind)
  | .inf false => (s.infCode, noKind)
  | .fin n m e =>
    let big := decide (2048 < (m.log2 : Int) + e)
    let k : Int := if m = 0 then 0 else if big then (if n then -2048 else 2048) else
      max (-2048) (min 2048 ((FVal.fin n m e).dy.toInt .rtz))
    match s.decode xy with
    | .nan n' q' p' b' => (s.nanResult n' p' b', if q' then noKind else kInvalid)
    | .inf _ => (xy, noKind)
    | .fin n' m' e' => if m' = 0 then (xy, noKind) else s.round mode n' m' (e' + k)

/-! ### The fraction helpers (R151)

VRCPF and VRSQF are rounded from an exact quotient or root with a sticky bit. 2^x and log2 x are irrational wherever
they are not the exact cases named, so a value good to about 2^-250 with a sticky bit rounds as the exact value does
(DEDUCED, log entry 8). -/

/-- Fraction bits of the fixed-point series. -/
def seriesBits : Nat := 280

/-- floor(ln 2 × 2^300). -/
def ln2Scaled : Nat :=
  1411965743695424507508857192728570223734551239724995589061361292466257174357546532574725854

/-- The terms z^n / n! of exp at fixed point, `n` from the given index: their sum. -/
def expTerms : Nat → Nat → Int → Int → Int
  | 0, _, _, _ => 0
  | fuel + 1, n, z, t =>
    let t' := t * z / ((2 ^ seriesBits : Nat) * (n : Int))
    t' + expTerms fuel (n + 1) z t'

/-- 2^x at fixed point, for |x| at most one half: x = ±m × 2^e. -/
def exp2Scaled (x : Dy) : Nat :=
  let z : Int := x.m * ln2Scaled
  -- z × 2^(e - 300), brought to seriesBits of fraction
  let sh : Int := x.e - 300 + seriesBits
  let zs : Int := if 0 ≤ sh then z * (2 ^ sh.toNat : Nat) else z / (2 ^ (-sh).toNat : Nat)
  ((2 ^ seriesBits : Nat) + expTerms 64 1 zs (2 ^ seriesBits : Nat)).toNat

/-- The odd terms of artanh at fixed point: sum of z^(2n+1) / (2n+1), given z^(2n+1) and z^2. -/
def atanhTerms : Nat → Nat → Nat → Nat → Nat
  | 0, _, _, _ => 0
  | fuel + 1, n, zp, z2 => zp / (2 * n + 1) + atanhTerms fuel (n + 1) (zp * z2 / 2 ^ seriesBits) z2

/-- log2 of a significand m / 2^b in [1, 2) at fixed point. -/
def log2Scaled (m b : Nat) : Nat :=
  let z := (m - 2 ^ b) * 2 ^ seriesBits / (m + 2 ^ b)
  let z2 := z * z / 2 ^ seriesBits
  2 * atanhTerms 96 0 z z2 * 2 ^ 300 / ln2Scaled

/-- VEXF on one element (R151). -/
def vexfElem (s : FloatSpec) (mode : RMode) (x : Nat) : Nat × Kinds :=
  match s.decode x with
  | .nan n q p b => (s.nanResult n p b, if q then noKind else kInvalid)
  | .inf _ => invalidNan s
  | .fin n m e =>
    let v := (FVal.fin n m e).dy
    if m = 0 then s.round mode false 1 0
    else if (Dy.mk 1 (-1)).lt v.abs then invalidNan s
    else s.round mode false (2 * exp2Scaled v + 1) (-(seriesBits : Int) - 1)

/-- VLGF on one element (R151). -/
def vlgfElem (s : FloatSpec) (mode : RMode) (x : Nat) : Nat × Kinds :=
  match s.decode x with
  | .nan n q p b => (s.nanResult n p b, if q then noKind else kInvalid)
  | .inf true => invalidNan s
  | .inf false => (s.infCode, noKind)
  | .fin n m _ =>
    if m = 0 then (s.signed true s.infCode, noKind)
    else if n then invalidNan s
    else if m = 2 ^ m.log2 then (0, noKind)
    else s.round mode false (2 * log2Scaled m m.log2 + 1) (-(seriesBits : Int) - 1)

/-- VRCPF on one element (R151). -/
def vrcpfElem (s : FloatSpec) (mode : RMode) (x : Nat) : Nat × Kinds :=
  match s.decode x with
  | .nan n q p b => (s.nanResult n p b, if q then noKind else kInvalid)
  | .inf n => (s.signed n 0, noKind)
  | .fin n m e =>
    if m = 0 then (s.signed n s.infCode, noKind)
    else
      let k : Nat := 128
      let qt := 2 ^ k / m
      let sticky := if 2 ^ k % m = 0 then 0 else 1
      s.round mode n (2 * qt + sticky) (-(k : Int) - 1 - e)

/-- VRSQF on one element (R151). -/
def vrsqfElem (s : FloatSpec) (mode : RMode) (x : Nat) : Nat × Kinds :=
  match s.decode x with
  | .nan n q p b => (s.nanResult n p b, if q then noKind else kInvalid)
  | .inf true => invalidNan s
  | .inf false => (0, noKind)
  | .fin n m e =>
    if m = 0 then (s.signed n s.infCode, noKind)
    else if n then invalidNan s
    else
      -- x = m' × 2^(2h); 1/sqrt x = sqrt(2^160 / m') × 2^(-80 - h)
      let odd := decide (e % 2 ≠ 0)
      let m' := if odd then 2 * m else m
      let h : Int := (if odd then e - 1 else e) / 2
      let r := isqrt 81 (2 ^ 160 / m') 0
      let sticky := if r * r * m' = 2 ^ 160 then 0 else 1
      s.round mode false (2 * r + sticky) (-81 - h)

end Sys2Proof.Machine
end

