-- ==== Sys2Proof/Machine/BlockMath.lean ====
section
/-! DEFINITION. Block formats: MX scale search and encoding (R107, R193), the LQ8 codeword, the nearest-point
quantiser and its scale search (R202 to R211). All values exact. -/

namespace Sys2Proof.Machine

/-- What an event kind touched in one cell: the kind, its lane positions and its number of elements (R122). -/
structure EvItem where
  kind : Nat
  lanes : BitVec 16
  count : Nat
  deriving DecidableEq, Repr

/-- Whether a value has no place in a block: NaN or infinite (R107, R210). -/
def FVal.unblockable (x : FVal) : Bool := x.isNan || x.isInf

/-- The value of an E8M0 scale applied to an exact element value: x × 2^(s - 127) (R104, R106). -/
def mxScaled (s : Nat) (x : FVal) : FVal :=
  match x with
  | .fin n m e => .fin n m (e + (s : Int) - 127)
  | v => v

/-- The default FP32 NaN as a value: what an element under a NaN scale decodes to (R106, R205). -/
def nanElem : FVal := .nan false true 0 22

/-- The value of an MX element under its scale byte (R106). A NaN scale records no event of its own (R102, R207) (DESIGN CHOICE,
log entry 60). -/
def mxValue (g : Fmt) (s : Nat) (code : Nat) : FVal := if s = 255 then nanElem else mxScaled s (g.spec.decode code)

/-- The greatest of exact magnitudes. -/
def dyMax (xs : List Dy) : Dy := xs.foldl (fun a x => if a.lt x.abs then x.abs else a) .zero

/-- The first candidate of least error; candidates are tried as sd, sd + 1, sd - 1 and an equal error keeps the earlier
(R193, R209). -/
def leastErr : List (Nat × Dy) → Option (Nat × Dy)
  | [] => none
  | c :: cs =>
    match leastErr cs with
    | none => some c
    | some d => if d.2.lt c.2 then some d else some c

/-- The candidates of a scale search, within 0 to 254. -/
def scaleCandidates (sd : Nat) : List Nat :=
  [sd] ++ (if sd + 1 ≤ 254 then [sd + 1] else []) ++ (if 1 ≤ sd then [sd - 1] else [])

/-- Clamp an exponent to the scale range (R193, R209). -/
def clampScale (v : Int) : Nat := if v < 0 then 0 else if 254 < v then 254 else v.toNat

/-- One MX element quantised under scale `s` (R107). -/
def mxQuant (g : Fmt) (mode : RMode) (s : Nat) (x : FVal) : Nat × Kinds :=
  match x with
  | .fin n m e => g.spec.round mode n m (e + 127 - (s : Int))
  | _ => (0, noKind)

/-- The squared error of a block under scale `s` (R193). -/
def mxErr (g : Fmt) (mode : RMode) (s : Nat) (xs : List FVal) : Dy :=
  Dy.sum (xs.map fun x => ((mxValue g s (mxQuant g mode s x).1).dy.sub x.dy).sq)

/-- `mx_scale` of R193. -/
def mxScale (g : Fmt) (mode : RMode) (xs : List FVal) : Nat :=
  if xs.any FVal.unblockable then 255
  else
    let m := dyMax (xs.map FVal.dy)
    let emax : Int := if g = .mxfp4 then 2 else 8
    let sd := if m.m = 0 then 127 else clampScale (m.log2 - emax + 127)
    match leastErr ((scaleCandidates sd).map fun s => (s, mxErr g mode s xs)) with
    | some b => b.1
    | none => sd

/-- A block of 32 values in an MX format under a given scale (R107): element codes with each element's events.
Under 0xFF every element is +0 and each NaN or infinite value counts as quantised; a signalling NaN records nothing
beside that (DESIGN CHOICE, log entry 85). -/
def mxEncode (g : Fmt) (mode : RMode) (s : Nat) (xs : List FVal) : List (Nat × Kinds) :=
  if s = 255 then xs.map fun x => (0, if x.unblockable then kNanQuantised else noKind)
  else xs.map (mxQuant g mode s)

/-! ### LQ8 -/

/-- Half-units of an LQ8 codeword (R203). -/
def lqDecode (w : BitVec 16) : List Int :=
  if bit w 15 then
    let a : List Int := (List.range 8).map fun i => if bit w (7 + i) then 3 else 1
    let h : List Int := (List.range 7).map fun i => if bit w i then -(nth 0 a i) else nth 0 a i
    let t := h.foldl (· + ·) 0 + nth 0 a 7
    h ++ [if t % 4 = 0 then nth 0 a 7 else -(nth 0 a 7)]
  else
    let mags : List Bool := (List.range 7).map fun i => bit w (8 + i)
    let m7 := (mags.filter id).length % 2 == 1
    (indexed 0 (mags ++ [m7])).map fun p => if p.2 then (if bit w p.1 then -2 else 2) else 0

/-- The canonical codeword of a lattice point in half-units (R202, R204). -/
def lqEncode (h : List Int) : BitVec 16 :=
  let sign (i : Nat) : Nat := if nth 0 h i < 0 then 2 ^ i else 0
  if nth 0 h 0 % 2 = 0 then
    BitVec.ofNat 16 (((List.range 7).map fun i => if nth 0 h i = 0 then 0 else 2 ^ (8 + i)).foldl (· + ·) 0 +
      ((List.range 8).map sign).foldl (· + ·) 0)
  else
    BitVec.ofNat 16 (2 ^ 15 + ((List.range 8).map fun i => if (nth 0 h i).natAbs = 3 then 2 ^ (7 + i) else 0).foldl (· + ·) 0 +
      ((List.range 7).map sign).foldl (· + ·) 0)

/-- Squared distance of an exact coordinate from a point given in half-units. -/
def lqDist (y : Dy) (h : Int) : Dy := (y.sub ⟨h, -1⟩).sq

/-- Nearest of {-1, 0, +1} in half-units; a tie goes to the smaller magnitude (R208). -/
def lqNear0 (y : Dy) : Int := if (Dy.mk 1 (-1)).lt y.abs then (if y.m < 0 then -2 else 2) else 0

/-- The parity alternative in the integer coset (R208). -/
def lqAlt0 (y : Dy) (c : Int) : Int := if c ≠ 0 then 0 else if y.m < 0 then -2 else 2

/-- Nearest of {±1/2, ±3/2} in half-units; a tie to the smaller magnitude, then the positive (R208). -/
def lqNear1 (y : Dy) : Int := if (Dy.mk 1 0).lt y.abs then (if y.m < 0 then -3 else 3) else if y.m < 0 then -1 else 1

/-- The parity alternative in the half-integer coset (R208). -/
def lqAlt1 (y : Dy) (u : Int) : Int :=
  if u = 1 then (if (Dy.mk 1 (-1)).lt y then 3 else -1)
  else if u = -1 then (if y.lt ⟨-1, -1⟩ then -3 else 1)
  else if u = 3 then 1
  else -1

/-- The least index of least cost, counting from `i`: its index and cost. -/
def leastCost : Nat → List Dy → Option (Nat × Dy)
  | _, [] => none
  | i, c :: cs =>
    match leastCost (i + 1) cs with
    | none => some (i, c)
    | some d => if d.2.lt c then some d else some (i, c)

/-- A candidate point with its parity repaired: the cheapest single change, least index on a tie (R208). -/
def lqRepair (ys : List Dy) (pt alts : List Int) : List Int :=
  let costs := (ys.zip (pt.zip alts)).map fun p => (lqDist p.1 p.2.2).sub (lqDist p.1 p.2.1)
  match leastCost 0 costs with
  | some (j, _) => setNth pt j (nth 0 alts j)
  | none => pt

/-- Squared distance of eight coordinates from a point in half-units. -/
def lqDistAll (ys : List Dy) (pt : List Int) : Dy := Dy.sum ((ys.zip pt).map fun p => lqDist p.1 p.2)

/-- `lq_point` of R208: the nearest lattice point of eight exact coordinates, in half-units. -/
def lqPoint (ys : List Dy) : List Int :=
  let c := ys.map lqNear0
  let c := if (c.filter (· ≠ 0)).length % 2 = 1 then lqRepair ys c ((ys.zip c).map fun p => lqAlt0 p.1 p.2) else c
  let u := ys.map lqNear1
  -- the coordinate sum is half the sum of half-units; it is odd when that sum is 2 modulo 4
  let u := if u.foldl (· + ·) 0 % 4 = 2 then lqRepair ys u ((ys.zip u).map fun p => lqAlt1 p.1 p.2) else u
  if (lqDistAll ys u).lt (lqDistAll ys c) then u else c

/-- The value of an LQ8 element: h × 2^(s - 128), or the default NaN (R205). -/
def lqValue (s : Nat) (h : Int) : FVal := if s = 255 then nanElem else .fin (decide (h < 0)) h.natAbs ((s : Int) - 128)

/-- One element of a block to be encoded: whether it is present, and its value. -/
abbrev LqElem := Bool × FVal

/-- Cut a list in groups of eight. -/
def groups8 {α : Type} : Nat → List α → List (List α)
  | 0, _ => []
  | n + 1, xs => xs.take 8 :: groups8 n (xs.drop 8)

/-- The normalised coordinates of a group under a scale; absent positions are 0 (R208, R209). -/
def lqCoords (s : Nat) (g : List LqElem) : List Dy :=
  g.map fun x => if x.1 then x.2.dy.scale (127 - (s : Int)) else .zero

/-- The squared error of a block's present elements under scale `s` (R209). -/
def lqErr (s : Nat) (gs : List (List LqElem)) : Dy :=
  Dy.sum (gs.map fun g =>
    if g.any (·.1) then
      Dy.sum ((g.zip (lqPoint (lqCoords s g))).map fun p =>
        if p.1.1 then ((Dy.mk p.2 ((s : Int) - 128)).sub p.1.2.dy).sq else .zero)
    else .zero)

/-- `lq_scale` of R209 over the 64 elements of a block. -/
def lqScale (xs : List LqElem) : Nat :=
  if xs.any (fun x => x.1 && x.2.unblockable) then 255
  else
    let m := dyMax (xs.map fun x => if x.1 then x.2.dy else .zero)
    let sd :=
      if m.m = 0 then 127
      else
        let e := m.log2
        clampScale (if m.le ⟨3, e - 1⟩ then e + 127 else e + 128)
    if xs.any (·.1) then
      match leastErr ((scaleCandidates sd).map fun s => (s, lqErr s (groups8 8 xs))) with
      | some b => b.1
      | none => sd
    else 127

/-- A group's mask and count of elements that a test picks. -/
def groupItem (kind : Nat) (gs : List (List Bool)) : List EvItem :=
  let n := (gs.map fun g => (g.filter id).length).foldl (· + ·) 0
  if n = 0 then []
  else [⟨kind, BitVec.ofNat 16 (((indexed 0 gs).map fun p => if p.2.any id then 2 ^ p.1 else 0).foldl (· + ·) 0), n⟩]

/-- R210: the kind of event that a block's encoding under scale `s` records, and the elements that it counts. -/
def lqHits (s : Nat) (xs : List LqElem) : Nat × List Bool :=
  if s = 255 then (5, xs.map fun x => x.1 && x.2.unblockable)
  else (6, xs.map fun x => x.1 && (Dy.mk 7 (-2)).lt (x.2.dy.scale (127 - (s : Int))).abs)

/-- R210: the codewords of a block's groups under scale `s`, and its events by codeword. -/
def lqEncodeBlock (s : Nat) (xs : List LqElem) : List (BitVec 16) × List EvItem :=
  let gs := groups8 8 xs
  let hits := lqHits s xs
  (if s = 255 then gs.map fun _ => 0 else gs.map fun g => if g.any (·.1) then lqEncode (lqPoint (lqCoords s g)) else 0,
    groupItem hits.1 (groups8 8 hits.2))

end Sys2Proof.Machine
end

