-- ==== Sys2Proof/Machine/Sparse.lean ====
section
/-! DEFINITION. Sparse stores: a list of (index, value) pairs with strictly rising indices and no pair at the default
value, so that equal stores are equal lists. Every register file, tower and memory of the model is held so. -/

namespace Sys2Proof.Machine

/-- A sparse store of values; what an unlisted index holds is said where the store is read. -/
abbrev SMap (β : Type) := List (Nat × β)

/-- The value at index `n`, with the default `d` of an unlisted index. -/
def get {β : Type} (d : β) : SMap β → Nat → β
  | [], _ => d
  | (k, v) :: r, n => if k = n then v else get d r n

/-- Drop the entry at an index. -/
def drop {β : Type} (n : Nat) : SMap β → SMap β
  | [] => []
  | (k, v) :: r => if k = n then drop n r else (k, v) :: drop n r

/-- Put an entry in rising order of the indices. -/
def put {β : Type} (n : Nat) (v : β) : SMap β → SMap β
  | [] => [(n, v)]
  | (k, w) :: r => if n < k then (n, v) :: (k, w) :: r else (k, w) :: put n v r

/-- Write the value at an index; writing the default removes the entry. -/
def set {β : Type} [DecidableEq β] (d : β) (n : Nat) (v : β) (m : SMap β) : SMap β :=
  if v = d then drop n m else put n v (drop n m)

/-- Change the value at an index. -/
def alter {β : Type} [DecidableEq β] (d : β) (n : Nat) (f : β → β) (m : SMap β) : SMap β := set d n (f (get d m n)) m

/-- Every index of the store lies above `n`. -/
def above {β : Type} (n : Nat) (m : SMap β) : Bool := m.all fun p => decide (n < p.1)

/-- The canonical form: strictly rising indices, no entry at the default. -/
def canonical {β : Type} [DecidableEq β] (d : β) : SMap β → Bool
  | [] => true
  | (k, v) :: r => decide (v ≠ d) && above k r && canonical d r

/-- Bytes of an address space, as the host's cells: an unlisted address reads as zero (DESIGN CHOICE, log entry 2). -/
abbrev Bytes := List Host.Cell

/-- One byte of an address space. -/
def readByte (m : Bytes) (a : Nat) : Byte := get 0 m a

/-- Write one byte. -/
def writeByte (m : Bytes) (a : Nat) (b : Byte) : Bytes := set 0 a b m

/-- `n` bytes from an address up. -/
def readBytes (m : Bytes) : Nat → Nat → List Byte
  | _, 0 => []
  | a, n + 1 => readByte m a :: readBytes m (a + 1) n

/-- Write bytes from an address up. -/
def writeBytes (m : Bytes) : Nat → List Byte → Bytes
  | _, [] => m
  | a, b :: bs => writeBytes (writeByte m a b) (a + 1) bs

/-- The canonical form of a byte store. -/
def Bytes.wf (m : Bytes) : Bool := canonical (0 : Byte) m

end Sys2Proof.Machine
end

