-- ==== Sys2Proof/Machine/State.lean ====
section
/-! DEFINITION. The state of the device: every register, store and unit that the manual names, as plain data. Each
structure's default is its value right after reset; where the manual states none the value is zero or empty, log
entry 1 (registers) and log entry 2 (memory). Levels: while a trap handler runs, what the frozen schedule has in flight
keeps the handler depth it was scheduled at, and only what belongs to the running level advances (R411, R418). -/

namespace Sys2Proof.Machine

/-! ### A context -/

/-- One entry of the loop stack (R84). -/
structure LoopEntry where
  start : CodeAddr
  fin : CodeAddr
  count : BitVec 32
  deriving DecidableEq, Repr

/-- The register files that the landing buffer writes; their numbers are DKIND of R414. -/
inductive LReg where
  | g | p | lap
  deriving DecidableEq, Repr

/-- One entry of the landing buffer (R68, R70): the value lands at virtual cycle `due`. -/
structure Landing where
  kind : LReg
  idx : Nat
  val : Word
  due : Nat
  deriving DecidableEq, Repr

/-- What a context is doing (R96, R97, R360, R431). -/
inductive RunState where
  /-- Holds no launch, or its launch has not started. -/
  | idle
  | running
  /-- END has issued; the context drains its landings and streams (R96). -/
  | ending
  /-- Drained after END; stays so until its launch retires (R333). -/
  | stopped
  /-- SLEEP has issued; the landing buffer drains (R97). -/
  | sleeping
  /-- RFT has issued; the handler's landings and streams drain before the record is read (R420). -/
  | returning
  | dormant
  /-- Stopped by the starter after a YIELD under a drain (R360), landings emptying or empty. -/
  | drained
  /-- Stopped at a nested fault or without a vector, its state frozen (R422, R423). -/
  | wedged
  | retired
  deriving DecidableEq, Repr

/-- The streams of R414, by their KIND numbers. -/
inductive StreamKind where
  | mma | tldm | lattice | mload
  deriving DecidableEq, Repr

/-- One cell's event of a slot or stream. -/
structure CellEv where
  cell : Nat
  item : EvItem
  deriving DecidableEq, Repr

/-- A stream in progress (R143, R179, R194, R212): its C slot, the registers captured at its issue, what it has read. -/
structure Stream where
  kind : StreamKind
  /-- Handler depth it was issued at. -/
  level : Nat
  form : CForm
  /-- Address of the issuing bundle. -/
  pc : CodeAddr
  /-- Virtual cycle of its issue, in its level's count; negative where a handler has set the virtual time of the record below what
  the stream has done (R420). -/
  start : Int
  done : Nat
  left : Nat
  /-- Formats of the operands after region resolution (R172, R212): codes of R54. -/
  fa : Nat
  fb : Nat
  /-- The geometry register and the bound squads at its issue (R182, R183). -/
  geom : Word
  held : BitVec 4
  /-- LQNEAR rather than LQSCALE, for the lattice kind. -/
  writes : Bool
  /-- Register operands by cell: A at 2 × cell, B at 2 × cell + 1 (R429). -/
  cap : SMap Frag
  /-- Rows read so far, at cell × 64 + row. -/
  rows : SMap Row
  /-- Watchpoints that were set before its issue govern it: bit n for watchpoint n as it then stood (R342, R426). -/
  watch : List (Nat × List Word)
  /-- Events of the steps performed since the last record was appended (R189). -/
  evs : List CellEv
  /-- Value of now() in event records: the issue's virtual time (R122). -/
  evVt : Word
  /-- SYS.EVTRAP, the channel register that RT names, and the region tables of its cells, as they stood at its issue: a later
  SYSW governs later bundles only (R118, R336). -/
  evtrap : Word := 0
  chan : Word := 0
  rgn : SMap (SMap Word) := []
  /-- The update of an MLOAD has been performed (R194): a trap in its cycle does not perform it again. -/
  loaded : Bool := false
  deriving DecidableEq, Repr

/-- An advance of a handle not yet published to producers (R94): the handle, whether it is a fill, the slots, and what
it waits for: cycle of its issue and the cycle its accesses are done, at its level. -/
structure Advance where
  handle : Nat
  fill : Bool
  n : Nat
  level : Nat
  due : Nat
  deriving DecidableEq, Repr

/-- A CMEM load of a context that has not landed: level, landing cycle, its bytes (R94). -/
structure CmemLoad where
  level : Nat
  due : Nat
  off : Nat
  len : Nat
  deriving DecidableEq, Repr

/-- A wake entry of a handle (R297). -/
structure Wake where
  handle : Nat
  handler : CodeAddr
  station : BitVec 8
  lap : Word
  deriving DecidableEq, Repr

/-- A judge operation of a context (R289): the +1 of a BSEND with its baton, or the batch of a PROG. -/
inductive JudgeOp where
  /-- destination unit, handle, handler, payload; station and lap; package when the baton leaves this one (R294). -/
  | bsend (station : Nat) (lap : Word) (unit handle : Nat) (handler : BitVec 16) (pkg : Option Nat) (payload : List Byte)
  | prog (batch : List (Nat × Word × Int))
  deriving DecidableEq, Repr

/-- A cause that waits for delivery (R413): its code, slot, causing bundle where there is one, detail, WSKIP, and
whether it arose during a rail change (R379). -/
structure Pending where
  cause : BitVec 16
  slot : Nat
  fpc : Option CodeAddr
  info : Word
  wskip : Bool
  latched : Bool := false
  deriving DecidableEq, Repr

/-- A slot's numeric events, gathered until the bundle's records are appended (R121). -/
structure Raise where
  slot : Nat
  evs : List CellEv
  deriving DecidableEq, Repr

/-- How the address about to be fetched was reached, for the record of a fetch fault (R42). -/
inductive Via where
  /-- In sequence, at entry or at resumption. -/
  | seq
  /-- By the transfer of the bundle at `fpc`, to the 64-bit target. -/
  | transfer (fpc : CodeAddr) (target : Word)
  /-- By the fall through of the bundle at `fpc` past the stream's end. -/
  | fell (fpc : CodeAddr)
  deriving DecidableEq, Repr

/-- The bundle in issue, from its fetch to its end (R49, R82, R412). -/
structure Issue where
  pc : CodeAddr
  /-- The sequential next address of R82. -/
  next : CodeAddr
  hdr : BitVec 6 × BitVec 3
  s0 : Instr
  s1 : Instr
  m : Instr
  c : Instr
  f : Instr
  /-- The whole-bundle check has passed; slots are not checked again. -/
  checked : Bool
  /-- Completed slots, bit n for slot code n. -/
  done : BitVec 5
  /-- A taken transfer's 64-bit target (R82). -/
  target : Option Word
  /-- Numeric events of the slots so far. -/
  raises : List Raise
  /-- A watchpoint match of this bundle: slot and INFO (R426). -/
  watch : Option (Nat × Word)
  /-- A fault of a slot after issue: slot, cause, INFO (R412, R438). -/
  late : Option (Nat × BitVec 16 × Word)
  /-- The code of a TRAP (R98). -/
  user : Option (BitVec 16)
  /-- What the context does after the bundle: goes on, or drains for END, SLEEP, RFT or the starter. -/
  ending : RunState
  /-- SYS.EVTRAP as it governs the bundle: a SYSW of its own governs later ones (R336). -/
  evtrap : Word := 0
  deriving DecidableEq, Repr

/-- What a resumed bundle keeps from its fault record (R412, R420). -/
structure Resume where
  cmask : BitVec 5
  npc : Option CodeAddr
  deriving DecidableEq, Repr

/-- The trap registers of a handler level below the running one (R416, R420). -/
structure TrapLevel where
  /-- What the frozen schedule was doing: it goes on ending, sleeping or stopping after its return (R96, R97, R360). -/
  run : RunState
  tcause : Word
  taddr : Word
  trec : Word
  read : Bool
  recVt : Word
  deriving DecidableEq, Repr

/-- A hardware context (R20, R7, R337). Registers are stores by number; g0, p0 read as R7 says through Ops. -/
structure Ctx where
  run : RunState := .idle
  g : SMap Word := []
  p : SMap Bool := []
  lap : SMap Word := []
  /-- h0 to h15, in the layout of SYS.HDLn (R246, R332). -/
  h : SMap Word := []
  /-- tl0 to tl7, in the layout of SYS.TLHn (R315). -/
  tl : SMap Word := []
  pc : CodeAddr := 0
  via : Via := .seq
  /-- now(): virtual cycles, or handler cycles at depth above 0 (R65, R418). -/
  vt : Nat := 0
  loops : List LoopEntry := []
  land : List Landing := []
  /-- Skipped cycles still to elapse (R47). -/
  skip : Nat := 0
  /-- The charge of what has been performed of the present cycle before it passes (R374). -/
  owed : Nat := 0
  resume : Option Resume := none
  /-- The first stream step is not checked against watchpoints (R420). -/
  wskip : Bool := false
  streams : List Stream := []
  advances : List Advance := []
  loads : List CmemLoad := []
  wakes : List Wake := []
  issue : Option Issue := none
  place : Word := 0
  evflags : Word := 0
  evtrap : Word := 0
  sqgeom : Word := 0
  retrisk : Word := 0
  curst : Word := 0
  racea : Word := 0
  raceb : Word := 0
  racel : Word := 0
  xch : SMap Word := []
  engflta : Word := 0
  engfltb : Word := 0
  tcause : Word := 0
  taddr : Word := 0
  trec : Word := 0
  tvec : Word := 0
  tsave : Word := 0
  /-- DEPTH and READ of SYS.TSTATE (R416); PEND is counted from `pend`. -/
  depth : Nat := 0
  tread : Bool := false
  ncause : Word := 0
  naddr : Word := 0
  /-- The handler of the current level has read its SYS.TCAUSE since its entry, for the test of a nested fault (R422). -/
  tseen : Bool := false
  /-- VT of the current level's fault record (R418). -/
  recVt : Word := 0
  levels : List TrapLevel := []
  pend : List Pending := []
  priv : Word := 0
  errlast : Word := 0
  /-- An error stands in SYS.ERRLAST unread (R438). -/
  errHeld : Bool := false
  portsel : Word := 0
  /-- The gather configuration, four words (R329). -/
  gcfg : Option (List Word) := none
  judgeQ : List JudgeOp := []
  /-- The head of the queue has gone to the home judge of another package and is not yet answered (R303). -/
  judgeSent : Bool := false
  /-- The station whose frontier a FRONT has asked of the home judge of another package, and what that judge has answered
  (R300). -/
  frontAsk : Option Nat := none
  frontGot : Option (Nat × Word) := none
  /-- Declared next yield point: none before the first YIELD; some none for unknown (R359). -/
  yieldPt : Option (Option Nat) := none
  /-- The handler level whose now() the yield point counts in (R418). -/
  yieldLevel : Nat := 0
  /-- The last YIELD declared that no further yield point comes before END (R95). -/
  yieldEnd : Bool := false
  /-- Asked to stop at its next YIELD or END (R360). -/
  drainReq : Bool := false
  /-- Frozen for a checkpoint that waits for other contexts of its launch (R360, R371). -/
  frozen : Bool := false
  /-- Halted by the debugger, asked to halt, or let go for one bundle (R427, R431). -/
  halted : Bool := false
  haltReq : Bool := false
  stepReq : Bool := false
  /-- The frozen resume state as a debugger has rewritten it (R428 space 0x02); empty while it has written none. -/
  dbgRec : List Word := []
  deriving DecidableEq, Repr

/-! ### A cell and its tower -/

/-- Accumulator tags (R170). -/
inductive AccTag where
  | empty | fp | int
  deriving DecidableEq, Repr

/-- An accumulator: 16 rows of 32 elements, element (i, j) at 32 i + j (R170). -/
structure Acc where
  tag : AccTag := .empty
  el : SMap (BitVec 32) := []
  deriving DecidableEq, Repr

/-- An accumulator as it stood before the updates of one cycle, kept while MREAD and MDRAIN may still see it (R171). The cycle is
negative where a handler has set the virtual time of the record back (R420). -/
structure AccPast where
  which : Nat
  level : Nat
  cycle : Int
  before : Acc
  deriving DecidableEq, Repr

/-- A fragment in a latch or an express entry: bits, format code, block scales, fragment number (R181), and the 32-bit words of
its stored bits that hold an uncorrectable error (R433). -/
structure FragVal where
  bits : Frag := 0
  fmt : Nat := 0
  scales : List Nat := []
  num : Nat := 0
  bad : List Nat := []
  deriving DecidableEq, Repr

/-- A neighbour latch (R181). -/
structure Latch where
  val : FragVal := {}
  valid : Bool := false
  deriving DecidableEq, Repr

/-- An entry of the express receive buffer (R187). -/
structure Express where
  chan : Nat
  /-- A forwarded fragment, as against an XSND. -/
  forwarded : Bool
  val : FragVal
  deriving DecidableEq, Repr

/-- A result in a cell's landing queue (R133): bits of a vector register, or of a mask register. `await` is nonzero
while the stream with that issue has still to give the value (R143, R212). -/
structure CellLanding where
  level : Nat
  due : Nat
  isMask : Bool
  idx : Nat
  val : Row
  bits : Row
  await : Bool
  deriving DecidableEq, Repr

/-- A tower write on its way (R136): the bits of a row, and scale bytes that land with it (R192, R218). -/
structure TowerWrite where
  level : Nat
  due : Nat
  row : Nat
  val : Row
  bits : Row
  /-- Scale row, byte, value. -/
  scales : List (Nat × Nat × Byte)
  await : Bool
  deriving DecidableEq, Repr

/-- A fragment on its way to a latch in virtual time (R183, R197): latches N, E, S, W are 0 to 3. -/
structure FragMove where
  level : Nat
  due : Nat
  side : Nat
  val : FragVal
  deriving DecidableEq, Repr

/-- Layer states (R231), numbered as TPWR. -/
inductive LayerPower where
  | on | gated | drowsy | off
  deriving DecidableEq, Repr

/-- Vector-register group states (R138), numbered as VPWR. -/
inductive GroupPower where
  | on | gated | drowsy
  deriving DecidableEq, Repr

/-- A wake in progress on a layer (R232, R233): the state to restore after a transient one. -/
structure LayerWake where
  layer : Nat
  restore : Option LayerPower
  deriving DecidableEq, Repr

/-- A change that a TPWR makes when the writes before it have landed (R334). -/
structure PowerChange where
  level : Nat
  due : Nat
  layer : Nat
  target : LayerPower
  deriving DecidableEq, Repr

/-- A tower (R22): 1,024 rows at layer × 128 + bank × 16 + row. The XOR bank is the XOR of the data rows at every
moment (R228) and is not stored. Groups are layer × 9 + bank, bank 8 the XOR bank (R234). -/
structure Tower where
  rows : SMap Row := []
  layers : SMap LayerPower := []
  wakes : List LayerWake := []
  /-- Clock time of each group's last touch. -/
  touch : SMap Nat := []
  /-- End of each deferred layer's deferral, in clock cycles (R238). -/
  defer : SMap Nat := []
  /-- Rows whose stored bits hold an uncorrectable error, and XOR rows likewise at layer × 16 + row (R433). -/
  bad : List Nat := []
  badXor : List Nat := []
  deriving DecidableEq, Repr

/-- A cell (R21). -/
structure Cell where
  v : SMap Row := []
  m : SMap (BitVec 16) := []
  a0 : Acc := {}
  a1 : Acc := {}
  past : List AccPast := []
  /-- Latches N, E, S, W at 0 to 3. -/
  latch : SMap Latch := []
  rx : List Express := []
  land : List CellLanding := []
  writes : List TowerWrite := []
  frags : List FragMove := []
  /-- SYS.RGNn words (R117). -/
  rgn : SMap Word := []
  groups : SMap GroupPower := []
  groupWakes : List Nat := []
  power : List PowerChange := []
  tower : Tower := {}
  /-- Registers with uncorrectable errors and the 32-bit words of them: 0 to 31 v, 32 to 39 m, 40 and 41 a0 and a1, whose words
  are their elements (R433, R438). -/
  bad : List (Nat × Nat) := []
  deriving DecidableEq, Repr

/-- An unused spare tower is OFF in every layer (R242). -/
def Tower.offSpare : Tower :=
  { layers := [(0, .off), (1, .off), (2, .off), (3, .off), (4, .off), (5, .off), (6, .off), (7, .off)] }

/-! ### A core -/

/-- An operation of an engine context (R318, R319): its 16 descriptor words, its number, where it came from. -/
structure EngineOp where
  desc : List Word
  number : Word
  /-- Schedule entry index, or none for a CPGO. -/
  entry : Option Nat
  /-- Pattern position at which it begins: SKIP, or a committed position it starts again from (R319, R424). -/
  start : Nat
  /-- The issuing context and bundle of a CPGO, and its virtual time as event records show it (R122). -/
  ctx : Nat
  pc : CodeAddr
  vt : Word
  gate : Nat
  deriving DecidableEq, Repr

/-- A row that a column is to write (R243): its cells, the row, its bits and their mask, and the least position that it
holds. -/
structure ColRow where
  cells : List Nat := []
  row : Nat := 0
  val : Row := 0
  bits : Row := 0
  first : Nat := 0
  deriving DecidableEq, Repr

/-- The operation that an engine context runs (R328). -/
structure EngineRun where
  op : EngineOp
  /-- Committed position, and the one that is reached when all that follows is done. -/
  pos : Nat
  goal : Nat
  /-- SYS.SCBASE when it began (R116). -/
  scbase : Word
  /-- Tower rows still to be written, in order. -/
  rows : List ColRow := []
  /-- Region-table entries to be written (R323): cell, entry, word. -/
  entries : List (Nat × Nat × Word) := []
  /-- Packets for a remote package still to be sent: (address, byte) pairs, and the position after each. -/
  packets : List (List (Word × Byte) × Nat) := []
  /-- Port group that carries them. -/
  via : Nat := 0
  /-- Packets sent and not acknowledged: sequence number and position after each. -/
  sent : List (Nat × Nat) := []
  /-- The error it has met: number and address. -/
  err : Option (Nat × Word) := none
  /-- Clock time at which it began. -/
  since : Nat := 0
  deriving DecidableEq, Repr

/-- An engine context (R318, R327). -/
structure Engine where
  queue : List EngineOp := []
  run : Option EngineRun := none
  /-- Issued total (R318). -/
  issued : Word := 0
  done : BitVec 16 := 0
  /-- Stopped on an error since the last CPSTAT; its number; position of the last stop. -/
  stopped : Bool := false
  err : BitVec 8 := 0
  pos : Nat := 0
  deriving DecidableEq, Repr

/-- A queued gather index (R330). -/
structure GatherIdx where
  ctx : Nat
  cfg : List Word
  handle : Nat
  index : Word
  /-- SYS.CURST and its lap when it was fed, which give the unit's identity (R262). -/
  stamp : Option (Nat × Word)
  deriving DecidableEq, Repr

/-- A leaf translation held by a core's TLB (R393): domain, page, page size in bits, physical page, attributes. -/
structure TlbEntry where
  dom : Nat
  vpage : Nat
  bits : Nat
  ppage : Nat
  pte : Word
  deriving DecidableEq, Repr

/-- A table entry held by a die's walk cache (R393): domain, level, the addresses that it serves as their bits above that
level's, where it lies, what it held. -/
structure WalkEntry where
  dom : Nat
  lvl : Nat
  vpre : Nat
  addr : Nat
  pte : Word
  deriving DecidableEq, Repr

/-- A core (R19). -/
structure Core where
  ctxs : SMap Ctx := []
  cells : SMap Cell := []
  /-- Spare towers by row; unlisted ones are unused and OFF. -/
  spares : SMap Tower := []
  cmem : Bytes := []
  streamN : Nat := 0
  dictN : Nat := 0
  dict : SMap (BitVec 384) := []
  /-- Bundle-start bitmap: halfwords whose bit is 1 (R41). -/
  bitmap : SMap Bool := []
  /-- IMAGE_ID of a valid resident image (R45). -/
  image : Option Word := none
  /-- The launch that holds the core, by its number, and its unit-core slot there. -/
  launch : Option Nat := none
  slot : Nat := 0
  /-- Domain and squads of the last holder of each squad, for KEEP (R34). -/
  lastDom : SMap Nat := []
  /-- Context that holds the issue slot, and for how many cycles (R362). -/
  holder : Nat := 0
  held : Nat := 0
  evq : List (Word × Word) := []
  /-- DROP, OVF and ENGF of SYS.EVSTAT (R123). -/
  evDrop : BitVec 32 := 0
  evOvf : Bool := false
  evEng : BitVec 7 := 0
  /-- SYS.REMAPn words (R241). -/
  remap : SMap Word := []
  /-- Watchpoint configurations, four words each (R342). -/
  watch : SMap (List Word) := []
  engines : SMap Engine := []
  gather : List GatherIdx := []
  tlb : List TlbEntry := []
  /-- SYS.EWGRANT (R376). -/
  ewgrant : Word := 0x000000001FFF1FFF
  /-- Charges of the last core clock cycles, newest first (R375). -/
  charges : List Nat := []
  ewstall : Word := 0
  errcnt : Word := 0
  withdrawn : Bool := false
  /-- CMEM bytes with an uncorrectable error; dictionary entries and bitmap words with a parity error (R433). -/
  badCmem : List Nat := []
  badDict : List Nat := []
  badBits : List Nat := []
  /-- Units found to be lasting, awaiting the next launch boundary (R440). -/
  lasting : List ErrUnit := []
  /-- Errors met, corrected or not, each with its unit and clock time, and the units whose self-test they have started
  (R439); a unit here names core 0 for this core. -/
  errs : List (ErrUnit × Nat) := []
  tests : List ErrUnit := []
  deriving DecidableEq, Repr

/-! ### Launches, graphs, the starter -/

/-- A graph as its judge keeps it (R281, R285, R302). -/
structure Graph where
  id : Nat
  start : Nat
  stations : Nat
  fwbase : Word
  cross : Bool
  resv : Nat
  /-- Authoritative judge: 0 die 0, 1 die 1, 2 hub, 3 home hub of another package (R284), and which package that is (R303). -/
  auth : Nat
  home : Nat := 0
  /-- Station bytes (R282). -/
  stn : List (BitVec 8)
  /-- Summary codes, row by row (R278). -/
  table : List (BitVec 16)
  /-- Counts of the pointstamps held: ((station, lap), count). -/
  counts : List ((Nat × Word) × Int) := []
  /-- Announced frontiers by station; unlisted is lap 0. -/
  front : SMap Word := []
  /-- 0 running, 1 closed, 2 cancelled. -/
  state : Nat := 0
  cause : BitVec 48 := 0
  dropped : BitVec 32 := 0
  ignored : BitVec 32 := 0
  cancelUnit : Nat := 0x3FF
  /-- A GCANCEL accepted and not yet applied by the judge: its unit (R301). -/
  cancelReq : Option Nat := none
  deriving DecidableEq, Repr

/-- An express entry on its way to a cell (R186, R187). -/
structure ExpressMsg where
  launch : Nat
  core : Nat
  cell : Nat
  fromCore : Nat
  fromCell : Nat
  val : Express
  deriving DecidableEq, Repr

/-- Where a launch stands (R28, R360). -/
inductive LaunchPhase where
  | queued | placed | running
  /-- A drain is under way; for a watchdog, the launch goes to the tail of its queue. -/
  | draining (toTail : Bool)
  | checkpointing
  /-- A kill is under way, ending in this STATUS state and cause. -/
  | killing (state : Nat) (cause : BitVec 16)
  /-- The placement met an error: STATUS state and cause to come (R37, R369). -/
  | failing (state : Nat) (cause : BitVec 16)
  deriving DecidableEq, Repr

/-- What validation keeps of an image (R60, R367, R370): TRAPV, the relocation records' three words, and the head and
body words of the declarations of types 1 to 3. -/
structure Loaded where
  trapv : BitVec 32 := 0xFFFFFFFF
  relocs : List (Word × Word × Word) := []
  decls : List (Word × Word) := []
  deriving DecidableEq, Repr

/-- A launch (R28 to R38, R353 to R365). -/
structure Launch where
  /-- The record's ten words as validation read them. -/
  words : List Word
  va : Word
  dom : Nat
  queue : Nat
  /-- SUP of its domain at validation gives its privilege (R385). -/
  priv : Nat
  phase : LaunchPhase := .queued
  /-- Placed cores in slot order. -/
  cores : List Nat := []
  /-- Released stage (R326). -/
  stage : Nat := 0
  /-- SYS.SCBASE (R116). -/
  scbase : Word := 0
  /-- Timeline counters at slot × 8 + engine context (R315). -/
  counters : SMap Word := []
  graph : Option Graph := none
  progress : Nat := 0
  /-- Clock time of entering state 2; of the last watchdog restart, moved on by the time that does not count; and whether
  the watchdog's second period runs (R364, R431). -/
  runAt : Nat := 0
  wdogAt : Nat := 0
  wdogSecond : Bool := false
  /-- Order of placement (R358). -/
  placedSeq : Nat := 0
  /-- Holds a placement block (R457). -/
  block : Bool := false
  /-- Saved cores by slot, and graph reservation kept (R424). -/
  saved : Option (List (Nat × Core)) := none
  /-- Express entries that were on their way when it was saved; a core here is the slot of the launch (R424). -/
  express : List ExpressMsg := []
  /-- Saved-state frames it holds: first 64 KiB frame and count (R457). -/
  frames : List (Nat × Nat) := []
  image : Loaded := {}
  /-- The image's bytes where Filzan brings them, for self-test (R385). -/
  brought : Option (List Byte) := none
  /-- The parsed copy schedule: entries of 16 words (R31). -/
  copies : List (List Word) := []
  /-- An engine error met when every context had stopped (R333). -/
  engineFault : Bool := false
  deriving DecidableEq, Repr

/-- A launch queue (R350, R352). -/
structure Queue where
  enabled : Bool := false
  dom : Nat := 0
  /-- Virtual address of its descriptor, and the descriptor's first three words. -/
  va : Word := 0
  desc : List Word := []
  head : BitVec 32 := 0
  /-- Queued launches, head first. -/
  list : List Nat := []
  boost : Nat := 0
  skips : Nat := 0
  stamp : Nat := 0
  deriving DecidableEq, Repr

/-- A commitment (R355, R358): the launch, its tokens left, and the victims that were given an action. -/
structure Commitment where
  launch : Nat
  tokens : Nat
  acted : List Nat
  deriving DecidableEq, Repr

/-- The starter (R350 to R365). -/
structure Starter where
  queues : SMap Queue := []
  /-- The arbitration counter. -/
  arb : Nat := 0
  commit : Option Commitment := none
  heldOut : List Nat := []
  /-- A release event has come since the last arbitration point (R355). -/
  released : Bool := false
  /-- Clock time of the last slice boundary, and the slice length in force. -/
  sliceAt : Nat := 0
  slice : Nat := 208
  /-- SYS.STCFG (R353). -/
  stcfg : Word := 208
  nextLaunch : Nat := 0
  nextSeq : Nat := 0
  deriving DecidableEq, Repr

/-! ### Checked pages -/

/-- An agent of R249. -/
inductive Agent where
  | ctx (core ctx : Nat)
  | engine (core ectx : Nat)
  deriving DecidableEq, Repr

/-- An access identity (R262); a launch number says whose graph or counters cover it. -/
inductive Ident where
  | stamp (launch station : Nat) (lap : Word)
  | timeline (launch slot core ectx : Nat) (n : Word)
  | unstamped
  deriving DecidableEq, Repr

/-- A line's record (R263). -/
structure LineRec where
  agent : Agent
  id : Ident
  launch : Nat
  deriving DecidableEq, Repr

/-- The wide flag: the least lap, or never covered (R263). -/
structure Wide where
  launch : Nat
  lap : Option Word
  deriving DecidableEq, Repr

/-- The records of one 64-byte line of a checked page (R263). -/
structure Line where
  write : Option LineRec := none
  readers : List LineRec := []
  wide : Option Wide := none
  deriving DecidableEq, Repr

/-! ### Traffic in flight -/

/-- XPUT data on its way (R331). -/
structure Xput where
  launch : Nat
  /-- Sending unit, destination unit and handle. -/
  sender : Nat
  unit : Nat
  handle : Nat
  data : List Byte
  deriving DecidableEq, Repr

/-- A counted baton not yet delivered (R296). -/
structure Baton where
  launch : Nat
  station : Nat
  lap : Word
  sender : Nat
  unit : Nat
  handle : Nat
  handler : BitVec 16
  payload : List Byte
  /-- The package that sent it, where another did (R303). -/
  source : Option Nat := none
  deriving DecidableEq, Repr

/-- A host write held in the ingress buffer (R271). -/
structure HostWrite where
  rkey : BitVec 32
  dom : Nat
  va : Word
  data : List Byte
  deriving DecidableEq, Repr

/-! ### Power -/

/-- A cluster's rail and temperature (R17, R235, R380, R382). -/
structure Cluster where
  rail : Bool := true
  switching : Bool := false
  /-- The rail a change under way goes to. -/
  toRail : Bool := true
  cause : Nat := 0
  changes : BitVec 16 := 0
  stopped : Bool := false
  temp : Nat := 0
  deriving DecidableEq, Repr

/-! ### Management -/

/-- An address domain's descriptor (R387). -/
structure Domain where
  id : Nat
  parent : Nat
  dbg : Bool
  sup : Bool
  sigmask : BitVec 8
  root : Nat
  scbase : Word
  /-- First 64 KiB frame and frame count of each grant. -/
  grants : List (Nat × Nat)
  deriving DecidableEq, Repr

/-- A host window (R402). -/
structure Window where
  rkey : BitVec 32
  dom : Nat
  base : Nat
  len : Nat
  write : Bool
  readers : Word
  dropped : BitVec 64
  deriving DecidableEq, Repr

/-- Ownership states (R395, R397). -/
inductive OwnState where
  | unowned | owned | handover | locked
  deriving DecidableEq, Repr

/-- A Relay port (R444), by STATE 0 to 3. -/
inductive PortState where
  | down | inGroup | testing | lasting
  deriving DecidableEq, Repr

/-- A Relay port's registers (R444). -/
structure Port where
  state : PortState := .down
  lanes : BitVec 4 := 0
  replays : BitVec 16 := 0
  crcErr : BitVec 16 := 0
  group : Nat := 0
  /-- Tests passed since the port left its group. -/
  passed : Nat := 0
  /-- A session key is held, and the admission value of the FABRIC_JOIN that named the port (R405). -/
  keyed : Bool := false
  admission : List Byte := []
  /-- Clock times of its recent CRC failures (R443). -/
  crcTimes : List Nat := []
  deriving DecidableEq, Repr

/-- A group of bonded ports (R442, R443), kept under its lowest port number. -/
structure Group where
  ports : List Nat := []
  /-- The package at the far end, as it named itself when the group was joined (R403). -/
  peer : Nat := 0
  /-- Parts received of an operation that is not complete (R442). -/
  parts : Nat := 0
  width : Nat := 0
  /-- Next sequence number to send, the flits unacknowledged, oldest first, and the next expected to receive. -/
  sendSeq : Nat := 0
  unacked : List (Nat × RemoteOp) := []
  recvSeq : Nat := 0
  /-- The ports that carry it now, and whether the unacknowledged flits are still to be sent again after a loss (R443). -/
  active : List Nat := []
  resend : Bool := false
  /-- Clock time at which it last delivered, or had nothing to deliver (R443). -/
  delivered : Nat := 0
  /-- Sequence number, core and engine context of the packets that unacknowledged flits carry. -/
  owner : List (Nat × Nat × Nat) := []
  deriving DecidableEq, Repr

/-- A health-log entry (R400). -/
structure HealthEntry where
  time : Nat
  unit : ErrUnit
  lasting : Bool
  action : Nat
  deriving DecidableEq, Repr

/-- A dump slot (R446): its header's fields, the cores and launches it shows as they stood, and the core of the context
that caused it. -/
structure Dump where
  valid : Bool := false
  kind : Nat := 0
  fatal : Nat := 0
  cause : BitVec 16 := 0
  seq : Nat := 0
  time : Nat := 0
  cores : List (Nat × Core) := []
  launches : List (Nat × Launch) := []
  origin : Nat := 0
  /-- The bytes of section types 6 and 7 (device dumps only). -/
  judges : List Byte := []
  starter : List Byte := []
  deriving DecidableEq, Repr

/-- The host at the far end of a queue pair: a master, or an endpoint without a session. -/
inductive HostPeer where
  | master (m : Nat)
  | endpoint (e : Nat)
  deriving DecidableEq, Repr

/-- Answers of Filzan to masters, and of the host interface (R398, R402). -/
inductive Answer where
  /-- A response's bytes as R400 lays them out. -/
  | command (master : Nat) (bytes : List Byte)
  | rdmaAck (master qp : Nat)
  | rdmaRnr (master qp : Nat)
  | rdmaNak (master : Nat)
  | rdmaError (master : Nat)
  | rdmaData (master : Nat) (data : List Byte)
  /-- A NAK for an invalid request, to a queue pair (R401). -/
  | rdmaInvalid (master qp : Nat)
  /-- An unsupported option refused by an interface (R15). -/
  | refusal (overHost : Bool)
  | measurement (master : Nat)
  | relayAck (port seq : Nat)
  | relayNak (port seq : Nat)
  | relayError (port : Nat) (code : Nat)
  | relayData (port : Nat) (data : List Byte)
  /-- A flit that a group sends, or sends again (R442, R443). -/
  | relayFlit (group seq : Nat) (op : RemoteOp)
  deriving DecidableEq, Repr

/-- A response's bytes (R400): command with bit 7 set, tag, status, zero, body length, two zeros, and the body. -/
def responseBytes (cmd tag status : BitVec 8) (body : List Byte) : List Byte :=
  [cmd, tag, status, 0, BitVec.ofNat 8 body.length, BitVec.ofNat 8 (body.length / 256), 0, 0] ++ body

/-- A response to a master. -/
def answerOf (master : Nat) (cmd tag status : BitVec 8) (body : List Byte) : Answer := .command master (responseBytes cmd tag status body)

/-- Filzan's own state (R381, R394 to R408, R441 to R447). -/
structure Mgmt where
  own : OwnState := .unowned
  owner : Nat := 0xFF
  heir : Nat := 0xFF
  /-- Clock time at which the lease or handover ends, and the lease's length in seconds. -/
  leaseEnd : Nat := 0
  leaseSec : Nat := 0
  /-- Sessions: master to endpoint. -/
  sessions : SMap (Option Nat) := []
  /-- Recent authentication failures (clock times) and the end of a lock-out, by endpoint. -/
  failures : SMap (List Nat) := []
  lockout : SMap Nat := []
  authFail : BitVec 16 := 0
  trust : SMap (List Byte) := []
  keys : SMap (List Byte) := []
  domains : List Domain := []
  windows : List Window := []
  /-- R_Keys given since reset (never repeated, R402). -/
  usedKeys : List (BitVec 32) := []
  /-- Queue pairs that are connected, by number, each with its host (R401) (DESIGN CHOICE, log entry 62). -/
  pairs : SMap (Option HostPeer) := []
  /-- Queue pairs whose last write was answered with RNR NAK: the R_Key, offset and bytes of the write to be sent again
  (R402). -/
  retries : SMap (Option (Nat × Nat × List Byte)) := []
  unlocked : List Nat := []
  /-- Halts asked for and not yet answered (R379, R431): core, context, master, tag. -/
  halts : List (Nat × Nat × Nat × BitVec 8) := []
  /-- SYS.ALARM (R408): level, cause bits, level-1 events and their recent times. -/
  alarmLevel : Nat := 0
  alarmCause : BitVec 5 := 0
  alarmEvents : BitVec 32 := 0
  alarmTimes : List Nat := []
  bootFail : Bool := false
  /-- A fatal error froze the device (R445). -/
  fatal : Bool := false
  fabricId : BitVec 32 := 0
  package : Nat := 0
  bindings : List (Nat × Nat) := []
  joinFail : BitVec 48 := 0
  ports : SMap Port := []
  groups : SMap Group := []
  /-- What other packages are to be told, oldest first, as soon as a group takes it (R303); what a home judge tells all of them
  has an entry for each package at the far end of a port group, which names it. -/
  outbox : List (Option Nat × RemoteOp) := []
  /-- The port group, plus 1, that carries what goes to a destination: kept, so that what one source sends stays in order
  (R296, R303). A destination is a package, or 65,536 and a graph's name for its home. -/
  routes : SMap Nat := []
  /-- CROSS graphs whose home judge was here and whose launch is over, with their domain: what still comes for them is answered
  (R301, R303). -/
  ended : List (Nat × Graph) := []
  /-- Errors of link lanes within 24 hours, with their clock times, and the lanes whose self-test waits (R439): port, lane. -/
  laneErrs : List ((Nat × Nat) × Nat) := []
  laneTests : List (Nat × Nat) := []
  lasting : BitVec 16 := 0
  transient : BitVec 16 := 0
  health : List HealthEntry := []
  healthNext : Nat := 0
  dumps : SMap Dump := []
  dumpSeq : Nat := 1
  capW : Nat := 3200
  meanW : Nat := 0
  capLimits : BitVec 4 := 0
  deriving DecidableEq, Repr

/-! ### The device -/

/-- Whose turn it is: a core, and within a slot instruction the slot code it stands in. -/
structure Turn where
  core : Nat := 0
  ctx : Nat := 0
  slot : Nat := 0
  deriving DecidableEq, Repr

/-- The whole machine. -/
structure State where
  cores : SMap Core := []
  /-- Physical memory (R27). -/
  mem : Bytes := []
  /-- Physical bytes with an uncorrectable error (R433). -/
  badMem : List Nat := []
  /-- The walk cache of each compute die: table entries that walks have read (R393). -/
  walks : SMap (List WalkEntry) := []
  /-- Checked-line records by physical line number. -/
  lines : SMap Line := []
  launches : List (Nat × Launch) := []
  starter : Starter := {}
  xputs : List Xput := []
  batons : List Baton := []
  express : List ExpressMsg := []
  ingress : List HostWrite := []
  clusters : SMap Cluster := []
  /-- Network clock step of each die: 0 to 4 for 1.2 to 2.0 GHz (R383). -/
  noc : SMap Nat := []
  mgmt : Mgmt := {}
  /-- Clock time in cycles of the 850 MHz reference clock (R353). -/
  clock : Nat := 0
  turn : Turn := {}
  /-- Occurrences still to come, first first: what the outside world and clock time will do (DESIGN CHOICE, log entry 4). -/
  agenda : List Instr := []
  /-- How many occurrences at the head of the agenda arrive together (R398, R409). -/
  together : Nat := 0
  /-- What the device has answered, newest first. -/
  answers : List Answer := []
  /-- Counter of free values drawn (DESIGN CHOICE, log entry 11). -/
  freeCtr : Nat := 0
  deriving DecidableEq, Repr

/-- Why the model stops. -/
inductive Fault where
  /-- An occurrence of the agenda names a core, context, cell, launch or port that the device does not have (R16 to
  R19). Raised by the device's own steps; safe: no such occurrence can happen. -/
  | noSuchPart
  deriving DecidableEq, Repr

/-- Why an instruction has no meaning. -/
inductive Refusal where
  /-- The arm is not written yet. Raised by Dispatch only; safe. -/
  | notModelled (mnemonic : String)
  deriving DecidableEq, Repr

/-- The machine right after reset: every field at its stated reset value, the rest zero or empty (log entries 1, 2). -/
def State.reset : State := {}

/-- What a meaning answers. -/
abbrev Res := Host.Outcome State Fault Refusal

end Sys2Proof.Machine
end

