-- ==== Sys2Proof/Machine/Ops.lean ====
section
/-! DEFINITION. The named operations over the state: reading and writing registers, landing results, appending events,
and taking a trap and returning from one (R7, R59, R68 to R71, R121, R410 to R423). -/

namespace Sys2Proof.Machine

/-! ### Cause codes (R410) -/

def cIllegalOp : BitVec 16 := 0x0001
def cIllegalIndex : BitVec 16 := 0x0002
def cIllegalTarget : BitVec 16 := 0x0003
def cSchedCollide : BitVec 16 := 0x0004
def cLandingFull : BitVec 16 := 0x0005
def cPrivilege : BitVec 16 := 0x0006
def cTrapState : BitVec 16 := 0x0007
def cResumeInvalid : BitVec 16 := 0x0008
def cUserTrap : BitVec 16 := 0x0010
def cNumericEvent : BitVec 16 := 0x0011
def cWatchpoint : BitVec 16 := 0x0012
def cBufRange : BitVec 16 := 0x0020
def cLoopRange : BitVec 16 := 0x0021
def cLapRange : BitVec 16 := 0x0022
def cAddrSpace : BitVec 16 := 0x0030
def cMisaligned : BitVec 16 := 0x0031
def cPageFault : BitVec 16 := 0x0032
def cPageAccess : BitVec 16 := 0x0033
def cRace : BitVec 16 := 0x0034
def cBankTriple : BitVec 16 := 0x0040
def cTowerOff : BitVec 16 := 0x0041
def cFormatMismatch : BitVec 16 := 0x0042
def cRegionInvalid : BitVec 16 := 0x0043
def cExpressCfg : BitVec 16 := 0x0044
def cRetentionLimit : BitVec 16 := 0x0045
def cUncorrectable : BitVec 16 := 0x0046
def cCopyInvalid : BitVec 16 := 0x0050
def cGatherInvalid : BitVec 16 := 0x0051
def cDeliveryInvalid : BitVec 16 := 0x0052
def cWatchInvalid : BitVec 16 := 0x0053
def cEngineFault : BitVec 16 := 0x0054
def cStationInvalid : BitVec 16 := 0x0060
def cBatonInvalid : BitVec 16 := 0x0061
def cGraphInvalid : BitVec 16 := 0x0062
def cGraphFault : BitVec 16 := 0x0063
def cLaunchInvalid : BitVec 16 := 0x0100
def cLoadRange : BitVec 16 := 0x0101
def cImageFormat : BitVec 16 := 0x0102
def cCourseInvalid : BitVec 16 := 0x0103
def cPreempted : BitVec 16 := 0x0104
def cWatchdog : BitVec 16 := 0x0105
def cKilled : BitVec 16 := 0x0106
def cSecurityAlarm : BitVec 16 := 0x0107
def cNestedFault : BitVec 16 := 0x0108
def cNoVector : BitVec 16 := 0x0109

/-- The marker of a debugger halt among the causes that wait (R379): no code of R410. -/
def cHalt : BitVec 16 := 0x0000

/-- A cause found by a check, with its INFO (R415), and SYS.RACEA, SYS.RACEB, SYS.RACEL for RACE (R264). -/
structure Cause where
  code : BitVec 16
  info : Word := 0
  race : Option (Word × Word × Word) := none
  deriving DecidableEq, Repr

/-! ### Parts of the state -/

/-- A core of the device. -/
def State.core (s : State) (c : Nat) : Core := get {} s.cores c

/-- Put a core back. -/
def State.setCore (s : State) (c : Nat) (x : Core) : State := { s with cores := set {} c x s.cores }

/-- A context of a core. -/
def Core.ctx (x : Core) (k : Nat) : Ctx := get {} x.ctxs k

/-- Put a context back. -/
def Core.setCtx (x : Core) (k : Nat) (y : Ctx) : Core := { x with ctxs := set {} k y x.ctxs }

/-- A cell of a core. -/
def Core.cell (x : Core) (n : Nat) : Cell := get {} x.cells n

/-- Put a cell back. -/
def Core.setCell (x : Core) (n : Nat) (y : Cell) : Core := { x with cells := set {} n y x.cells }

/-- The spare tower of a row of cells (R242). -/
def Core.spare (x : Core) (r : Nat) : Tower := get .offSpare x.spares r

/-- Context `k` of core `c`. -/
def State.ctxAt (s : State) (c k : Nat) : Ctx := (s.core c).ctx k

/-- Put context `k` of core `c` back. -/
def State.setCtxAt (s : State) (c k : Nat) (y : Ctx) : State := s.setCore c ((s.core c).setCtx k y)

/-- Change a context. -/
def State.modCtxAt (s : State) (c k : Nat) (f : Ctx → Ctx) : State := s.setCtxAt c k (f (s.ctxAt c k))

/-- The core whose turn it is. -/
def State.cc (s : State) : Core := s.core s.turn.core

/-- The context whose turn it is: the one whose slot a slot instruction is. -/
def State.cx (s : State) : Ctx := s.ctxAt s.turn.core s.turn.ctx

/-- Put the current context back. -/
def State.setCx (s : State) (y : Ctx) : State := s.setCtxAt s.turn.core s.turn.ctx y

/-- Change the current context. -/
def State.modCx (s : State) (f : Ctx → Ctx) : State := s.setCx (f s.cx)

/-- Change the core whose turn it is. -/
def State.modCore (s : State) (f : Core → Core) : State := s.setCore s.turn.core (f s.cc)

/-- A launch by its number. -/
def State.launch? (s : State) (l : Nat) : Option Launch := s.launches.lookup l

/-- Put a launch back under its number. -/
def State.setLaunch (s : State) (l : Nat) (x : Launch) : State :=
  { s with launches := s.launches.map fun p => if p.1 = l then (l, x) else p }

/-- Change a launch. -/
def State.modLaunch (s : State) (l : Nat) (f : Launch → Launch) : State :=
  match s.launch? l with
  | some x => s.setLaunch l (f x)
  | none => s

/-- The launch of a core, with its number. -/
def State.launchOf (s : State) (c : Nat) : Option (Nat × Launch) :=
  match (s.core c).launch with
  | none => none
  | some l => (s.launch? l).map fun x => (l, x)

/-- The cluster of a core (R18): its device cluster number. -/
def clusterOf (c : Nat) : Nat := c / 4

/-- A cluster. -/
def State.cluster (s : State) (n : Nat) : Cluster := get {} s.clusters n

/-- Put a cluster back. -/
def State.setCluster (s : State) (n : Nat) (x : Cluster) : State := { s with clusters := set {} n x s.clusters }

/-- Change the management state. -/
def State.modMgmt (s : State) (f : Mgmt → Mgmt) : State := { s with mgmt := f s.mgmt }

/-! ### Registers (R7) -/

/-- g[n]: g0 reads zero. -/
def Ctx.greg (x : Ctx) (n : Nat) : Word := if n = 0 then 0 else get 0 x.g n

/-- p[n]: p0 reads true. -/
def Ctx.preg (x : Ctx) (n : Nat) : Bool := if n = 0 then true else get false x.p n

/-- lap[n]. -/
def Ctx.lapReg (x : Ctx) (n : Nat) : Word := get 0 x.lap n

/-- `pred(pr, pn)` of R59. -/
def Ctx.pred (x : Ctx) (pr : BitVec 3) (pn : BitVec 1) : Bool := xor (x.preg pr.toNat) (pn == 1)

/-- Write a register file when a value lands; writes to g0 and p0 are discarded (R7). -/
def Ctx.writeReg (x : Ctx) (k : LReg) (n : Nat) (v : Word) : Ctx :=
  match k with
  | .g => if n = 0 then x else { x with g := set 0 n v x.g }
  | .p => if n = 0 then x else { x with p := set false n (v != 0) x.p }
  | .lap => { x with lap := set 0 n v x.lap }

/-- A destination that is discarded at issue (R69). -/
def discarded (k : LReg) (n : Nat) : Bool :=
  match k with
  | .lap => false
  | _ => n == 0

/-- `land(reg, v, lat)` of R59: schedule a result (R68). -/
def Ctx.landAt (x : Ctx) (k : LReg) (n : Nat) (v : Word) (lat : Nat) : Ctx :=
  if discarded k n then x else { x with land := x.land ++ [⟨k, n, v, x.vt + lat⟩] }

/-- Apply the landings due in the current virtual cycle (R68). -/
def Ctx.landDue (x : Ctx) : Ctx :=
  (x.land.filter fun e => e.due ≤ x.vt).foldl (fun y e => y.writeReg e.kind e.idx e.val)
    { x with land := x.land.filter fun e => x.vt < e.due }

/-- A predicate's value as a landing value. -/
def predWord (b : Bool) : Word := if b then 1 else 0

/-- The context's privilege level (R385, R386). -/
def Ctx.pl (x : Ctx) : Nat := fieldN x.priv 16 2

/-- The context's bound-squad mask (R33). -/
def Ctx.sqm (x : Ctx) : BitVec 4 := field x.place 20 4

/-- The context's unit index (R33). -/
def Ctx.unit (x : Ctx) : Nat := fieldN x.place 32 9

/-- The value SYS.VTIME and event records show: now(), or in a handler VT of its record as it was saved at the trap's entry, whatever
the handler has stored into the record since (R67, R418) (DESIGN CHOICE, log entry 59). -/
def Ctx.shownVt (x : Ctx) : Word := if x.depth = 0 then BitVec.ofNat 64 x.vt else x.recVt

/-! ### Cells -/

/-- The pacer index of the squad of a cell, row × 16 + column (R9). -/
def squadOf (cell : Nat) : Nat := cell / 128 * 2 + cell % 16 / 8

/-- The cells of the squads in a mask, in rising number. -/
def cellsOf (sq : BitVec 4) : List Nat := (List.range 256).filter fun n => bit sq (squadOf n)

/-! ### Events (R120 to R124) -/

/-- The squads that hold an affected cell. -/
def squadMask (evs : List CellEv) : Nat :=
  ((List.range 4).map fun q => if evs.any (fun e => squadOf e.cell == q) then 2 ^ q else 0).foldl (· + ·) 0

/-- The record of one kind of a slot's events (R122): none when no cell raised it. -/
def eventRecord (w0 : Nat) (scalar : Bool) (evs : List CellEv) (kind : Nat) : Option (Word × Word) :=
  match evs.filter fun e => e.item.kind == kind with
  | [] => none
  | e :: es =>
    let all := e :: es
    let cell := all.foldl (fun m x => min m x.cell) e.cell
    let lanes := all.foldl (fun (m : BitVec 16) x => m ||| x.item.lanes) 0
    let count := min (all.foldl (fun n x => n + x.item.count) 0) 0xFFFFFFFF
    some (BitVec.ofNat 64 (w0 + (kind <<< 40)),
      if scalar then BitVec.ofNat 64 count
      else BitVec.ofNat 64 ((cell <<< 56) + (squadMask all <<< 52) + (lanes.toNat <<< 36) + count))

/-- Append a record to a core's event queue, or drop it and count the drop (R121). -/
def Core.appendEvent (x : Core) (r : Word × Word) : Core :=
  if x.evq.length < 64 then { x with evq := x.evq ++ [r] }
  else { x with evOvf := true, evDrop := BitVec.ofNat 32 (satAdd 32 x.evDrop.toNat 1) }

/-- The kinds among a slot's events, lowest first. -/
def kindsOf (evs : List CellEv) : List Nat := (List.range 8).filter fun k => evs.any fun e => e.item.kind == k

/-- `event(kind, slot, cells, lanes, n)` of R59 for all the kinds of one slot: records, then the sticky flags (R121,
R123). -/
def State.events (s : State) (c k : Nat) (pc : CodeAddr) (slot : Nat) (vt : Word) (evs : List CellEv) : State :=
  let w0 := ((pc.toNat % 65536) <<< 48) + (slot <<< 45) + (k <<< 34) + vt.toNat % 2 ^ 32
  let recs := (List.range 8).filterMap fun kind => eventRecord w0 (slot < 2) evs kind
  let s := s.setCore c (recs.foldl Core.appendEvent (s.core c))
  let flags : Nat := (kindsOf evs).foldl (fun n kind => n + 2 ^ kind) 0
  s.modCtxAt c k fun x => { x with evflags := x.evflags ||| BitVec.ofNat 64 flags }

/-- Note numeric events of the current slot; their records are appended when the bundle ends (R121). -/
def State.raise (s : State) (evs : List CellEv) : State :=
  if evs.isEmpty then s
  else
    match s.cx.issue with
    | some i => s.modCx fun x => { x with issue := some { i with raises := i.raises ++ [⟨s.turn.slot, evs⟩] } }
    | none => s.events s.turn.core s.turn.ctx s.cx.pc s.turn.slot s.cx.shownVt evs

/-- The events of a scalar result (R80): kinds as items without cell or lane. -/
def scalarEvs (k : Kinds) : List CellEv :=
  ((List.range 8).filter (bit k)).map fun kind => ⟨0, ⟨kind, 0, 1⟩⟩

/-! ### Errors (R433, R438, R439) -/

/-- Count errors in a 16-bit field of SYS.ERRCNT, saturating (R439). -/
def Core.countErr (k : Core) (lo n : Nat) : Core := { k with errcnt := setField k.errcnt lo 16 (satAdd 16 (fieldN k.errcnt lo 16) n) }

/-- Cycles of the reference clock in a millisecond. -/
def cyclesPerMs : Nat := 850000

/-- Cycles of the reference clock in 24 hours. -/
def dayCycles : Nat := 86400 * 1000 * cyclesPerMs

/-- An error of a unit is met: it counts for 24 hours, and the unit's self-test starts (R439). -/
def Core.meet (k : Core) (u : ErrUnit) (clk : Nat) : Core :=
  { k with errs := (k.errs.filter fun p => decide (clk < p.2 + dayCycles)) ++ [(u, clk)]
           tests := if k.tests.contains u then k.tests else k.tests ++ [u] }

/-- A corrected error of a unit: CTOWER or COTHER (R439). -/
def Core.countCorr (k : Core) (u : ErrUnit) (clk : Nat) : Core :=
  match u with
  | .towerBank .. => (k.countErr 48 1).meet u clk
  | _ => (k.countErr 32 1).meet u clk

/-- Where bad data stood, as SYS.ERRLAST names it (R438): STORE, cell, row or register, address. -/
structure BadAt where
  store : Nat
  cell : Nat := 0
  row : Nat := 0
  addr : Nat := 0
  deriving DecidableEq, Repr

/-- The unit of a core that holds it; memory and the code stores have none that a self-test names (R439). -/
def BadAt.unit (b : BadAt) : Option ErrUnit :=
  match b.store with
  | 0 => some (.towerBank 0 b.cell (b.row / 128) (b.row / 16 % 8))
  | 1 => some (.towerBank 0 b.cell (b.row / 128) 8)
  | 2 => some (.cmemWord 0 (b.addr / 8))
  | 3 => some (.cellUnit 0 b.cell b.row)
  | _ => none

/-- An uncorrectable error found, consumed or not: UNCORR (R439). -/
def Core.countUncorr (k : Core) (b : BadAt) (clk : Nat) : Core :=
  match b.unit with
  | some u => (k.countErr 16 1).meet u clk
  | none => k.countErr 16 1

/-- Set SYS.ERRLAST on consumption of an uncorrectable error (R438): the first stands, later ones set MORE. -/
def Ctx.noteError (x : Ctx) (b : BadAt) : Ctx :=
  if x.errHeld then { x with errlast := x.errlast ||| 0x1000000000000000 }
  else { x with errHeld := true
                errlast := BitVec.ofNat 64 ((b.store <<< 61) + (b.cell <<< 52) + ((if b.store = 3 then b.row % 32 else b.row) <<< 42) +
                  b.addr % 2 ^ 42) }

/-- A context of core `c` consumes bad data of core `home`: the error is counted there and SYS.ERRLAST of the context names it
(R438, R439). -/
def State.noteBadOf (s : State) (home c k : Nat) (b : BadAt) : State :=
  (s.setCore home ((s.core home).countUncorr b s.clock)).modCtxAt c k fun x => x.noteError b

/-- A context consumes bad data of its own core. -/
def State.noteBad (s : State) (c k : Nat) (b : BadAt) : State := s.noteBadOf c c k b

/-! ### CMEM (R251, R433) -/

/-- Whether CMEM bytes hold an uncorrectable error. -/
def Core.cmemBad (k : Core) (off n : Nat) : Bool := k.badCmem.any fun b => decide (off ≤ b) && decide (b < off + n)

/-- The first byte of a range that is in error. -/
def Core.firstBad (k : Core) (off n : Nat) : Nat :=
  (k.badCmem.filter fun b => decide (off ≤ b) && decide (b < off + n)).foldl min (off + n)

/-- Write CMEM. -/
def Core.writeCmem (k : Core) (off : Nat) (bs : List Byte) : Core :=
  { k with cmem := writeBytes k.cmem off bs
           badCmem := k.badCmem.filter fun b => !(decide (off ≤ b) && decide (b < off + bs.length)) }

/-! ### Ending a launch (R360) -/

/-- Stop a context for good and drop what it has in flight (R360). -/
def Ctx.kill (x : Ctx) : Ctx :=
  if x.run = .idle then x
  else { x with run := .stopped, land := [], streams := [], issue := none, resume := none, advances := [], pend := [],
                judgeQ := [], judgeSent := false, wakes := [], halted := false, haltReq := false, stepReq := false, dbgRec := [], skip := 0, owed := 0, frozen := false }

/-- Drop what a killed launch has in flight in a cell (R360). -/
def Cell.kill (x : Cell) : Cell := { x with land := [], writes := [], frags := [], power := [] }

/-- The deferrals of a tower end (R238). -/
def Tower.endDefer (t : Tower) : Tower := { t with defer := [] }

/-- Stop the engines of a core as R328 stops an operation, and drop its queues. -/
def Core.killEngines (x : Core) : Core :=
  { x with engines := x.engines.map fun (p : Nat × Engine) => (p.1, { p.2 with queue := [], run := none }), gather := [] }

/-- Begin the kill of a launch (R360): contexts and engines stop, the graph is to be cancelled, deferrals end; the cores
are freed and STATUS written when the kill completes. -/
def State.beginKill (s : State) (l : Nat) (state : Nat) (cause : BitVec 16) : State :=
  match s.launch? l with
  | none => s
  | some x =>
    match x.phase with
    | .killing .. => s
    | .failing .. => s
    | _ =>
      let s := x.cores.foldl (fun s c =>
        let k := s.core c
        let k := { k with ctxs := k.ctxs.map (fun (p : Nat × Ctx) => (p.1, p.2.kill)),
                          cells := k.cells.map fun (p : Nat × Cell) => (p.1, { p.2.kill with tower := p.2.tower.endDefer })
                          spares := k.spares.map fun (p : Nat × Tower) => (p.1, p.2.endDefer) }
        s.setCore c k.killEngines) s
      s.modLaunch l fun x => { x with
        phase := .killing state cause
        graph := x.graph.map fun g =>
          if g.state = 0 ∧ g.cancelReq = none then { g with cancelReq := some 0x3FF } else g }

/-! ### Traps -/

/-- What a trap is and the resume point it leaves (R412): virtual time is the context's own. -/
structure Trap where
  cause : BitVec 16
  fslot : Nat
  fpc : CodeAddr
  info : Word := 0
  rpc : CodeAddr
  cmask : BitVec 5 := 0
  skipl : Nat := 0
  npc : Option CodeAddr := none
  wskip : Bool := false
  deriving DecidableEq, Repr

/-- Sixteen-bit part of a code address. -/
def addr16of (a : CodeAddr) : Nat := a.toNat % 65536

/-- Word 0 of the fault record (R414). -/
def recordWord0 (t : Trap) (rail : Bool) : Nat :=
  (t.cause.toNat <<< 48) + (t.fslot <<< 45) + (t.cmask.toNat <<< 40) + (t.skipl <<< 37) +
    ((if rail then 1 else 0) <<< 36) + ((if t.npc.isSome then 1 else 0) <<< 35) +
    ((if t.wskip then 1 else 0) <<< 34) + ((t.rpc.toNat / 65536) <<< 33) + (addr16of t.fpc <<< 16) + addr16of t.rpc

/-- DKIND of a landing entry (R414). -/
def dkind : LReg → Nat
  | .g => 0
  | .p => 1
  | .lap => 2

/-- A loop entry's word (R414). -/
def loopWord (e : LoopEntry) : Nat := (addr16of e.start <<< 48) + (addr16of e.fin <<< 32) + e.count.toNat

/-- A landing entry's two words: value, and REM, DKIND, DIDX (R414). -/
def landWords (vt : Nat) (e : Landing) : List Nat := [e.val.toNat, (((e.due - vt) % 256) <<< 8) + (dkind e.kind <<< 6) + e.idx]

/-- KIND of a stream (R414). -/
def streamKindCode : StreamKind → Nat
  | .mma => 0
  | .tldm => 1
  | .lattice => 2
  | .mload => 3

/-- A stream's word (R414). -/
def streamWord (t : Stream) : Nat :=
  (1 <<< 63) + (streamKindCode t.kind <<< 60) + (t.form.sq.toNat <<< 56) + ((t.done % 2048) <<< 45) +
    ((t.left % 2048) <<< 34) + addr16of t.pc

/-- STATE of an engine context (R327). -/
def Engine.stateCode (e : Engine) : Nat := if e.stopped then 2 else if e.run.isSome || !e.queue.isEmpty then 1 else 0

/-- Committed position of an engine context. -/
def Engine.position (e : Engine) : Nat :=
  match e.run with
  | some r => r.pos
  | none => if e.stopped then e.pos else 0

/-- The highest position that an operation has begun: all of what it is to write, but of a remote read only the packets it
has asked for. -/
def EngineRun.begun (r : EngineRun) : Nat :=
  if fieldN (nth 0 r.op.desc 0) 48 4 = 4 then (r.sent.map Prod.snd).foldl max r.pos else max r.pos r.goal

/-- Speculative position of an engine context (R414). -/
def Engine.begun (e : Engine) : Nat :=
  match e.run with
  | some r => r.begun
  | none => e.position

/-- The two words of an engine context (R414). -/
def engineWords (e : Engine) : List Nat := [(e.stateCode <<< 62) + e.position, e.begun]

/-- Pad or cut a list to a length. -/
def fitTo (n : Nat) (xs : List Nat) : List Nat := (xs ++ List.replicate n 0).take n

/-- The 128 words of a fault record (R414). -/
def recordWords (t : Trap) (rail : Bool) (x : Ctx) (engines : SMap Engine) : List Nat :=
  let here := x.streams.filter fun st => st.level == x.depth
  [recordWord0 t rail, t.info.toNat, x.vt,
    (x.land.length <<< 24) + (x.loops.length <<< 20) + (match t.npc with
      | some a => a.toNat
      | none => 0)] ++
  fitTo 4 (x.loops.map loopWord) ++ fitTo 48 ((x.land.map (landWords x.vt)).flatten) ++
  fitTo 4 (here.map streamWord) ++ ((List.range 16).map fun n => (get 0 x.h n).toNat) ++
  (((List.range 8).map fun e => engineWords (get {} engines e)).flatten) ++ List.replicate 36 0

/-- SYS.TCAUSE after a trap (R416). -/
def tcauseWord (t : Trap) : Word := BitVec.ofNat 64 ((t.fslot <<< 37) + (t.cmask.toNat <<< 32) + t.cause.toNat)

/-- SYS.TADDR after a trap (R416). -/
def taddrWord (t : Trap) : Word :=
  BitVec.ofNat 64 (((t.rpc.toNat / 65536) <<< 32) + (addr16of t.rpc <<< 16) + addr16of t.fpc)

/-- Whether a trap is nested (R422). -/
def Ctx.nested (x : Ctx) : Bool := x.depth == 15 || (x.depth != 0 && !x.tseen)

/-- The context enters its handler (R417, step 3 and 4): trap registers, depth, empty loop stack, landings and skips. -/
def Ctx.enter (x : Ctx) (t : Trap) : Ctx :=
  { x with
    levels := ⟨x.run, x.tcause, x.taddr, x.trec, x.tseen, x.recVt⟩ :: x.levels
    tcause := tcauseWord t, taddr := taddrWord t, trec := BitVec.ofNat 64 (fieldN x.tsave 0 18)
    depth := x.depth + 1, tread := false, tseen := false, recVt := BitVec.ofNat 64 x.vt
    loops := [], land := [], skip := 0, resume := none, wskip := false, issue := none
    run := .running, vt := 0, pc := BitVec.ofNat 17 (fieldN x.tvec 0 16), via := .seq }

/-- A stream appends its record to the event queue (R121, R189). -/
def flushStream (c k : Nat) (s : State) (st : Stream) : State :=
  if st.evs.isEmpty then s else s.events c k st.pc 3 st.evVt st.evs

/-- A trap stops the streams of its level; those with events append their records (R189). -/
def State.flushStreams (s : State) (c k : Nat) : State :=
  let x := s.ctxAt c k
  let s := (x.streams.filter fun st => st.level == x.depth).foldl (flushStream c k) s
  s.modCtxAt c k fun x => { x with
    streams := x.streams.map fun st => if st.level = x.depth then { st with evs := [] } else st }

/-- Filzan writes a launch dump (R422, R423, R446): into the slot with the older SEQ, of every core of the launch. -/
def State.launchDump (s : State) (c l : Nat) (la : Launch) (cause : BitVec 16) : State :=
  let slot := if (get {} s.mgmt.dumps 1).seq ≤ (get {} s.mgmt.dumps 2).seq then 1 else 2
  let d : Dump := { valid := true, kind := 1, cause := cause, seq := s.mgmt.dumpSeq, time := s.clock / 1024
                    cores := la.cores.map (fun q => (q, s.core q)), launches := [(l, la)], origin := c }
  { s with mgmt := { s.mgmt with dumps := set {} slot d s.mgmt.dumps, dumpSeq := s.mgmt.dumpSeq + 1 } }

/-- The resume point of a trap, frozen in the context itself (R422, R431). -/
def Ctx.freezeAt (x : Ctx) (t : Trap) : Ctx :=
  { x with issue := none, pc := t.rpc, via := .seq, skip := t.skipl, wskip := t.wskip
           resume := if t.cmask = 0 then none else some ⟨t.cmask, t.npc⟩ }

/-! ### Halting -/

/-- Halt for the debugger (R431), and answer the halts that wait for it: OK (DEDUCED, log entry 44). -/
def State.halt (s : State) (c k : Nat) : State :=
  let mine (h : Nat × Nat × Nat × BitVec 8) : Bool := h.1 == c && h.2.1 == k
  let s := s.modCtxAt c k fun x => { x with halted := true, haltReq := false, pend := x.pend.filter fun p => p.cause != cHalt }
  { s with
    mgmt := { s.mgmt with halts := s.mgmt.halts.filter fun h => !mine h }
    answers := ((s.mgmt.halts.filter mine).map fun h => answerOf h.2.2.1 0xE2 h.2.2.2 0 []) ++ s.answers }

/-- A context without a usable handler stops where it is: halted for the debugger where its domain is open to it, else
its launch ends, after Filzan's dump (R422, R423) (DEDUCED, log entry 44). -/
def State.wedge (s : State) (c k : Nat) (t : Trap) (cause : BitVec 16) : State :=
  let s := s.modCtxAt c k fun x => x.freezeAt t
  let stop := s.modCtxAt c k fun x => { x with run := .wedged }
  match s.launchOf c with
  | none => stop
  | some (l, la) =>
    if s.mgmt.unlocked.contains la.dom then s.halt c k
    else (stop.launchDump c l la cause).beginKill l 6 cause

/-- TAKING AN EXCEPTION (R411 to R423), the one operation for every trap of the device: with a vector, the record is
written at SYS.TSAVE, the trap registers are set and the handler starts; nested or without a vector the context stops. -/
def State.takeTrap (s : State) (c k : Nat) (t : Trap) : State :=
  let s := s.flushStreams c k
  let x := s.ctxAt c k
  if !bit x.tvec 16 then
    s.wedge c k t (if t.cause = cUserTrap then cNoVector else t.cause)
  else if x.nested then
    (s.modCtxAt c k fun x => { x with
      ncause := BitVec.ofNat 64 t.cause.toNat, naddr := BitVec.ofNat 64 (addr16of t.fpc) }).wedge c k t cNestedFault
  else
    let core := s.core c
    let words := recordWords t (s.cluster (clusterOf c)).rail x core.engines
    s.setCore c ((core.writeCmem (fieldN x.tsave 0 18) ((words.map (leBytes 8)).flatten)).setCtx k (x.enter t))

/-- A cause of class 3 or 4 waits for delivery; one already waiting merges with it (R413), a NUMERIC_EVENT keeping its first slot,
FPC and INFO (DESIGN CHOICE, log entry 72). -/
def Ctx.pending (x : Ctx) (p : Pending) : Ctx :=
  if x.pend.any fun q => q.cause == p.cause then x else { x with pend := x.pend ++ [p] }

/-- A cause that arises for a context whatever it is doing; during a rail change it is latched (R379). -/
def State.pendCause (s : State) (c k : Nat) (p : Pending) : State :=
  s.modCtxAt c k fun x => x.pending { p with latched := (s.cluster (clusterOf c)).switching }

/-! ### Returning (R420) -/

/-- The words of a record read back from CMEM. -/
def recordRead (cmem : Bytes) (off : Nat) : List Word :=
  (List.range 128).map fun i => BitVec.ofNat 64 (leNat (readBytes cmem (off + 8 * i) 8))

/-- A landing entry read back: register, index, value and REM (R414). -/
def landRead (val w : Word) : Option (LReg × Nat × Word × Nat) :=
  let i := fieldN w 0 6
  let ok (k : LReg) : Option (LReg × Nat × Word × Nat) := some (k, i, val, fieldN w 8 8)
  if fieldN w 16 48 ≠ 0 then none
  else
    match fieldN w 6 2 with
    | 0 => if i = 0 then none else ok .g
    | 1 => if i = 0 ∨ 8 ≤ i then none else ok .p
    | 2 => if 4 ≤ i then none else ok .lap
    | _ => none

/-- Every element of a list of options, or none. -/
def allSome {α : Type} : List (Option α) → Option (List α)
  | [] => some []
  | none :: _ => none
  | some x :: xs => (allSome xs).map (x :: ·)

/-- No two entries share a register and a cycle. -/
def distinctLand : List (LReg × Nat × Word × Nat) → Bool
  | [] => true
  | e :: es => !es.any (fun f => f.1 == e.1 && f.2.1 == e.2.1 && f.2.2.2 == e.2.2.2) && distinctLand es

/-- Loop entries nest as R85 requires, bottom first. -/
def loopsNest : List LoopEntry → Bool
  | [] => true
  | [e] => decide (e.start.toNat ≤ e.fin.toNat)
  | e :: f :: es => decide (e.start.toNat ≤ e.fin.toNat) && decide (e.start.toNat ≤ f.start.toNat) &&
      decide (f.fin.toNat ≤ e.fin.toNat) && loopsNest (f :: es)

/-- What RFT reads back of a record (R420). -/
structure Restored where
  rpc : CodeAddr
  cmask : BitVec 5
  skipl : Nat
  npc : Option CodeAddr
  wskip : Bool
  vt : Nat
  loops : List LoopEntry
  land : List Landing
  deriving DecidableEq, Repr

/-- A loop entry read back. -/
def loopRead (w : Word) : LoopEntry := ⟨BitVec.ofNat 17 (fieldN w 48 16), BitVec.ofNat 17 (fieldN w 32 16), field w 0 32⟩

/-- `valid(rec)` of R420, giving what the record restores. -/
def restoreRecord (ws : List Word) : Option Restored :=
  let w0 := nth 0 ws 0
  let w3 := nth 0 ws 3
  let nland := fieldN w3 24 5
  let ldepth := fieldN w3 20 3
  let vt := (nth 0 ws 2).toNat
  let cmask : BitVec 5 := field w0 40 5
  let npcv := bit w0 35
  let loops := ((ws.drop 4).take 4).map loopRead |>.take ldepth
  let lands := allSome ((List.range nland).map fun i => landRead (nth 0 ws (8 + 2 * i)) (nth 0 ws (9 + 2 * i)))
  if bit w0 32 || fieldN w3 29 35 != 0 || bit w3 23 || fieldN w3 17 3 != 0 then none
  else if (List.range 24).any fun i => fieldN (nth 0 ws (9 + 2 * i)) 16 48 != 0 then none
  else if 24 < nland ∨ 4 < ldepth then none
  else if (ws.drop 92).any (fun w => w != 0) then none
  else if npcv != bit cmask 4 then none
  else if !loopsNest loops then none
  else
    match lands with
    | none => none
    | some es =>
      if distinctLand es then
        some { rpc := BitVec.ofNat 17 ((if bit w0 33 then 65536 else 0) + fieldN w0 0 16)
               cmask := cmask, skipl := fieldN w0 37 3
               npc := if npcv then some (field w3 0 17) else none
               wskip := bit w0 34, vt := vt, loops := loops
               land := es.map fun e => ⟨e.1, e.2.1, e.2.2.1, vt + e.2.2.2⟩ }
      else none

/-- Accumulator updates of a finished handler are seen at once (R419): only those of the levels that remain are kept
(DEDUCED, log entry 26). -/
def Cell.leaveLevel (x : Cell) (depth : Nat) : Cell := { x with past := x.past.filter fun p => p.level ≤ depth }

/-- The context takes up a resume point: the level below's registers stand again, and the handler's streams, which are over,
are gone with it (R420). -/
def Ctx.leave (x : Ctx) (r : Restored) : Ctx :=
  match x.levels with
  | [] => x
  | l :: ls =>
    { x with
      levels := ls, tcause := l.tcause, taddr := l.taddr, trec := l.trec, tseen := l.read, recVt := l.recVt
      depth := x.depth - 1, run := l.run, issue := none, streams := x.streams.filter fun st => decide (st.level < x.depth)
      loops := r.loops, land := r.land, vt := r.vt, pc := r.rpc, via := .seq, skip := r.skipl, wskip := r.wskip
      resume := if r.cmask = 0 then none else some ⟨r.cmask, r.npc⟩ }

/-- A cycle to come of a frozen schedule when its virtual time is set from one value to another: what remains stays the same.
What lies before the present cycle, a stream's start and an accumulator's update, is moved as an integer. -/
def moveTo (old new n : Nat) : Nat := n + new - old

/-- What a cell has in flight at a level, when a handler has changed VT in the record: its remaining cycles stand. -/
def Cell.moveLevel (x : Cell) (level old new : Nat) : Cell :=
  let m (l n : Nat) : Nat := if l = level then moveTo old new n else n
  { x with
    land := x.land.map fun e => { e with due := m e.level e.due }
    writes := x.writes.map fun e => { e with due := m e.level e.due }
    frags := x.frags.map fun e => { e with due := m e.level e.due }
    power := x.power.map fun e => { e with due := m e.level e.due }
    past := x.past.map fun e => { e with cycle := if e.level = level then e.cycle + new - old else e.cycle } }

/-- The same for a context's streams, advances and loads. -/
def Ctx.moveLevel (x : Ctx) (level old new : Nat) : Ctx :=
  let m (l n : Nat) : Nat := if l = level then moveTo old new n else n
  { x with
    streams := x.streams.map fun e => { e with start := if e.level = level then e.start + new - old else e.start }
    advances := x.advances.map fun e => { e with due := m e.level e.due }
    loads := x.loads.map fun e => { e with due := m e.level e.due } }

/-- A fault of the RFT at its own bundle, whose other slots are complete, so that CMASK names them (DESIGN CHOICE, log entry 77);
the handler's level is unchanged (R420). -/
def State.rftFault (s : State) (c k : Nat) (cause : BitVec 16) : State :=
  match (s.ctxAt c k).issue with
  | some i => (s.modCtxAt c k fun x => { x with run := .running }).takeTrap c k
      { cause := cause, fslot := 4, fpc := i.pc, rpc := i.pc, cmask := i.done &&& 0x0F }
  | none => s

/-- RETURNING FROM AN EXCEPTION (R420), once the handler's landings and streams are empty: the frozen schedule of the
record stands again, or the bundle of the RFT raises RESUME_INVALID, or UNCORRECTABLE where the record cannot be read
(R438). -/
def State.doRft (s : State) (c k : Nat) : State :=
  let core := s.core c
  let x := core.ctx k
  let off := fieldN x.trec 0 18
  if core.cmemBad off 1024 then
    (s.noteBad c k ⟨2, 0, 0, core.firstBad off 1024⟩).rftFault c k cUncorrectable
  else
  match restoreRecord (recordRead core.cmem (fieldN x.trec 0 18)) with
  | some r =>
    let old := x.recVt.toNat
    let core := { core with cells := core.cells.map fun (p : Nat × Cell) =>
      (p.1, if bit x.sqm (squadOf p.1) then (p.2.leaveLevel (x.depth - 1)).moveLevel (x.depth - 1) old r.vt else p.2) }
    s.setCore c (core.setCtx k ((x.leave r).moveLevel (x.depth - 1) old r.vt))
  | none => s.rftFault c k cResumeInvalid

/-! ### Slots -/

/-- Write the registers that RACE writes before its trap (R264). -/
def State.noteRace (s : State) (c k : Nat) (cz : Cause) : State :=
  match cz.race with
  | some (a, b, l) => s.modCtxAt c k fun x => { x with racea := a, raceb := b, racel := l }
  | none => s

/-- The issuing slot's trap at issue: no slot of the bundle takes effect (R49, R412). -/
def State.trapIssue (s : State) (cz : Cause) : State :=
  let x := s.cx
  let pc := match x.issue with
    | some i => i.pc
    | none => x.pc
  (s.noteRace s.turn.core s.turn.ctx cz).takeTrap s.turn.core s.turn.ctx
    { cause := cz.code, fslot := s.turn.slot, fpc := pc, info := cz.info, rpc := pc }

/-- Mark the current slot complete (R12, R412) (DEDUCED, log entry 19). -/
def State.complete (s : State) : State :=
  match s.cx.issue with
  | some i => s.modCx fun x => { x with issue := some { i with done := setField i.done s.turn.slot 1 1 } }
  | none => s

end Sys2Proof.Machine
end

