-- ==== Sys2Proof/Machine/Memory.lean ====
section
/-! DEFINITION. Memory: effective addresses, page walks and attributes, checked lines, watchpoints on global addresses,
and the accesses every agent makes through them (R26, R27, R249 to R272, R305, R389 to R393, R425, R433, R438). -/

namespace Sys2Proof.Machine

/-! ### Effective addresses (R26) -/

/-- Where an effective address points. -/
inductive Space where
  | glob (va : Nat)
  | cmem (off : Nat)
  | sibling (slot off : Nat)
  deriving DecidableEq, Repr

/-- The selector's decoding (R26); none is ADDR_SPACE. -/
def spaceOf (ea : Word) : Option Space :=
  match fieldN ea 56 8 with
  | 0x00 => some (.glob (fieldN ea 0 56))
  | 0xCE => if fieldN ea 18 38 = 0 then some (.cmem (fieldN ea 0 18)) else none
  | 0xC8 => if fieldN ea 25 31 = 0 then some (.sibling (fieldN ea 18 7) (fieldN ea 0 18)) else none
  | _ => none

/-- What an access does to its location. -/
inductive AccKind where
  | load | store | atomic
  deriving DecidableEq, Repr

/-- Rows 6 and 7 of R306 for an access of `n` bytes aligned to `al`: ADDR_SPACE (R26, R39), then MISALIGNED (R250). -/
def State.addrCause (s : State) (c : Nat) (kind : AccKind) (n al : Nat) (ea : Word) : Option Cause :=
  let aligned : Option Cause := if ea.toNat % al = 0 then none else some ⟨cMisaligned, ea, none⟩
  match spaceOf ea with
  | none => some ⟨cAddrSpace, ea, none⟩
  | some (.glob _) => aligned
  | some (.cmem off) =>
    if kind ≠ .load ∧ 0 < n ∧ off < 2 * (s.core c).streamN then some ⟨cAddrSpace, ea, none⟩ else aligned
  | some (.sibling slot _) =>
    let cores := match s.launchOf c with
      | some (_, l) => l.cores.length
      | none => 0
    if kind = .load ∧ slot < cores then aligned else some ⟨cAddrSpace, ea, none⟩

/-! ### Translation (R389 to R393) -/

/-- A location an address translates to. -/
inductive Loc where
  | mem (pa : Nat)
  /-- Byte of the counter page of a launch's slot (R315). -/
  | counter (launch slot off : Nat)
  deriving DecidableEq, Repr

/-- A translation: where, and the leaf's attributes in their places of R390. -/
structure Xlat where
  loc : Loc
  pte : Word
  deriving DecidableEq, Repr

/-- Physical addresses that exist (R27). -/
def physExists (pa : Nat) : Bool := decide (pa < 0x8000000000) && decide (pa % 0x1000000000 ≤ 0xEE6B27FFF)

/-- Every byte of a range exists: it lies in one stack (R27). -/
def physRange (pa n : Nat) : Bool :=
  physExists pa && physExists (pa + n - 1) && decide (pa / 0x1000000000 = (pa + n - 1) / 0x1000000000)

/-- Whether a range lies in the Filzan reserved region or meets it (R27). -/
def meetsFilzan (pa n : Nat) : Bool := decide (pa ≤ 0x7EE6B27FFF) && decide (0x7DE6B28000 < pa + n)

/-- A range within one grant of a domain (R387). -/
def Domain.grantsRange (d : Domain) (pa n : Nat) : Bool :=
  d.grants.any fun g => decide (g.1 * 65536 ≤ pa) && decide (pa + n ≤ (g.1 + g.2) * 65536)

/-- Virtual-address bits below the index of a level: the size in bits that one entry of the level maps (R389). -/
def levelShift : Nat → Nat
  | 0 => 16 | 1 => 21 | 2 => 30 | 3 => 39 | _ => 48

/-- Index bits of a level (R389). -/
def levelBits : Nat → Nat
  | 0 => 5 | 4 => 8 | _ => 9

/-- Bytes of a level's table, which is also its alignment (R389). -/
def tableSize (lvl : Nat) : Nat := 8 * 2 ^ levelBits lvl

/-- Index of an address at a level. -/
def levelIndex (lvl va : Nat) : Nat := va / 2 ^ levelShift lvl % 2 ^ levelBits lvl

/-- Bits of an entry that stand for leaf-only fields (R390): FMT, CTR, FX, HWIN, CK, SUP, XD, WR, RD. -/
def leafOnly : Word := 0x00FF0000000000F0

/-- Reserved bits of an entry (R390). -/
def pteReserved : Word := 0x3F0000000000000F

/-- FMT of a leaf (R390). -/
def pteFmt (e : Word) : Nat := fieldN e 52 4

/-- A doubleword of physical memory. -/
def State.read8 (s : State) (pa : Nat) : Word := BitVec.ofNat 64 (leNat (readBytes s.mem pa 8))

/-- Whether any of the `n` bytes at a physical address holds an uncorrectable error. -/
def State.memBad (s : State) (pa n : Nat) : Bool := s.badMem.any fun b => decide (pa ≤ b) && decide (b < pa + n)

/-- A leaf met at a level (R391). -/
def leafXlat (d : Domain) (lvl va : Nat) (e : Word) : Except (BitVec 16) Xlat :=
  let size := 2 ^ levelShift lvl
  let page := fieldN e 8 40 * 256
  if 2 < lvl ∨ page % size ≠ 0 ∨ 7 ≤ pteFmt e then .error cPageFault
  else if bit e 48 && (bit e 49 || bit e 50) then .error cPageFault
  else if physRange page size && d.grantsRange page size then .ok ⟨.mem (page + va % size), e⟩
  else .error cPageFault

/-- The loop of R391 from the table `t` of level `lvl` down. `pick` gives the entries that a walk cache gives in the place of
those in memory, by level and address (R393). -/
def State.walkFrom (s : State) (pick : Nat → Nat → Option Word) (d : Domain) (va : Nat) : Nat → Nat → Except (BitVec 16) Xlat
  | lvl, t =>
    if !d.grantsRange t (tableSize lvl) then .error cPageFault
    else
      let at8 := t + 8 * levelIndex lvl va
      if (pick lvl at8).isNone && s.memBad at8 8 then .error cUncorrectable
      else
        let e := (pick lvl at8).getD (s.read8 at8)
        if !bit e 63 || (e &&& pteReserved) != 0 then .error cPageFault
        else if bit e 62 then leafXlat d lvl va e
        else
          match lvl with
          | 0 => .error cPageFault
          | lvl + 1 =>
            let next := fieldN e 8 40 * 256
            if (e &&& leafOnly) != 0 || next % tableSize lvl != 0 then .error cPageFault
            else s.walkFrom pick d va lvl next

/-- The entries that a walk meets, root first: level, address, value. -/
def State.pathFrom (s : State) (pick : Nat → Nat → Option Word) (va : Nat) : Nat → Nat → List (Nat × Nat × Word)
  | lvl, t =>
    let at8 := t + 8 * levelIndex lvl va
    let e := (pick lvl at8).getD (s.read8 at8)
    if bit e 62 then [(lvl, at8, e)]
    else
      match lvl with
      | 0 => [(0, at8, e)]
      | lvl + 1 => (lvl + 1, at8, e) :: s.pathFrom pick va lvl (fieldN e 8 40 * 256)

/-- A domain's descriptor. -/
def State.domain? (s : State) (dom : Nat) : Option Domain := s.mgmt.domains.find? fun d => d.id == dom

/-- `walk(dom, va)` of R391 with what a walk cache gives; a virtual address has 56 bits (R26). -/
def State.walkBy (s : State) (pick : Nat → Nat → Option Word) (dom va : Nat) : Except (BitVec 16) Xlat :=
  match s.domain? dom with
  | none => .error cPageFault
  | some d => if 2 ^ 56 ≤ va then .error cPageFault else s.walkFrom pick d va 4 d.root

/-- `walk(dom, va)` of R391, every entry read from memory. -/
def State.walk (s : State) (dom va : Nat) : Except (BitVec 16) Xlat := s.walkBy (fun _ _ => none) dom va

/-- The entries of a walk's path. -/
def State.walkPath (s : State) (pick : Nat → Nat → Option Word) (dom va : Nat) : List (Nat × Nat × Word) :=
  match s.domain? dom with
  | none => []
  | some d => s.pathFrom pick va 4 d.root

/-- First address of the counter window (R315). -/
def counterBase : Nat := 0x00FFFF0000000000

/-- The attributes of a counter page: V, LEAF, CTR and RD (R315). -/
def counterPte : Word := 0xC008000000000010

/-- Whether an address lies in the counter window (R315). -/
def inCounterWindow (va : Nat) : Bool := decide (counterBase ≤ va) && decide (va < counterBase + 0x800000)

/-- Translation within the counter window: from the launch's placement, never from tables (R315). -/
def State.counterXlat (s : State) (launch : Option Nat) (va : Nat) : Except (BitVec 16) Xlat :=
  let slot := (va - counterBase) / 65536
  match launch with
  | none => .error cPageFault
  | some l =>
    match s.launch? l with
    | none => .error cPageFault
    | some la =>
      if slot < la.cores.length then .ok ⟨.counter l slot (va % 65536), counterPte⟩ else .error cPageFault

/-- What an access needs of its page (R392). -/
inductive Need where
  | read | write | image | judge | hostWrite | hostRead | remoteWrite | remoteRead
  deriving DecidableEq, Repr

/-- The attribute check of R392; `user` for an access at user privilege. -/
def Need.passes (n : Need) (user : Bool) (e : Word) : Bool :=
  let rd := bit e 4
  let wr := bit e 5
  let ctr := bit e 51
  let fx := bit e 50
  !(user && bit e 7) &&
  match n with
  | .read => rd
  | .write => wr && !ctr
  | .image => rd && bit e 6
  | .judge => wr
  | .hostWrite => bit e 49 && wr && !ctr
  | .hostRead => rd
  | .remoteWrite => fx && wr && !ctr
  | .remoteRead => fx && rd

/-- Who translates: the core whose TLB serves it, the domain, the launch for the counter window, the privilege. -/
structure Accessor where
  core : Option Nat
  dom : Nat
  launch : Option Nat
  user : Bool
  deriving DecidableEq, Repr

/-- The leaf translation a TLB entry gives. -/
def TlbEntry.xlat (e : TlbEntry) (va : Nat) : Xlat := ⟨.mem (e.ppage * 2 ^ e.bits + va % 2 ^ e.bits), e.pte⟩

/-- Whether a TLB entry translates an address of a domain. -/
def TlbEntry.covers (e : TlbEntry) (dom va : Nat) : Bool := e.dom == dom && e.vpage == va / 2 ^ e.bits

/-- The entry that a successful walk installs (R393). -/
def tlbEntryOf (dom va bits : Nat) (x : Xlat) : TlbEntry :=
  match x.loc with
  | .mem pa => ⟨dom, va / 2 ^ bits, bits, pa / 2 ^ bits, x.pte⟩
  | .counter .. => ⟨dom, va / 2 ^ bits, bits, 0, x.pte⟩

/-- The walk-cache entries that a walk's table entries make. -/
def walkEntries (dom va : Nat) (path : List (Nat × Nat × Word)) : List WalkEntry :=
  (path.filter fun q => !bit q.2.2 62).map fun q => ⟨dom, q.1, va / 2 ^ levelShift q.1, q.2.1, q.2.2⟩

/-- A walk that has succeeded puts its translation into its core's TLB, in place of those of the same address, and its table
entries into its die's walk cache (R393). -/
def State.installTlb (s : State) (c dom va : Nat) (x : Xlat) (path : List (Nat × Nat × Word)) : State :=
  let k := s.core c
  let bits := levelShift ((path.getLast?.map fun q => q.1).getD 0)
  let new := walkEntries dom va path
  let old := (get [] s.walks (c / 64)).filter fun e => !new.any fun f => f.dom == e.dom && f.addr == e.addr && f.vpre == e.vpre
  let s := { s with walks := set [] (c / 64) (new ++ old) s.walks }
  s.setCore c { k with tlb := tlbEntryOf dom va bits x :: k.tlb.filter fun f => !f.covers dom va }

/-- Draw a free value (DESIGN CHOICE, log entry 11). -/
def State.drawFree (s : State) : Word × State := (Config.freeWord s.freeCtr, { s with freeCtr := s.freeCtr + 1 })

/-- The table entries that a walk takes from its die's walk cache: where one for the address no longer holds what memory
holds, which of them are used, level by level, is a free value until a TLBINV (R393) (DEDUCED, log entry 14). -/
def State.pickTables (s : State) (die dom va : Nat) : (Nat → Nat → Option Word) × State :=
  let mine := (get [] s.walks die).filter fun e => e.dom == dom && e.vpre == va / 2 ^ levelShift e.lvl
  if mine.any fun e => e.pte != s.read8 e.addr then
    let (v, t) := s.drawFree
    (fun lvl addr => if bit v lvl then (mine.find? fun e => e.lvl == lvl && e.addr == addr).map fun e => e.pte else none, t)
  else (fun _ _ => none, s)

/-- Translate an address (R391, R393). Where the core's TLB holds a translation that a walk would no longer give, either
may be used until a TLBINV (R393): the choice is a free value (DEDUCED, log entry 14). -/
def State.translate (s : State) (a : Accessor) (va : Nat) : Except (BitVec 16) Xlat × State :=
  if inCounterWindow va then (s.counterXlat a.launch va, s)
  else
    match a.core with
    | none => (s.walk a.dom va, s)
    | some c =>
      let (pick, s) := s.pickTables (c / 64) a.dom va
      let w := s.walkBy pick a.dom va
      let path := s.walkPath pick a.dom va
      match (s.core c).tlb.find? fun e => e.covers a.dom va with
      | none =>
        match w with
        | .ok x => (w, s.installTlb c a.dom va x path)
        | .error _ => (w, s)
      | some e =>
        let h := e.xlat va
        match w with
        | .ok x =>
          if x = h then (w, s)
          else
            let (v, s) := s.drawFree
            if bit v 0 then (.ok h, s) else (w, s.installTlb c a.dom va x path)
        | .error _ =>
          let (v, s) := s.drawFree
          if bit v 0 then (.ok h, s) else (w, s)

/-! ### Timeline counters (R268, R315) -/

/-- The counter of an engine context of a launch's slot. -/
def Launch.counter (l : Launch) (slot e : Nat) : Word := get 0 l.counters (slot * 8 + e)

/-- A byte of a counter page (R315): eight counters, then zero. -/
def Launch.counterByte (l : Launch) (slot off : Nat) : Byte :=
  if off < 64 then BitVec.ofNat 8 ((l.counter slot (off / 8)).toNat >>> (8 * (off % 8))) else 0

/-- Add to a counter, saturating (R268). -/
def Launch.addCounter (l : Launch) (slot e : Nat) (v : Nat) : Launch :=
  { l with counters := set 0 (slot * 8 + e) (BitVec.ofNat 64 (satAdd 64 (l.counter slot e).toNat v)) l.counters }

/-! ### Locations -/

/-- Bytes of a location. -/
def State.locBytes (s : State) (l : Loc) (n : Nat) : List Byte :=
  match l with
  | .mem pa => readBytes s.mem pa n
  | .counter la slot off =>
    match s.launch? la with
    | some x => (List.range n).map fun i => x.counterByte slot (off + i)
    | none => List.replicate n 0

/-- Whether bytes of a location hold an uncorrectable error. -/
def State.locBad (s : State) (l : Loc) (n : Nat) : Bool :=
  match l with
  | .mem pa => s.memBad pa n
  | .counter .. => false

/-- Write physical memory; what is overwritten is no longer in error (R433). -/
def State.writeMem (s : State) (pa : Nat) (bs : List Byte) : State :=
  { s with mem := writeBytes s.mem pa bs
           badMem := s.badMem.filter fun b => !(decide (pa ≤ b) && decide (b < pa + bs.length)) }

/-- Write a location; a counter page takes no writes this way (R315). -/
def State.writeLoc (s : State) (l : Loc) (bs : List Byte) : State :=
  match l with
  | .mem pa => s.writeMem pa bs
  | .counter .. => s

/-! ### Checked lines (R261 to R264) -/

/-- CLOSED (R263, R301). -/
def closedLap : Word := 0xFFFFFFFFFFFFFFFF

/-- F(s) of a graph as its station tables hold it (R263). -/
def Graph.frontier (g : Graph) (st : Nat) : Word := if g.state = 0 then get 0 g.front st else closedLap

/-- floor(graph): the least frontier over its stations. -/
def Graph.floor (g : Graph) : Word :=
  (List.range g.stations).foldl (fun m st => if (g.frontier st).toNat < m.toNat then g.frontier st else m) closedLap

/-- `covered(rec)` of R263 for an identity. -/
def State.covered (s : State) : Ident → Bool
  | .stamp l st lap =>
    match (s.launch? l).bind fun x => x.graph with
    | some g => decide (lap.toNat < (g.frontier st).toNat)
    | none => true
  | .timeline l slot _ e n =>
    match s.launch? l with
    | some x => decide (n.toNat ≤ (x.counter slot e).toNat)
    | none => true
  | .unstamped => false

/-- `covered(wide)` of R263. -/
def State.coveredWide (s : State) (w : Wide) : Bool :=
  match w.lap with
  | none => false
  | some lap =>
    match (s.launch? w.launch).bind fun x => x.graph with
    | some g => decide (lap.toNat < g.floor.toNat)
    | none => true

/-- What `race()` reports (R264): RKIND, the offending identity, its agent. -/
structure Race where
  rkind : Nat
  id : Ident
  agent : Option Agent
  deriving DecidableEq, Repr

/-- `least` of R263. -/
def leastLap (w : Option Wide) (ids : List Ident) : Option Word :=
  let one (i : Ident) : Option Word := match i with
    | .stamp _ _ lap => some lap
    | _ => none
  let laps := (ids.map one) ++ (match w with
    | some x => [x.lap]
    | none => [])
  match allSome laps with
  | some (l :: ls) => some (ls.foldl (fun m x => if x.toNat < m.toNat then x else m) l)
  | _ => none

/-- `check(acc, X, id)` of R263 on one line; a wide flag is of the launch of the last reader merged into it, whose floor covers it
and with which it goes (DESIGN CHOICE, log entry 61): the race it raises, or the line's records afterwards. -/
def State.checkLine (s : State) (ln : Line) (isWrite : Bool) (r : LineRec) : Except Race Line :=
  let old : Option Race := match ln.write with
    | some w => if w.agent ≠ r.agent ∧ !s.covered w.id then some ⟨0, w.id, some w.agent⟩ else none
    | none => none
  let reader : Option Race := if isWrite then
      (ln.readers.find? fun q => q.agent != r.agent && !s.covered q.id).map fun q => ⟨1, q.id, some q.agent⟩
    else none
  let wide : Option Race := match ln.wide with
    | some w =>
      if isWrite && !s.coveredWide w then
        some ⟨2, match w.lap with
          | some lap => .stamp w.launch 0 lap
          | none => .unstamped, none⟩
      else none
    | none => none
  let stale : Option Race := if s.covered r.id then some ⟨3, r.id, some r.agent⟩ else none
  match (old.or reader).or (wide.or stale) with
  | some x => .error x
  | none =>
    if isWrite then .ok { write := some r, readers := [], wide := none }
    else if ln.readers.any fun q => q.agent == r.agent then
      .ok { ln with readers := ln.readers.map fun q => if q.agent = r.agent then r else q }
    else if ln.readers.length < 2 then .ok { ln with readers := ln.readers ++ [r] }
    else .ok { ln with readers := [], wide := some ⟨r.launch, leastLap ln.wide (r.id :: ln.readers.map (·.id))⟩ }

/-- Check and record an access of a line, by its physical line number. -/
def State.recordLine (s : State) (line : Nat) (isWrite : Bool) (r : LineRec) : Except Race State :=
  match s.checkLine (get {} s.lines line) isWrite r with
  | .ok ln => .ok { s with lines := set {} line ln s.lines }
  | .error x => .error x

/-- Remove the records of a launch that retires or is killed (R263). -/
def Line.dropLaunch (ln : Line) (l : Nat) : Line :=
  { write := ln.write.filter fun r => r.launch != l
    readers := ln.readers.filter fun r => r.launch != l
    wide := ln.wide.filter fun w => w.launch != l }

/-- Remove a launch's records from every line. -/
def State.dropRecords (s : State) (l : Nat) : State :=
  { s with lines := s.lines.foldl (fun m p => set {} p.1 (p.2.dropLaunch l) m) s.lines }

/-- SYS.RACEB of a race (R264). -/
def raceB (x : Race) (isWrite : Bool) : Word :=
  let (core, eng, unit) := match x.agent with
    | some (.ctx c k) => (c, 0, k)
    | some (.engine c e) => (c, 1, e)
    | none => (0, 0, 0)
  let (idk, st) := match x.id with
    | .unstamped => (0, 0)
    | .stamp _ st _ => (1, if x.rkind = 2 then 0 else st)
    | .timeline .. => (2, 0)
  BitVec.ofNat 64 (((if isWrite then 1 else 0) <<< 63) + (x.rkind <<< 60) + (idk <<< 58) + (core <<< 12) + (eng <<< 11) +
    (unit <<< 8) + st)

/-- SYS.RACEL of a race (R264). -/
def raceL (x : Race) : Word :=
  match x.id with
  | .unstamped => 0
  | .stamp _ _ lap => lap
  | .timeline _ _ _ _ n => n

/-! ### An access of an agent -/

/-- What an access that fails reports: its cause, and the race for RACE. -/
structure AccErr where
  code : BitVec 16
  race : Option Race := none
  deriving DecidableEq, Repr

/-- An agent's accesses: how it translates, and how it is recorded on checked pages. -/
structure Client where
  acc : Accessor
  /-- none: its accesses are neither checked nor recorded (R261, R263). -/
  tag : Option LineRec
  deriving DecidableEq, Repr

/-- A range cut at 64-byte lines, `n` bytes from `va` up. -/
def linePieces : Nat → Nat → Nat → List (Nat × Nat)
  | 0, _, _ => []
  | fuel + 1, va, n =>
    if n = 0 then []
    else
      let k := min n (64 - va % 64)
      (va, k) :: linePieces fuel (va + k) (n - k)

/-- The pieces of a range. -/
def pieces (va n : Nat) : List (Nat × Nat) := linePieces (n / 64 + 2) va n

/-- Translate every piece of a range (rows 8 and 9 of R306): the first failure of translation, then of attributes. -/
def State.translateAll (s : State) (a : Accessor) (need : Need) (ps : List (Nat × Nat)) :
    Except AccErr (List (Loc × Nat × Word)) × State :=
  let step (acc : Except AccErr (List (Loc × Nat × Word)) × State) (p : Nat × Nat) :=
    match acc with
    | (.error e, s) => (.error e, s)
    | (.ok xs, s) =>
      match s.translate a p.1 with
      | (.ok x, s) => (.ok (xs ++ [(x.loc, p.2, x.pte)]), s)
      | (.error e, s) => (.error ⟨e, none⟩, s)
  match ps.foldl step (.ok [], s) with
  | (.error e, s) => (.error e, s)
  | (.ok xs, s) =>
    if xs.all fun x => need.passes a.user x.2.2 then (.ok xs, s) else (.error ⟨cPageAccess, none⟩, s)

/-- Record the lines of checked pages (row 10 of R306); a race changes no record (R264). -/
def State.recordAll (s : State) (r : Option LineRec) (isWrite : Bool) (xs : List (Loc × Nat × Word)) :
    Except AccErr State :=
  match r with
  | none => .ok s
  | some r =>
    xs.foldl (fun acc x =>
      match acc, x.1 with
      | .ok t, .mem pa =>
        if bit x.2.2 48 then
          match t.recordLine (pa / 64) isWrite r with
          | .ok t => .ok t
          | .error e => .error ⟨cRace, some e⟩
        else .ok t
      | _, _ => acc) (.ok s)

/-- Read a range of global memory as an agent: translation, attributes, uncorrectable errors, checked lines. -/
def State.readGlobal (s : State) (w : Client) (need : Need) (va n : Nat) : Except AccErr (List Byte) × State :=
  match s.translateAll w.acc need (pieces va n) with
  | (.error e, s) => (.error e, s)
  | (.ok xs, s) =>
    match s.recordAll w.tag false xs with
    | .error e => (.error e, s)
    | .ok t =>
      if xs.any fun x => s.locBad x.1 x.2.1 then (.error ⟨cUncorrectable, none⟩, t)
      else (.ok ((xs.map fun x => s.locBytes x.1 x.2.1).flatten), t)

/-- Write a range of global memory as an agent; nothing is written when any part fails. -/
def State.writeGlobal (s : State) (w : Client) (need : Need) (va : Nat) (bs : List Byte) : Except AccErr State × State :=
  match s.translateAll w.acc need (pieces va bs.length) with
  | (.error e, s) => (.error e, s)
  | (.ok xs, s) =>
    match s.recordAll w.tag true xs with
    | .error e => (.error e, s)
    | .ok t =>
      (.ok (xs.foldl (fun (acc : State × List Byte) x => (acc.1.writeLoc x.1 (acc.2.take x.2.1), acc.2.drop x.2.1)) (t, bs)).1,
        s)

/-- A device agent's client in a domain: no TLB, no record, firmware's privilege. -/
def deviceClient (dom : Nat) : Client := ⟨⟨none, dom, none, false⟩, none⟩

/-! ### Accesses of contexts -/

/-- The identity of a context's accesses, from SYS.CURST and the lap it names (R262). -/
def State.ctxIdent (s : State) (c k : Nat) : Ident :=
  let x := s.ctxAt c k
  match s.launchOf c with
  | none => .unstamped
  | some (l, la) =>
    match la.graph with
    | none => .unstamped
    | some g =>
      let st := fieldN x.curst 0 8
      if bit x.curst 63 ∧ st < g.stations then .stamp l st (x.lapReg (fieldN x.curst 8 2)) else .unstamped

/-- How a context translates: its launch's domain at its own privilege. -/
def State.ctxAccessor (s : State) (c k : Nat) : Accessor :=
  let x := s.ctxAt c k
  ⟨some c, fieldN x.priv 0 16, (s.core c).launch, x.pl == 0⟩

/-- A context's plain loads and stores: recorded on checked pages (R261). -/
def State.ctxClient (s : State) (c k : Nat) : Client :=
  ⟨s.ctxAccessor c k, some ⟨.ctx c k, s.ctxIdent c k, ((s.core c).launch).getD 0⟩⟩

/-- A context's atomics: neither checked nor recorded (R261). -/
def State.ctxAtomicClient (s : State) (c k : Nat) : Client := ⟨s.ctxAccessor c k, none⟩

/-- The core that an address of a sibling's CMEM names: a slot of the launch (R26). -/
def State.siblingCore (s : State) (c slot : Nat) : Option Nat := (s.launchOf c).map fun p => nth 0 p.2.cores slot

/-- An access error in a context: the trap's cause, and SYS.ERRLAST for an uncorrectable error, which counts for the core whose
CMEM holds it (R264, R438, R439). -/
def State.ctxAccErr (s : State) (c k : Nat) (ea : Word) (isWrite : Bool) (e : AccErr) : Cause × State :=
  match e.race with
  | some r =>
    (⟨cRace, ea, some (BitVec.ofNat 64 (fieldN ea 0 56), raceB r isWrite, raceL r)⟩, s)
  | none =>
    if e.code = cUncorrectable then
      let (home, b) : Nat × BadAt := match spaceOf ea with
        | some (.glob va) => (c, ⟨4, 0, 0, va⟩)
        | some (.cmem off) => (c, ⟨2, 0, 0, off⟩)
        | some (.sibling slot off) => ((s.siblingCore c slot).getD c, ⟨2, 0, 0, off⟩)
        | none => (c, ⟨4, 0, 0, 0⟩)
      (⟨cUncorrectable, 0, none⟩, s.noteBadOf home c k b)
    else (⟨e.code, ea, none⟩, s)

/-- Read as a context through any space (R26): what R305 decides after issue is an error here. -/
def State.ctxRead (s : State) (c : Nat) (w : Client) (ea : Word) (n : Nat) : Except AccErr (List Byte) × State :=
  match spaceOf ea with
  | some (.glob va) => s.readGlobal w .read va n
  | some (.cmem off) =>
    if (s.core c).cmemBad off n then (.error ⟨cUncorrectable, none⟩, s) else (.ok (readBytes (s.core c).cmem off n), s)
  | some (.sibling slot off) =>
    match s.siblingCore c slot with
    | some f =>
      if (s.core f).cmemBad off n then (.error ⟨cUncorrectable, none⟩, s) else (.ok (readBytes (s.core f).cmem off n), s)
    | none => (.error ⟨cAddrSpace, none⟩, s)
  | none => (.error ⟨cAddrSpace, none⟩, s)

/-- Write as a context: global memory or the core's own CMEM. -/
def State.ctxWrite (s : State) (c : Nat) (w : Client) (ea : Word) (bs : List Byte) : Except AccErr State × State :=
  match spaceOf ea with
  | some (.glob va) => s.writeGlobal w .write va bs
  | some (.cmem off) => (.ok (s.setCore c ((s.core c).writeCmem off bs)), s)
  | _ => (.error ⟨cAddrSpace, none⟩, s)

/-- The last byte of a range lies in the space of its first: the same memory, the same CMEM (R26). -/
def sameSpace (ea : Word) (n : Nat) : Bool :=
  match spaceOf ea, spaceOf (ea + BitVec.ofNat 64 (n - 1)) with
  | some (.glob _), some (.glob _) => true
  | some (.cmem _), some (.cmem _) => true
  | some (.sibling a _), some (.sibling b _) => a == b
  | _, _ => false

/-- Rows 6 to 10 of R306 for an operand read before issue (R306, steps 2 to 5): the bytes, or the issue fault; a read that
runs out of its space is ADDR_SPACE (R26). The alignment step has already been made. -/
def State.operandRead (s : State) (c k : Nat) (ea : Word) (n : Nat) : Except (Cause × Bool) (List Byte) × State :=
  match s.addrCause c .load n 1 ea with
  | some cz => (.error (cz, false), s)
  | none =>
    if !sameSpace ea n then (.error (⟨cAddrSpace, ea, none⟩, false), s)
    else match s.ctxRead c (s.ctxClient c k) ea n with
    | (.ok bs, s) => (.ok bs, s)
    | (.error e, s) =>
      let (cz, s) := s.ctxAccErr c k ea false e
      (.error (cz, e.code == cUncorrectable), s)

/-! ### Watchpoints on addresses (R425) -/

/-- Enabled watchpoints of a core whose configuration satisfies a test, as a mask. -/
def watchMask (watch : List (Nat × List Word)) (test : List Word → Bool) : Nat :=
  watch.foldl (fun m p => if bit (nth 0 p.2 0) 63 && test p.2 then m ||| 2 ^ p.1 else m) 0

/-- Global watchpoints that match a context's access: RD for loads and atomics, WR for stores and atomics
(DEDUCED, log entry 27). -/
def Core.watchGlobal (k : Core) (kind : AccKind) (va : Nat) : Nat :=
  watchMask k.watch fun ws =>
    let w0 := nth 0 ws 0
    !bit w0 62 && decide (fieldN (nth 0 ws 1) 0 56 ≤ va) && decide (va ≤ fieldN (nth 0 ws 2) 0 56) &&
      ((bit w0 61 && kind != .store) || (bit w0 60 && kind != .load))

/-- Two matches of one bundle as one (R415, R426): the lower slot, the lowest matching cell with its row, which the C slot alone
names, and the watchpoints of both. -/
def joinWatch (a b : Nat × Word) : Nat × Word :=
  let place (w : Word) : Nat := fieldN w 46 18
  let row := if b.1 ≠ 3 then place a.2 else if a.1 ≠ 3 then place b.2 else min (place a.2) (place b.2)
  (min a.1 b.1, BitVec.ofNat 64 (row <<< 46) ||| ((a.2 ||| b.2) &&& 0xFF))

/-- Note a watchpoint match of the bundle in issue (R426) (DEDUCED, log entry 27). -/
def Ctx.noteWatch (x : Ctx) (slot : Nat) (info : Word) : Ctx :=
  match x.issue with
  | none => x
  | some i =>
    { x with issue := some { i with watch := match i.watch with
      | none => some (slot, info)
      | some old => some (joinWatch old (slot, info)) } }

end Sys2Proof.Machine
end

