-- ==== Sys2Proof/Machine/Check.lean ====
section
/-! DEFINITION. The shape of every slot instruction: what its check at issue finds, whether its predicate lets it act,
and its effect; and the choice of the next bundle (R49, R68 to R71, R82, R86, R412). -/

namespace Sys2Proof.Machine

/-- What the check of R49 finds in one slot, in the order in which its causes are raised. -/
structure SlotCheck where
  /-- ILLEGAL_OP. -/
  illegal : Bool
  /-- Scalar results that would enter the landing buffer: register and latency (R68). -/
  lands : List (LReg × Nat × Nat) := []
  /-- A collision in the cells (R134, R171). -/
  collide : Bool := false
  /-- A full cell landing queue (R133). -/
  full : Bool := false
  /-- The first of the slot's own causes (R169, R306). -/
  other : Option Cause := none

/-- A cause at the boundary before a step (R188, R438): its code and INFO, WSKIP, and what SYS.ERRLAST would hold. -/
structure StepCause where
  code : BitVec 16
  info : Word := 0
  wskip : Bool := false
  bad : Option BadAt := none
  deriving DecidableEq, Repr

/-- A slot instruction in a state: its predicate, its check and its effect. -/
structure Meaning where
  taken : Bool
  check : SlotCheck
  /-- Whether the bundle may issue (R66, R90): a wait is met, a queue has room, what it reads is awake and present. -/
  ready : Bool := true
  /-- What a slot that is not ready starts meanwhile: the wakes it needs. -/
  prepare : State → State := id
  /-- The cause at the boundary before the bundle, of the first step of a stream it would start (R188, R426, R438); with `true`
  watchpoints are left out (DEDUCED, log entry 12). -/
  early : Bool → Option StepCause := fun _ => none
  /-- Tower rows that it reads in its issue cycle in one cell (R373). -/
  rows : Nat := 0
  effect : State → State

/-- Whether a result would meet an entry of the landing buffer (R69). -/
def Ctx.landHeld (x : Ctx) (l : LReg × Nat × Nat) : Bool :=
  x.land.any fun e => e.kind == l.1 && e.idx == l.2.1 && e.due == x.vt + l.2.2

/-- Results that meet one another. -/
def landTwice : List (LReg × Nat × Nat) → Bool
  | [] => false
  | l :: ls => ls.contains l || landTwice ls

/-- The cause of a slot checked alone, in the order of R49. -/
def State.slotCause (s : State) (k : SlotCheck) : Option Cause :=
  let x := s.cx
  if k.illegal then some ⟨cIllegalOp, 0, none⟩
  else if k.collide || landTwice k.lands || k.lands.any x.landHeld then some ⟨cSchedCollide, 0, none⟩
  else if k.full || decide (24 < x.land.length + k.lands.length) then some ⟨cLandingFull, 0, none⟩
  else k.other

/-- Whether the bundle in issue has already passed its whole check (R49). -/
def State.checkPassed (s : State) : Bool :=
  match s.cx.issue with
  | some i => i.checked
  | none => false

/-! ### The next bundle (R82, R86) -/

/-- `loop_end_test(pc)` of R86: the stack afterwards, and the start of a body that repeats. -/
def loopEnd (pc : CodeAddr) : List LoopEntry → Option CodeAddr × List LoopEntry
  | [] => (none, [])
  | e :: es =>
    if e.fin = pc then
      if e.count - 1 = 0 then loopEnd pc es else (some e.start, { e with count := e.count - 1 } :: es)
    else (none, e :: es)

/-- Loops are held bottom first; the test works from the top. -/
def Ctx.loopEndTest (x : Ctx) (pc : CodeAddr) : Option CodeAddr × Ctx :=
  let (start, st) := loopEnd pc x.loops.reverse
  (start, { x with loops := st.reverse })

/-- A target as a code address of 17 bits (R42). -/
def codeAddr (w : Word) : CodeAddr := w.setWidth 17

/-- The next bundle that the one in issue chooses (R82): its address, how it is reached, and the loop stack after the
loop-end test. A resumed bundle whose F slot was complete goes to NPC, without a test (R420). -/
def Ctx.chooseNext (x : Ctx) (i : Issue) : CodeAddr × Via × Ctx :=
  match x.resume.bind fun r => r.npc with
  | some a => (a, .transfer i.pc (a.setWidth 64), x)
  | none =>
    match i.target with
    | some w => (codeAddr w, .transfer i.pc w, x)
    | none =>
      match x.loopEndTest i.pc with
      | (some a, x) => (a, .transfer i.pc (a.setWidth 64), x)
      | (none, x) => (i.next, .fell i.pc, x)

/-- `unwind` of R87: drop the top entries whose body does not hold the target. -/
def unwind (t : Nat) : List LoopEntry → List LoopEntry
  | [] => []
  | e :: es => if t < e.start.toNat ∨ e.fin.toNat < t then unwind t es else e :: es

/-- Change the bundle in issue. -/
def State.modIssue (s : State) (f : Issue → Issue) : State :=
  match s.cx.issue with
  | some i => s.modCx fun x => { x with issue := some (f i) }
  | none => s

/-- The address of the bundle in issue. -/
def Ctx.issuePc (x : Ctx) : CodeAddr :=
  match x.issue with
  | some i => i.pc
  | none => x.pc

/-- The sequential next address of the bundle in issue (R82). -/
def Ctx.issueNext (x : Ctx) : CodeAddr :=
  match x.issue with
  | some i => i.next
  | none => x.pc + 1

/-- A slot faults after issue (R305, R412, R438): the trap is taken once the other slots are complete, the first slot in
the order of R49 naming it; outside a bundle it is taken at once. -/
def State.faultAfter (s : State) (cz : Cause) : State :=
  let s := s.noteRace s.turn.core s.turn.ctx cz
  match s.cx.issue with
  | none => s.takeTrap s.turn.core s.turn.ctx
      { cause := cz.code, fslot := s.turn.slot, fpc := s.cx.pc, info := cz.info, rpc := s.cx.pc }
  | some i =>
    let mine := (s.turn.slot, cz.code, cz.info)
    s.modCx fun x => { x with issue := some { i with late := match i.late with
      | some (slot, c) => if slot = 2 then some (slot, c) else some mine
      | none => some mine } }

/-- Mark the slot complete unless its own fault stands. -/
def State.completeUnless (s : State) : State :=
  match s.cx.issue with
  | some i =>
    match i.late with
    | some (slot, _) => if slot = s.turn.slot then s else s.complete
    | none => s.complete
  | none => s

/-- A stream of the running level has been performed a step in the present cycle. -/
def Ctx.stepped (x : Ctx) : Bool :=
  x.streams.any fun st => st.level == x.depth && decide (0 < st.done) && st.start + st.done == x.vt + 1

/-- The first step after resumption is still to come, and is not checked against watchpoints (R420). -/
def Ctx.wskipLeft (x : Ctx) : Bool := x.wskip && !x.stepped

/-- A boundary trap (R412): the resume point is the next bundle, with what a resumed bundle keeps. -/
def State.boundaryTrap (s : State) (c k : Nat) (cause : BitVec 16) (fslot : Nat) (fpc : CodeAddr) (info : Word)
    (wskip : Bool) : State :=
  let x := s.ctxAt c k
  s.takeTrap c k
    { cause := cause, fslot := fslot, fpc := fpc, info := info, rpc := x.pc, skipl := x.skip, wskip := wskip || x.wskipLeft
      cmask := match x.resume with
        | some r => r.cmask
        | none => 0
      npc := x.resume.bind fun r => r.npc }

/-- SYS.ERRLAST takes the bad data of a step's cause (R438). -/
def State.noteStep (s : State) (c k : Nat) (z : StepCause) : State :=
  match z.bad with
  | some b => s.noteBad c k b
  | none => s

/-- Take the trap of a step: the stream's C slot is the cause (R188, R414). -/
def State.stepTrap (s : State) (c k : Nat) (pc : CodeAddr) (z : StepCause) : State :=
  (s.noteStep c k z).boundaryTrap c k z.code 3 pc z.info z.wskip

/-- A slot whose predicate is true and that may issue takes effect; it is complete unless it faulted after issue. -/
def State.act (s : State) (m : Meaning) : State := (m.effect s).completeUnless

/-- Run a slot instruction. In a bundle that has passed its whole check it takes effect; alone, its issue fault, its
early cause and its readiness come first. A slot whose predicate is false is complete without effect (R71). -/
def State.run (s : State) (m : Meaning) : Res :=
  if s.checkPassed then .next (if m.taken then s.act m else s.complete)
  else
    match s.slotCause m.check with
    | some cz => .next (s.trapIssue cz)
    | none =>
      if !m.taken then .next s.complete
      else
        match m.early false with
        | some z => .next (s.stepTrap s.turn.core s.turn.ctx s.cx.issuePc z)
        | none => .next (if m.ready then s.act m else m.prepare s)

end Sys2Proof.Machine
end

