-- ==== Sys2Proof/Machine/Tower.lean ====
section
/-! DEFINITION. Towers as memory: the tower that serves a cell, its layers' power, its rows with their protection, and the
touches that keep them alive (R22, R137, R228 to R242, R433 to R436). -/

namespace Sys2Proof.Machine

/-! ### Which tower serves a cell (R241, R242) -/

/-- SYS.REMAPn. -/
def Core.remapWord (k : Core) (n : Nat) : Word := get 0 k.remap n

/-- Whether the spare of its row serves a cell. -/
def Core.usesSpare (k : Core) (n : Nat) : Bool := bit (k.remapWord n) 8

/-- The tower that serves a cell. -/
def Core.tower (k : Core) (n : Nat) : Tower := if k.usesSpare n then k.spare (n / 16) else (k.cell n).tower

/-- Put back the tower that serves a cell. -/
def Core.setTower (k : Core) (n : Nat) (t : Tower) : Core :=
  if k.usesSpare n then { k with spares := set .offSpare (n / 16) t k.spares } else k.setCell n { k.cell n with tower := t }

/-- SYS.REMAP: the spares in use (R241). -/
def Core.remapSummary (k : Core) : Nat :=
  (List.range 16).foldl (fun m r => if (List.range 16).any fun c => k.usesSpare (r * 16 + c) then m + 2 ^ r else m) 0

/-! ### Rows and groups (R22, R228, R234) -/

/-- Layer of a tower address. -/
def rowLayer (r : Nat) : Nat := r / 128

/-- Bank of a tower address, counted over the tower (R228). -/
def rowBank (r : Nat) : Nat := r / 16

/-- Refresh group of a row's bank: layer × 9 + bank. -/
def rowGroup (r : Nat) : Nat := r / 128 * 9 + r / 16 % 8

/-- Refresh group of a layer's XOR bank. -/
def xorGroup (layer : Nat) : Nat := layer * 9 + 8

/-- The XOR row of a row's stripe: layer × 16 + row. -/
def xorRow (r : Nat) : Nat := r / 128 * 16 + r % 16

/-- The rows of a row's stripe: row w of the layer's eight data banks. -/
def stripe (r : Nat) : List Nat := (List.range 8).map fun b => r / 128 * 128 + b * 16 + r % 16

/-- A layer's power state. -/
def Tower.layer (t : Tower) (l : Nat) : LayerPower := get .on t.layers l

/-- A row's contents. -/
def Tower.row (t : Tower) (r : Nat) : Row := get 0 t.rows r

/-- Touch groups at a clock time (R234). -/
def Tower.touchAll (t : Tower) (clk : Nat) (gs : List Nat) : Tower :=
  { t with touch := gs.foldl (fun m g => set 0 g clk m) t.touch }

/-- The groups that a read of a row by rebuild touches: every bank of its layer and the XOR bank (R229, R234). -/
def rebuildGroups (r : Nat) : List Nat := xorGroup (rowLayer r) :: (stripe r).map rowGroup

/-- Whether a row's stored bits are in error. -/
def Tower.isBad (t : Tower) (r : Nat) : Bool := t.bad.contains r

/-- Whether a bad row can be rebuilt: its XOR row and the seven others decode (R435). -/
def Tower.rebuilds (t : Tower) (r : Nat) : Bool :=
  !t.badXor.contains (xorRow r) && (stripe r).all fun q => q == r || !t.isBad q

/-- Whether a read of a row is uncorrectable (R435). -/
def Tower.uncorrectable (t : Tower) (r : Nat) : Bool := t.isBad r && !t.rebuilds r

/-- Serve a read: a bad row that can be rebuilt is written back (R435); the groups read are touched. The row's contents
are `Tower.row`. -/
def Tower.serve (t : Tower) (clk r : Nat) : Tower :=
  if t.isBad r && t.rebuilds r then
    { t with bad := t.bad.filter fun q => q != r }.touchAll clk (rebuildGroups r)
  else t.touchAll clk [rowGroup r]

/-- The XOR row is recomputed when all eight rows of its stripe decode (R435). -/
def Tower.settleXor (t : Tower) (r : Nat) : Tower :=
  if (stripe r).any t.isBad then t else { t with badXor := t.badXor.filter fun q => q != xorRow r }

/-- Write a whole row: its bank and the XOR bank are touched. Where the old row could neither be decoded nor rebuilt the
XOR row is only good again once all eight rows decode (R230, R436; DEDUCED, log entry 16). -/
def Tower.write (t : Tower) (clk r : Nat) (v : Row) : Tower :=
  let lost := t.uncorrectable r
  let t := { t with rows := set 0 r v t.rows
                    bad := t.bad.filter fun q => q != r
                    badXor := if lost && !t.badXor.contains (xorRow r) then xorRow r :: t.badXor else t.badXor }
  (t.settleXor r).touchAll clk [rowGroup r, xorGroup (rowLayer r)]

/-- Merge a row's new bits into its old contents. -/
def mergeBits {n : Nat} (old new bits : BitVec n) : BitVec n := (old &&& ~~~bits) ||| (new &&& bits)

/-- Write the bits of a row that a mask selects. -/
def Tower.writeBits (t : Tower) (clk r : Nat) (v bits : Row) : Tower :=
  if bits = 0 then t else t.write clk r (mergeBits (t.row r) v bits)

/-- A layer loses its contents (R231): its rows and errors go, and its deferral ends (R238). -/
def Tower.loseLayer (t : Tower) (l : Nat) : Tower :=
  { t with rows := t.rows.filter fun p => rowLayer p.1 != l
           bad := t.bad.filter fun r => rowLayer r != l
           badXor := t.badXor.filter fun r => r / 16 != l
           defer := drop l t.defer }

/-- A layer takes a power state (R231). -/
def Tower.setLayer (t : Tower) (l : Nat) (p : LayerPower) : Tower :=
  let t := if p = .off then t.loseLayer l else t
  { t with layers := set .on l p t.layers }

/-- Whether a wake of a layer is under way. -/
def Tower.waking (t : Tower) (l : Nat) : Bool := t.wakes.any fun w => w.layer == l

/-- Start a wake of a layer; a wake under way serves all (R232). -/
def Tower.startWake (t : Tower) (l : Nat) : Tower :=
  if t.waking l then t else { t with wakes := t.wakes ++ [⟨l, none⟩] }

/-- End a wake of a layer: it is ON, or as a TPWR meanwhile asked (R232, R233). -/
def Tower.endWake (t : Tower) (l : Nat) : Tower :=
  match t.wakes.find? fun w => w.layer == l with
  | none => t
  | some w => { t with wakes := t.wakes.filter fun w => w.layer != l }.setLayer l (w.restore.getD .on)

/-- TPWR on a layer (R233, R334): after a wake under way, otherwise at once. -/
def Tower.powerTo (t : Tower) (l : Nat) (p : LayerPower) : Tower :=
  if t.waking l then
    { t with wakes := t.wakes.map fun w => if w.layer = l then { w with restore := some p } else w }
  else t.setLayer l p

/-- The layer states by TPWR's codes (R57, R334). -/
def layerCode : Nat → LayerPower
  | 0 => .on
  | 1 => .gated
  | 2 => .drowsy
  | _ => .off

/-- The bank of a row, as the self-test names it (R439). -/
def bankUnit (cell r : Nat) : ErrUnit := .towerBank 0 cell (rowLayer r) (rowBank r % 8)

/-- Serve a read of a row of a cell's tower: touches, write-back, and the count of a rebuild (R435, R439). -/
def Core.serveRow (k : Core) (clk cell r : Nat) : Core :=
  let t := k.tower cell
  let k := k.setTower cell (t.serve clk r)
  if t.isBad r && t.rebuilds r then k.countCorr (bankUnit cell r) clk else k

/-- A bad old row that a write finds counts, rebuilt or not (R435, R436, R439). -/
def Core.countOld (k : Core) (clk cell r : Nat) : Core :=
  let t := k.tower cell
  if !t.isBad r then k
  else if t.rebuilds r then k.countCorr (bankUnit cell r) clk
  else k.countUncorr ⟨0, cell, r, 0⟩ clk

/-- Write bits of a row of a cell's tower; an XOR row in error that the write mends counts as corrected (R435, R439). -/
def Core.writeRow (k : Core) (clk cell r : Nat) (v bits : Row) : Core :=
  let t := (k.tower cell).writeBits clk r v bits
  let mends := (k.tower cell).badXor.contains (xorRow r) && !t.badXor.contains (xorRow r)
  let k := if bits = 0 then k else k.countOld clk cell r
  (if mends then k.countCorr (.towerBank 0 cell (rowLayer r) 8) clk else k).setTower cell t

/-- A row of a cell's tower. -/
def Core.towerRow (k : Core) (cell r : Nat) : Row := (k.tower cell).row r

/-! ### Register groups (R138) -/

/-- A vector-register group's power state. -/
def Cell.group (x : Cell) (g : Nat) : GroupPower := get .on x.groups g

/-- A group takes a power state; entering gated discards what its eight registers hold, errors with it (R138). -/
def Cell.setGroup (x : Cell) (g : Nat) (p : GroupPower) : Cell :=
  let x := if p = .gated then { x with
    v := x.v.filter fun q => q.1 / 8 != g
    bad := x.bad.filter fun b => decide (32 ≤ b.1) || b.1 / 8 != g } else x
  { x with groups := set .on g p x.groups }

/-- A vector register. -/
def Cell.vreg (x : Cell) (n : Nat) : Row := get 0 x.v n

/-- A mask register: m0 reads all ones (R7). -/
def Cell.mreg (x : Cell) (n : Nat) : BitVec 16 := if n = 0 then 0xFFFF else get 0 x.m n

/-- Words of a register are written: an uncorrectable error in them is gone (R433, R436). -/
def Cell.mend (x : Cell) (n : Nat) (word : Nat → Bool) : Cell := { x with bad := x.bad.filter fun b => !(b.1 == n && word b.2) }

/-- Write a vector register. -/
def Cell.setV (x : Cell) (n : Nat) (v : Row) : Cell := { x with v := set 0 n v x.v }

/-- Write a mask register; writes to m0 are discarded (R7). -/
def Cell.setM (x : Cell) (n : Nat) (v : BitVec 16) : Cell := if n = 0 then x else { x with m := set 0 n v x.m }

/-- The group states by VPWR's codes (R57, R335). -/
def groupCode : Nat → GroupPower
  | 0 => .on
  | 1 => .gated
  | _ => .drowsy

/-- Change every cell of the squads in a mask. -/
def Core.modCells (k : Core) (sq : BitVec 4) (f : Nat → Cell → Cell) : Core :=
  (cellsOf sq).foldl (fun k n => k.setCell n (f n (k.cell n))) k

/-- Change the tower of every cell of the squads in a mask. -/
def Core.modTowers (k : Core) (sq : BitVec 4) (f : Nat → Tower → Tower) : Core :=
  (cellsOf sq).foldl (fun k n => k.setTower n (f n (k.tower n))) k

end Sys2Proof.Machine
end

