-- ==== Sys2Proof/Machine/Flags.lean ====
section
/-! DEFINITION. The numeric events of a cell instruction, the one kind of flag that this hardware has: which kinds a
cell's elements raised, in which lanes and how many (R120 to R122, R126). -/

namespace Sys2Proof.Machine

/-- The union of lane positions. -/
def laneUnion (ls : List Nat) : BitVec 16 := ls.foldl (fun (m : BitVec 16) l => m ||| (1#16 <<< l)) 0

/-- The events of one cell: for each kind, its lanes and the number of elements that raised it. -/
def gatherEvents (xs : List (Nat × Kinds)) : List EvItem :=
  let hit := xs.filter fun x => x.2 != 0
  if hit.isEmpty then []
  else (List.range 8).filterMap fun k =>
    let h := hit.filter fun x => bit x.2 k
    if h.isEmpty then none else some ⟨k, laneUnion (h.map Prod.fst), h.length⟩

/-- A cell's items as the slot's events. -/
def cellEvents (cell : Nat) (xs : List EvItem) : List CellEv := xs.map fun i => ⟨cell, i⟩

/-- The lane of an accumulator column: columns j and j + 16 share lane j (R122). -/
def columnLane (j : Nat) : Nat := j % 16

/-- A read of a gated register group (R139): the selected lanes and the number of elements read as zero. -/
def gatedItem (lanes : BitVec 16) (count : Nat) : List EvItem := if count = 0 then [] else [⟨7, lanes, count⟩]

end Sys2Proof.Machine
end

