-- ==== Sys2Proof/Machine/Operands.lean ====
section
/-! DEFINITION. The operands of the cell instructions: elements, lanes and masks (R125 to R128), the source selects and
the immediate (R54, R130), region formats and scales (R117 to R119, R206), tiles and hops (R182, R183), and the rows
that a stream reads (R143, R174, R185, R194, R212). -/

namespace Sys2Proof.Machine

/-! ### Elements and lanes (R125, R126) -/

/-- Elements of `w` bits in a register. -/
def elemsOf (w : Nat) : Nat := 256 / w

/-- The lane that governs element `j` of `w` bits. -/
def laneOf (w j : Nat) : Nat := if w = 8 then j / 2 else j

/-- The elements that a lane mask selects. -/
def selectedElems (w : Nat) (m : BitVec 16) : List Nat := (List.range (elemsOf w)).filter fun j => bit m (laneOf w j)

/-- The bits of a register that a lane mask selects under `w`-bit elements. -/
def laneBits (w : Nat) (m : BitVec 16) : Row :=
  if m = 0xFFFF then BitVec.allOnes 256
  else joinElems 256 w ((List.range (elemsOf w)).map fun j => if bit m (laneOf w j) then 2 ^ w - 1 else 0)

/-- The lanes that mean something under `w`-bit elements: eight for 32 bits, else sixteen. -/
def lanesOf (w : Nat) (m : BitVec 16) : BitVec 16 := if w = 32 then m &&& 0x00FF else m

/-- Element `j` of `w` bits as a number. -/
def elemN {n : Nat} (x : BitVec n) (w j : Nat) : Nat := fieldN x (w * j) w

/-- An element-wise result: the bits of the selected elements and their events. -/
def mapLanes (w : Nat) (m : BitVec 16) (op : Nat → Nat × Kinds) : Row × List EvItem :=
  let rs := (List.range (elemsOf w)).map fun j => if bit m (laneOf w j) then (laneOf w j, op j) else (0, (0, noKind))
  (joinElems 256 w (rs.map fun r => r.2.1), gatherEvents (rs.map fun r => (r.1, r.2.2)))

/-! ### Region formats (R117 to R119, R206) -/

/-- An entry of a cell's region table. -/
structure Region where
  count : Nat
  first : Nat
  srow : Nat
  fmt : Nat
  deriving DecidableEq, Repr

/-- A SYS.RGNn word read as an entry. -/
def regionOf (w : Word) : Region := ⟨fieldN w 32 11, fieldN w 22 10, fieldN w 12 10, fieldN w 0 4⟩

/-- The lowest-numbered used entry that contains a row. -/
def Cell.region (x : Cell) (row : Nat) : Option Region :=
  ((List.range 16).map fun n => regionOf (get 0 x.rgn n)).find? fun r =>
    decide (r.first ≤ row) && decide (row < r.first + r.count)

/-- The format code of the region that governs a row; 0 for none. -/
def Cell.rowFmt (x : Cell) (row : Nat) : Nat :=
  match x.region row with
  | some r => r.fmt
  | none => 0

/-- Where the scale of a block lies: scale row and byte, by the row of the block and its half (R117, R206). -/
def Region.scaleAt (r : Region) (row half : Nat) : Nat × Nat :=
  let k := if r.fmt = 5 then row - r.first else (row - r.first) * 2 + half
  (r.srow + k / 32, k % 32)

/-- The scale row that the blocks of a row use, if its region is a block format. -/
def Cell.scaleRows (x : Cell) (row : Nat) : List Nat :=
  match x.region row with
  | some r => if 4 ≤ r.fmt then [(r.scaleAt row 0).1] else []
  | none => []

/-- The place of the scale of a block in a cell; nothing outside a block region. -/
def Cell.scalePlace (x : Cell) (row half : Nat) : Option (Nat × Nat) :=
  match x.region row with
  | some r => if 4 ≤ r.fmt then some (r.scaleAt row half) else none
  | none => none

/-- The scale byte of a block of a row, by the region table of `x`. -/
def Core.scaleUnder (k : Core) (x : Cell) (cell row half : Nat) : Nat :=
  match x.scalePlace row half with
  | some (sr, b) => elemN (k.towerRow cell sr) 8 b
  | none => 0

/-- The scale byte of a block of a row. -/
def Core.scaleByte (k : Core) (cell row half : Nat) : Nat := k.scaleUnder (k.cell cell) cell row half

/-- The table of R119 for a row under a region format: what a named code decodes as; none is FORMAT_MISMATCH. -/
def rowCode (fmt code : Nat) : Option Nat :=
  match Fmt.ofRegion fmt with
  | none => if code = 12 then some 0 else if code = 5 ∨ code = 6 ∨ code = 11 then none else some code
  | some g => if code = 12 ∨ code = g.code then some g.code else none

/-- The one region format of a row in all the selected cells (R119). -/
def Core.sameFmt (k : Core) (cells : List Nat) (row : Nat) : Option Nat :=
  match cells with
  | [] => some 0
  | c :: cs =>
    let g := (k.cell c).rowFmt row
    if cs.all fun d => (k.cell d).rowFmt row == g then some g else none

/-- What a named code decodes a row as in the selected cells; none is FORMAT_MISMATCH (R119). -/
def Core.resolve (k : Core) (cells : List Nat) (row code : Nat) : Option Nat :=
  (k.sameFmt cells row).bind fun g => rowCode g code

/-! ### Source selects (R54, R130) -/

/-- The immediate as one element of a format (R54): an FP32 value rounded under RM without event, or an integer. -/
def immElem (g : Fmt) (im : BitVec 22) (rm : BitVec 3) : Nat :=
  if g.isInt then g.intBits im.toInt
  else if g = .fp32 then im.toNat * 1024
  else (convert .fp32 g (RMode.ofCode rm.toNat) (im.toNat * 1024)).1

/-- The immediate in every element of a register. -/
def immRow (g : Fmt) (im : BitVec 22) (rm : BitVec 3) : Row :=
  joinElems 256 g.width (List.replicate (elemsOf g.width) (immElem g im rm))

/-- The oldest entry of a cell's express receive buffer. -/
def Cell.rxHead (x : Cell) : FragVal :=
  match x.rx with
  | e :: _ => e.val
  | [] => {}

/-- The 256 bits that a source select names in a cell (R130); a latch is read whatever its valid bit says. -/
def Core.source (k : Core) (cell : Nat) (sel : BitVec 4) (reg : BitVec 5) (row : BitVec 10) (imm : Row) : Row :=
  let x := k.cell cell
  match sel.toNat with
  | 0 => x.vreg reg.toNat
  | 1 => k.towerRow cell row.toNat
  | 6 => imm
  | 7 => x.rxHead.bits.setWidth 256
  | n => (get {} x.latch (n - 2)).val.bits.setWidth 256

/-- Whether a select takes a latch or an express entry (R419). -/
def takesLatch (sel : BitVec 4) : Bool := sel == 2 || sel == 3 || sel == 4 || sel == 5 || sel == 7

/-- The tower rows that a select of one row or a pair reads. -/
def selRows (sel : BitVec 4) (row : BitVec 10) : List Nat :=
  if sel = 1 then [row.toNat] else if sel = 8 then [row.toNat, row.toNat + 1] else []

/-- The vector register that a register select reads. -/
def selRegs (sel : BitVec 4) (reg : BitVec 5) (n : Nat) : List Nat :=
  if sel = 0 then (List.range n).map fun i => reg.toNat + i else []

/-! ### Tiles and hops (R182, R183, R197) -/

/-- The four directions, numbered as the latches: north, east, south, west. -/
inductive Side where
  | n | e | s | w
  deriving DecidableEq, Repr

/-- The latch number of a side. -/
def Side.latch : Side → Nat
  | .n => 0
  | .e => 1
  | .s => 2
  | .w => 3

/-- The side that faces a sender who sends in this direction. -/
def Side.facing : Side → Side
  | .n => .s
  | .e => .w
  | .s => .n
  | .w => .e

/-- Height of the tiles of a squad. -/
def tileHeight (geom : Word) (sq : Nat) : Nat := 8 >>> fieldN geom (4 * sq + 2) 2

/-- Width of the tiles of a squad. -/
def tileWidth (geom : Word) (sq : Nat) : Nat := 8 >>> fieldN geom (4 * sq) 2

/-- A cell's row within its tile. -/
def tileRow (geom : Word) (cell : Nat) : Nat := cell / 16 % 8 % tileHeight geom (squadOf cell)

/-- A cell's column within its tile. -/
def tileCol (geom : Word) (cell : Nat) : Nat := cell % 8 % tileWidth geom (squadOf cell)

/-- The next cell in a direction; none past the edge of the core. -/
def nextCell (d : Side) (cell : Nat) : Option Nat :=
  match d with
  | .n => if cell < 16 then none else some (cell - 16)
  | .s => if 240 ≤ cell then none else some (cell + 16)
  | .e => if cell % 16 = 15 then none else some (cell + 1)
  | .w => if cell % 16 = 0 then none else some (cell - 1)

/-- Whether a cell lies on its tile's leading edge for a direction. -/
def leading (geom : Word) (d : Side) (cell : Nat) : Bool :=
  match d with
  | .n => tileRow geom cell == 0
  | .s => tileRow geom cell + 1 == tileHeight geom (squadOf cell)
  | .e => tileCol geom cell + 1 == tileWidth geom (squadOf cell)
  | .w => tileCol geom cell == 0

/-- The cell on the opposite edge of the tile, for a cell on the leading edge. -/
def opposite (geom : Word) (d : Side) (cell : Nat) : Nat :=
  let h := tileHeight geom (squadOf cell) - 1
  let w := tileWidth geom (squadOf cell) - 1
  match d with
  | .n => cell + 16 * h
  | .s => cell - 16 * h
  | .e => cell - w
  | .w => cell + w

/-- Where a hop goes. -/
inductive Hop where
  | dropped
  /-- Into a cell of the core, after one cycle or, over express, four. -/
  | inside (cell delay : Nat)
  /-- Through an express channel, in clock time. -/
  | channel
  deriving DecidableEq, Repr

/-- The hop of R183; `reach` says which squads a next hop may enter inside the core. -/
def hop (geom : Word) (reach : BitVec 4) (edge : Nat) (d : Side) (cell : Nat) : Hop :=
  if leading geom d cell then
    match edge with
    | 0 => .dropped
    | 1 => .inside (opposite geom d cell) 4
    | _ =>
      match nextCell d cell with
      | some c => if bit reach (squadOf c) then .inside c 4 else .channel
      | none => .channel
  else
    match nextCell d cell with
    | some c => .inside c 1
    | none => .dropped

/-! ### Rows that a stream reads (R143, R174, R180, R185, R194, R212) -/

/-- A row read: whether it counts against R135. -/
structure RowRead where
  row : Nat
  counted : Bool
  deriving DecidableEq, Repr

/-- The pair of formats of an MMA stream. -/
def Stream.pair (st : Stream) : MmaPair :=
  ((Fmt.ofCode st.fa).bind fun a => (Fmt.ofCode st.fb).bind fun b => mmaPair a b).getD ⟨1, 1, 2, false⟩

/-- The K extent of an MMA stream (R175). -/
def Stream.kx (st : Stream) : Nat := mmaKx st.form st.pair.k

/-- Whether a cell injects fragments from its tower on a side (R185): A at the west edge, B at the north. -/
def Stream.injects (st : Stream) (isB : Bool) (cell : Nat) : Bool :=
  if isB then st.form.bs == 2 && fieldN st.form.rt 4 2 == 0 && tileRow st.geom cell == 0
  else st.form.as_ == 5 && fieldN st.form.rt 4 2 == 0 && tileCol st.geom cell == 0

/-- The fragment that an injecting cell takes at a step (R185). -/
def Stream.injected (st : Stream) (isB : Bool) (cell step : Nat) : Option Nat :=
  let pos := if isB then tileCol st.geom cell else tileRow st.geom cell
  if pos ≤ step ∧ step - pos < ceilDiv st.kx st.pair.k then some (step - pos) else none

/-- Rows of 256 bits of a fragment of one side. -/
def Stream.fragRows (st : Stream) (isB : Bool) : Nat := if isB then st.pair.bw else st.pair.aw

/-- The fragment number and first row of a side that reads the tower at a step (R174, R185). -/
def Stream.sideFrag (st : Stream) (isB : Bool) (cell step : Nat) : Option (Nat × Nat) :=
  let sel := if isB then st.form.bs else st.form.as_
  let base := if isB then st.form.tb.toNat else st.form.ta.toNat
  if sel = 1 ∨ sel = 8 then some (step, base + st.fragRows isB * step)
  else if st.injects isB cell then (st.injected isB cell step).map fun f => (f, base + st.fragRows isB * f)
  else none

/-- The tower rows of one side at a step. -/
def Stream.sideRows (st : Stream) (isB : Bool) (cell step : Nat) : List Nat :=
  match st.sideFrag isB cell step with
  | some (_, r) => (List.range (st.fragRows isB)).map fun q => r + q
  | none => []

/-- Source units of a lattice stream: rows of its source block (R212). -/
def Stream.units (st : Stream) : Nat := lqUnits st.fa

/-- Rows of a stream that reads two rows a cycle. -/
def Stream.rowCount (st : Stream) : Nat :=
  match st.kind with
  | .tldm => st.form.cn.toNat
  | .mload => drainRows ((Fmt.ofCode st.form.fp1.toNat).getD .fp32) st.form.cn.toNat
  | _ => st.units

/-- The region table that governs a stream in a cell: the one at its issue (R118, R336). -/
def Stream.regions (st : Stream) (cell : Nat) : Cell := { rgn := get [] st.rgn cell }

/-- The rows that a step reads in a cell, scale rows uncounted. -/
def Stream.rowsAt (st : Stream) (cell step : Nat) : List RowRead :=
  match st.kind with
  | .mma =>
    let rows := st.sideRows false cell step ++ st.sideRows true cell step
    rows.map (fun r => ⟨r, true⟩) ++ ((rows.map (st.regions cell).scaleRows).flatten.map fun r => ⟨r, false⟩)
  | _ => ([2 * step, 2 * step + 1].filter fun q => decide (q < st.rowCount)).map fun q => ⟨st.form.ta.toNat + q, true⟩

/-- The rows that a cell reads for the stream in a virtual cycle of its level. -/
def Stream.rowsIn (st : Stream) (cell v : Nat) : List RowRead :=
  if st.start ≤ v ∧ v < st.start + st.done + st.left ∧ bit st.form.sq (squadOf cell) then st.rowsAt cell (v - st.start).toNat
  else []

/-- The last cycle in which the stream is in the machine: its last step, or the update of an MLOAD (R194). -/
def Stream.endCycle (st : Stream) : Int :=
  match st.kind with
  | .mload => st.start + st.done + st.left + 1
  | _ => st.start + st.done + st.left - 1

/-- Whether a stream occupies the tile of its cells (R171). -/
def Stream.onTile (st : Stream) : Bool := st.kind == .mma || st.kind == .mload

end Sys2Proof.Machine
end

