-- ==== Sys2Proof/Machine/Handles.lean ====
section
/-! DEFINITION. Circular-buffer handles and timeline handles (R91 to R94, R246, R247, R315, R332). -/

namespace Sys2Proof.Machine

/-- A handle's fields (R246 for a tower handle, R332 for a CMEM handle); the unit of base and slot is 32 bytes, a row. -/
structure Handle where
  cmem : Bool
  base : Nat
  slot : Nat
  count : Nat
  fill : Nat
  drain : Nat
  filled : Nat
  deriving DecidableEq, Repr

/-- A handle register's word read as a handle; none is the null handle. -/
def handleOf (w : Word) : Option Handle :=
  if !bit w 63 then none
  else if bit w 62 then
    some ⟨true, fieldN w 49 13, fieldN w 41 8 + 1, fieldN w 33 8 + 1, fieldN w 25 8, fieldN w 17 8, fieldN w 8 9⟩
  else some ⟨false, fieldN w 52 10, fieldN w 46 6 + 1, fieldN w 36 10 + 1, fieldN w 26 10, fieldN w 16 10, fieldN w 5 11⟩

/-- A handle's register word. -/
def Handle.word (h : Handle) : Word :=
  if h.cmem then
    BitVec.ofNat 64 ((1 <<< 63) + (1 <<< 62) + (h.base <<< 49) + ((h.slot - 1) <<< 41) + ((h.count - 1) <<< 33) +
      (h.fill <<< 25) + (h.drain <<< 17) + (h.filled <<< 8))
  else
    BitVec.ofNat 64 ((1 <<< 63) + (h.base <<< 52) + ((h.slot - 1) <<< 46) + ((h.count - 1) <<< 36) + (h.fill <<< 26) +
      (h.drain <<< 16) + (h.filled <<< 5))

/-- Handle `n` of a context. -/
def Ctx.handle? (x : Ctx) (n : Nat) : Option Handle := handleOf (get 0 x.h n)

/-- Put a handle back. -/
def Ctx.setHandle (x : Ctx) (n : Nat) (h : Handle) : Ctx := { x with h := set 0 n h.word x.h }

/-- The fill pointer moved on by `n` slots (R93). -/
def Handle.advanceFill (h : Handle) (n : Nat) : Handle := { h with fill := (h.fill + n) % h.count, filled := h.filled + n }

/-- The drain pointer moved on by `n` slots (R93). -/
def Handle.advanceDrain (h : Handle) (n : Nat) : Handle :=
  { h with drain := (h.drain + n) % h.count, filled := h.filled - n }

/-- First row or 32-byte unit of slot position `p`. -/
def Handle.slotBase (h : Handle) (p : Nat) : Nat := h.base + p % h.count * h.slot

/-- Rows of a tower handle's slots. -/
def Handle.hasRow (h : Handle) (row : Nat) : Bool :=
  !h.cmem && decide (h.base ≤ row) && decide (row < h.base + h.slot * h.count)

/-- Slots advanced by the context and not yet published to producers (R94): (fills, drains). -/
def Ctx.unpublished (x : Ctx) (n : Nat) : Nat × Nat :=
  (x.advances.filter fun a => a.handle == n).foldl
    (fun p a => if a.fill then (p.1 + a.n, p.2) else (p.1, p.2 + a.n)) (0, 0)

/-- The handle as producers see it: the context's advances that are not yet published taken back (R94, R247). -/
def Ctx.producerView (x : Ctx) (n : Nat) : Option Handle :=
  (x.handle? n).map fun h =>
    let (f, d) := x.unpublished n
    { h with fill := (h.fill + h.count * f - f) % h.count, filled := h.filled + d - f }

/-- Whether something of a level waits for a cycle that is over by the present one; nothing of a level above the running
one is left. -/
def Ctx.over (x : Ctx) (level due : Nat) : Bool := decide (x.depth < level) || (level == x.depth && decide (due ≤ x.vt))

/-- Publish the advances that are due (R94). -/
def Ctx.publish (x : Ctx) : Ctx :=
  { x with advances := x.advances.filter fun a => !x.over a.level a.due
           loads := x.loads.filter fun l => !x.over l.level l.due }

/-- Where the context's cell writes into rows that a test names land: level and cycle. -/
def Core.writesInto (k : Core) (x : Ctx) (rows : Nat → Bool) : List (Nat × Nat) :=
  (k.cells.map fun p =>
    if bit x.sqm (squadOf p.1) then
      (p.2.writes.filter fun w => decide (w.level ≤ x.depth) && (rows w.row || w.scales.any fun q => rows q.1)).map
        fun w => (w.level, w.due)
    else []).flatten

/-- When a stream is still to read rows that a test names: its level and the cycles (R94). -/
def Stream.readsOf (st : Stream) (rows : Nat → Bool) : List (Nat × Nat) :=
  ((List.range st.left).filter fun i =>
    (cellsOf st.form.sq).any fun c => (st.rowsAt c (st.done + i)).any fun r => rows r.row).map
      fun (i : Nat) => (st.level, (st.start + st.done + i).toNat)

/-- The last of the accesses that something waits for, given by level and cycle: those of the lowest level come last, since a
handler's are over before the schedule it has frozen goes on (R411, R420). With none, the present cycle. -/
def Ctx.lastOf (x : Ctx) (ws : List (Nat × Nat)) : Nat × Nat :=
  let l := ws.foldl (fun m w => min m w.1) x.depth
  (l, ((ws.filter fun w => w.1 == l).map Prod.snd).foldl max (if l = x.depth then x.vt else 0))

/-- When an advance by the context is published (R94), by level and cycle: its issue, the landing of its earlier writes into
the slots, and for a drain the last read of the slots by its streams and the landing of its loads from them. -/
def Core.publishAt (k : Core) (x : Ctx) (h : Handle) (fill : Bool) : Nat × Nat :=
  let reads := if fill then [] else (x.streams.map fun st => st.readsOf h.hasRow).flatten
  let loads := if fill then []
    else (x.loads.filter fun l => h.cmem && decide (l.off < 32 * (h.base + h.slot * h.count)) &&
      decide (32 * h.base < l.off + l.len)).map fun l => (l.level, l.due)
  x.lastOf ((k.writesInto x h.hasRow) ++ reads ++ loads)

/-- Engine context that a timeline handle names; none for a null handle (R315). -/
def Ctx.timeline? (x : Ctx) (n : Nat) : Option Nat :=
  let w := get 0 x.tl n
  if bit w 63 then some (fieldN w 56 3) else none

/-- A counter of the current context's launch slot, by engine context (R315). -/
def State.counterOf (s : State) (c e : Nat) : Word :=
  match s.launchOf c with
  | some (_, l) => l.counter (s.core c).slot e
  | none => 0

end Sys2Proof.Machine
end

