-- ==== Sys2Proof/Machine/Flow.lean ====
section
/-! DEFINITION. The flow instructions of the F slot (R82 to R99). A wait that is not met is not ready: the bundle does not
issue (R90). -/

namespace Sys2Proof.Machine

/-! ### Shared shapes -/

/-- Halfword `h` of the code stream (R39). -/
def Core.halfword (k : Core) (h : Nat) : Nat := leNat (readBytes k.cmem (2 * h) 2)

/-- A halfword address that starts a bundle (R41, R42). -/
def Core.isStart (k : Core) (h : Nat) : Bool := decide (h < k.streamN) && get false k.bitmap h

/-- The sequential address after the bundle at a halfword address (R42, R82). -/
def Core.afterBundle (k : Core) (h : Nat) : Nat := if k.halfword h = 0xFFFF then h + 25 else h + 1

/-- A predicated flow instruction with no scalar result. -/
def flowOp (i : Instr) (f : FForm) (other : Option Cause) (effect : State → State) (s : State) : Meaning where
  taken := s.cx.pred f.pr f.pn
  check := { illegal := !legal i, other := if s.cx.pred f.pr f.pn then other else none }
  effect := effect

/-- Set the 64-bit target of a taken transfer (R82); outside a bundle the context goes there at once. -/
def State.transferTo (s : State) (t : Word) : State :=
  match s.cx.issue with
  | some _ => s.modIssue fun i => { i with target := some t }
  | none => s.modCx fun x => { x with pc := codeAddr t, via := .transfer x.pc t }

/-- A transfer that unwinds the loop stack (R87). -/
def State.branchTo (s : State) (t : Word) : State :=
  (s.modCx fun x => { x with loops := (unwind t.toNat x.loops.reverse).reverse }).transferTo t

/-- The 16-bit target field (R52). -/
def fTarget (f : FForm) : Nat := fieldN f.tgt 0 16

/-- Handle register of WAITB, ADVP and ADVC (R56). -/
def fHandle (f : FForm) : Nat := fieldN f.a 0 4

/-- BUF_RANGE. -/
def bufRange : Cause := ⟨cBufRange, 0, none⟩

/-- BRC's conditions (R56, R83). -/
def brcCond (cc : Nat) (a : Word) : Bool :=
  match cc with
  | 0 => a == 0
  | 1 => a != 0
  | 2 => a.slt 0
  | 3 => a.sle 0
  | 4 => (0 : Word).slt a
  | _ => (0 : Word).sle a

/-! ### Transfers -/

/-- BR (R83). -/
def meanBr (f : FForm) (s : State) : Meaning :=
  flowOp (.br f) f none (fun s => s.branchTo (BitVec.ofNat 64 (fTarget f))) s
/-- Run BR. -/
def execBr (f : FForm) (s : State) : Res := s.run (meanBr f s)

/-- BRC (R83). -/
def meanBrc (f : FForm) (s : State) : Meaning :=
  let a := s.cx.greg f.a.toNat
  flowOp (.brc f) f none
    (fun s => if brcCond (fieldN f.b 3 3) a then s.branchTo (BitVec.ofNat 64 (fTarget f)) else s) s
/-- Run BRC. -/
def execBrc (f : FForm) (s : State) : Res := s.run (meanBrc f s)

/-- JMP (R83). -/
def meanJmp (f : FForm) (s : State) : Meaning :=
  let a := s.cx.greg f.a.toNat
  flowOp (.jmp f) f none (fun s => s.branchTo a) s
/-- Run JMP. -/
def execJmp (f : FForm) (s : State) : Res := s.run (meanJmp f s)

/-- CALL (R83): the link lands after one cycle; the loop stack stays. -/
def meanCall (f : FForm) (s : State) : Meaning :=
  let taken := s.cx.pred f.pr f.pn
  let link := s.cx.issueNext
  { taken := taken
    check := { illegal := !legal (.call f), lands := if taken && f.a != 0 then [(.g, f.a.toNat, 1)] else [] }
    effect := fun s =>
      (s.modCx fun x => x.landAt .g f.a.toNat (link.setWidth 64) 1).transferTo (BitVec.ofNat 64 (fTarget f)) }
/-- Run CALL. -/
def execCall (f : FForm) (s : State) : Res := s.run (meanCall f s)

/-- RET (R83): as JMP, the loop stack unchanged. -/
def meanRet (f : FForm) (s : State) : Meaning :=
  let a := s.cx.greg f.a.toNat
  flowOp (.ret f) f none (fun s => s.transferTo a) s
/-- Run RET. -/
def execRet (f : FForm) (s : State) : Res := s.run (meanRet f s)

/-! ### Loops -/

/-- The faults of R85 for a body ending at `t`; `pushes` when an entry would be pushed, `big` for a count past 32 bits. -/
def State.loopCause (s : State) (t : Nat) (pushes big : Bool) : Option Cause :=
  let x := s.cx
  let start := x.issueNext.toNat
  if !s.cc.isStart t then some ⟨cIllegalTarget, BitVec.ofNat 64 t, none⟩
  else if !pushes then none
  else if t < start ∨ 4 ≤ x.loops.length ∨ big then some ⟨cLoopRange, 0, none⟩
  else
    match x.loops.getLast? with
    | none => none
    | some e => if start < e.start.toNat ∨ e.fin.toNat < t then some ⟨cLoopRange, 0, none⟩ else none

/-- Push a loop entry (R84). -/
def State.pushLoop (s : State) (t : Nat) (count : BitVec 32) : State :=
  s.modCx fun x => { x with loops := x.loops ++ [⟨x.issueNext, BitVec.ofNat 17 t, count⟩] }

/-- LOOP (R84, R85): a count of 0 skips the body and pushes nothing. -/
def meanLoop (f : FForm) (s : State) : Meaning :=
  let n := (s.cx.greg f.a.toNat).toNat
  let t := (fTarget f)
  flowOp (.loop f) f (s.loopCause t (decide (n ≠ 0)) (decide (0xFFFFFFFF < n)))
    (fun s => if n = 0 then s.transferTo (BitVec.ofNat 64 (s.cc.afterBundle t)) else s.pushLoop t (BitVec.ofNat 32 n)) s
/-- Run LOOP. -/
def execLoop (f : FForm) (s : State) : Res := s.run (meanLoop f s)

/-- LOOPI's count, F[51:40] (R56). -/
def fLoopCount (f : FForm) : BitVec 32 := BitVec.ofNat 32 (f.a.toNat * 64 + f.b.toNat)

/-- LOOPI (R84, R85). -/
def meanLoopi (f : FForm) (s : State) : Meaning :=
  flowOp (.loopi f) f (s.loopCause (fTarget f) true false) (fun s => s.pushLoop (fTarget f) (fLoopCount f)) s
/-- Run LOOPI. -/
def execLoopi (f : FForm) (s : State) : Res := s.run (meanLoopi f s)

/-- BREAKL (R88). -/
def meanBreakl (f : FForm) (s : State) : Meaning :=
  flowOp (.breakl f) f (if s.cx.loops.isEmpty then some ⟨cLoopRange, 0, none⟩ else none)
    (fun s => (s.modCx fun x => { x with loops := x.loops.dropLast }).branchTo (BitVec.ofNat 64 (fTarget f))) s
/-- Run BREAKL. -/
def execBreakl (f : FForm) (s : State) : Res := s.run (meanBreakl f s)

/-! ### Waits and buffer pointers -/

/-- Count that WAITB names (R91). -/
def fCount (f : FForm) : Nat := fieldN f.tgt 0 16

/-- WAITB's condition (R91): a count that can never be met is a cause at issue, not a wait (DEDUCED, log entry 41). -/
def waitbMet (f : FForm) (s : State) : Bool :=
  match s.cx.handle? (fHandle f) with
  | none => true
  | some h =>
    if h.count < fCount f then true
    else if bit f.tgt 39 then decide ((fCount f) ≤ h.count - h.filled) else decide ((fCount f) ≤ h.filled)

/-- WAITB (R91). -/
def meanWaitb (f : FForm) (s : State) : Meaning :=
  { flowOp (.waitb f) f
      (match s.cx.handle? (fHandle f) with
        | none => some bufRange
        | some h => if h.count < (fCount f) then some bufRange else none) id s with ready := waitbMet f s }
/-- Run WAITB. -/
def execWaitb (f : FForm) (s : State) : Res := s.run (meanWaitb f s)

/-- WAITT's condition (R92). -/
def waittMet (f : FForm) (s : State) : Bool :=
  match s.cx.timeline? (fieldN f.a 0 3) with
  | none => true
  | some e => decide ((s.cx.greg f.b.toNat + zext64 f.tgt).toNat ≤ (s.counterOf s.turn.core e).toNat)

/-- WAITT (R92). -/
def meanWaitt (f : FForm) (s : State) : Meaning :=
  { flowOp (.waitt f) f (if (s.cx.timeline? (fieldN f.a 0 3)).isNone then some bufRange else none) id s with
    ready := waittMet f s }
/-- Run WAITT. -/
def execWaitt (f : FForm) (s : State) : Res := s.run (meanWaitt f s)

/-- Advance a handle and note that the advance is not yet published (R93, R94). -/
def State.advanceHandle (s : State) (n : Nat) (fill : Bool) (count : Nat) : State :=
  match s.cx.handle? n with
  | none => s
  | some h =>
    if count = 0 then s
    else
      let due := s.cc.publishAt s.cx h fill
      s.modCx fun x =>
        let y := x.setHandle n (if fill then h.advanceFill count else h.advanceDrain count)
        { y with advances := y.advances ++ [⟨n, fill, count, due.1, due.2⟩] }

/-- ADVP (R93). -/
def meanAdvp (f : FForm) (s : State) : Meaning :=
  flowOp (.advp f) f
    (match s.cx.handle? (fHandle f) with
      | none => some bufRange
      | some h => if h.count < h.filled + (fCount f) then some bufRange else none)
    (fun s => s.advanceHandle (fHandle f) true (fCount f)) s
/-- Run ADVP. -/
def execAdvp (f : FForm) (s : State) : Res := s.run (meanAdvp f s)

/-- ADVC (R93). -/
def meanAdvc (f : FForm) (s : State) : Meaning :=
  flowOp (.advc f) f
    (match s.cx.handle? (fHandle f) with
      | none => some bufRange
      | some h => if h.filled < (fCount f) then some bufRange else none)
    (fun s => s.advanceHandle (fHandle f) false (fCount f)) s
/-- Run ADVC. -/
def execAdvc (f : FForm) (s : State) : Res := s.run (meanAdvc f s)

/-! ### Yielding, ending, sleeping, trapping, returning -/

/-- Count a step of progress of the current launch: the watchdog starts again (R359, R364). -/
def State.progress (s : State) (c : Nat) : State :=
  match (s.core c).launch with
  | none => s
  | some l => s.modLaunch l fun x => { x with
      progress := x.progress + 1, wdogAt := if x.wdogSecond then x.wdogAt else s.clock }

/-- What the context does after the bundle in issue; outside a bundle it does so at once. -/
def State.afterBundle (s : State) (r : RunState) : State :=
  match s.cx.issue with
  | some _ => s.modIssue fun i => { i with ending := r }
  | none => s.modCx fun x => { x with run := r }

/-- YIELD (R95, R359, R360): a declared yield point; a context that is asked to drain stops after this bundle. -/
def meanYield (f : FForm) (s : State) : Meaning :=
  let n := fieldN f.tgt 0 32
  flowOp (.yield f) f none
    (fun s =>
      let s := s.modCx fun x => { x with
        yieldPt := some (if n = 0xFFFFFFFF then none else some (x.vt + n)), yieldLevel := x.depth, yieldEnd := n == 0 }
      let s := s.progress s.turn.core
      if s.cx.drainReq && s.cx.depth == 0 then s.afterBundle .drained else s) s
/-- Run YIELD. -/
def execYield (f : FForm) (s : State) : Res := s.run (meanYield f s)

/-- END (R96): the context drains and stops. -/
def meanEndOp (f : FForm) (s : State) : Meaning :=
  flowOp (.endOp f) f none (fun s => (s.progress s.turn.core).afterBundle .ending) s
/-- Run END. -/
def execEndOp (f : FForm) (s : State) : Res := s.run (meanEndOp f s)

/-- SLEEP (R97): the context drains its landing buffer and becomes dormant. -/
def meanSleep (f : FForm) (s : State) : Meaning :=
  flowOp (.sleep f) f none (fun s => (s.progress s.turn.core).afterBundle .sleeping) s
/-- Run SLEEP. -/
def execSleep (f : FForm) (s : State) : Res := s.run (meanSleep f s)

/-- TRAP (R98): USER_TRAP at the end of the bundle, with the code as INFO. Outside a bundle the trap is taken at once. -/
def meanTrap (f : FForm) (s : State) : Meaning :=
  let code : BitVec 16 := field f.tgt 0 16
  flowOp (.trap f) f none
    (fun s =>
      match s.cx.issue with
      | some _ => s.modIssue fun i => { i with user := some code }
      | none => s.takeTrap s.turn.core s.turn.ctx
          { cause := cUserTrap, fslot := 4, fpc := s.cx.pc, info := code.setWidth 64, rpc := s.cx.issueNext }) s
/-- Run TRAP. -/
def execTrap (f : FForm) (s : State) : Res := s.run (meanTrap f s)

/-- RFT (R99, R420): TRAP_STATE outside a handler; otherwise the context drains and takes up its record. -/
def meanRft (f : FForm) (s : State) : Meaning :=
  flowOp (.rft f) f (if s.cx.depth = 0 then some ⟨cTrapState, 0, none⟩ else none) (fun s => s.afterBundle .returning) s
/-- Run RFT. -/
def execRft (f : FForm) (s : State) : Res := s.run (meanRft f s)

end Sys2Proof.Machine
end

