-- ==== Sys2Proof/Machine/Mem.lean ====
section
/-! DEFINITION. Loads, stores, atomics, fences and the timeline instructions of the M slot (R305 to R317). The memory
model is sequentially consistent, one of the executions the manual allows (DEDUCED, log entry 5): a store is performed at its
issue, and a fence orders nothing further. -/

namespace Sys2Proof.Machine

/-! ### Shared shapes -/

/-- An M-slot instruction: its predicate, results, first own cause and effect. -/
def memOp (i : Instr) (f : MForm) (lands : List (LReg × Nat × Nat)) (other : Option Cause) (effect : State → State)
    (s : State) : Meaning :=
  let taken := s.cx.pred f.pr f.pn
  { taken := taken
    check := { illegal := !legal i
               lands := if taken then lands.filter fun l => !discarded l.1 l.2.1 else []
               other := if taken then other else none }
    effect := effect }

/-- The effective address of a memory operand (R51). -/
def effAddr (f : MForm) (s : State) : Word := s.cx.greg f.a.toNat + sext64 f.imm

/-- Latency by the space an address names (R307); an address that names none lands nothing. -/
def spaceLat (ea : Word) (cmem sibling glob : Nat) : Option Nat :=
  match spaceOf ea with
  | some (.glob _) => some glob
  | some (.cmem _) => some cmem
  | some (.sibling _ _) => some sibling
  | none => none

/-- A fault of an access after issue (R305). -/
def State.accessFault (s : State) (ea : Word) (isWrite : Bool) (e : AccErr) : State :=
  let (cz, s) := s.ctxAccErr s.turn.core s.turn.ctx ea isWrite e
  s.faultAfter cz

/-- Note the global watchpoints that a performed access matches (R425, R426). -/
def State.watchAccess (s : State) (kind : AccKind) (ea : Word) : State :=
  match spaceOf ea with
  | some (.glob va) =>
    let m := s.cc.watchGlobal kind va
    if m = 0 then s else s.modCx fun x => x.noteWatch 2 (BitVec.ofNat 64 m)
  | _ => s

/-! ### Loads (R308) -/

/-- The offset in the core's own CMEM that an address names, by itself or as that of its own slot (R26). -/
def State.ownCmem (s : State) (ea : Word) : Option Nat :=
  match spaceOf ea with
  | some (.cmem off) => some off
  | some (.sibling slot off) => if slot = s.cc.slot then some off else none
  | _ => none

/-- A load of `n` bytes (DEDUCED, log entry 5). -/
def loadOp (i : Instr) (f : MForm) (n : Nat) (signed : Bool) (s : State) : Meaning :=
  let ea := effAddr f s
  let lat := spaceLat ea 3 8 12
  memOp i f (match lat with
      | some t => [(.g, f.d.toNat, t)]
      | none => [])
    (s.addrCause s.turn.core .load n n ea)
    (fun s =>
      match s.ctxRead s.turn.core (s.ctxClient s.turn.core s.turn.ctx) ea n with
      | (.error e, s) => s.accessFault ea false e
      | (.ok bs, s) =>
        let w : Word := BitVec.ofNat 64 (leNat bs)
        let s := s.modCx fun x =>
          let x := x.landAt .g f.d.toNat (if signed then extendLowBits n w else w) (lat.getD 12)
          match s.ownCmem ea with
          | some off => { x with loads := x.loads ++ [⟨x.depth, x.vt + lat.getD 12, off, n⟩] }
          | none => x
        s.watchAccess .load ea) s
where
  /-- The low `n` bytes of a word, sign-extended. -/
  extendLowBits (n : Nat) (w : Word) : Word := (w.setWidth (8 * n)).signExtend 64

/-- LDB (R308). -/
def meanLdb (f : MForm) (s : State) : Meaning := loadOp (.ldb f) f 1 true s
/-- Run LDB. -/
def execLdb (f : MForm) (s : State) : Res := s.run (meanLdb f s)
/-- LDBN (R308). -/
def meanLdbn (f : MForm) (s : State) : Meaning := loadOp (.ldbn f) f 1 false s
/-- Run LDBN. -/
def execLdbn (f : MForm) (s : State) : Res := s.run (meanLdbn f s)
/-- LDH (R308). -/
def meanLdh (f : MForm) (s : State) : Meaning := loadOp (.ldh f) f 2 true s
/-- Run LDH. -/
def execLdh (f : MForm) (s : State) : Res := s.run (meanLdh f s)
/-- LDHN (R308). -/
def meanLdhn (f : MForm) (s : State) : Meaning := loadOp (.ldhn f) f 2 false s
/-- Run LDHN. -/
def execLdhn (f : MForm) (s : State) : Res := s.run (meanLdhn f s)
/-- LDW (R308). -/
def meanLdw (f : MForm) (s : State) : Meaning := loadOp (.ldw f) f 4 true s
/-- Run LDW. -/
def execLdw (f : MForm) (s : State) : Res := s.run (meanLdw f s)
/-- LDWN (R308). -/
def meanLdwn (f : MForm) (s : State) : Meaning := loadOp (.ldwn f) f 4 false s
/-- Run LDWN. -/
def execLdwn (f : MForm) (s : State) : Res := s.run (meanLdwn f s)
/-- LDD (R308). -/
def meanLdd (f : MForm) (s : State) : Meaning := loadOp (.ldd f) f 8 false s
/-- Run LDD. -/
def execLdd (f : MForm) (s : State) : Res := s.run (meanLdd f s)

/-! ### Stores (R309, R310) -/

/-- A store of the low `n` bytes of g[b]. -/
def storeOp (i : Instr) (f : MForm) (n : Nat) (s : State) : Meaning :=
  let ea := effAddr f s
  let data := leBytes n (s.cx.greg f.b.toNat).toNat
  memOp i f [] (s.addrCause s.turn.core .store n n ea)
    (fun s =>
      match s.ctxWrite s.turn.core (s.ctxClient s.turn.core s.turn.ctx) ea data with
      | (.error e, s) => s.accessFault ea true e
      | (.ok t, _) => t.watchAccess .store ea) s

/-- STB (R309). -/
def meanStb (f : MForm) (s : State) : Meaning := storeOp (.stb f) f 1 s
/-- Run STB. -/
def execStb (f : MForm) (s : State) : Res := s.run (meanStb f s)
/-- STH (R309). -/
def meanSth (f : MForm) (s : State) : Meaning := storeOp (.sth f) f 2 s
/-- Run STH. -/
def execSth (f : MForm) (s : State) : Res := s.run (meanSth f s)
/-- STW (R309). -/
def meanStw (f : MForm) (s : State) : Meaning := storeOp (.stw f) f 4 s
/-- Run STW. -/
def execStw (f : MForm) (s : State) : Res := s.run (meanStw f s)
/-- STD (R309). -/
def meanStd (f : MForm) (s : State) : Meaning := storeOp (.std f) f 8 s
/-- Run STD. -/
def execStd (f : MForm) (s : State) : Res := s.run (meanStd f s)

/-! ### Atomics (R311, R312) -/

/-- The nine operations and the comparing swap (R312). -/
inductive AmoOp where
  | add | and | or | xor | min | max | minn | maxn | swp | cas
  deriving DecidableEq, Repr

/-- Bits of an atomic's operand: a word, or a doubleword (R51). -/
def amoWidth (f : MForm) : Nat := if fieldN f.attr 1 2 = 2 then 32 else 64

/-- The new value of R312, at width `w`: from the old value, the operand, and the expected value of AMOCAS. -/
def amoNew (op : AmoOp) (w m v e : Nat) : Nat :=
  let sm := (BitVec.ofNat w m).toInt
  let sv := (BitVec.ofNat w v).toInt
  match op with
  | .add => (m + v) % 2 ^ w
  | .and => m &&& v
  | .or => m ||| v
  | .xor => m ^^^ v
  | .min => if sv < sm then v else m
  | .max => if sm < sv then v else m
  | .minn => Nat.min m v
  | .maxn => Nat.max m v
  | .swp => v
  | .cas => if m = e then v else m

/-- The old value as it lands (R312). -/
def amoOld (op : AmoOp) (w m : Nat) : Word :=
  match op with
  | .minn => BitVec.ofNat 64 m
  | .maxn => BitVec.ofNat 64 m
  | _ => (BitVec.ofNat w m).signExtend 64

/-- Read, compute and write as one action: the old value's bytes, or the error. -/
def State.amoAccess (s : State) (ea : Word) (n : Nat) (f : Nat → Nat) : Except AccErr Nat × State :=
  let c := s.turn.core
  match spaceOf ea with
  | some (.cmem off) =>
    let k := s.core c
    if k.cmemBad off n then (.error ⟨cUncorrectable, none⟩, s)
    else
      let m := leNat (readBytes k.cmem off n)
      (.ok m, s.setCore c (k.writeCmem off (leBytes n (f m))))
  | some (.glob va) =>
    match s.translateAll (s.ctxAccessor c s.turn.ctx) .write [(va, n)] with
    | (.error e, s) => (.error e, s)
    | (.ok xs, s) =>
      match xs with
      | [] => (.error ⟨cPageFault, none⟩, s)
      | x :: _ =>
        if s.locBad x.1 n then (.error ⟨cUncorrectable, none⟩, s)
        else
          let m := leNat (s.locBytes x.1 n)
          (.ok m, s.writeLoc x.1 (leBytes n (f m)))
  | _ => (.error ⟨cAddrSpace, none⟩, s)

/-- An atomic (R312). -/
def amoMean (i : Instr) (f : MForm) (op : AmoOp) (s : State) : Meaning :=
  let ea := effAddr f s
  let w := amoWidth f
  let n := w / 8
  let lat := spaceLat ea 4 4 16
  let v := (s.cx.greg f.b.toNat).toNat % 2 ^ w
  let e := (s.cx.greg f.d.toNat).toNat % 2 ^ w
  memOp i f (match lat with
      | some t => [(.g, f.d.toNat, t)]
      | none => [])
    (s.addrCause s.turn.core .atomic n n ea)
    (fun s =>
      match s.amoAccess ea n (fun m => amoNew op w m v e) with
      | (.error er, s) => s.accessFault ea true er
      | (.ok m, s) =>
        (s.modCx fun x => x.landAt .g f.d.toNat (amoOld op w m) (lat.getD 16)).watchAccess .atomic ea) s

/-- AMOADD (R312). -/
def meanAmoadd (f : MForm) (s : State) : Meaning := amoMean (.amoadd f) f .add s
/-- Run AMOADD. -/
def execAmoadd (f : MForm) (s : State) : Res := s.run (meanAmoadd f s)
/-- AMOAND (R312). -/
def meanAmoand (f : MForm) (s : State) : Meaning := amoMean (.amoand f) f .and s
/-- Run AMOAND. -/
def execAmoand (f : MForm) (s : State) : Res := s.run (meanAmoand f s)
/-- AMOOR (R312). -/
def meanAmoor (f : MForm) (s : State) : Meaning := amoMean (.amoor f) f .or s
/-- Run AMOOR. -/
def execAmoor (f : MForm) (s : State) : Res := s.run (meanAmoor f s)
/-- AMOXOR (R312). -/
def meanAmoxor (f : MForm) (s : State) : Meaning := amoMean (.amoxor f) f .xor s
/-- Run AMOXOR. -/
def execAmoxor (f : MForm) (s : State) : Res := s.run (meanAmoxor f s)
/-- AMOMIN (R312). -/
def meanAmomin (f : MForm) (s : State) : Meaning := amoMean (.amomin f) f .min s
/-- Run AMOMIN. -/
def execAmomin (f : MForm) (s : State) : Res := s.run (meanAmomin f s)
/-- AMOMAX (R312). -/
def meanAmomax (f : MForm) (s : State) : Meaning := amoMean (.amomax f) f .max s
/-- Run AMOMAX. -/
def execAmomax (f : MForm) (s : State) : Res := s.run (meanAmomax f s)
/-- AMOMINN (R312). -/
def meanAmominn (f : MForm) (s : State) : Meaning := amoMean (.amominn f) f .minn s
/-- Run AMOMINN. -/
def execAmominn (f : MForm) (s : State) : Res := s.run (meanAmominn f s)
/-- AMOMAXN (R312). -/
def meanAmomaxn (f : MForm) (s : State) : Meaning := amoMean (.amomaxn f) f .maxn s
/-- Run AMOMAXN. -/
def execAmomaxn (f : MForm) (s : State) : Res := s.run (meanAmomaxn f s)
/-- AMOSWP (R312). -/
def meanAmoswp (f : MForm) (s : State) : Meaning := amoMean (.amoswp f) f .swp s
/-- Run AMOSWP. -/
def execAmoswp (f : MForm) (s : State) : Res := s.run (meanAmoswp f s)
/-- AMOCAS (R312): a compare that fails still writes the old value back. -/
def meanAmocas (f : MForm) (s : State) : Meaning := amoMean (.amocas f) f .cas s
/-- Run AMOCAS. -/
def execAmocas (f : MForm) (s : State) : Res := s.run (meanAmocas f s)

/-! ### Fences and timelines (R314, R316, R317) -/

/-- FENCE (R257, R314): costs no register and changes no state; its order holds of every execution of this model. -/
def meanFence (f : MForm) (s : State) : Meaning := memOp (.fence f) f [] none id s
/-- Run FENCE. -/
def execFence (f : MForm) (s : State) : Res := s.run (meanFence f s)

/-- Timeline handle of TLINC and TLREAD. -/
def mTimeline (f : MForm) : Nat := fieldN f.a 0 3

/-- BUF_RANGE for a null timeline handle. -/
def nullTimeline (f : MForm) (s : State) : Option Cause := if (s.cx.timeline? (mTimeline f)).isNone then some bufRange else none

/-- Add to the counter of an engine context of the current core's launch slot (R268). -/
def State.addTimeline (s : State) (c e : Nat) (v : Nat) : State :=
  match (s.core c).launch with
  | none => s
  | some l => s.modLaunch l fun x => x.addCounter (s.core c).slot e v

/-- TLINC (R316). -/
def meanTlinc (f : MForm) (s : State) : Meaning :=
  let v := s.cx.greg f.b.toNat + zext64 f.imm
  memOp (.tlinc f) f [] (nullTimeline f s)
    (fun s =>
      match s.cx.timeline? (mTimeline f) with
      | some e => s.addTimeline s.turn.core e v.toNat
      | none => s) s
/-- Run TLINC. -/
def execTlinc (f : MForm) (s : State) : Res := s.run (meanTlinc f s)

/-- TLREAD (R317): a relaxed read of the counter. -/
def meanTlread (f : MForm) (s : State) : Meaning :=
  memOp (.tlread f) f [(.g, f.d.toNat, 12)] (nullTimeline f s)
    (fun s =>
      match s.cx.timeline? (mTimeline f) with
      | some e =>
        let v := s.counterOf s.turn.core e
        s.modCx fun x => x.landAt .g f.d.toNat v 12
      | none => s) s
/-- Run TLREAD. -/
def execTlread (f : MForm) (s : State) : Res := s.run (meanTlread f s)

end Sys2Proof.Machine
end

