-- ==== Sys2Proof/Machine/Engine.lean ====
section
/-! DEFINITION. The M-slot instructions that drive the copy engine, the gather unit and deliveries into other units'
handles (R306, R318 to R331). What those units then do are device steps of their own. -/

namespace Sys2Proof.Machine

/-! ### Copy descriptors (R31, R319 to R322) -/

/-- Bytes of a list as 64-bit words. -/
def bytesToWords (bs : List Byte) : List Word := (List.range (bs.length / 8)).map fun i => BitVec.ofNat 64 (leNat ((bs.drop (8 * i)).take 8))

/-- DKIND and SKIND of a descriptor (R31). -/
def copyDKind (d : List Word) : Nat := fieldN (nth 0 d 0) 32 8
/-- SKIND. -/
def copySKind (d : List Word) : Nat := fieldN (nth 0 d 0) 24 8
/-- SLOT of a schedule entry. -/
def copySlot (d : List Word) : Nat := fieldN (nth 0 d 0) 16 8
/-- GATE of a schedule entry. -/
def copyGate (d : List Word) : Nat := fieldN (nth 0 d 0) 4 12
/-- ECTX of a schedule entry. -/
def copyEctx (d : List Word) : Nat := fieldN (nth 0 d 0) 0 3
/-- INC. -/
def copyInc (d : List Word) : Nat := fieldN (nth 0 d 1) 0 32
/-- SRC. -/
def copySrc (d : List Word) : Word := nth 0 d 2
/-- DST. -/
def copyDst (d : List Word) : Word := nth 0 d 3
/-- LENk. -/
def copyLen (d : List Word) (k : Nat) : Nat := fieldN (nth 0 d (4 + k / 2)) (32 * (k % 2)) 32
/-- A 32-bit signed field counted from 32-bit word `w` of a descriptor. -/
def copySigned (d : List Word) (w : Nat) : Int := (field (nth 0 d (w / 2)) (32 * (w % 2)) 32 : BitVec 32).toInt
/-- SSTRk, 0x38 onward. -/
def copySstr (d : List Word) (k : Nat) : Int := copySigned d (14 + k)
/-- DSTRk, 0x50 onward. -/
def copyDstr (d : List Word) (k : Nat) : Int := copySigned d (20 + k)
/-- SKIP of a CPGO descriptor (R319). -/
def copySkip (d : List Word) : Nat := fieldN (nth 0 d 13) 0 38

/-- The number of positions of a pattern (R320). -/
def copyCount (d : List Word) : Nat := (List.range 6).foldl (fun n k => n * copyLen d k) 1

/-- The innermost stride as it acts: 1 when it is 0 (R320). -/
def innerStride (v : Int) : Int := if v = 0 then 1 else v

/-- Strides of a side, innermost first. -/
def copyStrides (d : List Word) (src : Bool) : List Int :=
  (List.range 6).map fun k =>
    let v := if src then copySstr d k else copyDstr d k
    if k = 0 then innerStride v else v

/-- Offset of a position, its indices taken off innermost first (R320). -/
def copyOffset : List Nat → List Int → Nat → Int
  | l :: ls, s :: ss, p => (p % l : Nat) * s + copyOffset ls ss (p / l)
  | _, _, _ => 0

/-- The six lengths. -/
def copyLens (d : List Word) : List Nat := (List.range 6).map (copyLen d)

/-- Least and greatest offset of a side over a pattern that is not empty. -/
def copyBounds (d : List Word) (src : Bool) : Int × Int :=
  ((copyLens d).zip (copyStrides d src)).foldl
    (fun b p =>
      let far := ((p.1 : Int) - 1) * p.2
      if far < 0 then (b.1 + far, b.2) else (b.1, b.2 + far)) (0, 0)

/-- A tower kind (R31). -/
def isTowerKind (k : Nat) : Bool := k == 1 || k == 2

/-- Squad of a tower address word (R321). -/
def towerSquad (w : Word) : Nat := fieldN w 24 2
/-- Column of a tower address word. -/
def towerCol (w : Word) : Nat := fieldN w 10 4
/-- First row of a tower address word. -/
def towerAddr (w : Word) : Nat := fieldN w 0 10
/-- RGNW of a tower address word. -/
def towerRgnw (w : Word) : Bool := bit w 40

/-- The cells that a tower address word names, in ascending row (R321, R322). -/
def towerCells (w : Word) : List Nat :=
  let mask : BitVec 8 := field w 16 8
  let base := towerSquad w / 2 * 8
  ((List.range 8).filter fun r => mask == 0 || bit mask r).map fun r => (base + r) * 16 + towerCol w

/-- The rules of an address word by its kind (R321, R322, R324); `src` for the source side. -/
def copySideOk (d : List Word) (src : Bool) : Bool :=
  let k := if src then copySKind d else copyDKind d
  let w := if src then copySrc d else copyDst d
  let b := copyBounds d src
  let n := (towerCells w).length
  let lo := b.1 / 32
  let hi := b.2 / 32
  match k with
  | 0 => fieldN w 56 8 == 0
  | 3 => fieldN w 18 46 == 0
  | 4 => fieldN w 58 6 == 0
  | 1 =>
    fieldN w 41 23 == 0 && fieldN w 14 2 == 0 && towerCol w / 8 == towerSquad w % 2 &&
    (!src || n == 1) &&
    (copyCount d == 0 || (decide (0 ≤ (towerAddr w : Int) + lo) && decide ((towerAddr w : Int) + hi ≤ 1023)))
  | 2 =>
    fieldN w 41 23 == 0 && fieldN w 14 2 == 0 && towerCol w / 8 == towerSquad w % 2 &&
    (copyCount d == 0 || (decide (0 ≤ (towerAddr w : Int) + lo / n) && decide ((towerAddr w : Int) + hi / n ≤ 1023)))
  | _ => false

/-- The rules of R31 and R319 to R324 that both a schedule entry and a descriptor keep; an entry that breaks one is refused at
validation with LAUNCH_INVALID (DESIGN CHOICE, log entry 58). -/
def copyCommonOk (d : List Word) : Bool :=
  let sk := copySKind d
  let dk := copyDKind d
  fieldN (nth 0 d 0) 40 24 == 0 && !bit (nth 0 d 0) 3 && fieldN (nth 0 d 1) 32 32 == 0 &&
  decide (sk ≤ 4) && decide (dk ≤ 4) && !(isTowerKind sk && isTowerKind dk) &&
  !(sk == 4 && !(dk == 0 || dk == 3)) && !(dk == 4 && !(sk == 0 || sk == 3)) &&
  decide (copyCount d ≤ 2 ^ 38) && copySideOk d true && copySideOk d false &&
  nth 0 d 14 == 0 && nth 0 d 15 == 0

/-- The squads that a descriptor's tower sides name. -/
def copySquads (d : List Word) : List Nat :=
  (if isTowerKind (copySKind d) then [towerSquad (copySrc d)] else []) ++
    (if isTowerKind (copyDKind d) then [towerSquad (copyDst d)] else [])

/-- CPGO's checks of a descriptor (R319, R325), for a context that holds the squads of a mask. -/
def copyGoOk (d : List Word) (sqm : BitVec 4) : Bool :=
  copyCommonOk d && fieldN (nth 0 d 0) 0 24 == 0 && fieldN (nth 0 d 13) 38 26 == 0 &&
    (copySquads d).all fun q => bit sqm q

/-! ### Operand reads (R306) -/

/-- The outcome of an instruction's operand read and checks: what was read, an issue fault, or an uncorrectable error
after issue (R438); and the state with the read recorded. -/
inductive Fetched (α : Type) where
  | ok (v : α) (s : State)
  | issue (cz : Cause)
  | late (s : State)

/-- The current context's operand read, its own alignment cause first. -/
def State.fetchOperand (s : State) (ea : Word) (n al : Nat) (bad : BitVec 16) : Fetched (List Byte) :=
  if ea.toNat % al ≠ 0 then .issue ⟨bad, if bad = cMisaligned then ea else 0, none⟩
  else
    match s.operandRead s.turn.core s.turn.ctx ea n with
    | (.ok bs, s) => .ok bs s
    | (.error (cz, false), _) => .issue cz
    | (.error (_, true), s) => .late s

/-- The issue fault of a fetch and its check. -/
def Fetched.cause {α : Type} : Fetched α → Option Cause
  | .issue cz => some cz
  | _ => none

/-- Go on with what was fetched; an uncorrectable operand is the slot's fault after issue. -/
def Fetched.effect {α : Type} (r : Fetched α) (s : State) (go : α → State → State) : State :=
  match r with
  | .ok v t => go v t
  | .issue _ => s
  | .late t => t.faultAfter ⟨cUncorrectable, 0, none⟩

/-! ### The copy engine (R325 to R327) -/

/-- An engine context of the current core. -/
def State.engine (s : State) (e : Nat) : Engine := get {} s.cc.engines e

/-- Put an engine context of the current core back. -/
def State.setEngine (s : State) (e : Nat) (x : Engine) : State := s.modCore fun k => { k with engines := set {} e x k.engines }

/-- CPGO's descriptor as read and checked. -/
def cpgoFetch (f : MForm) (s : State) : Fetched (List Word) :=
  match s.fetchOperand (s.cx.greg f.a.toNat) 128 128 cCopyInvalid with
  | .ok bs t =>
    let d := bytesToWords bs
    if copyGoOk d s.cx.sqm then .ok d t else .issue ⟨cCopyInvalid, 0, none⟩
  | .issue cz => .issue cz
  | .late t => .late t

/-- Queue an operation of a context (R318): its number is fixed by the issued total. -/
def State.queueCopy (s : State) (e : Nat) (d : List Word) : Word × State :=
  let x := s.engine e
  let total := BitVec.ofNat 64 (satAdd 64 x.issued.toNat (copyInc d))
  let op : EngineOp := ⟨d, total, none, copySkip d, s.turn.ctx, s.cx.issuePc, s.cx.shownVt, 0⟩
  (total, s.setEngine e { x with issued := total, queue := x.queue ++ [op] })

/-- CPGO (R325); 32 operations waiting at its engine context freeze the issuer (R319). -/
def meanCpgo (f : MForm) (s : State) : Meaning :=
  let r := cpgoFetch f s
  { memOp (.cpgo f) f [(.g, f.d.toNat, 2)] r.cause
      (fun s => r.effect s fun d t =>
        let (n, t) := t.queueCopy (fieldN f.imm 0 3) d
        t.modCx fun x => x.landAt .g f.d.toNat n 2) s with
    ready := decide (((s.engine (fieldN f.imm 0 3)).queue.filter fun o => o.entry.isNone).length < 32) }
/-- Run CPGO. -/
def execCpgo (f : MForm) (s : State) : Res := s.run (meanCpgo f s)

/-- CPSTEP (R326): the released stage never falls. -/
def meanCpstep (f : MForm) (s : State) : Meaning :=
  memOp (.cpstep f) f [] none
    (fun s =>
      match s.cc.launch with
      | some l => s.modLaunch l fun x => { x with stage := max x.stage (fieldN f.imm 0 12) }
      | none => s) s
/-- Run CPSTEP. -/
def execCpstep (f : MForm) (s : State) : Res := s.run (meanCpstep f s)

/-- CPSTAT's word (R327). -/
def cpstatWord (x : Engine) : Word :=
  BitVec.ofNat 64 ((x.stateCode <<< 62) + (Nat.min x.queue.length 32 <<< 56) + (x.err.toNat <<< 48) + (x.done.toNat <<< 32) +
    x.position % 2 ^ 32)

/-- CPSTAT (R327): the read clears STATE 2. -/
def meanCpstat (f : MForm) (s : State) : Meaning :=
  let e := fieldN f.imm 0 3
  memOp (.cpstat f) f [(.g, f.d.toNat, 2)] none
    (fun s =>
      let x := s.engine e
      (s.setEngine e { x with stopped := false }).modCx fun c => c.landAt .g f.d.toNat (cpstatWord x) 2) s
/-- Run CPSTAT. -/
def execCpstat (f : MForm) (s : State) : Res := s.run (meanCpstat f s)

/-! ### The gather unit (R329, R330) -/

/-- The rules of a gather configuration (R329). -/
def gatherOk (c : List Word) : Bool :=
  let w0 := nth 0 c 0
  let w1 := nth 0 c 1
  let stride := (nth 0 c 2).toNat
  fieldN w0 56 8 == 0 && w0.toNat % 32 == 0 && decide (1 ≤ fieldN w1 32 32) && fieldN w1 6 26 == 0 &&
    stride % 32 == 0 && decide (32 * (fieldN w1 0 6 + 1) ≤ stride) && nth 0 c 3 == 0

/-- Bytes of a gathered row (R329). -/
def gatherRow (c : List Word) : Nat := 32 * (fieldN (nth 0 c 1) 0 6 + 1)

/-- GCFG's configuration as read and checked. -/
def gcfgFetch (f : MForm) (s : State) : Fetched (List Word) :=
  match s.fetchOperand (s.cx.greg f.a.toNat) 32 32 cGatherInvalid with
  | .ok bs t =>
    let d := bytesToWords bs
    if gatherOk d then .ok d t else .issue ⟨cGatherInvalid, 0, none⟩
  | .issue cz => .issue cz
  | .late t => .late t

/-- GCFG (R329). -/
def meanGcfg (f : MForm) (s : State) : Meaning :=
  let r := gcfgFetch f s
  memOp (.gcfg f) f [] r.cause (fun s => r.effect s fun d t => t.modCx fun x => { x with gcfg := some d }) s
/-- Run GCFG. -/
def execGcfg (f : MForm) (s : State) : Res := s.run (meanGcfg f s)

/-- GIDX's own checks (R330). -/
def gidxCause (f : MForm) (s : State) : Option Cause :=
  match s.cx.handle? (fieldN f.imm 0 4) with
  | none => some bufRange
  | some h =>
    match s.cx.gcfg with
    | none => some ⟨cGatherInvalid, 0, none⟩
    | some c => if 32 * h.slot < gatherRow c then some ⟨cGatherInvalid, 0, none⟩ else none

/-- GIDX (R330): the index is queued with the context's configuration and identity; a full queue of 64 freezes. -/
def meanGidx (f : MForm) (s : State) : Meaning :=
  let v := s.cx.greg f.a.toNat
  let m := memOp (.gidx f) f [] (gidxCause f s)
    (fun s =>
      match s.cx.gcfg with
      | none => s
      | some c =>
        let stamp := match s.ctxIdent s.turn.core s.turn.ctx with
          | .stamp _ st lap => some (st, lap)
          | _ => none
        let k := s.turn.ctx
        s.modCore fun core => { core with gather := core.gather ++ [⟨k, c, fieldN f.imm 0 4, v, stamp⟩] }) s
  { m with ready := decide (s.cc.gather.length < 64) }
/-- Run GIDX. -/
def execGidx (f : MForm) (s : State) : Res := s.run (meanGidx f s)

/-! ### XPUT (R331) -/

/-- Units of a launch: cores times contexts (R30, R32). -/
def Launch.units (l : Launch) : Nat := l.cores.length * (fieldN (nth 0 l.words 3) 16 2 + 1)

/-- Units of the current launch. -/
def State.unitsOf (s : State) (c : Nat) : Nat :=
  match s.launchOf c with
  | some (_, l) => l.units
  | none => 0

/-- XPUT's length in bytes, from g[a] (R331). -/
def xputLen (a : Word) : Nat := 32 * (fieldN a 12 4 + 1)

/-- XPUT's checks, then its data (R306, R331). -/
def xputFetch (f : MForm) (s : State) : Fetched (List Byte) :=
  let a := s.cx.greg f.a.toNat
  let b := s.cx.greg f.b.toNat
  let bad : Fetched (List Byte) := .issue ⟨cDeliveryInvalid, 0, none⟩
  if b.toNat % 32 ≠ 0 ∨ fieldN a 9 3 ≠ 0 ∨ fieldN a 16 48 ≠ 0 ∨ s.unitsOf s.turn.core ≤ fieldN a 0 9 then bad
  else
    match s.cx.handle? (fieldN f.imm 0 4) with
    | none => bad
    | some h => if 32 * h.slot < xputLen a then bad else s.fetchOperand b (xputLen a) 32 cDeliveryInvalid

/-- XPUT (R331): the data goes out, to be delivered in clock time. -/
def meanXput (f : MForm) (s : State) : Meaning :=
  let a := s.cx.greg f.a.toNat
  let r := xputFetch f s
  memOp (.xput f) f [] r.cause
    (fun s => r.effect s fun bs t =>
      match t.cc.launch with
      | none => t
      | some l => { t with xputs := t.xputs ++ [⟨l, t.cx.unit, fieldN a 0 9, fieldN f.imm 0 4, bs⟩] }) s
/-- Run XPUT. -/
def execXput (f : MForm) (s : State) : Res := s.run (meanXput f s)

end Sys2Proof.Machine
end

