-- ==== Sys2Proof/Machine/Judge.lean ====
section
/-! DEFINITION. Laps, path summaries, course tables and the judges' counting (R274 to R293, R301, R302). -/

namespace Sys2Proof.Machine

/-! ### Laps (R274 to R277) -/

/-- Counter c_j of a lap (R274). -/
def lapCounter (l : Word) (j : Nat) : Nat := fieldN l (48 - 16 * j) 16

/-- A lap with level `j` set and every deeper level zero (R277, R278). -/
def lapSetLevel (l : Word) (j c : Nat) : Word :=
  BitVec.ofNat 64 ((l.toNat >>> (64 - 16 * j) <<< (64 - 16 * j)) + (c <<< (48 - 16 * j)))

/-- A lap with levels `j` and deeper zero (R278). -/
def lapZeroFrom (l : Word) (j : Nat) : Word := BitVec.ofNat 64 (l.toNat >>> (64 - 16 * j) <<< (64 - 16 * j))

/-! ### Summaries (R278 to R280) -/

/-- A path summary. -/
inductive Summary where
  | unreachable
  | identity
  | zero (j : Nat)
  | add (d j : Nat)
  deriving DecidableEq, Repr

/-- A summary's code read (R278); none for an illegal code (R283 check 2). -/
def Summary.ofCode (c : BitVec 16) : Option Summary :=
  let j := fieldN c 12 2
  let d := fieldN c 0 12
  match fieldN c 14 2 with
  | 0 => if j = 0 ∧ d = 0 then some .unreachable else none
  | 1 => if j = 0 ∧ d = 0 then some .identity else none
  | 2 => if d = 0 then some (.zero j) else none
  | _ => if d ≠ 0 then some (.add d j) else none

/-- `apply(summary, L)` (R278). -/
def Summary.apply (t : Summary) (l : Word) : Option Word :=
  match t with
  | .unreachable => none
  | .identity => some l
  | .zero j => some (lapZeroFrom l j)
  | .add d j => some (lapSetLevel l j (Nat.min (lapCounter l j + d) 0xFFFF))

/-- A summary's place in the total order of R279. -/
def Summary.rank : Summary → Nat
  | .zero j => j
  | .identity => 4
  | .add d j => 5 + (3 - j) * 4096 + d
  | .unreachable => 5 + 4 * 4096

/-- The composition f;g of R280. -/
def Summary.comp (f g : Summary) : Summary :=
  match f, g with
  | .unreachable, _ => .unreachable
  | _, .unreachable => .unreachable
  | .identity, g => g
  | f, .identity => f
  | .zero j1, .zero j2 => .zero (Nat.min j1 j2)
  | .zero j1, .add d2 j2 => if j2 < j1 then .add d2 j2 else .zero j1
  | .add d1 j1, .zero j2 => if j2 ≤ j1 then .zero j2 else .add d1 j1
  | .add d1 j1, .add d2 j2 =>
    if j2 < j1 then .add d2 j2 else if j2 = j1 then .add (Nat.min (d1 + d2) 4095) j1 else .add d1 j1

/-! ### Course tables (R281 to R284) -/

/-- T[a][b] of a graph. -/
def Graph.path (g : Graph) (a b : Nat) : Summary := ((Summary.ofCode (nth 0 g.table (a * g.stations + b))).getD .unreachable)

/-- Depth of a station (R282). -/
def Graph.depth (g : Graph) (st : Nat) : Nat := fieldN (nth 0 g.stn st) 0 2 + 1

/-- A lap valid at a station (R275). -/
def Graph.validLap (g : Graph) (st : Nat) (l : Word) : Bool :=
  l != closedLap &&
  (List.range 4).all (fun j => decide (j < g.depth st) || lapCounter l j == 0) &&
  (List.range g.stations).all fun x =>
    match g.path st x with
    | .add d j => decide (lapCounter l j + d ≤ 0xFFFF)
    | _ => true

/-- Bytes of the course table of a graph of `n` stations (R281). -/
def courseBytes (n : Nat) : Nat := 0x140 + 2 * n * n

/-- Word `i` of a byte list. -/
def wordAt (bs : List Byte) (off : Nat) : Word := BitVec.ofNat 64 (leNat ((bs.drop off).take 8))

/-- The graph that a course table's bytes describe, nothing counted yet (R281). -/
def courseGraph (bs : List Byte) : Graph :=
  let w0 := wordAt bs 0
  let w1 := wordAt bs 8
  let w2 := wordAt bs 16
  let n := fieldN w0 0 8 + 1
  { id := fieldN w0 32 16, start := fieldN w0 8 8, stations := n, fwbase := BitVec.ofNat 64 (fieldN w1 0 56)
    cross := bit w2 12, resv := fieldN w2 0 12, auth := 0
    stn := (bs.drop 0x40).take n
    table := (List.range (n * n)).map fun i => BitVec.ofNat 16 (leNat ((bs.drop (0x140 + 2 * i)).take 2)) }

/-- Check 3 of R283 for one summary. -/
def Summary.fits (t : Summary) (da db : Nat) : Bool :=
  match t with
  | .unreachable => true
  | .identity => decide (da ≤ db)
  | .zero j => decide (j ≤ db)
  | .add _ j => decide (j < db)

/-- Checks 1 to 5 of R283 on a course table's bytes, but for the mapping of FWBASE. -/
def courseOk (bs : List Byte) : Bool :=
  let g := courseGraph bs
  let n := g.stations
  let rs := List.range n
  let w0 := wordAt bs 0
  let w1 := wordAt bs 8
  let w2 := wordAt bs 16
  fieldN w0 48 16 == 0 && fieldN w0 16 16 == 0 && g.id != 0 && fieldN w1 56 8 == 0 && fieldN w2 13 51 == 0 &&
  (((bs.drop 0x18).take 0x28).all fun b => b == 0) && decide (g.start < n) &&
  decide (1 ≤ g.resv) && decide (g.resv ≤ 2048) && g.fwbase.toNat % 64 == 0 &&
  (g.stn.all fun b => fieldN b 2 5 == 0) &&
  (g.table.all fun c => (Summary.ofCode c).isSome) &&
  (rs.all fun a => rs.all fun b => (g.path a b).fits (g.depth a) (g.depth b)) &&
  (rs.all fun a => rs.all fun b => rs.all fun c =>
    g.path a b == .unreachable || g.path b c == .unreachable ||
      decide ((g.path a c).rank ≤ ((g.path a b).comp (g.path b c)).rank)) &&
  (rs.all fun a =>
    match g.path a a with
    | .unreachable => true
    | .add _ _ => true
    | _ => false)

/-- SYS.GRAPH of a launch (R284). -/
def graphWord (g : Option Graph) : Word :=
  match g with
  | none => 0
  | some g => BitVec.ofNat 64 ((g.id <<< 32) + ((if g.cross then 1 else 0) <<< 18) + (g.auth <<< 16) + (g.start <<< 8) +
      (g.stations - 1))

/-! ### Counting (R285 to R293) -/

/-- Count of a pointstamp. -/
def countOf (cs : List ((Nat × Word) × Int)) (p : Nat × Word) : Int := (cs.lookup p).getD 0

/-- Add to a count; an entry exists while its count is nonzero (R292). -/
def countAdd (cs : List ((Nat × Word) × Int)) (p : Nat × Word) (d : Int) : List ((Nat × Word) × Int) :=
  let v := countOf cs p + d
  let rest := cs.filter fun e => e.1 != p
  if v = 0 then rest else rest ++ [(p, v)]

/-- Records that name the same pointstamp are summed (R298). -/
def sumDeltas (ds : List ((Nat × Word) × Int)) : List ((Nat × Word) × Int) := ds.foldl (fun cs e => countAdd cs e.1 e.2) []

/-- `frontier(s)` of R286. -/
def Graph.compute (g : Graph) (st : Nat) : Word :=
  g.counts.foldl (fun (f : Word) (e : (Nat × Word) × Int) =>
    if e.2 ≤ (0 : Int) then f
    else
      let v := if e.1.1 = st then some e.1.2 else (g.path e.1.1 st).apply e.1.2
      match v with
      | some l => if l.toNat < f.toNat then l else f
      | none => f) closedLap

/-- Whether a new pointstamp lies below an announced frontier (R291). -/
def Graph.below (g : Graph) (p : Nat × Word) : Bool :=
  (List.range g.stations).any fun x =>
    let v := if x = p.1 then some p.2 else (g.path p.1 x).apply p.2
    match v with
    | some l => decide (l.toNat < (g.frontier x).toNat)
    | none => false

/-- Whether the judge refuses a summed batch (R291). -/
def Graph.refuses (g : Graph) (ds : List ((Nat × Word) × Int)) : Bool :=
  ds.any fun e => decide (countOf g.counts e.1 + e.2 < 0) || (decide (0 < e.2) && g.below e.1)

/-- Counts after a summed batch. -/
def Graph.counted (g : Graph) (ds : List ((Nat × Word) × Int)) : Graph :=
  { g with counts := ds.foldl (fun cs e => countAdd cs e.1 e.2) g.counts }

/-- Judge entries of each kind (R292). -/
def judgeCapacity (auth : Nat) : Nat := if auth < 2 then 4096 else 16384

/-- Entries of a judge that no graph has reserved and none uses beyond its reservation. -/
def State.freePool (s : State) (auth : Nat) : Nat :=
  judgeCapacity auth - (s.launches.foldl (fun n p =>
    match p.2.graph with
    | some g => if g.auth = auth then n + max g.resv g.counts.length else n
    | none => n) 0)

/-- Whether a judge has room for a graph's change from its counts to new ones (R292, R293). -/
def State.roomFor (s : State) (g h : Graph) : Bool :=
  decide (h.counts.length ≤ g.counts.length) ||
    decide (h.counts.length - g.counts.length ≤ (g.resv - g.counts.length) + s.freePool g.auth)

/-! ### The fabric (R303, R404, R442) -/

/-- The fabric group of a domain (R404). -/
def Mgmt.fabricGroup (m : Mgmt) (dom : Nat) : Option Nat := (m.bindings.find? fun b => b.1 == dom).map Prod.snd

/-- The domain bound to a fabric group (R404). -/
def Mgmt.boundDomain (m : Mgmt) (group : Nat) : Option Nat := (m.bindings.find? fun b => b.2 == group).map Prod.fst

/-- The groups that stand. -/
def Mgmt.standing (m : Mgmt) : List (Nat × Group) := m.groups.filter fun g => !g.2.ports.isEmpty

/-- The packages at the far ends of the groups that stand, each once. -/
def Mgmt.peers (m : Mgmt) : List Nat := (m.standing.map fun g => g.2.peer).eraseDups

/-- The groups that may carry what goes to a destination: those whose far end it is, else every one that stands (R303; DESIGN
CHOICE, log entry 81). -/
def Mgmt.carriers (m : Mgmt) (key : Nat) : List Nat :=
  let direct := m.standing.filter fun g => g.2.peer == key
  (if direct.isEmpty then m.standing else direct).map Prod.fst

/-- One of some groups: which it is the manual does not say, a free value (DESIGN CHOICE, log entry 11). -/
def State.pickGroup (s : State) : List Nat → Nat × State
  | [] => (0, s)
  | [g] => (g, s)
  | gs =>
    let (v, s) := s.drawFree
    (nth 0 gs (v.toNat % gs.length), s)

/-- The group that carries what goes to a destination: the one that has carried it, as long as it may. -/
def State.routeTo (s : State) (key : Nat) : Nat × State :=
  let gs := s.mgmt.carriers key
  let old := get 0 s.mgmt.routes key
  if 0 < old ∧ gs.contains (old - 1) then (old - 1, s)
  else if gs.isEmpty then (0, s)
  else
    let (g, t) := s.pickGroup gs
    (g, { t with mgmt := { t.mgmt with routes := set 0 key (g + 1) t.mgmt.routes } })

/-- Data bytes of an operation. -/
def opBytes : RemoteOp → Nat
  | .writes _ _ bs => bs.length
  | .data _ _ bs => bs.length
  | .baton _ _ _ _ _ _ bs => bs.length
  | .deltas _ _ _ _ _ ds => 16 * ds.length
  | _ => 0

/-- Flits of 256 bytes that an operation takes: those of its data, and one where it has none (R442; DESIGN CHOICE, log
entry 80). -/
def flitsOf (op : RemoteOp) : Nat := max 1 (ceilDiv (opBytes op) 256)

/-- Send an operation over a port group, its flits one after another, the last of which completes it; none where the group is
down or its window has no room for them (R442). -/
def State.sendFlit (s : State) (g : Nat) (op : RemoteOp) (owner : Option (Nat × Nat)) : Option (Nat × State) :=
  let x := get {} s.mgmt.groups g
  let n := flitsOf op
  if x.ports.isEmpty ∨ x.width = 0 ∨ 2 ^ 20 < x.unacked.length + n then none
  else
    let seq (i : Nat) : Nat := (x.sendSeq + i) % 2 ^ 24
    let flits := ((List.range (n - 1)).map fun i => (seq i, RemoteOp.part)) ++ [(seq (n - 1), op)]
    let x' := { x with
      sendSeq := seq n, unacked := x.unacked ++ flits
      delivered := if x.unacked.isEmpty then s.clock else x.delivered
      owner := match owner with
        | some o => x.owner ++ [(seq (n - 1), o.1, o.2)]
        | none => x.owner }
    some (seq (n - 1), { s with
      mgmt := { s.mgmt with groups := set {} g x' s.mgmt.groups }
      answers := (flits.reverse.map fun f => .relayFlit g f.1 f.2) ++ s.answers })

/-- Where an operation goes: a package, or the home of a graph, whose package its sender may not know; none for what a home judge
tells all packages. -/
def destination : RemoteOp → Option Nat
  | .writes pkg _ _ => some pkg
  | .reads pkg _ _ => some pkg
  | .data .. => some 0
  | .baton pkg .. => some pkg
  | .deltas home _ id _ _ _ => some (home.getD (65536 + id.toNat))
  | .applied pkg .. => some pkg
  | .announce .. => none
  | .cancel home id _ => some (home.getD (65536 + id.toNat))
  | .cancelled .. => none
  | .lost home id _ _ => some (home.getD (65536 + id.toNat))
  | .frontAsk home _ id _ _ => some (home.getD (65536 + id.toNat))
  | .frontTell pkg .. => some pkg
  | .stopped pkg .. => some pkg
  | .part => none

/-- What waits to go out, with an entry for each package at the far end of a group where all packages are told. -/
def Mgmt.spread (m : Mgmt) (es : List (Option Nat × RemoteOp)) : List (Option Nat × RemoteOp) :=
  (es.map fun e =>
    if e.1.isNone && (destination e.2).isNone && !m.peers.isEmpty then m.peers.map fun p => (some p, e.2) else [e]).flatten

/-- What becomes of an entry of the outbox: it has gone, or has nowhere to go any more; or it stays, with the group that does
not take it, which then takes nothing after it. -/
inductive Sent where
  | gone (s : State)
  | stays (s : State) (group : Nat)
  deriving DecidableEq, Repr

/-- Send an operation to a destination, unless the group that carries it is to take nothing more. -/
def State.sendTo (s : State) (full : List Nat) (key : Nat) (op : RemoteOp) : Sent :=
  let (g, s) := s.routeTo key
  if full.contains g then .stays s g
  else
    match s.sendFlit g op none with
    | some (_, t) => .gone t
    | none => .stays s g

/-- Send one entry of the outbox. -/
def State.sendOne (s : State) (full : List Nat) (e : Option Nat × RemoteOp) : Sent :=
  match e.1, destination e.2 with
  | some p, _ => if s.mgmt.peers.contains p then s.sendTo full p e.2 else .gone s
  | none, some key => s.sendTo full key e.2
  | none, none => .stays s 0

/-- Send what waits, in order for each group, as far as the groups take it; the rest stays in the outbox. -/
def State.sendEach (s : State) (es : List (Option Nat × RemoteOp)) : State :=
  let r := (s.mgmt.spread es).foldl (fun (acc : State × List (Option Nat × RemoteOp) × List Nat) e =>
    match acc.1.sendOne acc.2.2 e with
    | .gone t => (t, acc.2)
    | .stays t g => (t, acc.2.1 ++ [e], g :: acc.2.2)) (s, [], [])
  { r.1 with mgmt := { r.1.mgmt with outbox := r.2.1 } }

/-- Tell other packages: what one source posts goes out in the order in which it is posted (R303). -/
def State.post (s : State) (op : RemoteOp) : State := s.sendEach (s.mgmt.outbox ++ [(none, op)])

/-- The name of a CROSS graph as flits carry it: its identifier with the fabric group of its launch's domain, which makes the
launches of several packages one (R303, R321, R404). -/
def State.crossName (s : State) (dom : Nat) (g : Graph) : BitVec 64 :=
  BitVec.ofNat 64 (g.id + match s.mgmt.fabricGroup dom with
    | some grp => 2 ^ 32 + grp % 65536 * 65536
    | none => 0)

/-- The launch of this package whose CROSS graph a name names. -/
def State.crossLaunch (s : State) (id : BitVec 64) : Option (Nat × Graph) :=
  s.launches.findSome? fun p =>
    match p.2.graph with
    | some g => if g.cross && s.crossName p.2.dom g == id then some (p.1, g) else none
    | none => none

/-- The same where the graph's home judge is in this package, or is not. -/
def State.crossAt (s : State) (id : BitVec 64) (home : Bool) : Option (Nat × Graph) :=
  (s.crossLaunch id).bind fun p => if (p.2.auth != 3) == home then some p else none

/-- The home package of a graph as this package knows it (R303). -/
def Graph.homePackage (g : Graph) : Option Nat := if g.auth = 3 then some g.home else none

/-- A graph of this package's home judge whose launch is over: its domain and the graph. -/
def State.endedGraph (s : State) (id : BitVec 64) : Option (Nat × Graph) := s.mgmt.ended.find? fun p => s.crossName p.1 p.2 == id

/-! ### Announcing (R287, R302) -/

/-- A judge's write in a launch's domain (R287, R392): not made where the page does not take it. -/
def State.judgeWrite (s : State) (dom va : Nat) (w : Word) : State :=
  match s.writeGlobal (deviceClient dom) .judge va (leBytes 8 w.toNat) with
  | (.ok t, _) => t
  | (.error _, t) => t

/-- Write the status block of a graph, its STATE last (R301, R302); a CROSS graph has it in its home package only (R303). -/
def State.writeStatusBlock (s : State) (dom : Nat) (g : Graph) : State :=
  if g.auth = 3 then s
  else
    let b := g.fwbase.toNat + 2048
    let s := s.judgeWrite dom (b + 8) (BitVec.ofNat 64 ((g.dropped.toNat <<< 32) + g.ignored.toNat))
    let s := s.judgeWrite dom (b + 16) (BitVec.ofNat 64 g.cancelUnit)
    let s := [3, 4, 5, 6, 7].foldl (fun s i => s.judgeWrite dom (b + 8 * i) 0) s
    s.judgeWrite dom b (BitVec.ofNat 64 ((g.state <<< 56) + g.cause.toNat))

/-- Announce one station's frontier: the station table, then the frontier word, then the other packages (R265, R287, R303);
where the home judge has announced it, the station table only. -/
def State.announce (s : State) (l : Nat) (st : Nat) (v : Word) : State :=
  match s.launch? l with
  | none => s
  | some x =>
    match x.graph with
    | none => s
    | some g =>
      if v.toNat ≤ (get 0 g.front st).toNat then s
      else
        let s := s.setLaunch l { x with graph := some { g with front := set 0 st v g.front } }
        if g.auth = 3 then s
        else
          let s := s.judgeWrite x.dom (g.fwbase.toNat + 8 * st) v
          if g.cross then s.post (.announce (s.crossName x.dom g) st (if v = closedLap then none else some v)) else s

/-- Recompute and announce every frontier of a graph; when no count is left it is closed (R287, R302). -/
def State.announceAll (s : State) (l : Nat) : State :=
  match (s.launch? l).bind fun x => x.graph with
  | none => s
  | some g =>
    let s := (List.range g.stations).foldl (fun s st => s.announce l st (g.compute st)) s
    if g.counts.isEmpty ∧ g.state = 0 then
      let s := s.modLaunch l fun x => { x with graph := x.graph.map fun g => { g with state := 1 } }
      match s.launch? l with
      | some x =>
        match x.graph with
        | some g => s.writeStatusBlock x.dom g
        | none => s
      | none => s
    else s

/-- The contexts of a saved core take a cause when they next reach a boundary. -/
def Core.pendSaved (k : Core) (p : Pending) : Core :=
  { k with ctxs := k.ctxs.map fun (q : Nat × Ctx) => (q.1, if q.2.run = .idle then q.2 else q.2.pending p) }

/-- Every context of a launch, placed or saved, takes a cause at its next bundle boundary (R291). -/
def State.pendAll (s : State) (l : Nat) (p : Pending) : State :=
  match s.launch? l with
  | none => s
  | some x =>
    let s := x.cores.foldl (fun s c =>
      ((s.core c).ctxs.map Prod.fst).foldl (fun s k => if (s.ctxAt c k).run = .idle then s else s.pendCause c k p) s) s
    if x.saved.isNone then s
    else s.modLaunch l fun y => { y with saved := y.saved.map fun sv => sv.map fun q => (q.1, q.2.pendSaved p) }

/-- Change a launch's graph. -/
def State.modGraph (s : State) (l : Nat) (f : Graph → Graph) : State :=
  s.modLaunch l fun x => { x with graph := x.graph.map f }

/-- Count batons dropped and PROGs ignored of a graph: here where its judge is, else by its home judge (R301, R303). -/
def State.countGone (s : State) (l dropped ignored : Nat) : State :=
  match (s.launch? l).bind fun x => x.graph.map fun g => (x.dom, g) with
  | none => s
  | some (dom, g) =>
    if g.auth = 3 then (if dropped + ignored = 0 then s else s.post (.lost g.homePackage (s.crossName dom g) dropped ignored))
    else s.modGraph l fun g => { g with
      dropped := BitVec.ofNat 32 (satAdd 32 g.dropped.toNat dropped), ignored := BitVec.ofNat 32 (satAdd 32 g.ignored.toNat ignored) }

/-- Drop the undelivered batons of a launch, counting them (R301). -/
def State.dropBatons (s : State) (l : Nat) : State :=
  let n := (s.batons.filter fun b => b.launch == l).length
  { s with batons := s.batons.filter fun b => b.launch != l }.countGone l n 0

/-- A dormant context with nothing to wake it retires with its cancelled graph (R301). -/
def Ctx.retireDormant (x : Ctx) : Ctx := if x.run = .dormant ∧ x.wakes.isEmpty then { x with run := .retired } else x

/-- CANCEL a graph (R301): its counts go, every frontier closes, its undelivered batons are dropped, its dormant contexts
retire, and the status block says so last; a home judge then tells the other packages, each of which does the same with
what it has of the graph (R303). -/
def State.cancelGraph (s : State) (l : Nat) (cause : BitVec 48) (unit : Nat) : State :=
  match s.launch? l with
  | none => s
  | some x =>
    match x.graph with
    | none => s
    | some g =>
      if g.state = 2 then s
      else
        let s := s.modGraph l fun g => { g with counts := [], state := 2, cause := cause, cancelUnit := unit, cancelReq := none }
        let s := (List.range g.stations).foldl (fun s st => s.announce l st closedLap) s
        let s := s.dropBatons l
        let saved := x.saved.isSome
        let s := if saved then s else x.cores.foldl (fun s c =>
          let k := s.core c
          s.setCore c { k with ctxs := k.ctxs.map fun (q : Nat × Ctx) => (q.1, q.2.retireDormant) }) s
        match s.launch? l with
        | some x =>
          match x.graph with
          | some g =>
            let s := s.writeStatusBlock x.dom g
            if g.cross ∧ g.auth ≠ 3 then s.post (.cancelled (s.crossName x.dom g) cause) else s
          | none => s
        | none => s

/-- A launch that is killed cancels its graph: here where its judge is, else its home judge is asked (R301, R303). -/
def State.killGraph (s : State) (l : Nat) : State :=
  match (s.launch? l).bind fun x => x.graph.map fun g => (x.dom, g) with
  | none => s
  | some (dom, g) =>
    if g.auth = 3 then (if g.state = 0 then (s.dropBatons l).post (.cancel g.homePackage (s.crossName dom g) 0x3FF) else s)
    else s.cancelGraph l 0 0x3FF

/-- A launch that retires while its graph still holds counts cancels it (R365). The counts of a graph of another package's home
judge are not known here: some are held as long as a frontier is not CLOSED (R286). -/
def State.retireGraph (s : State) (l : Nat) : State :=
  match (s.launch? l).bind fun x => x.graph with
  | none => s
  | some g =>
    let held := if g.auth = 3 then (List.range g.stations).any fun st => g.frontier st != closedLap else !g.counts.isEmpty
    if held then s.killGraph l else s

/-- Count batons dropped and PROGs ignored, in the status block too. -/
def State.countLost (s : State) (l dropped ignored : Nat) : State :=
  let s := s.countGone l dropped ignored
  match s.launch? l with
  | some x =>
    match x.graph with
    | some g => s.writeStatusBlock x.dom g
    | none => s
  | none => s

/-- Apply deltas at the authoritative judge: refused, the graph is cancelled (R291); without room, nothing happens and
the operation waits (R292); otherwise counted and announced. -/
def State.applyDeltas (s : State) (l : Nat) (ds : List ((Nat × Word) × Int)) : Option State :=
  match (s.launch? l).bind fun x => x.graph with
  | none => some s
  | some g =>
    let ds := sumDeltas ds
    if g.refuses ds then
      let s := s.cancelGraph l (BitVec.ofNat 48 cGraphFault.toNat) 0x3FF
      some (s.pendAll l ⟨cGraphFault, 0, none, 0, false, false⟩)
    else
      let h := g.counted ds
      if s.roomFor g h then some ((s.modGraph l fun _ => h).announceAll l) else none

end Sys2Proof.Machine
end

