-- ==== Sys2Proof/Machine/Scalar.lean ====
section
/-! DEFINITION. The scalar instructions of the S slots (R72 to R81). Each has its meaning, `mean…`, which the check of
a whole bundle reads, and its `exec…`, which runs it. -/

namespace Sys2Proof.Machine

/-! ### Shared shapes -/

/-- A predicated scalar instruction that lands one value on one register. -/
def scalarTo (i : Instr) (taken : Bool) (k : LReg) (d lat : Nat) (v : Word) (evs : List CellEv) : Meaning where
  taken := taken
  check := { illegal := !legal i, lands := if taken && !discarded k d then [(k, d, lat)] else [] }
  effect := fun s => (s.raise evs).modCx fun x => x.landAt k d v lat

/-- Register form: a result on g[d] from g[a] and g[b]. -/
def aluR (i : Instr) (f : RForm) (lat : Nat) (op : Word → Word → Word) (s : State) : Meaning :=
  let x := s.cx
  scalarTo i (x.pred f.pr f.pn) .g f.d.toNat lat (op (x.greg f.a.toNat) (x.greg f.b.toNat)) []

/-- Immediate form: a result on g[d] from g[a] and the immediate. -/
def aluI (i : Instr) (f : IForm) (op : Word → BitVec 24 → Word) (s : State) : Meaning :=
  let x := s.cx
  scalarTo i (x.pred f.pr f.pn) .g f.d.toNat 1 (op (x.greg f.a.toNat) f.imm) []

/-- Long immediate form: a result on g[d] from the immediate and the old g[d]; not predicated. -/
def aluL (i : Instr) (f : LForm) (op : Word → BitVec 34 → Word) (s : State) : Meaning :=
  scalarTo i true .g f.d.toNat 1 (op (s.cx.greg f.d.toNat) f.imm) []

/-- A result on a predicate register. -/
def predR (i : Instr) (f : RForm) (q lat : Nat) (v : Ctx → Bool × Kinds) (s : State) : Meaning :=
  let x := s.cx
  let r := v x
  scalarTo i (x.pred f.pr f.pn) .p q lat (predWord r.1) (scalarEvs r.2)

/-! ### Values -/

/-- `quotient of a by b` of R73 and R74, signed. -/
def divS (a b : Word) : Word :=
  if b = 0 then 0xFFFFFFFFFFFFFFFF
  else if a = 0x8000000000000000 ∧ b = 0xFFFFFFFFFFFFFFFF then a
  else a.sdiv b

/-- The signed remainder of R73 and R74. -/
def remS (a b : Word) : Word :=
  if b = 0 then a
  else if a = 0x8000000000000000 ∧ b = 0xFFFFFFFFFFFFFFFF then 0
  else a.srem b

/-- The unsigned quotient (R73, R74). -/
def divU (a b : Word) : Word := if b = 0 then 0xFFFFFFFFFFFFFFFF else a / b

/-- The unsigned remainder (R73, R74). -/
def remU (a b : Word) : Word := if b = 0 then a else a % b

/-- Bits [127:64] of the signed product (R73). -/
def mulHiS (a b : Word) : Word := field (a.signExtend 128 * b.signExtend 128) 64 64

/-- Bits [127:64] of the unsigned product (R73). -/
def mulHiU (a b : Word) : Word := field (a.setWidth 128 * b.setWidth 128) 64 64

/-- Shift amount of R75. -/
def shiftOf (b : Word) : Nat := fieldN b 0 6

/-- Number of leading zero bits, 64 for zero (R76). -/
def leadingZeros (a : Word) : Nat := 64 - bitLength a

/-- CMP's conditions (R55, R77). -/
def cmpCond (cc : Nat) (a b : Word) : Bool :=
  match cc with
  | 0 => a == b
  | 1 => a != b
  | 2 => a.slt b
  | 3 => a.sle b
  | 4 => a.ult b
  | _ => a.ule b

/-- The low `w` bits of a word, extended (R78). -/
def extendLow (w : Nat) (signed : Bool) (a : Word) : Word :=
  if signed then (a.setWidth w).signExtend 64 else (a.setWidth w).setWidth 64

/-- BFX's value (R78). -/
def bitsOut (pos w : Nat) (signed : Bool) (a : Word) : Word := extendLow w signed (a >>> pos)

/-- BFI's value (R78). -/
def bitsIn (pos w : Nat) (a b : Word) : Word := setField a pos w b.toNat

/-- The format codes FCVTS and FCMPS name (R55). -/
def scalarFmt (c : Nat) : Fmt := (Fmt.ofCode c).getD .fp32

/-- FCVTS's value and events (R80): an I32 result is sign-extended, a floating-point one zero-extended. -/
def fcvtsValue (fn : BitVec 18) (a : Word) : Word × Kinds :=
  let src := scalarFmt (fieldN fn 14 4)
  let dst := scalarFmt (fieldN fn 10 4)
  let r := convert src dst (RMode.ofCode (fieldN fn 7 3)) (a.toNat % 2 ^ src.width)
  (if dst = .i32 then (BitVec.ofNat 32 r.1).signExtend 64 else BitVec.ofNat 64 r.1, r.2)

/-- FCMPS's relation (R55, R81). -/
def fcmpsRel (cc : Nat) : FRel :=
  match cc with
  | 0 => .eq
  | 1 => .lt
  | 2 => .le
  | _ => .un

/-- FCMPS's result and events (R81). -/
def fcmpsValue (fn : BitVec 18) (a b : Word) : Bool × Kinds :=
  let g := scalarFmt (fieldN fn 8 4)
  (fcmpsRel (fieldN fn 15 3)).eval (g.spec.decode (a.toNat % 2 ^ g.width)) (g.spec.decode (b.toNat % 2 ^ g.width))

/-! ### The instructions -/

/-- ADD (R73): d := a + b. -/
def meanAdd (f : RForm) (s : State) : Meaning :=
  aluR (.add f) f 1 (fun a b => a + b) s
/-- Run ADD. -/
def execAdd (f : RForm) (s : State) : Res := s.run (meanAdd f s)

/-- ADDI (R73): d := a + sext(imm, 24). -/
def meanAddi (f : IForm) (s : State) : Meaning :=
  aluI (.addi f) f (fun a m => a + sext64 m) s
/-- Run ADDI. -/
def execAddi (f : IForm) (s : State) : Res := s.run (meanAddi f s)

/-- SUB (R73): d := a − b. -/
def meanSub (f : RForm) (s : State) : Meaning :=
  aluR (.sub f) f 1 (fun a b => a - b) s
/-- Run SUB. -/
def execSub (f : RForm) (s : State) : Res := s.run (meanSub f s)

/-- MUL (R73): the low half of the product. -/
def meanMul (f : RForm) (s : State) : Meaning :=
  aluR (.mul f) f 3 (fun a b => a * b) s
/-- Run MUL. -/
def execMul (f : RForm) (s : State) : Res := s.run (meanMul f s)

/-- MULH (R73): the high half of the signed product. -/
def meanMulh (f : RForm) (s : State) : Meaning :=
  aluR (.mulh f) f 3 mulHiS s
/-- Run MULH. -/
def execMulh (f : RForm) (s : State) : Res := s.run (meanMulh f s)

/-- MULHN (R73): the high half of the unsigned product. -/
def meanMulhn (f : RForm) (s : State) : Meaning :=
  aluR (.mulhn f) f 3 mulHiU s
/-- Run MULHN. -/
def execMulhn (f : RForm) (s : State) : Res := s.run (meanMulhn f s)

/-- DIV (R73, R74): the signed quotient. -/
def meanDiv (f : RForm) (s : State) : Meaning :=
  aluR (.div f) f 18 divS s
/-- Run DIV. -/
def execDiv (f : RForm) (s : State) : Res := s.run (meanDiv f s)

/-- DIVN (R73, R74): the unsigned quotient. -/
def meanDivn (f : RForm) (s : State) : Meaning :=
  aluR (.divn f) f 18 divU s
/-- Run DIVN. -/
def execDivn (f : RForm) (s : State) : Res := s.run (meanDivn f s)

/-- REM (R73, R74): the signed remainder. -/
def meanRem (f : RForm) (s : State) : Meaning :=
  aluR (.rem f) f 18 remS s
/-- Run REM. -/
def execRem (f : RForm) (s : State) : Res := s.run (meanRem f s)

/-- REMN (R73, R74): the unsigned remainder. -/
def meanRemn (f : RForm) (s : State) : Meaning :=
  aluR (.remn f) f 18 remU s
/-- Run REMN. -/
def execRemn (f : RForm) (s : State) : Res := s.run (meanRemn f s)

/-- AND (R75): bitwise. -/
def meanAnd (f : RForm) (s : State) : Meaning :=
  aluR (.and f) f 1 (fun a b => a &&& b) s
/-- Run AND. -/
def execAnd (f : RForm) (s : State) : Res := s.run (meanAnd f s)

/-- ANDI (R75): bitwise with sext(imm, 24). -/
def meanAndi (f : IForm) (s : State) : Meaning :=
  aluI (.andi f) f (fun a m => a &&& sext64 m) s
/-- Run ANDI. -/
def execAndi (f : IForm) (s : State) : Res := s.run (meanAndi f s)

/-- OR (R75): bitwise. -/
def meanOr (f : RForm) (s : State) : Meaning :=
  aluR (.or f) f 1 (fun a b => a ||| b) s
/-- Run OR. -/
def execOr (f : RForm) (s : State) : Res := s.run (meanOr f s)

/-- ORI (R75): bitwise with sext(imm, 24). -/
def meanOri (f : IForm) (s : State) : Meaning :=
  aluI (.ori f) f (fun a m => a ||| sext64 m) s
/-- Run ORI. -/
def execOri (f : IForm) (s : State) : Res := s.run (meanOri f s)

/-- XOR (R75): bitwise. -/
def meanXor (f : RForm) (s : State) : Meaning :=
  aluR (.xor f) f 1 (fun a b => a ^^^ b) s
/-- Run XOR. -/
def execXor (f : RForm) (s : State) : Res := s.run (meanXor f s)

/-- XORI (R75): bitwise with sext(imm, 24). -/
def meanXori (f : IForm) (s : State) : Meaning :=
  aluI (.xori f) f (fun a m => a ^^^ sext64 m) s
/-- Run XORI. -/
def execXori (f : IForm) (s : State) : Res := s.run (meanXori f s)

/-- SHL (R75): left by b[5:0]. -/
def meanShl (f : RForm) (s : State) : Meaning :=
  aluR (.shl f) f 1 (fun a b => a <<< shiftOf b) s
/-- Run SHL. -/
def execShl (f : RForm) (s : State) : Res := s.run (meanShl f s)

/-- SHLI (R75): left by imm[5:0]. -/
def meanShli (f : IForm) (s : State) : Meaning :=
  aluI (.shli f) f (fun a m => a <<< fieldN m 0 6) s
/-- Run SHLI. -/
def execShli (f : IForm) (s : State) : Res := s.run (meanShli f s)

/-- SHR (R75): right by b[5:0], zero fill. -/
def meanShr (f : RForm) (s : State) : Meaning :=
  aluR (.shr f) f 1 (fun a b => a >>> shiftOf b) s
/-- Run SHR. -/
def execShr (f : RForm) (s : State) : Res := s.run (meanShr f s)

/-- SHRI (R75): right by imm[5:0], zero fill. -/
def meanShri (f : IForm) (s : State) : Meaning :=
  aluI (.shri f) f (fun a m => a >>> fieldN m 0 6) s
/-- Run SHRI. -/
def execShri (f : IForm) (s : State) : Res := s.run (meanShri f s)

/-- SHRA (R75): right by b[5:0], sign fill. -/
def meanShra (f : RForm) (s : State) : Meaning :=
  aluR (.shra f) f 1 (fun a b => a.sshiftRight (shiftOf b)) s
/-- Run SHRA. -/
def execShra (f : RForm) (s : State) : Res := s.run (meanShra f s)

/-- SHRAI (R75): right by imm[5:0], sign fill. -/
def meanShrai (f : IForm) (s : State) : Meaning :=
  aluI (.shrai f) f (fun a m => a.sshiftRight (fieldN m 0 6)) s
/-- Run SHRAI. -/
def execShrai (f : IForm) (s : State) : Res := s.run (meanShrai f s)

/-- ROTL (R75): rotate left by b[5:0]. -/
def meanRotl (f : RForm) (s : State) : Meaning :=
  aluR (.rotl f) f 1 (fun a b => a.rotateLeft (shiftOf b)) s
/-- Run ROTL. -/
def execRotl (f : RForm) (s : State) : Res := s.run (meanRotl f s)

/-- CLZ (R76): leading zero bits, 64 for zero. -/
def meanClz (f : RForm) (s : State) : Meaning :=
  aluR (.clz f) f 1 (fun a _ => BitVec.ofNat 64 (leadingZeros a)) s
/-- Run CLZ. -/
def execClz (f : RForm) (s : State) : Res := s.run (meanClz f s)

/-- POPC (R76): one bits. -/
def meanPopc (f : RForm) (s : State) : Meaning :=
  aluR (.popc f) f 1 (fun a _ => BitVec.ofNat 64 (popCount a)) s
/-- Run POPC. -/
def execPopc (f : RForm) (s : State) : Res := s.run (meanPopc f s)

/-- MIN (R76): the signed lesser. -/
def meanMin (f : RForm) (s : State) : Meaning :=
  aluR (.min f) f 1 (fun a b => if a.slt b then a else b) s
/-- Run MIN. -/
def execMin (f : RForm) (s : State) : Res := s.run (meanMin f s)

/-- MAX (R76): the signed greater. -/
def meanMax (f : RForm) (s : State) : Meaning :=
  aluR (.max f) f 1 (fun a b => if a.slt b then b else a) s
/-- Run MAX. -/
def execMax (f : RForm) (s : State) : Res := s.run (meanMax f s)

/-- MINN (R76): the unsigned lesser. -/
def meanMinn (f : RForm) (s : State) : Meaning :=
  aluR (.minn f) f 1 (fun a b => if a.ult b then a else b) s
/-- Run MINN. -/
def execMinn (f : RForm) (s : State) : Res := s.run (meanMinn f s)

/-- MAXN (R76): the unsigned greater. -/
def meanMaxn (f : RForm) (s : State) : Meaning :=
  aluR (.maxn f) f 1 (fun a b => if a.ult b then b else a) s
/-- Run MAXN. -/
def execMaxn (f : RForm) (s : State) : Res := s.run (meanMaxn f s)

/-- CMP (R77): p[q] := a cc b. -/
def meanCmp (f : RForm) (s : State) : Meaning :=
  predR (.cmp f) f (fieldN f.fn 12 3) 1
    (fun x => (cmpCond (fieldN f.fn 15 3) (x.greg f.a.toNat) (x.greg f.b.toNat), noKind)) s
/-- Run CMP. -/
def execCmp (f : RForm) (s : State) : Res := s.run (meanCmp f s)

/-- SEL (R77): d := a if p[q] else b. -/
def meanSel (f : RForm) (s : State) : Meaning :=
  aluR (.sel f) f 1 (fun a b => if s.cx.preg (fieldN f.fn 12 3) then a else b) s
/-- Run SEL. -/
def execSel (f : RForm) (s : State) : Res := s.run (meanSel f s)

/-- MOV (R77): d := a. -/
def meanMov (f : RForm) (s : State) : Meaning :=
  aluR (.mov f) f 1 (fun a _ => a) s
/-- Run MOV. -/
def execMov (f : RForm) (s : State) : Res := s.run (meanMov f s)

/-- LI (R77): d := sext(imm, 34). -/
def meanLi (f : LForm) (s : State) : Meaning :=
  aluL (.li f) f (fun _ m => sext64 m) s
/-- Run LI. -/
def execLi (f : LForm) (s : State) : Res := s.run (meanLi f s)

/-- LIH (R77): imm[29:0] over bits [63:34], bits [33:0] kept. -/
def meanLih (f : LForm) (s : State) : Meaning :=
  aluL (.lih f) f (fun d m => setField d 34 30 m.toNat) s
/-- Run LIH. -/
def execLih (f : LForm) (s : State) : Res := s.run (meanLih f s)

/-- ADDR (R78): d := a + (b << sc). -/
def meanAddr (f : RForm) (s : State) : Meaning :=
  aluR (.addr f) f 1 (fun a b => a + (b <<< fieldN f.fn 0 3)) s
/-- Run ADDR. -/
def execAddr (f : RForm) (s : State) : Res := s.run (meanAddr f s)

/-- EXTB (R78): the low 8 bits, sign- or zero-extended. -/
def meanExtb (f : RForm) (s : State) : Meaning :=
  aluR (.extb f) f 1 (fun a _ => extendLow 8 (!bit f.fn 0) a) s
/-- Run EXTB. -/
def execExtb (f : RForm) (s : State) : Res := s.run (meanExtb f s)

/-- EXTH (R78): the low 16 bits, sign- or zero-extended. -/
def meanExth (f : RForm) (s : State) : Meaning :=
  aluR (.exth f) f 1 (fun a _ => extendLow 16 (!bit f.fn 0) a) s
/-- Run EXTH. -/
def execExth (f : RForm) (s : State) : Res := s.run (meanExth f s)

/-- EXTW (R78): the low 32 bits, sign- or zero-extended. -/
def meanExtw (f : RForm) (s : State) : Meaning :=
  aluR (.extw f) f 1 (fun a _ => extendLow 32 (!bit f.fn 0) a) s
/-- Run EXTW. -/
def execExtw (f : RForm) (s : State) : Res := s.run (meanExtw f s)

/-- BFX (R78): bits [pos + w − 1 : pos], sign- or zero-extended. -/
def meanBfx (f : RForm) (s : State) : Meaning :=
  aluR (.bfx f) f 1 (fun a _ => bitsOut (fieldN f.fn 6 6) (fieldN f.fn 0 6 + 1) (bit f.fn 12) a) s
/-- Run BFX. -/
def execBfx (f : RForm) (s : State) : Res := s.run (meanBfx f s)

/-- BFI (R78): a with bits [pos + w − 1 : pos] from b. -/
def meanBfi (f : RForm) (s : State) : Meaning :=
  aluR (.bfi f) f 1 (fun a b => bitsIn (fieldN f.fn 6 6) (fieldN f.fn 0 6 + 1) a b) s
/-- Run BFI. -/
def execBfi (f : RForm) (s : State) : Res := s.run (meanBfi f s)

/-- PAND (R79): and of predicates, each inverted as fn says. -/
def meanPand (f : RForm) (s : State) : Meaning :=
  predR (.pand f) f f.d.toNat 1
    (fun x => (xor (x.preg f.a.toNat) (bit f.fn 1) && xor (x.preg f.b.toNat) (bit f.fn 0), noKind)) s
/-- Run PAND. -/
def execPand (f : RForm) (s : State) : Res := s.run (meanPand f s)

/-- POR (R79): or of predicates, each inverted as fn says. -/
def meanPor (f : RForm) (s : State) : Meaning :=
  predR (.por f) f f.d.toNat 1
    (fun x => (xor (x.preg f.a.toNat) (bit f.fn 1) || xor (x.preg f.b.toNat) (bit f.fn 0), noKind)) s
/-- Run POR. -/
def execPor (f : RForm) (s : State) : Res := s.run (meanPor f s)

/-- PNOT (R79): p[d] := NOT p[a]. -/
def meanPnot (f : RForm) (s : State) : Meaning :=
  predR (.pnot f) f f.d.toNat 1 (fun x => (!x.preg f.a.toNat, noKind)) s
/-- Run PNOT. -/
def execPnot (f : RForm) (s : State) : Res := s.run (meanPnot f s)

/-- FCVTS (R80): convert a scalar value; its events carry no cell and no lane. -/
def meanFcvts (f : RForm) (s : State) : Meaning :=
  let x := s.cx
  let r := fcvtsValue f.fn (x.greg f.a.toNat)
  scalarTo (.fcvts f) (x.pred f.pr f.pn) .g f.d.toNat 2 r.1 (scalarEvs r.2)
/-- Run FCVTS. -/
def execFcvts (f : RForm) (s : State) : Res := s.run (meanFcvts f s)

/-- FCMPS (R81): compare scalar floating-point values. -/
def meanFcmps (f : RForm) (s : State) : Meaning :=
  predR (.fcmps f) f (fieldN f.fn 12 3) 2
    (fun x => fcmpsValue f.fn (x.greg f.a.toNat) (x.greg f.b.toNat)) s
/-- Run FCMPS. -/
def execFcmps (f : RForm) (s : State) : Res := s.run (meanFcmps f s)

end Sys2Proof.Machine
end

