-- ==== Sys2Proof/Machine/Laps.lean ====
section
/-! DEFINITION. The lap instructions of the S slots, WAITF, and the judge instructions of the M slot (R276, R277, R294 to
R301). What the judge then does are device steps of their own. -/

namespace Sys2Proof.Machine

/-- The graph of the current launch. -/
def State.graphOf (s : State) (c : Nat) : Option Graph := (s.launchOf c).bind fun p => p.2.graph

/-! ### Laps (R276, R277) -/

/-- LAPSET (R276). -/
def meanLapset (f : RForm) (s : State) : Meaning :=
  let x := s.cx
  scalarTo (.lapset f) (x.pred f.pr f.pn) .lap f.d.toNat 1 (x.greg f.a.toNat) []
/-- Run LAPSET. -/
def execLapset (f : RForm) (s : State) : Res := s.run (meanLapset f s)

/-- LAPADD (R277): LAP_RANGE when the amount or the counter leaves 16 bits. -/
def meanLapadd (f : RForm) (s : State) : Meaning :=
  let x := s.cx
  let l := x.lapReg f.a.toNat
  let n := (x.greg f.b.toNat).toNat
  let j := fieldN f.fn 0 2
  let c := lapCounter l j + n
  let m := scalarTo (.lapadd f) (x.pred f.pr f.pn) .lap f.d.toNat 1 (lapSetLevel l j c) []
  { m with check := { m.check with
    other := if m.taken ∧ (0xFFFF < n ∨ 0xFFFF < c) then some ⟨cLapRange, 0, none⟩ else none } }
/-- Run LAPADD. -/
def execLapadd (f : RForm) (s : State) : Res := s.run (meanLapadd f s)

/-- LAPGET (R276). -/
def meanLapget (f : RForm) (s : State) : Meaning :=
  let x := s.cx
  scalarTo (.lapget f) (x.pred f.pr f.pn) .g f.d.toNat 1 (x.lapReg f.a.toNat) []
/-- Run LAPGET. -/
def execLapget (f : RForm) (s : State) : Res := s.run (meanLapget f s)

/-! ### Waiting on a frontier (R299, R300) -/

/-- STATION_INVALID: no graph, or no such station. -/
def stationCause (g : Option Graph) (st : Nat) : Option Cause :=
  match g with
  | none => some ⟨cStationInvalid, 0, none⟩
  | some g => if g.stations ≤ st then some ⟨cStationInvalid, 0, none⟩ else none

/-- WAITF's station (R56). -/
def waitfStation (f : FForm) : Nat := fieldN f.tgt 0 8

/-- WAITF's condition: the announced frontier has passed the lap (R299); nothing is awaited of a station that the graph has
not, so that the slot's fault is raised. -/
def waitfMet (f : FForm) (s : State) : Bool :=
  match s.graphOf s.turn.core with
  | none => true
  | some g => decide (g.stations ≤ waitfStation f) ||
    decide ((s.cx.lapReg (fieldN f.a 0 2)).toNat < (g.frontier (waitfStation f)).toNat)

/-- WAITF (R299). -/
def meanWaitf (f : FForm) (s : State) : Meaning :=
  { flowOp (.waitf f) f (stationCause (s.graphOf s.turn.core) (waitfStation f)) id s with ready := waitfMet f s }
/-- Run WAITF. -/
def execWaitf (f : FForm) (s : State) : Res := s.run (meanWaitf f s)

/-- Whether the frontier that FRONT asks for is known: at once where the judge is in this package, with its answer where the
home judge of another package has been asked; nothing is asked where the slot's fault is raised, or of a cancelled graph, whose
frontiers are CLOSED (R301). -/
def frontKnown (st : Nat) (s : State) : Bool :=
  match s.graphOf s.turn.core with
  | some g => g.auth != 3 || g.state == 2 || decide (g.stations ≤ st) || s.cx.frontGot.any fun q => q.1 == st
  | none => true

/-- Ask the home judge for a station's frontier (R300). -/
def State.askFront (s : State) (st : Nat) : State :=
  match s.launchOf s.turn.core with
  | some (_, x) =>
    match x.graph with
    | some g =>
      if s.cx.frontAsk = some st then s
      else (s.modCx fun x => { x with frontAsk := some st }).post (.frontAsk g.homePackage s.mgmt.package (s.crossName x.dom g) s.cx.unit st)
    | none => s
  | none => s

/-- FRONT (R300): the frontier that the authoritative judge has announced when the request reaches it, landing at t + 4. The
request to another package's judge is answered before the bundle issues (DEDUCED, log entry 29). -/
def meanFront (f : MForm) (s : State) : Meaning :=
  let st := fieldN f.imm 0 8
  { memOp (.front f) f [(.g, f.d.toNat, 4)] (stationCause (s.graphOf s.turn.core) st)
      (fun s =>
        match s.graphOf s.turn.core with
        | some g =>
          let v := if g.auth = 3 then (if g.state = 2 then closedLap else (s.cx.frontGot.map Prod.snd).getD closedLap) else g.frontier st
          s.modCx fun x => { x with frontAsk := none, frontGot := none }.landAt .g f.d.toNat v 4
        | none => s) s with
    ready := frontKnown st s, prepare := fun s => s.askFront st }
/-- Run FRONT. -/
def execFront (f : MForm) (s : State) : Res := s.run (meanFront f s)

/-! ### Batons (R294, R295) -/

/-- A baton descriptor's fields (R294). -/
structure BatonDesc where
  handler : BitVec 16
  unit : Nat
  handle : Nat
  pkg : Nat
  fab : Bool
  rsv : Bool
  len : Nat
  deriving DecidableEq, Repr

/-- A descriptor's word read. -/
def batonDesc (w : Word) : BatonDesc :=
  ⟨field w 48 16, fieldN w 39 9, fieldN w 35 4, fieldN w 24 10, bit w 23, bit w 34 || fieldN w 16 7 != 0, fieldN w 0 16⟩

/-- The pages of a payload in global memory are fabric-export; one in CMEM has none, and an address that does not translate
is left to the payload's read (DEDUCED, log entry 29). -/
def State.exported (s : State) (b : Word) (len : Nat) : Bool :=
  fieldN b 56 8 != 0 || len == 0 ||
    [fieldN b 0 56, fieldN b 0 56 + len - 1].all fun va =>
      match (s.translate (s.ctxAccessor s.turn.core s.turn.ctx) va).1 with
      | .ok x => bit x.pte 50
      | .error _ => true

/-- BATON_INVALID (R295). -/
def batonBad (d : BatonDesc) (g : Graph) (units : Nat) (exported : Bool) (x : Ctx) (k : Core) : Bool :=
  d.rsv || (!d.fab && d.pkg != 0) || d.len % 8 != 0 || (!d.fab && decide (units ≤ d.unit)) || (d.fab && !(g.cross && exported)) ||
  (match x.handle? d.handle with
    | none => true
    | some h => decide (32 * h.slot < d.len + 32)) ||
  !(d.handler == 0xFFFF || k.isStart d.handler.toNat)

/-- BSEND's descriptor and payload, read and checked in the order of R306: the alignment of both addresses, the
descriptor's read, the checks of R295, the payload's read. -/
def bsendFetch (f : MForm) (s : State) : Fetched (BatonDesc × List Byte) :=
  let a := s.cx.greg f.a.toNat
  let b := s.cx.greg f.b.toNat
  let st := fieldN f.imm 0 8
  let lap := s.cx.lapReg (fieldN f.imm 8 2)
  if a.toNat % 8 ≠ 0 then .issue ⟨cMisaligned, a, none⟩
  else if b.toNat % 8 ≠ 0 then .issue ⟨cMisaligned, b, none⟩
  else
    match s.fetchOperand a 8 8 cMisaligned with
    | .issue cz => .issue cz
    | .late t => .late t
    | .ok bs t =>
      let d := batonDesc (BitVec.ofNat 64 (leNat bs))
      match s.graphOf s.turn.core with
      | none => .issue ⟨cStationInvalid, 0, none⟩
      | some g =>
        if g.stations ≤ st then .issue ⟨cStationInvalid, 0, none⟩
        else if !g.validLap st lap then .issue ⟨cLapRange, 0, none⟩
        else if batonBad d g (s.unitsOf s.turn.core) (s.exported b d.len) s.cx s.cc then .issue ⟨cBatonInvalid, 0, none⟩
        else
          match t.fetchOperand b d.len 8 cMisaligned with
          | .ok ps t => .ok (d, ps) t
          | .issue cz => .issue cz
          | .late t => .late t

/-- Queue a judge operation of the current context (R289, R292). -/
def State.queueJudge (s : State) (o : JudgeOp) : State := s.modCx fun x => { x with judgeQ := x.judgeQ ++ [o] }

/-- Whether the context's judge queue has room: eight operations (R289). -/
def Ctx.judgeRoom (x : Ctx) : Bool := x.judgeQ.length < 8

/-- BSEND (R295): the +1 of the baton enters the context's judge queue; a full queue freezes the context (R289). -/
def meanBsend (f : MForm) (s : State) : Meaning :=
  let r := bsendFetch f s
  let lap := s.cx.lapReg (fieldN f.imm 8 2)
  { memOp (.bsend f) f [] r.cause
      (fun s => r.effect s fun p t =>
        t.queueJudge (.bsend (fieldN f.imm 0 8) lap p.1.unit p.1.handle p.1.handler (if p.1.fab then some p.1.pkg else none) p.2)) s with
    ready := s.cx.judgeRoom }
/-- Run BSEND. -/
def execBsend (f : MForm) (s : State) : Res := s.run (meanBsend f s)

/-! ### Deltas (R298) -/

/-- The records of a batch: lap, second word. -/
def progRecords : List Word → List (Word × Word)
  | a :: b :: ws => (a, b) :: progRecords ws
  | _ => []

/-- PROG's batch, read and checked in the order of R306 and of R298's table. -/
def progFetch (f : MForm) (s : State) : Fetched (List (Nat × Word × Int)) :=
  match s.fetchOperand (s.cx.greg f.a.toNat) (16 * fieldN f.imm 0 8) 16 cMisaligned with
  | .issue cz => .issue cz
  | .late t => .late t
  | .ok bs t =>
    let rs := progRecords (bytesToWords bs)
    match s.graphOf s.turn.core with
    | none => .issue ⟨cStationInvalid, 0, none⟩
    | some g =>
      if rs.any fun r => decide (g.stations ≤ fieldN r.2 0 8) then .issue ⟨cStationInvalid, 0, none⟩
      else if rs.any fun r => !g.validLap (fieldN r.2 0 8) r.1 then .issue ⟨cLapRange, 0, none⟩
      else if rs.any fun r => fieldN r.2 32 16 == 0 || fieldN r.2 48 16 != 0 || fieldN r.2 8 24 != 0 then
        .issue ⟨cBatonInvalid, 0, none⟩
      else .ok (rs.map fun r => (fieldN r.2 0 8, r.1, (field r.2 32 16 : BitVec 16).toInt)) t

/-- PROG (R298): the batch enters the context's judge queue. -/
def meanProg (f : MForm) (s : State) : Meaning :=
  let r := progFetch f s
  { memOp (.prog f) f [] r.cause (fun s => r.effect s fun ds t => t.queueJudge (.prog ds)) s with ready := s.cx.judgeRoom }
/-- Run PROG. -/
def execProg (f : MForm) (s : State) : Res := s.run (meanProg f s)

/-! ### Cancelling (R301) -/

/-- The launch whose graph an identifier names and the issuer may cancel (R301): its own at user privilege, one of its
address domain at supervisor, and any at firmware, of which R301 does not speak; among several of one identifier the issuer's own,
else the launch that was made first (DESIGN CHOICE, log entry 82). -/
def State.cancelTarget (s : State) (id : Nat) : Option Nat :=
  let x := s.cx
  let has (la : Launch) : Bool := match la.graph with
    | some g => g.id == id
    | none => false
  match s.launchOf s.turn.core with
  | none => none
  | some (l, la) =>
    if has la then some l
    else if x.pl = 0 then none
    else (s.launches.find? fun p => has p.2 && (x.pl == 2 || p.2.dom == la.dom)).map fun p => p.1

/-- GCANCEL (R301): the judge cancels the graph in clock time, in order with its other operations. -/
def meanGcancel (f : MForm) (s : State) : Meaning :=
  let a := s.cx.greg f.a.toNat
  let target := if fieldN a 16 48 = 0 then s.cancelTarget (fieldN a 0 16) else none
  memOp (.gcancel f) f [] (if target.isNone then some ⟨cGraphInvalid, 0, none⟩ else none)
    (fun s =>
      match target with
      | some l =>
        let unit := s.cx.unit
        s.modGraph l fun g => if g.cancelReq.isNone then { g with cancelReq := some unit } else g
      | none => s) s
/-- Run GCANCEL. -/
def execGcancel (f : MForm) (s : State) : Res := s.run (meanGcancel f s)

end Sys2Proof.Machine
end

