-- ==== Sys2Proof/Machine/Cells.lean ====
section
/-! DEFINITION. The shape of every cell instruction: what it uses of each selected cell, its faults at issue in the order
of R169 and R201, the wakes it waits for, bad data it would consume, and its results on their way; and what a virtual
cycle does to a cell: landings, tower writes, arrivals (R129 to R143, R169, R171, R419, R425, R438). -/

namespace Sys2Proof.Machine

/-! ### What a cell instruction uses -/

/-- What a cell instruction uses, by selected cell. -/
structure CellUse where
  form : CForm
  /-- Results: whether a mask register, the register, the latency; a write to m0 is left out (R128). -/
  dests : Nat → List (Bool × Nat × Nat) := fun _ => []
  /-- Tower rows read: cycles after issue, the row. -/
  reads : Nat → List (Nat × RowRead) := fun _ => []
  /-- Tower rows written: latency, row. -/
  writes : Nat → List (Nat × Nat) := fun _ => []
  /-- Scale rows written beside them. -/
  scales : Nat → List Nat := fun _ => []
  /-- Rows whose old contents a write keeps in part (R436). -/
  keeps : Nat → List Nat := fun _ => []
  /-- Vector registers and mask registers read at issue, and accumulators with the elements read of them. -/
  regs : List Nat := []
  masks : List Nat := []
  accs : List (Nat × (Nat → Bool)) := []
  /-- Takes a latch or an express entry (R419), and which, with whether the words taken of it hold an error. -/
  latch : Bool := false
  entries : Cell → List (Nat × Bool) := fun _ => []
  /-- What it needs of the express network is there (R187). -/
  express : Bool := true
  /-- Occupies the multiply-accumulate tile from its issue (R171); a PATCH does not meet a frozen stream (R419). -/
  tile : Bool := false
  patch : Bool := false
  illegal : Bool := false
  mismatch : Bool := false
  xcfg : Bool := false

/-- The selected cells (R129). -/
def CellUse.cells (u : CellUse) : List Nat := cellsOf u.form.sq

/-! ### Faults at issue -/

/-- A result would meet one already in the cell's landing queue, or two tower writes one cycle (R134, R136). -/
def Cell.collides (x : Cell) (level vt : Nat) (dests : List (Bool × Nat × Nat)) (writes : List (Nat × Nat)) : Bool :=
  dests.any (fun d => x.land.any fun e => e.level == level && e.isMask == d.1 && e.idx == d.2.1 && e.due == vt + d.2.2) ||
  writes.any (fun w => x.writes.any fun e => e.level == level && e.due == vt + w.1)

/-- A stream of a frozen schedule acts in a cell (R419). -/
def Ctx.frozenIn (x : Ctx) (cell : Nat) : Bool :=
  x.streams.any fun st => decide (st.level < x.depth) && bit st.form.sq (squadOf cell)

/-- The tile of a cell is occupied at the running level (R171). -/
def Ctx.tileBusy (x : Ctx) (cell : Nat) : Bool :=
  x.streams.any fun st => st.level == x.depth && st.onTile && bit st.form.sq (squadOf cell)

/-- SCHED_COLLIDE in the cells (R134, R171, R419). -/
def CellUse.collide (u : CellUse) (k : Core) (x : Ctx) : Bool :=
  u.cells.any fun c =>
    (k.cell c).collides x.depth x.vt (u.dests c) (u.writes c) ||
      (u.tile && (x.tileBusy c || (x.frozenIn c && !u.patch))) || (u.latch && x.frozenIn c)

/-- LANDING_FULL (R133) (DEDUCED, log entry 26). -/
def CellUse.full (u : CellUse) (k : Core) : Bool :=
  u.cells.any fun c => decide (40 < (k.cell c).land.length + (u.dests c).length)

/-- The counted rows that the context's streams read in a cell in a cycle of the running level. -/
def Ctx.streamRows (x : Ctx) (cell v : Nat) : List Nat :=
  ((x.streams.filter fun st => st.level == x.depth).map fun st =>
    ((st.rowsIn cell v).filter fun r => r.counted).map fun r => r.row).flatten

/-- More than three reads of a cell, or more than two of one bank (R135). -/
def bankTriple (rows : List Nat) : Bool :=
  decide (3 < rows.length) || rows.any fun r => decide (2 < (rows.filter fun q => rowBank q == rowBank r).length)

/-- BANK_TRIPLE (R135, R143, R180). -/
def CellUse.banks (u : CellUse) (x : Ctx) : Bool :=
  u.cells.any fun c =>
    let rs := (u.reads c).filter fun r => r.2.counted
    (rs.map Prod.fst).eraseDups.any fun o =>
      bankTriple (((rs.filter fun r => r.1 == o).map fun r => r.2.row) ++ x.streamRows c (x.vt + o))

/-- TOWER_OFF: a row to be read or written lies in a layer that is OFF (R137, R143). -/
def CellUse.towerOff (u : CellUse) (k : Core) : Bool :=
  u.cells.any fun c =>
    let off (r : Nat) : Bool := (k.tower c).layer (rowLayer r) == .off
    (u.reads c).any (fun r => off r.2.row) || (u.writes c).any (fun w => off w.2) || (u.scales c).any off

/-- The causes of R169 and R201 after LANDING_FULL. -/
def CellUse.other (u : CellUse) (k : Core) (x : Ctx) : Option Cause :=
  if u.banks x then some ⟨cBankTriple, 0, none⟩
  else if u.towerOff k then some ⟨cTowerOff, 0, none⟩
  else if u.mismatch && u.form.sq != 0 then some ⟨cFormatMismatch, 0, none⟩
  else if u.xcfg then some ⟨cExpressCfg, 0, none⟩
  else none

/-! ### Wakes (R137, R139, R232) -/

/-- A wake that an access needs. -/
inductive PowerNeed where
  | layer (cell l : Nat)
  | group (cell g : Nat)
  deriving DecidableEq, Repr

/-- A layer must be ON for an access; one that is OFF is not woken. -/
def Tower.needs (t : Tower) (cell row : Nat) : List PowerNeed :=
  match t.layer (rowLayer row) with
  | .on => []
  | .off => []
  | _ => [.layer cell (rowLayer row)]

/-- A drowsy group must wake before a register of it is read. -/
def Cell.readNeeds (x : Cell) (cell reg : Nat) : List PowerNeed :=
  if x.group (reg / 8) = .drowsy then [.group cell (reg / 8)] else []

/-- Start a wake; one under way serves all. -/
def Core.startNeed (k : Core) : PowerNeed → Core
  | .layer c l => k.setTower c ((k.tower c).startWake l)
  | .group c g =>
    let x := k.cell c
    if x.groupWakes.contains g then k else k.setCell c { x with groupWakes := x.groupWakes ++ [g] }

/-- The wakes that an instruction's reads at issue need, whatever lanes its mask selects in a cell (DESIGN CHOICE, log entry 74). -/
def CellUse.needs (u : CellUse) (k : Core) : List PowerNeed :=
  (u.cells.map fun c =>
    (u.regs.map fun r => (k.cell c).readNeeds c r).flatten ++
      (((u.reads c).filter fun r => r.1 == 0).map fun r => (k.tower c).needs c r.2.row).flatten).flatten

/-! ### Bad data (R436, R438) -/

/-- The number of the latch, or the receive buffer, that a select takes, after the registers': 42 to 45 and 46. -/
def entryNumber (sel : BitVec 4) : Nat := if sel = 7 then 46 else 40 + sel.toNat

/-- Whether the low rows of a fragment hold an error. -/
def FragVal.badIn (v : FragVal) (rows : Nat) : Bool := v.bad.any fun w => decide (w < 8 * rows)

/-- The latches and the express entry whose low row selects take in a cell, by number, with whether it holds an error. -/
def Cell.taken (x : Cell) (sels : List (BitVec 4)) : List (Nat × Bool) :=
  sels.filterMap fun sel =>
    if sel = 7 then x.rx.head?.map fun e => (entryNumber sel, e.val.badIn 1)
    else if takesLatch sel then some (entryNumber sel, (get {} x.latch (sel.toNat - 2)).val.badIn 1)
    else none

/-- Whether a read of words of a register, numbered as in the cell's list of errors, meets one: a gated group serves zeros
(R138, R139). -/
def Cell.badReg (x : Cell) (r : Nat) (word : Nat → Bool) : Bool :=
  (x.bad.any fun b => b.1 == r && word b.2) && !(decide (r < 32) && x.group (r / 8) == .gated)

/-- Bad data that a cell instruction consumes at issue (DEDUCED, log entry 17). -/
def CellUse.consumed (u : CellUse) (k : Core) : Option BadAt :=
  let regs := (u.regs ++ u.masks.map (32 + ·)).map (fun r => (r, fun _ => true)) ++ u.accs.map fun a => (40 + a.1, a.2)
  (u.cells.map fun c =>
    let rows := (((u.reads c).filter fun r => r.1 == 0).map fun r => r.2.row) ++ u.keeps c
    (rows.filter (k.tower c).uncorrectable).map (fun r => ⟨0, c, r, 0⟩) ++
      (regs.filter fun r => (k.cell c).badReg r.1 r.2).map (fun r => ⟨3, c, r.1, 0⟩) ++
      ((u.entries (k.cell c)).filter Prod.snd).map fun p => ⟨3, c, p.1, 0⟩).flatten.head?

/-- The C slot consumes bad data: UNCORRECTABLE after issue, with no effect in any cell (R438). -/
def State.consume (s : State) (b : BadAt) : State :=
  (s.noteBad s.turn.core s.turn.ctx b).faultAfter ⟨cUncorrectable, 0, none⟩

/-! ### Watchpoints on rows (R425, R426) -/

/-- Whether a tower watch of a kind bit matches a row of a cell. -/
def watchRow (ws : List Word) (kind cell row : Nat) : Bool :=
  let w0 := nth 0 ws 0
  let w3 := nth 0 ws 3
  bit w0 63 && bit w0 62 && bit w0 kind && decide (fieldN (nth 0 ws 1) 0 10 ≤ row) &&
    decide (row ≤ fieldN (nth 0 ws 2) 0 10) && bit w3 (32 + squadOf cell) && bit w3 (8 + cell / 16 % 8) && bit w3 (cell % 8)

/-- RD, WR and MS of a watch's first word. -/
def watchRd : Nat := 61
def watchWr : Nat := 60
def watchMs : Nat := 59

/-- INFO of R415 for accesses (cell, row) of one kind, without the step: the lowest cell, its lowest row, the watchpoints. -/
def watchInfo (watch : List (Nat × List Word)) (kind : Nat) (acc : List (Nat × Nat)) : Option Word :=
  let hit := acc.filter fun a => watch.any fun p => watchRow p.2 kind a.1 a.2
  match hit with
  | [] => none
  | h :: hs =>
    let cell := hs.foldl (fun m a => min m a.1) h.1
    let row := ((hit.filter fun a => a.1 == cell).map Prod.snd).foldl min 1023
    let mask := watchMask watch fun ws => hit.any fun a => watchRow ws kind a.1 a.2
    some (BitVec.ofNat 64 ((cell <<< 56) + (row <<< 46) + mask % 256))

/-- The accesses of an instruction at issue: rows read that are no stream's, or target rows. -/
def CellUse.accesses (u : CellUse) (rows : Nat → List Nat) : List (Nat × Nat) :=
  (u.cells.map fun c => (rows c).map fun r => (c, r)).flatten

/-- Note a match of the C slot (R426). -/
def State.watchCells (s : State) (kind : Nat) (acc : List (Nat × Nat)) : State :=
  match watchInfo s.cc.watch kind acc with
  | some w => s.modCx fun x => x.noteWatch 3 w
  | none => s

/-! ### Serving reads (R229, R234, R435) -/

/-- Serve row reads of a cell in one cycle, after counted reads of the banks `seen`: a second read of a bank goes by
rebuild. -/
def Core.serveRows (k : Core) (clk cell : Nat) : List Nat → List RowRead → Core
  | _, [] => k
  | seen, r :: rs =>
    let k := k.serveRow clk cell r.row
    if r.counted then
      let k := if seen.contains (rowBank r.row) then k.setTower cell ((k.tower cell).touchAll clk (rebuildGroups r.row)) else k
      k.serveRows clk cell (rowBank r.row :: seen) rs
    else k.serveRows clk cell seen rs

/-- Serve the rows that an instruction reads at issue. -/
def State.serveUse (s : State) (u : CellUse) : State :=
  let x := s.cx
  s.modCore fun k => u.cells.foldl (fun k c =>
    k.serveRows s.clock c ((x.streamRows c x.vt).map rowBank)
      (((u.reads c).filter fun r => r.1 == 0).map fun r => r.2)) k

/-! ### The shape of a cell instruction -/

/-- A cell instruction (R129, R169). -/
def cellSlot (i : Instr) (u : CellUse) (early : Bool → Option StepCause) (effect : State → State) (s : State) : Meaning :=
  let x := s.cx
  let k := s.cc
  let needs := u.needs k
  { taken := true
    check := { illegal := !legal i || (u.form.sq &&& ~~~x.sqm) != 0 || u.illegal
               collide := u.collide k x
               full := u.full k
               other := u.other k x }
    ready := needs.isEmpty && u.express
    prepare := fun s => s.modCore fun k => needs.foldl Core.startNeed k
    early := early
    rows := match u.cells with
      | [] => 0
      | c :: _ => ((u.reads c).filter fun r => r.1 == 0 && r.2.counted).length
    effect := fun s =>
      match u.consumed s.cc with
      | some b => s.consume b
      | none => effect s }

/-- A cell instruction whose reads are made at issue: watchpoints see them, scale rows among them, the towers serve them, then
its effect (R217, R425) (DEDUCED, log entry 71). -/
def plainSlot (i : Instr) (u : CellUse) (effect : State → State) (s : State) : Meaning :=
  cellSlot i u (fun _ => none) (fun s =>
    let s := s.watchCells watchRd (u.accesses fun c => (u.reads c).map fun r => r.2.row)
    let s := s.watchCells watchWr (u.accesses fun c => (u.writes c).map fun w => w.2)
    effect (s.serveUse u)) s

/-! ### Results on their way -/

/-- A result for a vector register: bits of it under a mask (R133). -/
def Ctx.toV (x : Ctx) (reg lat : Nat) (val bits : Row) : CellLanding :=
  ⟨x.depth, x.vt + lat, false, reg, val, bits, false⟩

/-- A result for a mask register. -/
def Ctx.toM (x : Ctx) (reg lat : Nat) (val bits : BitVec 16) : CellLanding :=
  ⟨x.depth, x.vt + lat, true, reg, val.setWidth 256, bits.setWidth 256, false⟩

/-- A tower write (R136). -/
def Ctx.toRow (x : Ctx) (row lat : Nat) (val bits : Row) (scales : List (Nat × Nat × Byte)) : TowerWrite :=
  ⟨x.depth, x.vt + lat, row, val, bits, scales, false⟩

/-- What an instruction gives one cell. -/
structure CellOut where
  lands : List CellLanding := []
  writes : List TowerWrite := []
  frags : List FragMove := []
  evs : List EvItem := []
  /-- A change made at once. -/
  now : Cell → Cell := id

/-- Results enter a cell's queues; a result for m0 is discarded (R128). -/
def Cell.accept (x : Cell) (o : CellOut) : Cell :=
  let x := o.now x
  { x with land := x.land ++ o.lands.filter (fun l => !(l.isMask && l.idx == 0))
           writes := x.writes ++ o.writes, frags := x.frags ++ o.frags }

/-- Give every selected cell its results, all of them computed from the core as it stands; then the slot's events. -/
def State.cellsDo (s : State) (cells : List Nat) (out : Core → Nat → CellOut) : State :=
  let k := s.cc
  let rs := cells.map fun c => (c, out k c)
  let s := s.modCore fun k => rs.foldl (fun k r => k.setCell r.1 ((k.cell r.1).accept r.2)) k
  s.raise (rs.map fun r => cellEvents r.1 r.2.evs).flatten

/-- A read of a register by selected elements: an event where its group is gated (R139). -/
def Cell.gatedRead (x : Cell) (reg : Nat) (lanes : BitVec 16) (count : Nat) : List EvItem :=
  if x.group (reg / 8) = .gated then gatedItem lanes count else []

/-- Merge a cell's items of one kind: lanes united, counts added. -/
def mergeItems (xs : List EvItem) : List EvItem :=
  (List.range 8).filterMap fun k =>
    match xs.filter fun i => i.kind == k with
    | [] => none
    | h :: hs => some ⟨k, hs.foldl (fun m i => m ||| i.lanes) h.lanes, hs.foldl (fun n i => n + i.count) h.count⟩

/-! ### A virtual cycle in a cell (R133) -/

/-- The wakes that what is due needs (R137, R139). A write whose lane mask selects no bit of its row makes no access, and
wakes and touches nothing (DESIGN CHOICE, log entry 48: the manual does not say). -/
def Core.dueNeeds (k : Core) (cell level vt : Nat) : List PowerNeed :=
  let x := k.cell cell
  let t := k.tower cell
  (((x.land.filter fun e => e.level == level && decide (e.due ≤ vt) && !e.isMask).map fun e =>
      if x.group (e.idx / 8) = .on then [] else [PowerNeed.group cell (e.idx / 8)]).flatten) ++
  (((x.writes.filter fun w => w.level == level && decide (w.due ≤ vt)).map fun w =>
      (if w.bits = 0 then [] else t.needs cell w.row) ++ (w.scales.map fun q => t.needs cell q.1).flatten).flatten)

/-- A register takes a landing; an error ends in each word that is written whole, and stays in one of which bits are kept
(R433, R436; DESIGN CHOICE, log entry 17). -/
def Cell.takeLanding (x : Cell) (e : CellLanding) : Cell :=
  if e.isMask then
    (x.setM e.idx (mergeBits (x.mreg e.idx) (e.val.setWidth 16) (e.bits.setWidth 16))).mend (32 + e.idx) fun _ =>
      e.bits.setWidth 16 == 0xFFFF#16
  else
    (x.setV e.idx (mergeBits (x.vreg e.idx) e.val e.bits)).mend e.idx fun w => fieldN e.bits (32 * w) 32 == 2 ^ 32 - 1

/-- A fragment arrives in a latch (R181). -/
def Cell.takeFrag (x : Cell) (f : FragMove) : Cell := { x with latch := set {} f.side ⟨f.val, true⟩ x.latch }

/-- A write of bits of a row lands: nothing where its layer is OFF (R137), or where it would keep bits that cannot be
read (R436) (DEDUCED, log entry 18). -/
def Core.landRow (k : Core) (clk cell row : Nat) (val bits : Row) : Core :=
  let t := k.tower cell
  if bits = 0 || t.layer (rowLayer row) == .off || (bits != BitVec.allOnes 256 && t.uncorrectable row) then k
  else k.writeRow clk cell row val bits

/-- A byte of a row as a write. -/
def byteBits (b : Nat) : Row := BitVec.ofNat 256 (255 <<< (8 * b))

/-- A tower write lands, its scale bytes in the same cycle (R136, R192, R218). -/
def Core.landWrite (k : Core) (clk cell : Nat) (w : TowerWrite) : Core :=
  let k := k.landRow clk cell w.row w.val w.bits
  w.scales.foldl (fun k q => k.landRow clk cell q.1 (BitVec.ofNat 256 (q.2.2.toNat <<< (8 * q.2.1))) (byteBits q.2.1)) k

/-- The landings of a cell due in a cycle: arrivals, registers, tower rows, then power changes (R133, R334). -/
def Core.landCell (k : Core) (clk cell level vt : Nat) : Core :=
  let x := k.cell cell
  let due (l d : Nat) : Bool := l == level && decide (d ≤ vt)
  let frags := x.frags.filter fun e => due e.level e.due
  let lands := x.land.filter fun e => due e.level e.due
  let writes := x.writes.filter fun e => due e.level e.due
  let power := x.power.filter fun e => due e.level e.due
  let y := { x with
    frags := x.frags.filter fun e => !due e.level e.due
    land := x.land.filter fun e => !due e.level e.due
    writes := x.writes.filter fun e => !due e.level e.due
    power := x.power.filter fun e => !due e.level e.due
    past := x.past.filter fun p => !(p.level == level && decide (p.cycle + 3 ≤ vt)) }
  let y := lands.foldl Cell.takeLanding (frags.foldl Cell.takeFrag y)
  let k := writes.foldl (fun k w => k.landWrite clk cell w) (k.setCell cell y)
  power.foldl (fun k p => k.setTower cell ((k.tower cell).powerTo p.layer p.target)) k

/-- The cells of a context that hold something. -/
def Core.heldCells (k : Core) (sqm : BitVec 4) : List Nat := (k.cells.map Prod.fst).filter fun c => bit sqm (squadOf c)

/-- The landings of a context's cells due in its present cycle. -/
def Core.landCells (k : Core) (clk : Nat) (x : Ctx) : Core :=
  (k.heldCells x.sqm).foldl (fun k c => k.landCell clk c x.depth x.vt) k

/-- The wakes that the landings of the present cycle need. -/
def Core.landNeeds (k : Core) (x : Ctx) : List PowerNeed :=
  ((k.heldCells x.sqm).map fun c => k.dueNeeds c x.depth x.vt).flatten

/-- Nothing of the context's running level is in flight in its cells (R96, R420). -/
def Core.cellsIdle (k : Core) (x : Ctx) : Bool :=
  (k.heldCells x.sqm).all fun c =>
    let y := k.cell c
    y.land.all (fun e => e.level != x.depth) && y.writes.all (fun e => e.level != x.depth) &&
      y.frags.all (fun e => e.level != x.depth) && y.power.all fun e => e.level != x.depth

/-! ### Streams: what every kind shares -/

/-- SYS.EVTRAP as it governs the bundle in issue (R336). -/
def Ctx.evtrapNow (x : Ctx) : Word :=
  match x.issue with
  | some i => i.evtrap
  | none => x.evtrap

/-- A stream starts: its first step is performed in its issue cycle, by the caller (R143, R179). -/
def newStream (s : State) (kind : StreamKind) (f : CForm) (steps fa fb : Nat) (writes : Bool) (cap : SMap Frag) : Stream :=
  let x := s.cx
  { kind := kind, level := x.depth, form := f, pc := x.issuePc, start := x.vt, done := 0, left := steps, fa := fa, fb := fb
    geom := x.sqgeom, held := x.sqm, writes := writes, cap := cap, rows := [], watch := s.cc.watch, evs := []
    evVt := x.shownVt, evtrap := x.evtrapNow, chan := get 0 x.xch (fieldN f.rt 0 4)
    rgn := ((cellsOf f.sq).map fun c => (c, (s.cc.cell c).rgn)).filter fun p => !p.2.isEmpty }

/-- The tower accesses of the next step of a stream: (cell, row). -/
def Stream.stepRows (st : Stream) (step : Nat) : List (Nat × RowRead) :=
  ((cellsOf st.form.sq).map fun c => (st.rowsAt c step).map fun r => (c, r)).flatten

/-- A watchpoint match of a step, scale rows among its rows: INFO with the step (R415, R425, R426). -/
def Stream.watchHit (st : Stream) (step : Nat) : Option Word :=
  (watchInfo st.watch watchMs ((st.stepRows step).map fun r => (r.1, r.2.row))).map fun w =>
    w ||| BitVec.ofNat 64 (step <<< 35 ||| 1 <<< 34)

/-- Whether a step would read a layer that is OFF (R180). -/
def Stream.stepOff (st : Stream) (k : Core) (step : Nat) : Bool :=
  (st.stepRows step).any fun r => (k.tower r.1).layer (rowLayer r.2.row) == .off

/-- The first row of a step that cannot be read (R438): cell and row. -/
def Stream.stepBad (st : Stream) (k : Core) (step : Nat) : Option (Nat × Nat) :=
  ((st.stepRows step).find? fun r => (k.tower r.1).uncorrectable r.2.row).map fun r => (r.1, r.2.row)

/-- The causes of a step in the order of R413: a watchpoint unless WSKIP covers the step, TOWER_OFF, FORMAT_MISMATCH where
the caller found it, UNCORRECTABLE. -/
def Stream.stepCause (st : Stream) (k : Core) (step : Nat) (wskip mismatch : Bool) (badReg : Option BadAt) : Option StepCause :=
  match (if wskip then none else st.watchHit step) with
  | some w => some { code := cWatchpoint, info := w, wskip := true }
  | none =>
    if st.stepOff k step then some { code := cTowerOff }
    else if mismatch then some { code := cFormatMismatch }
    else
      match st.stepBad k step, badReg with
      | some b, _ => some { code := cUncorrectable, bad := some ⟨0, b.1, b.2, 0⟩ }
      | none, some b => some { code := cUncorrectable, bad := some b }
      | none, none => none

/-- The wakes that a step's reads need. -/
def Stream.stepNeeds (st : Stream) (k : Core) (step : Nat) : List PowerNeed :=
  ((st.stepRows step).map fun r => (k.tower r.1).needs r.1 r.2.row).flatten

/-- Serve a step's reads; `before` are the streams that read earlier in the same cycle. -/
def Stream.serveStep (st : Stream) (k : Core) (clk v : Nat) (before : List Stream) : Core :=
  (cellsOf st.form.sq).foldl (fun k c =>
    let seen := (before.map fun b => ((b.rowsIn c v).filter fun r => r.counted).map fun r => rowBank r.row).flatten
    k.serveRows clk c seen (st.rowsAt c st.done)) k

/-- Put a row away with the rows read. -/
def Stream.keepRow (st : Stream) (cell q : Nat) (r : Row) : Stream := { st with rows := set 0 (cell * 64 + q) r st.rows }

/-- Give a queued result its value: the entry of a register that a stream holds since its issue (R133, R143). -/
def Cell.fillLanding (x : Cell) (level due idx : Nat) (val bits : Row) : Cell :=
  { x with land := x.land.map fun e =>
      if e.level = level ∧ e.due = due ∧ e.idx = idx ∧ !e.isMask ∧ e.await then
        { e with val := val, bits := bits, await := false } else e }

/-- Give a queued tower write its value. -/
def Cell.fillWrite (x : Cell) (level due : Nat) (val bits : Row) (scales : List (Nat × Nat × Byte)) : Cell :=
  { x with writes := x.writes.map fun e =>
      if e.level = level ∧ e.due = due ∧ e.await then
        { e with val := val, bits := bits, scales := scales, await := false } else e }

/-! ### Express channels (R186, R187) -/

/-- Unit number to core and context of a launch (R30, R33). -/
def Launch.unitAt (l : Launch) (unit : Nat) : Option (Nat × Nat) :=
  let n := fieldN (nth 0 l.words 3) 16 2 + 1
  match l.cores[unit / n]? with
  | some c => some (c, unit % n)
  | none => none

/-- SYS.XCHn of a context (R186). -/
def Ctx.xchan (x : Ctx) (n : Nat) : Word := get 0 x.xch n

/-- Where a cell's send goes under a channel's word: core and cell; none is EXPRESS_CFG (R186). -/
def State.channelTo (s : State) (c : Nat) (w : Word) (cell : Nat) : Option (Nat × Nat) :=
  match s.launchOf c with
  | none => none
  | some (_, l) =>
    if !bit w 0 then none
    else
      match l.unitAt (fieldN w 40 9) with
      | none => none
      | some (dc, dk) =>
        let sq := fieldN w (32 + 2 * squadOf cell) 2
        if bit (s.ctxAt dc dk).sqm sq then some (dc, sq / 2 * 128 + cell / 16 % 8 * 16 + sq % 2 * 8 + cell % 8) else none

/-- Free entries of a cell's express receive buffer, entries on the way counted (R187). -/
def State.expressRoom (s : State) (c cell : Nat) : Nat :=
  4 - (((s.core c).cell cell).rx.length + (s.express.filter fun m => m.core == c && m.cell == cell).length)

/-- Whether every destination of the sends of one cycle has room. -/
def State.expressRoomFor (s : State) (dst : List (Nat × Nat)) : Bool :=
  dst.all fun d => decide ((dst.filter (· == d)).length ≤ s.expressRoom d.1 d.2)

/-- Send an entry into the network under a channel's word; it arrives in clock time. -/
def State.sendExpress (s : State) (c : Nat) (w : Word) (cell : Nat) (e : Express) : State :=
  match s.channelTo c w cell, (s.core c).launch with
  | some (dc, dcell), some l => { s with express := s.express ++ [⟨l, dc, dcell, c, cell, e⟩] }
  | _, _ => s

/-! ### Performing a step (R143, R179, R188, R189) -/

/-- What a step does: the core and the stream after it, its events, whether they end the stream's record, and the entries
that leave through the channel of RT. -/
structure StepOut where
  core : Core
  st : Stream
  evs : List CellEv := []
  sends : List (Nat × Express) := []

/-- A step's numeric events whose trap is enabled wait for the boundary after it (R124, R188). -/
def State.pendNumeric (s : State) (c k : Nat) (st : Stream) (evs : List CellEv) : State :=
  let kinds := kindsOf evs
  if kinds.any fun n => bit st.evtrap n then
    s.modCtxAt c k fun x => x.pending
      ⟨cNumericEvent, 3, some st.pc, BitVec.ofNat 64 ((kinds.map fun n => 2 ^ n).foldl (· + ·) 0), false, false⟩
  else s

/-- Perform the next step of a stream of context `k` of core `c`: the state, the stream and the step's events; `before` are
the streams that read earlier in the cycle. -/
def State.performStep (s : State) (c : Nat) (st : Stream) (before : List Stream) (step : Core → Stream → StepOut) :
    State × Stream × List CellEv :=
  let core := st.serveStep (s.core c) s.clock (st.start + st.done).toNat before
  let o := step core st
  (o.sends.foldl (fun s p => s.sendExpress c st.chan p.1 p.2) (s.setCore c o.core),
    { o.st with done := st.done + 1, left := st.left - 1, evs := st.evs ++ o.evs }, o.evs)

/-- A step in a cycle after the issue: its events may trap at the boundary after it; its record is appended when the cycle's
bundle has acted (R121, R189, R341). -/
def State.laterStep (s : State) (c k : Nat) (st : Stream) (before : List Stream) (step : Core → Stream → StepOut) :
    State × Stream :=
  let r := s.performStep c st before step
  (r.1.pendNumeric c k st r.2.2, r.2.1)

/-- Start a stream in the issue cycle: its first step is performed at once. Its events count with its bundle's
(R121, R124); alone, they are recorded at once. -/
def State.startStream (s : State) (st : Stream) (step : Core → Stream → StepOut) : State :=
  let r := s.performStep s.turn.core st (s.cx.streams.filter fun b => b.level == st.level) step
  let s := r.1
  if s.cx.issue.isSome then s.modCx fun x => { x with streams := x.streams ++ [r.2.1] }
  else
    let s := s.pendNumeric s.turn.core s.turn.ctx st r.2.2
    if r.2.1.left = 0 then
      (flushStream s.turn.core s.turn.ctx s r.2.1).modCx fun x => { x with streams := x.streams ++ [{ r.2.1 with evs := [] }] }
    else s.modCx fun x => { x with streams := x.streams ++ [r.2.1] }

/-- The streams of the running level that have taken their last step append their records (R189), in their order; `own` is
left for its bundle. A stream's EVFLAGS bits are set then, with its records (DESIGN CHOICE, log entry 70). -/
def State.flushDone (s : State) (c k : Nat) (own : Stream → Bool) : State :=
  let x := s.ctxAt c k
  let mine (st : Stream) : Bool := st.level == x.depth && st.left == 0 && !own st
  let s := (x.streams.filter mine).foldl (flushStream c k) s
  s.modCtxAt c k fun x => { x with streams := x.streams.map fun st => if mine st then { st with evs := [] } else st }

end Sys2Proof.Machine
end

