-- ==== Sys2Proof/Machine/Vector.lean ====
section
/-! DEFINITION. The cell's vector instructions, opcodes 0x01 to 0x40 (R130 to R168). -/

namespace Sys2Proof.Machine

/-! ### Shared shapes -/

/-- The mask registers read: the lane mask. -/
def lmRegs (f : CForm) : List Nat := if f.lm = 0 then [] else [f.lm.toNat]

/-- A cell's lane mask (R127). -/
def Cell.lane (x : Cell) (f : CForm) : BitVec 16 := x.mreg f.lm.toNat

/-- Whether every selected cell has an express entry where a source takes one (R187). -/
def Core.rxReady (k : Core) (f : CForm) (a b : BitVec 4) : Bool :=
  !(a == 7 || b == 7) || (cellsOf f.sq).all fun c => !(k.cell c).rx.isEmpty

/-- The rows that source selects read at issue. -/
def sourceReads (f : CForm) : List (Nat × RowRead) :=
  (selRows f.as_ f.ta ++ selRows f.bs f.tb).map fun r => (0, ⟨r, true⟩)

/-- What an element-wise instruction uses: one, two or three operands (`n`), a result after `lat` cycles. -/
def vecUse (k : Core) (f : CForm) (n lat : Nat) (toMask mismatch : Bool) : CellUse where
  form := f
  dests := fun _ => if toMask && f.d == 0 then [] else [(toMask, f.d.toNat, lat)]
  reads := fun _ => sourceReads f
  regs := selRegs f.as_ f.a 1 ++ (if 2 ≤ n then selRegs f.bs f.b 1 else []) ++ (if n = 3 then [f.cc.toNat] else [])
  masks := lmRegs f
  latch := takesLatch f.as_ || takesLatch f.bs
  entries := fun y => y.taken [f.as_, f.bs]
  express := k.rxReady f f.as_ f.bs
  mismatch := mismatch

/-- The events of the gated registers that an element-wise instruction reads (R139). COUNT adds up the elements of
each gated operand, of one that VSEL does not pick in a lane too (DESIGN CHOICE, log entry 85). -/
def Cell.gatedReads (x : Cell) (regs : List Nat) (w : Nat) (m : BitVec 16) : List EvItem :=
  (regs.map fun r => x.gatedRead r (lanesOf w m) (selectedElems w m).length).flatten

/-- An element-wise instruction with a vector result. -/
def vecV (i : Instr) (f : CForm) (n lat : Nat) (g : Option Fmt) (op : Fmt → Nat → Nat → Nat → Nat × Kinds) (s : State) :
    Meaning :=
  let u := vecUse s.cc f n lat false g.isNone
  let t := g.getD .fp32
  let w := t.width
  let x := s.cx
  let imm := immRow t f.im f.rm
  plainSlot i u (fun s => s.cellsDo u.cells fun k c =>
    let y := k.cell c
    let m := y.lane f
    let a := k.source c f.as_ f.a f.ta imm
    let b := k.source c f.bs f.b f.tb imm
    let d := y.vreg f.cc.toNat
    let r := mapLanes w m fun j => op t (elemN a w j) (elemN b w j) (elemN d w j)
    { lands := [x.toV f.d.toNat lat r.1 (laneBits w m)]
      evs := mergeItems (r.2 ++ y.gatedReads u.regs w m) }) s

/-- An element-wise comparison: one bit of m[D] for each selected lane; under 8-bit elements the AND of the pair (R148,
R156). -/
def vecM (i : Instr) (f : CForm) (g : Option Fmt) (op : Fmt → Nat → Nat → Bool × Kinds) (s : State) : Meaning :=
  let u := vecUse s.cc f 2 2 true g.isNone
  let t := g.getD .fp32
  let w := t.width
  let x := s.cx
  let imm := immRow t f.im f.rm
  plainSlot i u (fun s => s.cellsDo u.cells fun k c =>
    let y := k.cell c
    let m := y.lane f
    let a := k.source c f.as_ f.a f.ta imm
    let b := k.source c f.bs f.b f.tb imm
    let rs := (selectedElems w m).map fun j => (laneOf w j, op t (elemN a w j) (elemN b w j))
    let bits := lanesOf w m
    let val := laneUnion ((maskList bits).filter fun l => rs.all fun r => r.1 != l || r.2.1)
    { lands := [x.toM f.d.toNat 2 val bits]
      evs := mergeItems (gatherEvents (rs.map fun r => (r.1, r.2.2)) ++ y.gatedReads u.regs w m) }) s

/-- The tower rows among the sources of an instruction. -/
def towerSources (f : CForm) : List Nat :=
  (if f.as_ = 1 then [f.ta.toNat] else []) ++ (if f.bs = 1 then [f.tb.toNat] else [])

/-- What every tower source resolves to under FP1, where all agree (R119). -/
def State.resolveAll (s : State) (f : CForm) (code : Nat) : Option Nat :=
  match towerSources f with
  | [] => some code
  | r :: rs =>
    match s.cc.resolve (cellsOf f.sq) r code with
    | none => none
    | some g => if rs.all fun q => s.cc.resolve (cellsOf f.sq) q code == some g then some g else none

/-- The computing format of a floating-point instruction (R131). -/
def State.fpFmt (s : State) (f : CForm) : Option Fmt :=
  match s.resolveAll f f.fp1.toNat with
  | some g => if g ≤ 2 then Fmt.ofCode g else none
  | none => none

/-- The format of an integer or raw-moving instruction (R149, R154). -/
def State.plainFmt (s : State) (f : CForm) : Option Fmt := (s.resolveAll f f.fp1.toNat).bind Fmt.ofCode

/-- The rounding mode of a C slot (R54). -/
def cMode (f : CForm) : RMode := RMode.ofCode f.rm.toNat

/-- A floating-point instruction on values. -/
def fpV (i : Instr) (f : CForm) (n lat : Nat) (op : FloatSpec → FVal → FVal → FVal → Nat × Kinds) (s : State) : Meaning :=
  vecV i f n lat (s.fpFmt f) (fun g a b c => op g.spec (g.spec.decode a) (g.spec.decode b) (g.spec.decode c)) s

/-- An integer instruction: its result reduced to the element width (R154). -/
def intV (i : Instr) (f : CForm) (n lat : Nat) (op : Fmt → Nat → Nat → Nat → Nat) (s : State) : Meaning :=
  vecV i f n lat (s.plainFmt f) (fun g a b c => (op g a b c % 2 ^ g.width, noKind)) s

/-! ### Tower access (R141 to R143) -/

/-- TLD (R141). -/
def meanTld (f : CForm) (s : State) : Meaning :=
  let u : CellUse :=
    { form := f, dests := fun _ => [(false, f.d.toNat, 3)], reads := fun _ => [(0, ⟨f.ta.toNat, true⟩)], masks := lmRegs f }
  let x := s.cx
  plainSlot (.tld f) u (fun s => s.cellsDo u.cells fun k c =>
    { lands := [x.toV f.d.toNat 3 (k.towerRow c f.ta.toNat) (laneBits 16 ((k.cell c).lane f))] }) s
/-- Run TLD. -/
def execTld (f : CForm) (s : State) : Res := s.run (meanTld f s)

/-- TST (R142): the selected granules of the row. -/
def meanTst (f : CForm) (s : State) : Meaning :=
  let k := s.cc
  let u : CellUse :=
    { form := f, writes := fun _ => [(2, f.td.toNat)], regs := [f.a.toNat], masks := lmRegs f
      keeps := fun c => let m := (k.cell c).lane f; if m = 0 ∨ m = 0xFFFF then [] else [f.td.toNat] }
  let x := s.cx
  plainSlot (.tst f) u (fun s => s.cellsDo u.cells fun k c =>
    let y := k.cell c
    let m := y.lane f
    { writes := [x.toRow f.td.toNat 2 (y.vreg f.a.toNat) (laneBits 16 m) []]
      evs := y.gatedReads [f.a.toNat] 16 m }) s
/-- Run TST. -/
def execTst (f : CForm) (s : State) : Res := s.run (meanTst f s)

/-- A step of a TLDM: two rows are read, for the registers that have waited for them since its issue (R143). -/
def stepTldm (k : Core) (st : Stream) : StepOut :=
  { core := (cellsOf st.form.sq).foldl (fun q c =>
      let rows := (st.rowsAt c st.done).map fun r => r.row
      q.setCell c (rows.foldl (fun (y : Cell) r =>
        let n := r - st.form.ta.toNat
        y.fillLanding st.level (st.start + 3 + n / 2).toNat (st.form.d.toNat + n) (k.towerRow c r) (BitVec.allOnes 256)) (q.cell c))) k
    st := st }

/-- TLDM (R143). -/
def meanTldm (f : CForm) (s : State) : Meaning :=
  let n := f.cn.toNat
  let u : CellUse :=
    { form := f
      dests := fun _ => (List.range n).map fun i => (false, f.d.toNat + i, 3 + i / 2)
      reads := fun _ => (List.range n).map fun i => (i / 2, ⟨f.ta.toNat + i, true⟩) }
  let x := s.cx
  let st := newStream s .tldm f (ceilDiv n 2) 0 0 false []
  cellSlot (.tldm f) u (fun w => st.stepCause s.cc 0 (x.wskip || w) false none) (fun s =>
    if f.sq = 0 then s
    else
      let s := s.cellsDo u.cells fun _ _ =>
        { lands := (List.range n).map fun i => { x.toV (f.d.toNat + i) (3 + i / 2) 0 0 with await := true } }
      s.startStream st stepTldm) s
/-- Run TLDM. -/
def execTldm (f : CForm) (s : State) : Res := s.run (meanTldm f s)

/-! ### Floating point (R144 to R153) -/

/-- VADD (R145). -/
def meanVadd (f : CForm) (s : State) : Meaning := fpV (.vadd f) f 2 4 (fun q a b _ => addRound q (cMode f) a b) s
/-- Run VADD. -/
def execVadd (f : CForm) (s : State) : Res := s.run (meanVadd f s)

/-- VSUB (R145). -/
def meanVsub (f : CForm) (s : State) : Meaning :=
  fpV (.vsub f) f 2 4 (fun q a b _ => addRound q (cMode f) a (if b.isNan then b else b.negate)) s
/-- Run VSUB. -/
def execVsub (f : CForm) (s : State) : Res := s.run (meanVsub f s)

/-- VMUL (R145). -/
def meanVmul (f : CForm) (s : State) : Meaning := fpV (.vmul f) f 2 4 (fun q a b _ => mulRound q (cMode f) a b) s
/-- Run VMUL. -/
def execVmul (f : CForm) (s : State) : Res := s.run (meanVmul f s)

/-- VFMA (R145): a × b + c. -/
def meanVfma (f : CForm) (s : State) : Meaning := fpV (.vfma f) f 3 4 (fun q a b c => fmaRound q (cMode f) a b c) s
/-- Run VFMA. -/
def execVfma (f : CForm) (s : State) : Res := s.run (meanVfma f s)

/-- VFMS (R145): a × b - c. -/
def meanVfms (f : CForm) (s : State) : Meaning :=
  fpV (.vfms f) f 3 4 (fun q a b c => fmaRound q (cMode f) a b c.negate) s
/-- Run VFMS. -/
def execVfms (f : CForm) (s : State) : Res := s.run (meanVfms f s)

/-- VFNMA (R145): c - a × b. -/
def meanVfnma (f : CForm) (s : State) : Meaning :=
  fpV (.vfnma f) f 3 4 (fun q a b c => fmaRound q (cMode f) a.negate b c) s
/-- Run VFNMA. -/
def execVfnma (f : CForm) (s : State) : Res := s.run (meanVfnma f s)

/-- VMIN (R146). -/
def meanVmin (f : CForm) (s : State) : Meaning :=
  vecV (.vmin f) f 2 2 (s.fpFmt f) (fun g a b _ => minmax g.spec false a b) s
/-- Run VMIN. -/
def execVmin (f : CForm) (s : State) : Res := s.run (meanVmin f s)

/-- VMAX (R146). -/
def meanVmax (f : CForm) (s : State) : Meaning :=
  vecV (.vmax f) f 2 2 (s.fpFmt f) (fun g a b _ => minmax g.spec true a b) s
/-- Run VMAX. -/
def execVmax (f : CForm) (s : State) : Res := s.run (meanVmax f s)

/-- The magnitude bits of an element. -/
def magBits (g : Fmt) (x : Nat) : Nat := x % 2 ^ (g.width - 1)

/-- The sign bit of an element in its place. -/
def signBits (g : Fmt) (x : Nat) : Nat := x / 2 ^ (g.width - 1) % 2 * 2 ^ (g.width - 1)

/-- VABS (R147). -/
def meanVabs (f : CForm) (s : State) : Meaning := vecV (.vabs f) f 1 2 (s.fpFmt f) (fun g a _ _ => (magBits g a, noKind)) s
/-- Run VABS. -/
def execVabs (f : CForm) (s : State) : Res := s.run (meanVabs f s)

/-- VNEG (R147). -/
def meanVneg (f : CForm) (s : State) : Meaning :=
  vecV (.vneg f) f 1 2 (s.fpFmt f) (fun g a _ _ => (magBits g a + (2 ^ (g.width - 1) - signBits g a), noKind)) s
/-- Run VNEG. -/
def execVneg (f : CForm) (s : State) : Res := s.run (meanVneg f s)

/-- VCPS (R147): a with the sign of b. -/
def meanVcps (f : CForm) (s : State) : Meaning :=
  vecV (.vcps f) f 2 2 (s.fpFmt f) (fun g a b _ => (magBits g a + signBits g b, noKind)) s
/-- Run VCPS. -/
def execVcps (f : CForm) (s : State) : Res := s.run (meanVcps f s)

/-- The relations of VCMP by CO (R148). -/
def vcmpRel : Nat → FRel
  | 0 => .eq
  | 1 => .ne
  | 2 => .lt
  | 3 => .le
  | _ => .un

/-- VCMP (R148). -/
def meanVcmp (f : CForm) (s : State) : Meaning :=
  vecM (.vcmp f) f (s.fpFmt f) (fun g a b => (vcmpRel f.co.toNat).eval (g.spec.decode a) (g.spec.decode b)) s
/-- Run VCMP. -/
def execVcmp (f : CForm) (s : State) : Res := s.run (meanVcmp f s)

/-- VSEL (R149): a where the lane's bit of m[CC] is 1, else b. -/
def meanVsel (f : CForm) (s : State) : Meaning :=
  let g := s.plainFmt f
  let u := { vecUse s.cc f 2 2 false g.isNone with masks := lmRegs f ++ (if f.cc = 0 then [] else [f.cc.toNat]) }
  let t := g.getD .fp32
  let w := t.width
  let x := s.cx
  let imm := immRow t f.im f.rm
  plainSlot (.vsel f) u (fun s => s.cellsDo u.cells fun k c =>
    let y := k.cell c
    let m := y.lane f
    let pick := laneBits w (y.mreg f.cc.toNat)
    let a := k.source c f.as_ f.a f.ta imm
    let b := k.source c f.bs f.b f.tb imm
    { lands := [x.toV f.d.toNat 2 ((a &&& pick) ||| (b &&& ~~~pick)) (laneBits w m)]
      evs := mergeItems (y.gatedReads u.regs w m) }) s
/-- Run VSEL. -/
def execVsel (f : CForm) (s : State) : Res := s.run (meanVsel f s)

/-- VRND (R150). -/
def meanVrnd (f : CForm) (s : State) : Meaning :=
  vecV (.vrnd f) f 1 2 (s.fpFmt f) (fun g a _ _ => vrndElem g.spec (cMode f) a) s
/-- Run VRND. -/
def execVrnd (f : CForm) (s : State) : Res := s.run (meanVrnd f s)

/-- VEXF (R151). -/
def meanVexf (f : CForm) (s : State) : Meaning :=
  vecV (.vexf f) f 1 6 (s.fpFmt f) (fun g a _ _ => vexfElem g.spec (cMode f) a) s
/-- Run VEXF. -/
def execVexf (f : CForm) (s : State) : Res := s.run (meanVexf f s)

/-- VLGF (R151). -/
def meanVlgf (f : CForm) (s : State) : Meaning :=
  vecV (.vlgf f) f 1 6 (s.fpFmt f) (fun g a _ _ => vlgfElem g.spec (cMode f) a) s
/-- Run VLGF. -/
def execVlgf (f : CForm) (s : State) : Res := s.run (meanVlgf f s)

/-- VRCPF (R151). -/
def meanVrcpf (f : CForm) (s : State) : Meaning :=
  vecV (.vrcpf f) f 1 6 (s.fpFmt f) (fun g a _ _ => vrcpfElem g.spec (cMode f) a) s
/-- Run VRCPF. -/
def execVrcpf (f : CForm) (s : State) : Res := s.run (meanVrcpf f s)

/-- VRSQF (R151). -/
def meanVrsqf (f : CForm) (s : State) : Meaning :=
  vecV (.vrsqf f) f 1 6 (s.fpFmt f) (fun g a _ _ => vrsqfElem g.spec (cMode f) a) s
/-- Run VRSQF. -/
def execVrsqf (f : CForm) (s : State) : Res := s.run (meanVrsqf f s)

/-- VSCL (R152): a is the scale n, b the value y. -/
def meanVscl (f : CForm) (s : State) : Meaning :=
  vecV (.vscl f) f 2 3 (s.fpFmt f) (fun g a b _ => vsclElem g.spec (cMode f) a b) s
/-- Run VSCL. -/
def execVscl (f : CForm) (s : State) : Res := s.run (meanVscl f s)

/-! ### Integers (R154 to R156) -/

/-- VIADD (R155). -/
def meanViadd (f : CForm) (s : State) : Meaning := intV (.viadd f) f 2 2 (fun _ a b _ => a + b) s
/-- Run VIADD. -/
def execViadd (f : CForm) (s : State) : Res := s.run (meanViadd f s)

/-- VISUB (R155). -/
def meanVisub (f : CForm) (s : State) : Meaning := intV (.visub f) f 2 2 (fun g a b _ => a + (2 ^ g.width - b)) s
/-- Run VISUB. -/
def execVisub (f : CForm) (s : State) : Res := s.run (meanVisub f s)

/-- VIMUL (R155). -/
def meanVimul (f : CForm) (s : State) : Meaning := intV (.vimul f) f 2 4 (fun _ a b _ => a * b) s
/-- Run VIMUL. -/
def execVimul (f : CForm) (s : State) : Res := s.run (meanVimul f s)

/-- VIMAD (R155). -/
def meanVimad (f : CForm) (s : State) : Meaning := intV (.vimad f) f 3 4 (fun _ a b c => a * b + c) s
/-- Run VIMAD. -/
def execVimad (f : CForm) (s : State) : Res := s.run (meanVimad f s)

/-- VAND (R155). -/
def meanVand (f : CForm) (s : State) : Meaning := intV (.vand f) f 2 2 (fun _ a b _ => a &&& b) s
/-- Run VAND. -/
def execVand (f : CForm) (s : State) : Res := s.run (meanVand f s)

/-- VOR (R155). -/
def meanVor (f : CForm) (s : State) : Meaning := intV (.vor f) f 2 2 (fun _ a b _ => a ||| b) s
/-- Run VOR. -/
def execVor (f : CForm) (s : State) : Res := s.run (meanVor f s)

/-- VXOR (R155). -/
def meanVxor (f : CForm) (s : State) : Meaning := intV (.vxor f) f 2 2 (fun _ a b _ => a ^^^ b) s
/-- Run VXOR. -/
def execVxor (f : CForm) (s : State) : Res := s.run (meanVxor f s)

/-- VSHL (R155): the amount is the low bits of b's element. -/
def meanVshl (f : CForm) (s : State) : Meaning := intV (.vshl f) f 2 2 (fun g a b _ => a <<< (b % g.width)) s
/-- Run VSHL. -/
def execVshl (f : CForm) (s : State) : Res := s.run (meanVshl f s)

/-- VSHR (R155): zero-filled. -/
def meanVshr (f : CForm) (s : State) : Meaning := intV (.vshr f) f 2 2 (fun g a b _ => a >>> (b % g.width)) s
/-- Run VSHR. -/
def execVshr (f : CForm) (s : State) : Res := s.run (meanVshr f s)

/-- VSHRA (R155): filled with the top bit, for every format. -/
def meanVshra (f : CForm) (s : State) : Meaning :=
  intV (.vshra f) f 2 2 (fun g a b _ => ((BitVec.ofNat g.width a).sshiftRight (b % g.width)).toNat) s
/-- Run VSHRA. -/
def execVshra (f : CForm) (s : State) : Res := s.run (meanVshra f s)

/-- VIMIN (R155). -/
def meanVimin (f : CForm) (s : State) : Meaning :=
  intV (.vimin f) f 2 2 (fun g a b _ => if g.intValue b < g.intValue a then b else a) s
/-- Run VIMIN. -/
def execVimin (f : CForm) (s : State) : Res := s.run (meanVimin f s)

/-- VIMAX (R155). -/
def meanVimax (f : CForm) (s : State) : Meaning :=
  intV (.vimax f) f 2 2 (fun g a b _ => if g.intValue a < g.intValue b then b else a) s
/-- Run VIMAX. -/
def execVimax (f : CForm) (s : State) : Res := s.run (meanVimax f s)

/-- VICMP's relations by CO (R156). -/
def vicmpRel (g : Fmt) (co a b : Nat) : Bool :=
  match co with
  | 0 => a == b
  | 1 => a != b
  | 2 => decide (g.intValue a < g.intValue b)
  | 3 => decide (g.intValue a ≤ g.intValue b)
  | 4 => decide (a < b)
  | _ => decide (a ≤ b)

/-- VICMP (R156). -/
def meanVicmp (f : CForm) (s : State) : Meaning :=
  vecM (.vicmp f) f (s.plainFmt f) (fun g a b => (vicmpRel g f.co.toNat a b, noKind)) s
/-- Run VICMP. -/
def execVicmp (f : CForm) (s : State) : Res := s.run (meanVicmp f s)

/-! ### Conversions (R157 to R160) -/

/-- VCVT's source format (R158): one of the width of FP2. -/
def vcvtFmt (f : CForm) (s : State) : Option Fmt :=
  (s.plainFmt f).bind fun g => if plainWidth g.code = plainWidth f.fp2.toNat then some g else none

/-- VCVT (R158). -/
def meanVcvt (f : CForm) (s : State) : Meaning :=
  let dst := (Fmt.ofCode f.fp2.toNat).getD .fp32
  vecV (.vcvt f) f 1 3 (vcvtFmt f s) (fun g a _ _ => convert g dst (cMode f) a) s
/-- Run VCVT. -/
def execVcvt (f : CForm) (s : State) : Res := s.run (meanVcvt f s)

/-- VPACK's source registers or rows in order (R160). -/
def vpackSource (k : Core) (cell : Nat) (f : CForm) (n : Nat) : List Row :=
  if f.as_ = 8 then [k.towerRow cell f.ta.toNat, k.towerRow cell (f.ta.toNat + 1)]
  else (List.range n).map fun i => (k.cell cell).vreg (f.a.toNat + i)

/-- VPACK (R160): narrows by two or four. -/
def meanVpack (f : CForm) (s : State) : Meaning :=
  let src := (Fmt.ofCode f.fp1.toNat).getD .fp32
  let dst := (Fmt.ofCode f.fp2.toNat).getD .fp16
  let n := src.width / dst.width
  let es := elemsOf src.width
  let rows := selRows f.as_ f.ta
  let u : CellUse :=
    { form := f, dests := fun _ => [(false, f.d.toNat, 3)], reads := fun _ => rows.map fun r => (0, ⟨r, true⟩)
      regs := selRegs f.as_ f.a n, masks := lmRegs f
      mismatch := rows.any fun r => (s.cc.resolve (cellsOf f.sq) r f.fp1.toNat).isNone }
  let x := s.cx
  plainSlot (.vpack f) u (fun s => s.cellsDo u.cells fun k c =>
    let y := k.cell c
    let m := y.lane f
    let srcs := vpackSource k c f n
    let r := mapLanes dst.width m fun i => convert src dst (cMode f) (elemN (nth 0 srcs (i / es)) src.width (i % es))
    let gated := (List.range n).map fun q =>
      let sel := (selectedElems dst.width m).filter fun i => i / es == q
      if f.as_ = 0 then y.gatedRead (f.a.toNat + q) (laneUnion (sel.map (laneOf dst.width))) sel.length else []
    { lands := [x.toV f.d.toNat 3 r.1 (laneBits dst.width m)], evs := mergeItems (r.2 ++ gated.flatten) }) s
/-- Run VPACK. -/
def execVpack (f : CForm) (s : State) : Res := s.run (meanVpack f s)

/-- VUNPK's source format (R119, R159, R207): FORMAT_MISMATCH where the row's region has another format or is LQ8
(DEDUCED, log entry 23). -/
def vunpkFmt (f : CForm) (s : State) : Option Fmt :=
  (s.resolveAll f f.fp1.toNat).bind fun g => if g = 11 then none else Fmt.ofCode g

/-- One widened element: a plain one, or an MX element under its block's scale (R106, R157). -/
def vunpkElem (k : Core) (cell row : Nat) (src dst : Fmt) (mode : RMode) (raw : Row) (i : Nat) : Nat × Kinds :=
  let code := elemN raw src.width i
  if src.isBlock then toFloatFmt dst.spec mode (mxValue src (k.scaleByte cell row (i / 32)) code) else convert src dst mode code

/-- VUNPK (R159): widens by two, four or eight into that many registers. With FP1 = 12 over rows that resolve to no one
format, the checks that come before FORMAT_MISMATCH take the destinations of a 16-bit source, and TOWER_OFF a plain
source's row (DESIGN CHOICE, log entry 86). -/
def meanVunpk (f : CForm) (s : State) : Meaning :=
  let g := vunpkFmt f s
  let src := (if f.fp1 = 12 then g else Fmt.ofCode f.fp1.toNat).getD .fp16
  let dst := (Fmt.ofCode f.fp2.toNat).getD .fp32
  let n := unpackRatio src dst
  let ed := elemsOf dst.width
  let k := s.cc
  let rows := selRows f.as_ f.ta
  let u : CellUse :=
    { form := f
      dests := fun _ => (List.range n).map fun q => (false, f.d.toNat + q, 3)
      reads := fun c => rows.map (fun r => (0, ⟨r, true⟩)) ++
        (if src.isBlock then (rows.map (k.cell c).scaleRows).flatten.map fun r => (0, ⟨r, false⟩) else [])
      regs := selRegs f.as_ f.a 1, masks := lmRegs f, latch := takesLatch f.as_
      entries := fun y => y.taken [f.as_], express := k.rxReady f f.as_ 0
      illegal := f.fp1 == 12 && f.sq != 0 && g.isSome && !unpackDest n f.d
      mismatch := g.isNone }
  let x := s.cx
  plainSlot (.vunpk f) u (fun s => s.cellsDo u.cells fun k c =>
    let y := k.cell c
    let m := y.lane f
    let raw := k.source c f.as_ f.a f.ta 0
    let rs := (List.range n).map fun q =>
      mapLanes dst.width m fun j => vunpkElem k c f.ta.toNat src dst (cMode f) raw (q * ed + j)
    let gated := if f.as_ = 0 then y.gatedRead f.a.toNat (lanesOf dst.width m) (n * (selectedElems dst.width m).length) else []
    { lands := (indexed 0 rs).map fun r => x.toV (f.d.toNat + r.1) 3 r.2.1 (laneBits dst.width m)
      evs := mergeItems ((rs.map fun r => r.2).flatten ++ gated) }) s
/-- Run VUNPK. -/
def execVunpk (f : CForm) (s : State) : Res := s.run (meanVunpk f s)

/-! ### Permutation (R161, R162) -/

/-- The element width that a moving instruction's FP1 sets. -/
def moveWidth (f : CForm) : Nat := plainWidth f.fp1.toNat

/-- VPERM (R161). -/
def meanVperm (f : CForm) (s : State) : Meaning :=
  let w := moveWidth f
  let u : CellUse :=
    { form := f, dests := fun _ => [(false, f.d.toNat, 2)], regs := [f.a.toNat, f.b.toNat], masks := lmRegs f }
  let x := s.cx
  plainSlot (.vperm f) u (fun s => s.cellsDo u.cells fun k c =>
    let y := k.cell c
    let m := y.lane f
    let a := y.vreg f.a.toNat
    let b := y.vreg f.b.toNat
    let r := mapLanes w m fun j => (elemN a w (elemN b w j % elemsOf w), noKind)
    { lands := [x.toV f.d.toNat 2 r.1 (laneBits w m)], evs := mergeItems (y.gatedReads u.regs w m) }) s
/-- Run VPERM. -/
def execVperm (f : CForm) (s : State) : Res := s.run (meanVperm f s)

/-- VBCAST (R162): one lane of v[A] in every selected lane. -/
def meanVbcast (f : CForm) (s : State) : Meaning :=
  let w := moveWidth f
  let lw := if w = 32 then 32 else 16
  let u : CellUse := { form := f, dests := fun _ => [(false, f.d.toNat, 2)], regs := [f.a.toNat], masks := lmRegs f }
  let x := s.cx
  plainSlot (.vbcast f) u (fun s => s.cellsDo u.cells fun k c =>
    let y := k.cell c
    let m := y.lane f
    let v := elemN (y.vreg f.a.toNat) lw f.im.toNat
    { lands := [x.toV f.d.toNat 2 (joinElems 256 lw (List.replicate (elemsOf lw) v)) (laneBits w m)]
      evs := mergeItems (y.gatedReads u.regs w m) }) s
/-- Run VBCAST. -/
def execVbcast (f : CForm) (s : State) : Res := s.run (meanVbcast f s)

/-! ### Reductions (R163 to R165) -/

/-- One level of the pairwise tree: an absent side passes the other up; each node's events are kept. -/
def treeLevel {α : Type} (node : α → α → α × Kinds) : List (Option α) → List (Option α) × List Kinds
  | some p :: some q :: xs =>
    let r := treeLevel node xs
    let n := node p q
    (some n.1 :: r.1, n.2 :: r.2)
  | some p :: none :: xs => let r := treeLevel node xs; (some p :: r.1, r.2)
  | none :: q :: xs => let r := treeLevel node xs; (q :: r.1, r.2)
  | [x] => ([x], [])
  | [] => ([], [])

/-- The pairwise tree of R163 in `n` levels: its root and the events of its nodes. -/
def treeFold {α : Type} (node : α → α → α × Kinds) : Nat → List (Option α) → Option α × List Kinds
  | 0, xs => (xs.head?.join, [])
  | n + 1, xs =>
    let l := treeLevel node xs
    let r := treeFold node n l.1
    (r.1, l.2 ++ r.2)

/-- VRSUM on the elements of a register: the bits written and the events of nodes and root (R163, R165). -/
def vrsumRow (g : Fmt) (mode : RMode) (xs : List (Option Nat)) : Nat × List Kinds :=
  if g.isInt then
    let t := treeFold (fun (p q : Int) => (p + q, noKind)) 5 (xs.map fun x => x.map g.intValue)
    let v := t.1.getD 0
    ((v % (2 ^ 32 : Nat)).toNat, [if v < -2147483648 ∨ 2147483647 < v then kWrap else noKind])
  else
    let node (p q : FVal) : FVal × Kinds :=
      let r := addRound Fmt.fp32.spec mode p q
      (Fmt.fp32.spec.decode r.1, r.2)
    let t := treeFold node 5 (xs.map fun x => x.map g.spec.decode)
    match t.1 with
    | none => (0, [])
    | some v => let r := toFloatFmt g.spec mode v; (r.1, t.2 ++ [r.2])

/-- VRMAX on the elements of a register (R164, R165). -/
def vrmaxRow (g : Fmt) (xs : List (Option Nat)) : Nat × List Kinds :=
  if g.isInt then
    let t := treeFold (fun (p q : Int) => (if p < q then q else p, noKind)) 5 (xs.map fun x => x.map g.intValue)
    (((t.1.getD g.intRange.1) % (2 ^ 32 : Nat)).toNat, [])
  else
    let t := treeFold (fun (p q : Nat) => minmax g.spec true p q) 5 xs
    match t.1 with
    | none => (g.spec.signed true g.spec.infCode, [])
    | some c =>
      match g.spec.decode c with
      | .nan n q p b => (g.spec.nanResult n p b, t.2 ++ [if q then noKind else kInvalid])
      | _ => (c, t.2)

/-- A reduction: element 0 of v[D] written, the rest zeroed; the mask selects inputs (R165). The record of a gated read names the
lanes read (DESIGN CHOICE, log entry 73). -/
def reduceSlot (i : Instr) (f : CForm) (lat : Nat) (op : Fmt → List (Option Nat) → Nat × List Kinds) (s : State) : Meaning :=
  let g := (Fmt.ofCode f.fp1.toNat).getD .fp32
  let w := g.width
  let u : CellUse := { form := f, dests := fun _ => [(false, f.d.toNat, lat)], regs := [f.a.toNat], masks := lmRegs f }
  let x := s.cx
  plainSlot i u (fun s => s.cellsDo u.cells fun k c =>
    let y := k.cell c
    let m := y.lane f
    let a := y.vreg f.a.toNat
    let r := op g ((List.range (elemsOf w)).map fun j => if bit m (laneOf w j) then some (elemN a w j) else none)
    { lands := [x.toV f.d.toNat lat (BitVec.ofNat 256 r.1) (BitVec.allOnes 256)]
      evs := mergeItems (gatherEvents (r.2.map fun e => (0, e)) ++ y.gatedReads u.regs w m) }) s

/-- VRSUM (R163). -/
def meanVrsum (f : CForm) (s : State) : Meaning := reduceSlot (.vrsum f) f 6 (fun g xs => vrsumRow g (cMode f) xs) s
/-- Run VRSUM. -/
def execVrsum (f : CForm) (s : State) : Res := s.run (meanVrsum f s)

/-- VRMAX (R164). -/
def meanVrmax (f : CForm) (s : State) : Meaning := reduceSlot (.vrmax f) f 4 vrmaxRow s
/-- Run VRMAX. -/
def execVrmax (f : CForm) (s : State) : Res := s.run (meanVrmax f s)

/-! ### Structured sparsity (R166) -/

/-- The rank of an element: magnitude, every NaN equal and above every number (R166). -/
def sparRank (g : Fmt) (x : Nat) : Nat :=
  if g.isInt then (g.intValue x).natAbs else if (g.spec.decode x).isNan then 2 ^ g.width else magBits g x

/-- The index of the greatest rank, the lower index first among equals, leaving out one index. -/
def sparBest (ranks : List Nat) (skip : Option Nat) : Nat :=
  let c := ((List.range 4).filter fun i => skip != some i)
  c.foldl (fun b i => if nth 0 ranks b < nth 0 ranks i then i else b) (c.headD 0)

/-- The two indices kept of a group of four, in rising order (R166). -/
def sparKeep (g : Fmt) (xs : List Nat) : Nat × Nat :=
  let ranks := xs.map (sparRank g)
  let a := sparBest ranks none
  let b := sparBest ranks (some a)
  (min a b, max a b)

/-- VSPAR (R166). -/
def meanVspar (f : CForm) (s : State) : Meaning :=
  let g := (Fmt.ofCode f.fp1.toNat).getD .fp32
  let w := g.width
  let u : CellUse :=
    { form := f, dests := fun _ => [(false, f.d.toNat, 3), (false, f.d.toNat + 1, 3)], regs := [f.a.toNat], masks := lmRegs f }
  let x := s.cx
  plainSlot (.vspar f) u (fun s => s.cellsDo u.cells fun k c =>
    let y := k.cell c
    let m := y.lane f
    let a := y.vreg f.a.toNat
    let groups := (List.range (elemsOf w / 4)).map fun q =>
      let xs := (List.range 4).map fun i => if bit m (laneOf w (4 * q + i)) then elemN a w (4 * q + i) else 0
      (xs, sparKeep g xs)
    let vals := (groups.map fun p => [nth 0 p.1 p.2.1, nth 0 p.1 p.2.2]).flatten
    let idx := groups.map fun p => p.2.1 + 4 * p.2.2
    { lands := [x.toV f.d.toNat 3 (joinElems 256 w vals) (BitVec.allOnes 256),
                x.toV (f.d.toNat + 1) 3 (joinElems 256 4 idx) (BitVec.allOnes 256)]
      evs := mergeItems (y.gatedReads u.regs w m) }) s
/-- Run VSPAR. -/
def execVspar (f : CForm) (s : State) : Res := s.run (meanVspar f s)

/-! ### Masks (R167, R168) -/

/-- A mask instruction with a mask result. -/
def maskSlot (i : Instr) (f : CForm) (n : Nat) (op : BitVec 16 → BitVec 16 → BitVec 16) (s : State) : Meaning :=
  let u : CellUse :=
    { form := f, dests := fun _ => if f.d = 0 then [] else [(true, f.d.toNat, 1)]
      masks := ([f.a.toNat] ++ if n = 2 then [f.b.toNat] else []).filter (· != 0) }
  let x := s.cx
  plainSlot i u (fun s => s.cellsDo u.cells fun k c =>
    let y := k.cell c
    { lands := [x.toM f.d.toNat 1 (op (y.mreg f.a.toNat) (y.mreg f.b.toNat)) 0xFFFF] }) s

/-- KAND (R167). -/
def meanKand (f : CForm) (s : State) : Meaning := maskSlot (.kand f) f 2 (fun a b => a &&& b) s
/-- Run KAND. -/
def execKand (f : CForm) (s : State) : Res := s.run (meanKand f s)

/-- KOR (R167). -/
def meanKor (f : CForm) (s : State) : Meaning := maskSlot (.kor f) f 2 (fun a b => a ||| b) s
/-- Run KOR. -/
def execKor (f : CForm) (s : State) : Res := s.run (meanKor f s)

/-- KNOT (R167). -/
def meanKnot (f : CForm) (s : State) : Meaning := maskSlot (.knot f) f 1 (fun a _ => ~~~a) s
/-- Run KNOT. -/
def execKnot (f : CForm) (s : State) : Res := s.run (meanKnot f s)

/-- KMOV (R167). -/
def meanKmov (f : CForm) (s : State) : Meaning := maskSlot (.kmov f) f 1 (fun a _ => a) s
/-- Run KMOV. -/
def execKmov (f : CForm) (s : State) : Res := s.run (meanKmov f s)

/-- KPOP (R168). -/
def meanKpop (f : CForm) (s : State) : Meaning :=
  let u : CellUse :=
    { form := f, dests := fun _ => [(false, f.d.toNat, 2)], masks := [f.a.toNat].filter (· != 0) }
  let x := s.cx
  plainSlot (.kpop f) u (fun s => s.cellsDo u.cells fun k c =>
    { lands := [x.toV f.d.toNat 2 (BitVec.ofNat 256 (popCount ((k.cell c).mreg f.a.toNat))) (BitVec.allOnes 256)] }) s
/-- Run KPOP. -/
def execKpop (f : CForm) (s : State) : Res := s.run (meanKpop f s)

end Sys2Proof.Machine
end

