-- ==== Sys2Proof/Machine/Matrix.lean ====
section
/-! DEFINITION. Accumulators, matrix streams, the instructions that fill, read, patch and drain accumulators, and those that
move registers between cells (R170 to R201). -/

namespace Sys2Proof.Machine

/-! ### Accumulators (R170, R171, R419) -/

/-- Accumulator `a` of a cell. -/
def Cell.acc (x : Cell) (a : Nat) : Acc := if a = 0 then x.a0 else x.a1

/-- An element of an accumulator: row `i`, column `j` at 32 i + j. -/
def Acc.at_ (a : Acc) (n : Nat) : BitVec 32 := get 0 a.el n

/-- Elements given by a function of their number, in canonical form. -/
def accOf (tag : AccTag) (g : Nat → BitVec 32) : Acc :=
  { tag := tag, el := ((List.range 512).map fun n => (n, g n)).filter fun p => p.2 != 0 }

/-- An update of an accumulator performed in a cycle: what stood before is kept for the reads that may not see it yet, and
a handler's update shows in what the frozen schedule still sees (R171, R419). -/
def Cell.updateAcc (x : Cell) (a level : Nat) (cycle : Int) (g : Acc → Acc) : Cell :=
  let old := x.acc a
  let past := (x.past.map fun p => if p.which = a ∧ p.level < level then { p with before := g p.before } else p) ++
    [⟨a, level, cycle, old⟩]
  if a = 0 then { x with a0 := g old, past := past } else { x with a1 := g old, past := past }

/-- The accumulator as an MREAD or MDRAIN of a level sees it at cycle `u`: without the level's updates after u - 3. -/
def Cell.accView (x : Cell) (a level u : Nat) : Acc :=
  match x.past.find? fun p => p.which == a && p.level == level && decide ((u : Int) < p.cycle + 3) with
  | some p => p.before
  | none => x.acc a

/-! ### Fragment values (R105, R106, R111, R173, R207) -/

/-- Element count of a fragment of `rows` rows. -/
def fragElems (g : Fmt) (rows : Nat) : Nat := if g = .lq8 then 128 * rows else rows * 256 / g.width

/-- The values of a fragment's elements; BF16 subnormals enter as zeros of their sign (R111). -/
def fragValues (g : Fmt) (rows : Nat) (v : FragVal) : List FVal :=
  match g with
  | .lq8 =>
    ((List.range (16 * rows)).map fun c =>
      (lqDecode (elem v.bits 16 c)).map fun h => lqValue (nth 0 v.scales (c / 8)) h).flatten
  | .bf16 =>
    (List.range (16 * rows)).map fun e =>
      let code := elemN v.bits 16 e
      if code / 128 % 256 = 0 then .fin (decide (32768 ≤ code)) 0 0 else Fmt.bf16.spec.decode code
  | _ =>
    (List.range (fragElems g rows)).map fun e =>
      let code := elemN v.bits g.width e
      if g.isBlock then mxValue g (nth 0 v.scales (e / 32)) code else g.value code

/-- The values of an integer fragment. -/
def fragInts (g : Fmt) (rows : Nat) (v : FragVal) : List Int :=
  (List.range (fragElems g rows)).map fun e => g.intValue (elemN v.bits g.width e)

/-! ### The step (R175 to R177) -/

/-- |a - b| exactly, none for a difference of equal infinities (CO = 1); no operand is a NaN. -/
def FVal.absDiff : FVal → FVal → Option FVal
  | .inf n, .inf n' => if n = n' then none else some (.inf false)
  | .inf _, _ => some (.inf false)
  | _, .inf _ => some (.inf false)
  | a, b => let d := (a.dy.sub b.dy).abs; some (.fin false d.m.natAbs d.e)

/-- Two infinities of opposite sign. -/
def FVal.opposes : FVal → FVal → Bool
  | .inf n, .inf n' => n != n'
  | _, _ => false

/-- One element of a floating-point step: the terms of unmasked positions as pairs (R175); under CO = 2 the sum is of the
terms alone, and `x` takes part in the rule of opposite infinities (DEDUCED, log entry 25). -/
def fpStep (co : Nat) (x : BitVec 32) (ps : List (FVal × FVal)) : BitVec 32 × Kinds :=
  let q := Fmt.fp32.spec
  let v := q.decode x.toNat
  let ret (r : Nat × Kinds) : BitVec 32 × Kinds := (BitVec.ofNat 32 r.1, r.2)
  if ps.isEmpty then (x, noKind)
  else
    match nanOf q (v :: (ps.map fun p => [p.1, p.2]).flatten) with
    | some r => ret r
    | none =>
      match allSome (ps.map fun p => if co = 1 then p.1.absDiff p.2 else p.1.times p.2) with
      | none => ret (invalidNan q)
      | some ts =>
        if co = 2 then
          if ts.any v.opposes then ret (invalidNan q)
          else
          let y := sumRound q .rne ts
          let w := q.decode y.1
          if w.isNan || v.below w then ret y else (x, y.2)
        else ret (sumRound q .rne (v :: ts))

/-- One element of an integer step (R176). -/
def intStep (co : Nat) (x : BitVec 32) (ps : List (Int × Int)) : BitVec 32 × Kinds :=
  if ps.isEmpty then (x, noKind)
  else
    let t := (ps.map fun p => if co = 1 then ((p.1 - p.2).natAbs : Int) else p.1 * p.2).foldl (· + ·) 0
    if co = 2 then (if x.toInt < t then BitVec.ofInt 32 t else x, noKind)
    else
      let v := x.toInt + t
      (BitVec.ofInt 32 v, if v < -2147483648 ∨ 2147483647 < v then kWrap else noKind)

/-- The accumulator after a step, and each element's events (R175, R177): `lim` unmasked positions. -/
def stepAcc (p : MmaPair) (ga gb : Fmt) (co lim : Nat) (a b : FragVal) (old : Acc) : Acc × List EvItem :=
  let tag : AccTag := if p.int then .int else .fp
  if lim = 0 then (old, [])
  else
    let ai := if p.int then fragInts ga p.aw a else []
    let bi := if p.int then fragInts gb p.bw b else []
    let af := if p.int then [] else fragValues ga p.aw a
    let bf := if p.int then [] else fragValues gb p.bw b
    let zero : FVal := .fin false 0 0
    let cell (n : Nat) : BitVec 32 × Kinds :=
      let i := n / 32 * p.k
      let j := n % 32
      if p.int then intStep co (old.at_ n) ((List.range lim).map fun l => (nth 0 ai (i + l), nth 0 bi (l * 32 + j)))
      else fpStep co (old.at_ n) ((List.range lim).map fun l => (nth zero af (i + l), nth zero bf (l * 32 + j)))
    let rs := (List.range 512).map fun n => (n, cell n)
    ({ tag := tag, el := (rs.map fun r => (r.1, r.2.1)).filter fun r => r.2 != 0 },
      gatherEvents (rs.map fun r => (columnLane (r.1 % 32), r.2.2)))

/-! ### Taking fragments (R174, R178, R181, R185, R187) -/

/-- Format code of a side. -/
def Stream.sideFmt (st : Stream) (isB : Bool) : Nat := if isB then st.fb else st.fa

/-- Source select of a side. -/
def Stream.sideSel (st : Stream) (isB : Bool) : BitVec 4 := if isB then st.form.bs else st.form.as_

/-- Halves of a row whose block scales a fragment brings (R173). -/
def blockHalves (code : Nat) : List Nat := if code = 6 then [0] else if code = 5 ∨ code = 11 then [0, 1] else []

/-- A fragment read from the tower with its block scales. -/
def Stream.towerFrag (st : Stream) (k : Core) (cell : Nat) (isB : Bool) (num row : Nat) : FragVal :=
  let rows := (List.range (st.fragRows isB)).map fun q => row + q
  { bits := joinElems 512 256 (rows.map fun r => (k.towerRow cell r).toNat)
    fmt := st.sideFmt isB
    scales := (rows.map fun r => (blockHalves (st.sideFmt isB)).map fun h => k.scaleUnder (st.regions cell) cell r h).flatten
    num := num }

/-- An entry of the receive buffer that a side takes: B takes the second where A takes the first. -/
def Stream.rxIndex (st : Stream) (isB : Bool) : Nat := if isB && st.form.as_ == 7 then 1 else 0

/-- The low rows of a fragment, as wide as the side needs. -/
def Stream.cut (st : Stream) (isB : Bool) (v : FragVal) : FragVal :=
  if st.fragRows isB = 1 then { v with bits := (v.bits.setWidth 256).setWidth 512, bad := v.bad.filter fun w => decide (w < 8) } else v

/-- The fragment of one side at a step; none where the source has none. An XSND entry carries no format and is used in the
side's (R184, R187). -/
def Stream.take (st : Stream) (k : Core) (cell : Nat) (isB : Bool) (step : Nat) : Option FragVal :=
  let sel := (st.sideSel isB).toNat
  if sel = 0 ∨ sel = 6 then
    some { bits := get 0 st.cap (2 * cell + if isB then 1 else 0), fmt := st.sideFmt isB, num := step }
  else
    match st.sideFrag isB cell step with
    | some (f, row) => some (st.towerFrag k cell isB f row)
    | none =>
      if st.injects isB cell then none
      else if sel = 7 then ((k.cell cell).rx[st.rxIndex isB]?).map fun e =>
        st.cut isB (if e.forwarded then e.val else { e.val with fmt := st.sideFmt isB })
      else
        let l := get {} (k.cell cell).latch (sel - 2)
        if l.valid then some (st.cut isB l.val) else none

/-- Both fragments of a cell's step, or a bubble (R179). -/
def Stream.takeBoth (st : Stream) (k : Core) (step cell : Nat) : Option (FragVal × FragVal) :=
  (st.take k cell false step).bind fun a => (st.take k cell true step).map fun b => (a, b)

/-- A latch or express fragment that a step may not take (R181, R187). -/
def Stream.badFrag (st : Stream) (k : Core) (cell : Nat) (isB : Bool) (v : FragVal) : Bool :=
  let sel := (st.sideSel isB).toNat
  let code := st.sideFmt isB
  if sel = 7 then
    match (k.cell cell).rx[st.rxIndex isB]? with
    | some e => if e.forwarded then v.fmt != code else code == 5 || code == 6 || code == 11
    | none => false
  else 2 ≤ sel && sel ≤ 5 && !st.injects isB cell && v.fmt != code

/-- FORMAT_MISMATCH at the boundary before a step. -/
def Stream.stepMismatch (st : Stream) (k : Core) (step : Nat) : Bool :=
  (cellsOf st.form.sq).any fun c =>
    match st.takeBoth k step c with
    | some (a, b) => st.badFrag k c false a || st.badFrag k c true b
    | none => false

/-- Whether every express entry that a step needs is there: a cell needs one where its other source is available (R187). -/
def Stream.expressReady (st : Stream) (k : Core) (step : Nat) : Bool :=
  (cellsOf st.form.sq).all fun c =>
    let need (isB : Bool) : Bool :=
      st.sideSel isB != 7 || (st.take k c isB step).isSome ||
        (st.sideSel (!isB) != 7 && (st.take k c (!isB) step).isNone)
    need false && need true

/-- The hop of one side's fragment from a cell, where RT forwards it (R183). -/
def Stream.forward (st : Stream) (isB : Bool) (cell : Nat) : Hop :=
  if bit st.form.rt (if isB then 6 else 7) then
    hop st.geom st.held (fieldN st.form.rt 4 2) (if isB then .s else .e) cell
  else .dropped

/-- The cells that send through the channel at a step, once for each fragment. -/
def Stream.channelSends (st : Stream) (k : Core) (step : Nat) : List Nat :=
  ((cellsOf st.form.sq).map fun c =>
    if (st.takeBoth k step c).isSome then
      (if st.forward false c = .channel then [c] else []) ++ (if st.forward true c = .channel then [c] else [])
    else []).flatten

/-- The destinations of the sends of a step. -/
def State.mmaSends (s : State) (c : Nat) (st : Stream) (step : Nat) : List (Nat × Nat) :=
  (st.channelSends (s.core c) step).filterMap fun cell => s.channelTo c st.chan cell

/-- Whether the MMA steps of one cycle have what they need of the express network: entries, and room for the sends of all of
them (R187). -/
def State.mmasReady (s : State) (c : Nat) (steps : List (Stream × Nat)) : Bool :=
  steps.all (fun p => p.1.expressReady (s.core c) p.2) &&
    s.expressRoomFor (steps.map fun p => s.mmaSends c p.1 p.2).flatten

/-- Whether a step of an MMA has what it needs of the express network. -/
def State.mmaReady (s : State) (c : Nat) (st : Stream) (step : Nat) : Bool := s.mmasReady c [(st, step)]

/-! ### MMA (R172 to R190) -/

/-- The sources that a step used: a latch is no longer valid, express entries go (R181, R187). -/
def Stream.consumeSources (st : Stream) (cell : Nat) (x : Cell) : Cell :=
  let one (isB : Bool) (x : Cell) : Cell :=
    let sel := (st.sideSel isB).toNat
    if sel = 7 then { x with rx := x.rx.drop 1 }
    else if 2 ≤ sel ∧ sel ≤ 5 ∧ !st.injects isB cell then
      { x with latch := set {} (sel - 2) { get {} x.latch (sel - 2) with valid := false } x.latch }
    else x
  one true (one false x)

/-- Unmasked positions of a step by its A fragment's number (R177). -/
def Stream.limit (st : Stream) (num : Nat) : Nat := min st.pair.k (st.kx - num * st.pair.k)

/-- A step of a matrix stream (R179): every cell takes its fragments from the core as it stands, updates, and forwards. -/
def stepMma (k : Core) (st : Stream) : StepOut :=
  let vt := (st.start + st.done).toNat
  let ga := (Fmt.ofCode st.fa).getD .bf16
  let gb := (Fmt.ofCode st.fb).getD .bf16
  let a := st.form.d.toNat % 2
  let takes := (cellsOf st.form.sq).filterMap fun c => (st.takeBoth k st.done c).map fun p => (c, p)
  let rs := takes.map fun t =>
    (t, stepAcc st.pair ga gb st.form.co.toNat (st.limit t.2.1.num) t.2.1 t.2.2 ((k.cell t.1).acc a))
  let k := rs.foldl (fun k r =>
    let x := st.consumeSources r.1.1 (k.cell r.1.1)
    k.setCell r.1.1 (if st.limit r.1.2.1.num = 0 then x else x.updateAcc a st.level vt fun _ => r.2.1)) k
  let moves := (takes.map fun t => [(t.1, false, t.2.1), (t.1, true, t.2.2)]).flatten
  let k := moves.foldl (fun k m =>
    match st.forward m.2.1 m.1 with
    | .inside c d =>
      let x := k.cell c
      k.setCell c { x with frags := x.frags ++ [⟨st.level, vt + d, if m.2.1 then 0 else 3, m.2.2⟩] }
    | _ => k) k
  { core := k, st := st
    evs := (rs.map fun r => cellEvents r.1.1 r.2.2).flatten
    sends := moves.filterMap fun m =>
      if st.forward m.2.1 m.1 = .channel then some (m.1, ⟨fieldN st.form.rt 0 4, true, m.2.2⟩) else none }

/-- The format code of a side: code 12 is that of the first row it reads (R172). -/
def State.mmaCode (s : State) (f : CForm) (isB : Bool) : Option Nat :=
  let code := (if isB then f.fp2 else f.fp1).toNat
  if code = 12 then s.cc.resolve (cellsOf f.sq) (if isB then f.tb else f.ta).toNat 12 else some code

/-- The dense fragment of a compressed register pair (R178) (DEDUCED, log entry 25). -/
def expandSparse (w : Nat) (vals idx : Row) : Frag :=
  let e := 256 / w
  let pos (g : Nat) (hi : Bool) : Nat := 4 * g + fieldN idx (4 * g + if hi then 2 else 0) 2
  joinElems 512 w ((List.range e).map fun d =>
    let g := d / 4
    if pos g true = d then elemN vals w (2 * g + 1) else if pos g false = d then elemN vals w (2 * g) else 0)

/-- The register or immediate fragment of a side, captured at issue (R174, R429). -/
def Stream.capture (st : Stream) (k : Core) (cell : Nat) (isB : Bool) : Frag :=
  let f := st.form
  let x := k.cell cell
  let reg := (if isB then f.b else f.a).toNat
  let w := st.fragRows isB
  if st.sideSel isB = 6 then
    let g := (Fmt.ofCode (st.sideFmt isB)).getD .bf16
    let r := (immRow g f.im f.rm).toNat
    joinElems 512 256 (List.replicate w r)
  else if st.sideSel isB ≠ 0 then 0
  else if !isB && bit f.im 11 then expandSparse ((Fmt.ofCode st.fa).getD .bf16).width (x.vreg reg) (x.vreg (reg + 1))
  else joinElems 512 256 ((List.range w).map fun i => (x.vreg (reg + i)).toNat)

/-- Registers that a side reads at issue. -/
def Stream.sideRegs (st : Stream) (isB : Bool) : List Nat :=
  let f := st.form
  selRegs (st.sideSel isB) (if isB then f.b else f.a) (if !isB && bit f.im 11 then 2 else st.fragRows isB)

/-- The rows of one side lie in regions that agree with its format in every cell that reads them (R119, R174). -/
def Stream.sideOk (st : Stream) (k : Core) (isB : Bool) : Bool :=
  let cells := cellsOf st.form.sq
  let code := st.sideFmt isB
  let w := st.fragRows isB
  let base := (if isB then st.form.tb else st.form.ta).toNat
  let sel := st.sideSel isB
  if sel = 1 ∨ sel = 8 then
    (List.range (st.form.cn.toNat * w)).all fun q => k.resolve cells (base + q) code == some code
  else
    let edge := cells.filter (st.injects isB)
    edge.isEmpty || (List.range (min (ceilDiv st.kx st.pair.k) st.form.cn.toNat)).all fun n =>
      let readers := edge.filter fun c => decide (n + (if isB then tileCol st.geom c else tileRow st.geom c) < st.form.cn.toNat)
      (List.range w).all fun q => readers.isEmpty || k.resolve readers (base + n * w + q) code == some code

/-- The region checks of R172 where a code is 12, and those of R119 and R170; all FORMAT_MISMATCH
(DEDUCED, log entry 23). -/
def State.mmaMismatch (s : State) (st : Stream) : Bool :=
  let f := st.form
  match s.mmaCode f false, s.mmaCode f true with
  | some a, some b =>
    match (Fmt.ofCode a).bind fun ga => (Fmt.ofCode b).bind fun gb => (mmaPair ga gb).map fun p => (ga, gb, p) with
    | none => true
    | some (ga, gb, p) =>
      let tag : AccTag := if p.int then .int else .fp
      ((f.fp1 == 12 || f.fp2 == 12) &&
        (decide (f.cn.toNat * p.k < mmaKx f p.k) || !mmaSideWidth f f.as_ 5 f.a f.ta ga p.aw p.k ||
          !mmaSideWidth f f.bs 2 f.b f.tb gb p.bw p.k)) ||
      !st.sideOk s.cc false || !st.sideOk s.cc true ||
      (cellsOf f.sq).any fun c =>
        let t := ((s.cc.cell c).acc (f.d.toNat % 2)).tag
        t != .empty && t != tag
  | _, _ => true

/-- MMA's stream as it would start. -/
def mmaStream (f : CForm) (s : State) : Stream :=
  newStream s .mma f f.cn.toNat ((s.mmaCode f false).getD 2) ((s.mmaCode f true).getD 2) false []

/-- What a step of a matrix stream reads beside tower rows and cannot, in the first cell that takes both fragments: its
accumulator, where the step has an unmasked position (R175, R177), else a latch or express fragment. A bubble reads nothing
(R179, R433, R438). -/
def Stream.badReg (st : Stream) (k : Core) (step : Nat) : Option BadAt :=
  (cellsOf st.form.sq).findSome? fun c =>
    match st.takeBoth k step c with
    | some (a, b) =>
      let acc := 40 + st.form.d.toNat % 2
      if st.limit a.num ≠ 0 ∧ (k.cell c).badReg acc fun _ => true then some ⟨3, c, acc, 0⟩
      else if !a.bad.isEmpty then some ⟨3, c, entryNumber st.form.as_, 0⟩
      else if !b.bad.isEmpty then some ⟨3, c, entryNumber st.form.bs, 0⟩ else none
    | none => none

/-- The causes before a step of a matrix stream. -/
def Stream.mmaCause (st : Stream) (k : Core) (step : Nat) (wskip : Bool) : Option StepCause :=
  st.stepCause k step wskip (st.stepMismatch k step) (st.badReg k step)

/-- The rows that a tower select reads at a step, by its own width: 256 bits for code 1, 512 for code 8 (R174). -/
def towerSide (sel : BitVec 4) (base : BitVec 10) (step : Nat) : List Nat :=
  if sel = 1 then [base.toNat + step] else if sel = 8 then [base.toNat + 2 * step, base.toNat + 2 * step + 1] else []

/-- The rows of an MMA's step for its checks at issue. A tower select names its rows whatever its formats resolve to, since the
causes that the rows meet come before FORMAT_MISMATCH (R169, R201); those of an injecting cell follow from the pair of formats
(R185), and where the pair resolves to none it names none (DESIGN CHOICE, log entry 78). -/
def Stream.issueRows (st : Stream) (known : Bool) (cell step : Nat) : List RowRead :=
  let side (isB : Bool) : List Nat :=
    if st.sideSel isB = 1 ∨ st.sideSel isB = 8 then towerSide (st.sideSel isB) (if isB then st.form.tb else st.form.ta) step
    else if known then st.sideRows isB cell step else []
  let rows := side false ++ side true
  rows.map (fun r => ⟨r, true⟩) ++ ((rows.map (st.regions cell).scaleRows).flatten.map fun r => ⟨r, false⟩)

/-- MMA (R190). -/
def meanMma (f : CForm) (s : State) : Meaning :=
  let st := mmaStream f s
  let k := s.cc
  let bad := s.mmaMismatch st
  let pair := (s.mmaCode f false).bind fun a => (s.mmaCode f true).bind fun b =>
    (Fmt.ofCode a).bind fun ga => (Fmt.ofCode b).bind fun gb => mmaPair ga gb
  let x := s.cx
  let regs := st.sideRegs false ++ st.sideRegs true
  let channel := fun c => st.forward false c == .channel || st.forward true c == .channel
  let st := { st with cap := ((cellsOf f.sq).map fun c =>
    [(2 * c, st.capture k c false), (2 * c + 1, st.capture k c true)]).flatten.filter fun p => p.2 != 0 }
  let u : CellUse :=
    { form := f
      reads := fun c => ((List.range f.cn.toNat).map fun n => (st.issueRows pair.isSome c n).map fun r => (n, r)).flatten
      regs := regs
      latch := takesLatch f.as_ || takesLatch f.bs
      express := bad || s.mmaReady s.turn.core st 0
      tile := true, mismatch := bad
      xcfg := (cellsOf f.sq).any fun c =>
        channel c && (s.channelTo s.turn.core st.chan c).isNone }
  cellSlot (.mma f) u (fun w => if f.sq = 0 then none else st.mmaCause k 0 (x.wskip || w)) (fun s =>
    if f.sq = 0 then s
    else
      let tag : AccTag := if st.pair.int then .int else .fp
      let s := s.modCore fun k => k.modCells f.sq fun _ y =>
        y.updateAcc (f.d.toNat % 2) x.depth x.vt fun a => { a with tag := tag }
      let gated := (u.cells.map fun c => cellEvents c (mergeItems ((regs.map fun r =>
        (s.cc.cell c).gatedRead r 0xFFFF (elemsOf ((Fmt.ofCode (if (st.sideRegs false).contains r then st.fa else st.fb)).getD .bf16).width)).flatten))).flatten
      s.startStream st fun k st => let o := stepMma k st; { o with evs := gated ++ o.evs }) s
/-- Run MMA. -/
def execMma (f : CForm) (s : State) : Res := s.run (meanMma f s)

/-! ### Filling, reading and patching accumulators (R191, R194 to R196) -/

/-- MZERO (R191). -/
def meanMzero (f : CForm) (s : State) : Meaning :=
  let u : CellUse := { form := f, tile := true }
  let x := s.cx
  let a := f.d.toNat % 2
  plainSlot (.mzero f) u (fun s => s.cellsDo u.cells fun _ _ =>
    { now := fun y => (y.updateAcc a x.depth x.vt fun _ => {}).mend (40 + a) fun _ => true }) s
/-- Run MZERO. -/
def execMzero (f : CForm) (s : State) : Res := s.run (meanMzero f s)

/-- One loaded element widened to 32 bits (R194): raw for the 32-bit formats. -/
def mloadElem (g : Fmt) (x : Nat) : Nat × Kinds := if g.width = 32 then (x, noKind) else convert g .fp32 .rne x

/-- The elements of a cell's rows that an MLOAD has read, widened, with their events. -/
def mloadElems (g : Fmt) (cn cell : Nat) (rows : SMap Row) : List (Nat × Kinds) :=
  let per := elemsOf g.width
  (List.range (32 * cn)).map fun n => mloadElem g (elemN (get 0 rows (cell * 64 + n / per)) g.width (n % per))

/-- MLOAD's format. -/
def Stream.mloadFmt (st : Stream) : Fmt := (Fmt.ofCode st.form.fp1.toNat).getD .fp32

/-- A read cycle of an MLOAD: rows are put away; with the last, its events (R194). -/
def stepMload (k : Core) (st : Stream) : StepOut :=
  let cells := cellsOf st.form.sq
  let st' := cells.foldl (fun t c =>
    ((st.rowsAt c st.done).map fun r => r.row).foldl (fun (t : Stream) r =>
      t.keepRow c (r - st.form.ta.toNat) (k.towerRow c r)) t) st
  { core := k, st := st'
    evs := if st.left = 1 then
        (cells.map fun c => cellEvents c (gatherEvents ((indexed 0 (mloadElems st.mloadFmt st.form.cn.toNat c st'.rows)).map
          fun p => (columnLane (p.1 % 32), p.2.2)))).flatten
      else [] }

/-- The update of an MLOAD, at t + ⌈n/2⌉ + 1 (R194). -/
def performMload (k : Core) (st : Stream) : Core :=
  let cn := st.form.cn.toNat
  let a := st.form.d.toNat % 2
  k.modCells st.form.sq fun c y =>
    let es := mloadElems st.mloadFmt cn c st.rows
    (y.mend (40 + a) fun n => decide (n < 32 * cn)).updateAcc a st.level st.endCycle fun old =>
      accOf (if st.mloadFmt = .i32 then .int else .fp) fun n =>
        if n < 32 * cn then BitVec.ofNat 32 (nth (0, noKind) es n).1 else old.at_ n

/-- Whether an MLOAD is to be performed in a cycle: it has read its rows and has not been performed. -/
def Stream.loadsAt (st : Stream) (vt : Nat) : Bool := st.kind == .mload && st.left == 0 && st.endCycle == vt && !st.loaded

/-- MLOAD (R194). -/
def meanMload (f : CForm) (s : State) : Meaning :=
  let k := s.cc
  let g := (Fmt.ofCode f.fp1.toNat).getD .fp32
  let n := drainRows g f.cn.toNat
  let tag : AccTag := if g = .i32 then .int else .fp
  let st := newStream s .mload f (ceilDiv n 2) 0 0 false []
  let u : CellUse :=
    { form := f, tile := true
      reads := fun _ => (List.range n).map fun q => (q / 2, ⟨f.ta.toNat + q, true⟩)
      mismatch := (List.range n).any (fun q => k.sameFmt (cellsOf f.sq) (f.ta.toNat + q) != some 0) ||
        (decide (f.cn.toNat < 16) && (cellsOf f.sq).any fun c =>
          let t := ((k.cell c).acc (f.d.toNat % 2)).tag
          t != .empty && t != tag) }
  cellSlot (.mload f) u (fun w => if f.sq = 0 then none else st.stepCause k 0 (s.cx.wskip || w) false none) (fun s =>
    if f.sq = 0 then s else s.startStream st stepMload) s
/-- Run MLOAD. -/
def execMload (f : CForm) (s : State) : Res := s.run (meanMload f s)

/-- MREAD (R195): half a row into two registers, raw. -/
def meanMread (f : CForm) (s : State) : Meaning :=
  let base := 32 * fieldN f.im 0 4 + 16 * fieldN f.im 4 1
  let u : CellUse :=
    { form := f, dests := fun _ => [(false, f.d.toNat, 3), (false, f.d.toNat + 1, 3)], masks := lmRegs f
      accs := [(f.a.toNat % 2, fun n => decide (base ≤ n) && decide (n < base + 16))] }
  let x := s.cx
  plainSlot (.mread f) u (fun s => s.cellsDo u.cells fun k c =>
    let y := k.cell c
    let v := y.accView (f.a.toNat % 2) x.depth x.vt
    let bits := laneBits 32 (y.lane f)
    let part (o : Nat) : Row := joinElems 256 32 ((List.range 8).map fun j => (v.at_ (base + o + j)).toNat)
    { lands := [x.toV f.d.toNat 3 (part 0) bits, x.toV (f.d.toNat + 1) 3 (part 8) bits] }) s
/-- Run MREAD. -/
def execMread (f : CForm) (s : State) : Res := s.run (meanMread f s)

/-- One patched element (R196): a raw write, or an addition under the tag. The accumulator's element stands before the
register's for the propagation of a NaN (DESIGN CHOICE, log entry 49: R113 orders operands by fields A, B and CC, and the
accumulator is in none). -/
def patchElem (co : Nat) (tag : AccTag) (x v : BitVec 32) : BitVec 32 × Kinds :=
  if co = 0 then (v, noKind)
  else
    match tag with
    | .int =>
      let t := x.toInt + v.toInt
      (x + v, if t < -2147483648 ∨ 2147483647 < t then kWrap else noKind)
    | _ =>
      let q := Fmt.fp32.spec
      let r := addRound q .rne (q.decode x.toNat) (q.decode v.toNat)
      (BitVec.ofNat 32 r.1, r.2)

/-- An accumulator after a PATCH: elements of a register into a row, where the lane mask selects (R196). -/
def patchAcc (f : CForm) (m : BitVec 16) (v : Row) (a : Acc) : Acc :=
  let at0 := 32 * fieldN f.im 5 4 + fieldN f.im 0 5
  let tag := if a.tag = .empty then .fp else a.tag
  (List.range f.cn.toNat).foldl (fun (b : Acc) n =>
    if bit m n then
      { b with el := set 0 (at0 + n) (patchElem f.co.toNat tag (a.at_ (at0 + n)) (elem v 32 n)).1 b.el }
    else b) { a with tag := tag }

/-- PATCH (R196). -/
def meanPatch (f : CForm) (s : State) : Meaning :=
  let a := f.d.toNat % 2
  let at0 := 32 * fieldN f.im 5 4 + fieldN f.im 0 5
  let u : CellUse :=
    { form := f, tile := true, patch := true, regs := [f.b.toNat], masks := lmRegs f
      accs := if f.co = 0 then [] else [(a, fun n => decide (at0 ≤ n) && decide (n < at0 + f.cn.toNat))] }
  let x := s.cx
  plainSlot (.patch f) u (fun s => s.cellsDo u.cells fun k c =>
    let y := k.cell c
    let m := y.lane f
    let v := y.vreg f.b.toNat
    let picked := (List.range f.cn.toNat).filter fun n => bit m n
    let acc := y.acc a
    let evs := picked.map fun n =>
      (columnLane ((at0 + n) % 32), (patchElem f.co.toNat acc.tag (acc.at_ (at0 + n)) (elem v 32 n)).2)
    { now := fun y => (y.updateAcc a x.depth x.vt (patchAcc f m v)).mend (40 + a) fun n => picked.any fun p => at0 + p == n
      evs := mergeItems (gatherEvents evs ++
        y.gatedRead f.b.toNat (laneUnion (picked.map fun n => columnLane ((at0 + n) % 32))) picked.length) }) s
/-- Run PATCH. -/
def execPatch (f : CForm) (s : State) : Res := s.run (meanPatch f s)

/-! ### Draining (R192, R193, R211) -/

/-- An accumulator element as a value; an EMPTY accumulator drains as +0. -/
def accValue (tag : AccTag) (x : BitVec 32) : FVal :=
  match tag with
  | .int => .ofInt x.toInt
  | .fp => Fmt.fp32.spec.decode x.toNat
  | .empty => .fin false 0 0

/-- One element converted for a format without blocks (R192). -/
def drainElem (tag : AccTag) (g : Fmt) (mode : RMode) (x : BitVec 32) : Nat × Kinds :=
  match tag with
  | .int => if g.isInt then saturate g x.toInt else toFloatFmt g.spec mode (.ofInt x.toInt)
  | _ => if g.isInt then toIntFmt g mode (accValue tag x) else toFloatFmt g.spec mode (accValue tag x)

/-- What a drain writes in one tower row: row offset, value, written bits, and scales as (half, byte). -/
structure DrainRow where
  q : Nat
  val : Row
  bits : Row
  scales : List (Nat × Byte) := []

/-- A drain into a format without blocks: mask bit j governs columns 2 j and 2 j + 1 (R192). -/
def drainPlain (v : Acc) (g : Fmt) (mode : RMode) (cn : Nat) (m : BitVec 16) : List DrainRow × List EvItem :=
  let per := elemsOf g.width
  let pick (n : Nat) : Bool := bit m (n % 32 / 2)
  let rs := (List.range (32 * cn)).map fun n => if pick n then drainElem v.tag g mode (v.at_ n) else (0, noKind)
  let rows := (List.range (drainRows g cn)).map fun q =>
    { q := q
      val := joinElems 256 g.width ((List.range per).map fun e => (nth (0, noKind) rs (q * per + e)).1)
      bits := joinElems 256 g.width ((List.range per).map fun e => if pick (q * per + e) then 2 ^ g.width - 1 else 0) }
  (rows, gatherEvents ((indexed 0 rs).map fun p => (columnLane (p.1 % 32), p.2.2)))

/-- The low `n` bytes of a row, from byte `o` up, as bits. -/
def bytesAt (o n : Nat) : Row := BitVec.ofNat 256 ((2 ^ (8 * n) - 1) <<< (8 * o))

/-- Two parts of one row as one write. -/
def DrainRow.join (a b : DrainRow) : DrainRow :=
  { a with val := a.val ||| b.val, bits := a.bits ||| b.bits, scales := a.scales ++ b.scales }

/-- Join the parts that fall in one row; parts of a row stand next to each other. -/
def joinRows (rs : List DrainRow) : List DrainRow :=
  rs.foldr (fun a rest =>
    match rest with
    | b :: t => if a.q = b.q then a.join b :: t else a :: b :: t
    | [] => [a]) []

/-- A drain into an MX format: each accumulator row is one block with its scale searched (R107, R192, R193). -/
def drainMx (v : Acc) (g : Fmt) (mode : RMode) (cn : Nat) : List DrainRow × List EvItem :=
  let one (i : Nat) : DrainRow × List (Nat × Kinds) :=
    let xs := (List.range 32).map fun j => accValue v.tag (v.at_ (32 * i + j))
    let sc := mxScale g mode xs
    let es := mxEncode g mode sc xs
    let bits : Row := joinElems 256 g.width (es.map Prod.fst)
    let evs := (indexed 0 es).map fun p => (columnLane p.1, p.2.2)
    if g = .mxfp4 then
      ({ q := i / 2, val := bits <<< (128 * (i % 2)), bits := bytesAt (16 * (i % 2)) 16, scales := [(i % 2, BitVec.ofNat 8 sc)] }, evs)
    else ({ q := i, val := bits, bits := BitVec.allOnes 256, scales := [(0, BitVec.ofNat 8 sc)] }, evs)
  let rs := (List.range cn).map one
  (rs.map Prod.fst, gatherEvents (rs.map Prod.snd).flatten)

/-- A drain into LQ8: two accumulator rows form one block, all its elements present (R192, R211); its events name codewords, as
R210 says of every record of a C slot that writes blocks, and not R122's columns (DEDUCED, log entry 23). -/
def drainLq (v : Acc) (cn : Nat) : List DrainRow × List EvItem :=
  let one (b : Nat) : DrainRow × List EvItem :=
    let xs := (List.range 64).map fun e => (true, accValue v.tag (v.at_ (64 * b + e)))
    let sc := lqScale xs
    let r := lqEncodeBlock sc xs
    let bits : Row := joinElems 256 16 (r.1.map BitVec.toNat)
    ({ q := b / 2, val := bits <<< (128 * (b % 2)), bits := bytesAt (16 * (b % 2)) 16, scales := [(b % 2, BitVec.ofNat 8 sc)] }, r.2)
  let rs := (List.range (cn / 2)).map one
  (rs.map Prod.fst, mergeItems (rs.map Prod.snd).flatten)

/-- Everything that a drain writes, row by row. -/
def drainAll (v : Acc) (g : Fmt) (mode : RMode) (cn : Nat) (m : BitVec 16) : List DrainRow × List EvItem :=
  match g with
  | .mxfp4 => let r := drainMx v g mode cn; (joinRows r.1, r.2)
  | .mxfp8 => drainMx v g mode cn
  | .lq8 => let r := drainLq v cn; (joinRows r.1, r.2)
  | _ => drainPlain v g mode cn m

/-- The bits that a drain writes in row offset `q`, without its values. -/
def drainBits (g : Fmt) (cn : Nat) (m : BitVec 16) (q : Nat) : Row :=
  match g with
  | .mxfp8 => BitVec.allOnes 256
  | .mxfp4 => bytesAt 0 (16 * min 2 (cn - 2 * q))
  | .lq8 => bytesAt 0 (8 * min 4 (cn - 4 * q))
  | _ => if m = 0xFFFF then BitVec.allOnes 256
    else joinElems 256 g.width ((List.range (elemsOf g.width)).map fun e =>
      if bit m ((q * elemsOf g.width + e) % 32 / 2) then 2 ^ g.width - 1 else 0)

/-- MDRAIN's storage format (R192): code 12 takes the region's (DEDUCED, log entry 23). -/
def State.drainFmt (s : State) (f : CForm) : Option Fmt :=
  if f.fp2 = 12 then (s.cc.resolve (cellsOf f.sq) f.td.toNat 12).bind Fmt.ofCode else Fmt.ofCode f.fp2.toNat

/-- MDRAIN (R192). Where FP2 = 12 resolves to no one format, the checks that come before FORMAT_MISMATCH count FP32's
rows as written, past row 1,023 too (DESIGN CHOICE, log entry 86). -/
def meanMdrain (f : CForm) (s : State) : Meaning :=
  let k := s.cc
  let fmt := s.drainFmt f
  let g := fmt.getD .fp32
  let cn := f.cn.toNat
  let n := drainRows g cn
  let rows := (List.range n).map fun q => f.td.toNat + q
  let x := s.cx
  let a := f.a.toNat % 2
  let u : CellUse :=
    { form := f
      writes := fun _ => (List.range n).map fun q => (2 + q, f.td.toNat + q)
      scales := fun c => if g.isBlock then (rows.map (k.cell c).scaleRows).flatten.eraseDups else []
      keeps := fun c =>
        ((List.range n).filter fun q =>
          let b := drainBits g cn ((k.cell c).lane f) q
          b != 0 && b != BitVec.allOnes 256).map (fun q => f.td.toNat + q) ++
        (if g.isBlock then (rows.map (k.cell c).scaleRows).flatten.eraseDups else [])
      masks := lmRegs f, accs := [(a, fun n => decide (n < 32 * cn))]
      illegal := f.fp2 == 12 && f.sq != 0 && fmt.isSome && !mdrainFmtOk f g
      mismatch := fmt.isNone || rows.any fun r => k.resolve (cellsOf f.sq) r g.code != some g.code }
  plainSlot (.mdrain f) u (fun s => s.cellsDo u.cells fun k c =>
    let y := k.cell c
    let r := drainAll (y.accView a x.depth x.vt) g (cMode f) cn (y.lane f)
    { writes := r.1.map fun d =>
        x.toRow (f.td.toNat + d.q) (2 + d.q) d.val d.bits (d.scales.filterMap fun h =>
          (y.scalePlace (f.td.toNat + d.q) h.1).map fun p => (p.1, p.2, h.2))
      evs := r.2 }) s
/-- Run MDRAIN. -/
def execMdrain (f : CForm) (s : State) : Res := s.run (meanMdrain f s)

/-! ### Moving registers between cells (R197 to R199) -/

/-- Where each selected cell's register goes under a shift: sender and receiver (R197) (DEDUCED, log entry 24). -/
def shiftMoves (geom : Word) (f : CForm) (d : Side) : List (Nat × Nat) :=
  (cellsOf f.sq).filterMap fun c =>
    match hop geom f.sq (fieldN f.rt 4 2) d c with
    | .inside r _ => some (c, r)
    | _ => none

/-- The latency of a shift: one cycle, or four when any hop crosses over express (R197). -/
def shiftLatency (geom : Word) (f : CForm) (d : Side) : Nat :=
  if (cellsOf f.sq).any fun c => match hop geom f.sq (fieldN f.rt 4 2) d c with
    | .inside _ n => n == 4
    | _ => false
  then 4 else 1

/-- SHN, SHE, SHS and SHW (R181, R197): the receiver's register under its own mask, and its latch that faces the sender. -/
def shiftSlot (i : Instr) (f : CForm) (d : Side) (s : State) : Meaning :=
  let x := s.cx
  let moves := shiftMoves x.sqgeom f d
  let lat := shiftLatency x.sqgeom f d
  let u : CellUse :=
    { form := f, dests := fun c => if moves.any (fun m => m.2 == c) then [(false, f.d.toNat, lat)] else []
      regs := [f.a.toNat], masks := lmRegs f }
  plainSlot i u (fun s => s.cellsDo u.cells fun k c =>
    let y := k.cell c
    let evs := y.gatedRead f.a.toNat 0xFFFF 16
    match moves.find? fun m => m.2 == c with
    | none => { evs := evs }
    | some m =>
      let v := (k.cell m.1).vreg f.a.toNat
      { lands := [x.toV f.d.toNat lat v (laneBits 16 (y.lane f))]
        frags := [⟨x.depth, x.vt + lat, d.facing.latch, { bits := v.setWidth 512, fmt := f.fp1.toNat }⟩]
        evs := evs }) s

/-- SHN (R197). -/
def meanShn (f : CForm) (s : State) : Meaning := shiftSlot (.shn f) f .n s
/-- Run SHN. -/
def execShn (f : CForm) (s : State) : Res := s.run (meanShn f s)

/-- SHE (R197). -/
def meanShe (f : CForm) (s : State) : Meaning := shiftSlot (.she f) f .e s
/-- Run SHE. -/
def execShe (f : CForm) (s : State) : Res := s.run (meanShe f s)

/-- SHS (R197). -/
def meanShs (f : CForm) (s : State) : Meaning := shiftSlot (.shs f) f .s s
/-- Run SHS. -/
def execShs (f : CForm) (s : State) : Res := s.run (meanShs f s)

/-- SHW (R197). -/
def meanShw (f : CForm) (s : State) : Meaning := shiftSlot (.shw f) f .w s
/-- Run SHW. -/
def execShw (f : CForm) (s : State) : Res := s.run (meanShw f s)

/-- The channel of XSND and XRCV, RT[47:44]. -/
def routeChannel (f : CForm) : Nat := fieldN f.rt 0 4

/-- Whether a pair of registers moves, RT[51]. -/
def routePair (f : CForm) : Bool := bit f.rt 7

/-- XSND (R198): the bundle waits until every destination has room (R187). -/
def meanXsnd (f : CForm) (s : State) : Meaning :=
  let c0 := s.turn.core
  let ch := routeChannel f
  let n := if routePair f then 2 else 1
  let w := s.cx.xchan ch
  let dst := (cellsOf f.sq).map fun c => s.channelTo c0 w c
  let u : CellUse :=
    { form := f, regs := (List.range n).map fun i => f.a.toNat + i
      express := s.expressRoomFor (dst.filterMap id)
      xcfg := dst.any Option.isNone }
  plainSlot (.xsnd f) u (fun s =>
    let k := s.cc
    let s := u.cells.foldl (fun s c =>
      let y := k.cell c
      let bits := joinElems 512 256 ((List.range n).map fun i => (y.vreg (f.a.toNat + i)).toNat)
      s.sendExpress c0 w c ⟨ch, false, { bits := bits }⟩) s
    s.cellsDo u.cells fun k c => { evs := mergeItems ((k.cell c).gatedReads u.regs 16 0xFFFF) }) s
/-- Run XSND. -/
def execXsnd (f : CForm) (s : State) : Res := s.run (meanXsnd f s)

/-- Take the oldest entry of a channel out of a receive buffer. -/
def takeChannel (ch : Nat) : List Express → Option (Express × List Express)
  | [] => none
  | e :: es => if e.chan = ch then some (e, es) else (takeChannel ch es).map fun p => (p.1, e :: p.2)

/-- XRCV (R199): the bundle waits until every selected cell holds an entry of the channel. -/
def meanXrcv (f : CForm) (s : State) : Meaning :=
  let ch := routeChannel f
  let n := if routePair f then 2 else 1
  let u : CellUse :=
    { form := f, dests := fun _ => (List.range n).map fun i => (false, f.d.toNat + i, 2), masks := lmRegs f, latch := true
      entries := fun y => match takeChannel ch y.rx with
        | some (e, _) => [(46, e.val.badIn n)]
        | none => []
      express := (cellsOf f.sq).all fun c => (takeChannel ch (s.cc.cell c).rx).isSome }
  let x := s.cx
  plainSlot (.xrcv f) u (fun s => s.cellsDo u.cells fun k c =>
    let y := k.cell c
    match takeChannel ch y.rx with
    | none => {}
    | some (e, rest) =>
      { lands := (List.range n).map fun i => x.toV (f.d.toNat + i) 2 (elem e.val.bits 256 i) (laneBits 16 (y.lane f))
        now := fun y => { y with rx := rest } }) s
/-- Run XRCV. -/
def execXrcv (f : CForm) (s : State) : Res := s.run (meanXrcv f s)

end Sys2Proof.Machine
end

