-- ==== Sys2Proof/Machine/Lattice.lean ====
section
/-! DEFINITION. The lattice instructions LQNEAR, LQDEC, LQSCALE and LQMERGE (R212 to R218). -/

namespace Sys2Proof.Machine

/-! ### The source block (R212) -/

/-- The format code of a source block: that of its tower rows, all alike, or the one named; FP32, FP16 or BF16.
A later row that resolves otherwise than row TA gives FORMAT_MISMATCH (DESIGN CHOICE, log entry 86). -/
def State.lqCode (s : State) (f : CForm) : Option Nat :=
  let code := f.fp1.toNat
  if f.as_ ≠ 1 then some code
  else
    match s.cc.resolve (cellsOf f.sq) f.ta.toNat code with
    | none => none
    | some g =>
      if 2 < g then none
      else if (List.range (lqUnits g)).all fun q => s.cc.resolve (cellsOf f.sq) (f.ta.toNat + q) code == some g then some g
      else none

/-- The 64 elements of a block, with the presence that a mask gives its groups. -/
def lqElems (g : Fmt) (units : List Row) (m : BitVec 16) : List LqElem :=
  let per := elemsOf g.width
  (List.range 64).map fun i => (bit m (i / 8), g.spec.decode (elemN (nth 0 units (i / per)) g.width (i % per)))

/-- What LQNEAR writes of a block (R210, R213): half a row, the scale, the events. -/
def lqNearOut (xs : List LqElem) (half : Nat) : Row × Row × Byte × List EvItem :=
  let sc := lqScale xs
  let r := lqEncodeBlock sc xs
  ((joinElems 256 16 (r.1.map BitVec.toNat) : Row) <<< (128 * half), bytesAt (16 * half) 16, BitVec.ofNat 8 sc, r.2)

/-- What LQSCALE returns of a block (R214). -/
def lqScaleOut (xs : List LqElem) : Row := BitVec.ofNat 256 (lqScale xs)

/-- The format of a lattice stream. -/
def Stream.lqFmt (st : Stream) : Fmt := (Fmt.ofCode st.fa).getD .fp32

/-- The lane mask that a lattice stream captured for a cell. -/
def Stream.lqMask (st : Stream) (cell : Nat) : BitVec 16 := (get 0 st.cap (2 * cell)).setWidth 16

/-- The rows of a cell that a lattice stream has read. -/
def Stream.lqRows (st : Stream) (cell : Nat) : List Row := (List.range st.units).map fun q => get 0 st.rows (cell * 64 + q)

/-- The results of a lattice stream once its last rows are read: they fill what has waited for them since its issue. -/
def latticeDone (k : Core) (st : Stream) : StepOut :=
  let f := st.form
  let half := f.d.toNat % 2
  (cellsOf f.sq).foldl (fun (o : StepOut) c =>
    let y := o.core.cell c
    let m := st.lqMask c
    let xs := lqElems st.lqFmt (st.lqRows c) m
    if st.writes then
      if m.setWidth 8 = 0#8 then o
      else
        let r := lqNearOut xs half
        let scales := match (st.regions c).scalePlace f.td.toNat half with
          | some p => [(p.1, p.2, r.2.2.1)]
          | none => []
        { o with core := o.core.setCell c (y.fillWrite st.level (st.start + 6).toNat r.1 r.2.1 scales)
                 evs := o.evs ++ cellEvents c r.2.2.2 }
    else
      { o with core := o.core.setCell c (y.fillLanding st.level (st.start + 6).toNat f.d.toNat (lqScaleOut xs) (BitVec.allOnes 256)) })
    { core := k, st := st }

/-- A step of a lattice read (R212). -/
def stepLattice (k : Core) (st : Stream) : StepOut :=
  let st' := (cellsOf st.form.sq).foldl (fun t c =>
    ((st.rowsAt c st.done).map fun r => r.row).foldl (fun (t : Stream) r =>
      t.keepRow c (r - st.form.ta.toNat) (k.towerRow c r)) t) st
  if st.left = 1 then latticeDone k st' else { core := k, st := st' }

/-- A step of any stream. -/
def stepOf (st : Stream) : Core → Stream → StepOut :=
  match st.kind with
  | .mma => stepMma
  | .tldm => stepTldm
  | .mload => stepMload
  | .lattice => stepLattice

/-! ### LQNEAR and LQSCALE (R213, R214) -/

/-- The format that fixes the number of a source's units: the one named, or that of its first row. -/
def State.lqFirst (s : State) (f : CForm) : Option Nat :=
  if f.as_ ≠ 1 ∨ f.fp1 ≠ 12 then some f.fp1.toNat
  else (s.cc.resolve (cellsOf f.sq) f.ta.toNat 12).bind fun g => if g ≤ 2 then some g else none

/-- What LQNEAR and LQSCALE use of their source. -/
def lqUse (f : CForm) (s : State) : CellUse :=
  let n := ((s.lqFirst f).map lqUnits).getD 0
  { form := f
    reads := fun _ => if f.as_ = 1 then (List.range n).map fun q => (q / 2, ⟨f.ta.toNat + q, true⟩) else []
    regs := selRegs f.as_ f.a n
    masks := lmRegs f
    illegal := f.fp1 == 12 && f.sq != 0 && decide (1024 < f.ta.toNat + n)
    mismatch := (s.lqCode f).isNone }

/-- The lane masks that a lattice stream captures (R212). -/
def lqMasks (k : Core) (f : CForm) : SMap Frag :=
  ((cellsOf f.sq).map fun c => (2 * c, (((k.cell c).lane f).setWidth 512 : Frag))).filter fun p => p.2 != 0

/-- The events of gated source registers: the elements of each that lie in present groups (R139). -/
def lqGated (y : Cell) (g : Fmt) (regs : List Nat) (m : BitVec 16) : List EvItem :=
  let per := elemsOf g.width
  mergeItems ((indexed 0 regs).map fun r =>
    let sel := (List.range per).filter fun j => bit m ((r.1 * per + j) / 8)
    y.gatedRead r.2 (laneUnion (sel.map (laneOf g.width))) sel.length).flatten

/-- The shape of LQNEAR and LQSCALE: a register source is read and encoded at issue, a tower source by a stream. -/
def lqSlot (i : Instr) (f : CForm) (u : CellUse) (writes : Bool) (waiting : Ctx → Cell → CellOut) (s : State) : Meaning :=
  let x := s.cx
  let code := (s.lqCode f).getD 0
  let g := (Fmt.ofCode code).getD .fp32
  let n := lqUnits code
  let stream := newStream s .lattice f (ceilDiv n 2) code 0 writes (lqMasks s.cc f)
  let early (unwatched : Bool) := if f.as_ = 1 ∧ f.sq ≠ 0 then stream.stepCause s.cc 0 (x.wskip || unwatched) false none else none
  cellSlot i u early (fun s =>
    if f.sq = 0 then s
    else
      let s := s.watchCells watchWr (u.accesses fun c => (u.writes c).map fun w => w.2)
      let s := s.cellsDo u.cells fun k c => waiting x (k.cell c)
      if f.as_ = 1 then s.startStream stream stepLattice
      else
        let k := s.cc
        let st := { stream with rows := ((u.cells.map fun c =>
          (List.range n).map fun q => (c * 64 + q, (k.cell c).vreg (f.a.toNat + q))).flatten).filter fun p => p.2 != 0 }
        let o := latticeDone k st
        let gated := (u.cells.map fun c => cellEvents c (lqGated (k.cell c) g u.regs ((k.cell c).lane f))).flatten
        (s.setCore s.turn.core o.core).raise (o.evs ++ gated)) s

/-- LQNEAR (R213). -/
def meanLqnear (f : CForm) (s : State) : Meaning :=
  let k := s.cc
  let marked (c : Nat) : Bool := ((k.cell c).lane f).setWidth 8 != 0#8
  let u := lqUse f s
  let u := { u with
    writes := fun _ => [(6, f.td.toNat)]
    scales := fun c => (k.cell c).scaleRows f.td.toNat
    keeps := fun c => if marked c then f.td.toNat :: (k.cell c).scaleRows f.td.toNat else []
    mismatch := u.mismatch || k.sameFmt (cellsOf f.sq) f.td.toNat != some 6 }
  lqSlot (.lqnear f) f u true (fun x y =>
    let m := (y.lane f).setWidth 8 != 0#8
    let place := if m then y.scalePlace f.td.toNat (f.d.toNat % 2) else none
    { writes := [{ x.toRow f.td.toNat 6 0 0 (place.toList.map fun p => (p.1, p.2, 0)) with await := m }] }) s
/-- Run LQNEAR. -/
def execLqnear (f : CForm) (s : State) : Res := s.run (meanLqnear f s)

/-- LQSCALE (R214). -/
def meanLqscale (f : CForm) (s : State) : Meaning :=
  let u := { lqUse f s with dests := fun _ => [(false, f.d.toNat, 6)] }
  lqSlot (.lqscale f) f u false (fun x _ => { lands := [{ x.toV f.d.toNat 6 0 0 with await := true }] }) s
/-- Run LQSCALE. -/
def execLqscale (f : CForm) (s : State) : Res := s.run (meanLqscale f s)

/-! ### LQDEC (R215) -/

/-- The half-units of sixteen codewords, in order. -/
def lqHalfUnits (raw : Row) : List Int := ((List.range 16).map fun c => lqDecode (elem raw 16 c)).flatten

/-- LQDEC (R215). -/
def meanLqdec (f : CForm) (s : State) : Meaning :=
  let u : CellUse :=
    { form := f
      dests := fun _ => (List.range 4).map fun q => (false, f.d.toNat + q, 3)
      reads := fun _ => (selRows f.as_ f.ta).map fun r => (0, ⟨r, true⟩)
      regs := selRegs f.as_ f.a 1, masks := lmRegs f, latch := takesLatch f.as_
      entries := fun y => y.taken [f.as_], express := s.cc.rxReady f f.as_ 0 }
  let x := s.cx
  plainSlot (.lqdec f) u (fun s => s.cellsDo u.cells fun k c =>
    let y := k.cell c
    let m := y.lane f
    let hs := (lqHalfUnits (k.source c f.as_ f.a f.ta 0)).map fun h => Fmt.i8.intBits h
    { lands := (List.range 4).map fun q =>
        x.toV (f.d.toNat + q) 3 (joinElems 256 8 ((hs.drop (32 * q)).take 32)) (laneBits 8 m)
      evs := if f.as_ = 0 then y.gatedRead f.a.toNat m (4 * (selectedElems 8 m).length) else [] }) s
/-- Run LQDEC. -/
def execLqdec (f : CForm) (s : State) : Res := s.run (meanLqdec f s)

/-! ### LQMERGE (R216) -/

/-- `lq_merge` of R216 for one codeword: the new codeword, and in the NaN path the count of NaN or infinite values, else
that of the elements past the shell. -/
def lqMergeWord (sa sd : Nat) (old : BitVec 16) (first n : Nat) (vals : List FVal) : BitVec 16 × Bool × Nat :=
  let h := lqDecode old
  let xs := (List.range 8).map fun i =>
    if first ≤ i ∧ i < first + n then nth nanElem vals i else lqValue sa (nth 0 h i)
  let bad := (xs.filter FVal.unblockable).length
  if sd = 255 ∨ 0 < bad then (0, true, bad)
  else
    let ys := xs.map fun x => x.dy.scale (127 - (sd : Int))
    (lqEncode (lqPoint ys), false, (ys.filter fun y => (Dy.mk 7 (-2)).lt y.abs).length)

/-- LQMERGE in one cell: row bits, the scale bytes of the NaN path, events. -/
def lqMergeCell (k : Core) (cell : Nat) (f : CForm) : Row × Row × List (Nat × Nat × Byte) × List EvItem :=
  let y := k.cell cell
  let m := y.lane f
  let ta := f.ta.toNat
  let td := f.td.toNat
  let old := k.towerRow cell ta
  let vals := (List.range 8).map fun i => Fmt.fp32.spec.decode (elemN (y.vreg f.a.toNat) 32 i)
  let ws := (maskList m).map fun c =>
    (c, lqMergeWord (k.scaleByte cell ta (c / 8)) (k.scaleByte cell td (c / 8)) (elem old 16 c) f.im.toNat f.cn.toNat vals)
  let val := joinElems 256 16 ((List.range 16).map fun c => match ws.lookup c with
    | some w => w.1.toNat
    | none => 0)
  let nan := ws.filter fun w => w.2.2.1
  let shell := ws.filter fun w => !w.2.2.1 && w.2.2.2 != 0
  let halves := [0, 1].filter fun h => nan.any fun w => w.1 / 8 == h
  let item (kind : Nat) (xs : List (Nat × BitVec 16 × Bool × Nat)) : List EvItem :=
    if xs.isEmpty then []
    else [⟨kind, laneUnion (xs.map Prod.fst), (xs.map fun w => w.2.2.2).foldl (· + ·) 0⟩]
  (val, laneBits 16 m, halves.filterMap fun h => (y.scalePlace td h).map fun p => (p.1, p.2, 0xFF), item 5 nan ++ item 6 shell)

/-- LQMERGE (R216). -/
def meanLqmerge (f : CForm) (s : State) : Meaning :=
  let k := s.cc
  let ta := f.ta.toNat
  let td := f.td.toNat
  let u : CellUse :=
    { form := f
      reads := fun c => (0, ⟨ta, true⟩) ::
        ((k.cell c).scaleRows ta ++ (k.cell c).scaleRows td).eraseDups.map fun r => (0, ⟨r, false⟩)
      writes := fun _ => [(4, td)]
      scales := fun c => (k.cell c).scaleRows td
      keeps := fun c => let m := (k.cell c).lane f; if m = 0 ∨ m = 0xFFFF then [] else [td]
      regs := [f.a.toNat], masks := lmRegs f
      mismatch := k.sameFmt (cellsOf f.sq) ta != some 6 || k.sameFmt (cellsOf f.sq) td != some 6 }
  let x := s.cx
  plainSlot (.lqmerge f) u (fun s => s.cellsDo u.cells fun k c =>
    let r := lqMergeCell k c f
    let y := k.cell c
    let m := y.lane f
    { writes := [x.toRow td 4 r.1 r.2.1 r.2.2.1]
      evs := mergeItems (r.2.2.2 ++ y.gatedRead f.a.toNat m (f.cn.toNat * popCount m)) }) s
/-- Run LQMERGE. -/
def execLqmerge (f : CForm) (s : State) : Res := s.run (meanLqmerge f s)

end Sys2Proof.Machine
end

