-- ==== Sys2Proof/Machine/Image.lean ====
section
/-! DEFINITION. The image of a launch: its header, the walk of its stream, its relocation and declaration records, and
their application to a core (R39 to R45, R60, R115 to R118, R246, R332, R366 to R370, R406). -/

namespace Sys2Proof.Machine

/-! ### Region entries (R117, R118) -/

/-- Elements of a row of a block format that one scale byte covers, as blocks per row (R117). -/
def rgnBlocks (fmt : Nat) : Nat :=
  match fmt with
  | 4 => 2
  | 5 => 1
  | 6 => 2
  | _ => 0

/-- Scale rows of a region (R117). -/
def rgnScaleRows (w : Word) : Nat := ceilDiv (fieldN w 32 11 * rgnBlocks (fieldN w 0 4)) 32

/-- The checks of R118 on a region entry. -/
def rgnOk (w : Word) : Bool :=
  let count := fieldN w 32 11
  let first := fieldN w 22 10
  let srow := fieldN w 12 10
  let fmt := fieldN w 0 4
  decide (fmt < 7) && decide (first + count ≤ 1024) &&
    (if rgnBlocks fmt = 0 then srow == 0
     else
       let n := rgnScaleRows w
       decide (srow + n ≤ 1024) && (n == 0 || decide (srow + n ≤ first) || decide (first + count ≤ srow)))

/-- The writable bits of SYS.RGNn. -/
def rgnMask : Word := 0x000007FFFFFFF00F

/-! ### The header (R60) -/

/-- The header's fields that the loader uses. -/
structure ImageHead where
  dictN : Nat
  streamN : Nat
  streamOff : Nat
  dictOff : Nat
  relocOff : Nat
  bmapOff : Nat
  declOff : Nat
  relocN : Nat
  sigOff : Nat
  trapv : BitVec 32
  declN : Nat
  length : Nat
  deriving DecidableEq, Repr

/-- The header of an image. -/
def imageHead (bs : List Byte) : ImageHead :=
  let w (i : Nat) : Word := wordAt bs (8 * i)
  { dictN := fieldN (w 2) 32 16, streamN := fieldN (w 2) 0 32, streamOff := fieldN (w 3) 32 32
    dictOff := fieldN (w 3) 0 32, relocOff := fieldN (w 4) 32 32, bmapOff := fieldN (w 4) 0 32
    declOff := fieldN (w 5) 32 32, relocN := fieldN (w 5) 0 32, sigOff := fieldN (w 6) 32 32
    trapv := field (w 6) 0 32, declN := fieldN (w 7) 32 32, length := fieldN (w 7) 0 32 }

/-- The header agrees with the table of R60: magic, version, identifier, limits, alignment, sections within LENGTH. -/
def headOk (bs : List Byte) (id : Word) : Bool :=
  let h := imageHead bs
  let w0 := wordAt bs 0
  fieldN w0 40 24 == 0 && fieldN w0 32 8 == 1 && fieldN w0 0 32 == 0x314B584E && wordAt bs 8 == id &&
  fieldN (wordAt bs 16) 48 16 == 0 && decide (h.dictN ≤ 4096) && decide (1 ≤ h.streamN) && decide (h.streamN ≤ 65536) &&
  h.streamOff % 2 == 0 && h.dictOff % 16 == 0 && h.relocOff % 8 == 0 && h.declOff % 8 == 0 && decide (64 ≤ h.length) &&
  decide (h.streamOff + 2 * h.streamN ≤ h.length) && decide (h.dictOff + 48 * h.dictN ≤ h.length) &&
  decide (h.relocOff + 24 * h.relocN ≤ h.length) && decide (h.bmapOff + ceilDiv h.streamN 8 ≤ h.length) &&
  decide (h.declOff ≤ h.length) && decide (h.sigOff ≤ h.length)

/-- The halfwords of the stream. -/
def streamWords (bs : List Byte) (h : ImageHead) : List Nat :=
  (List.range h.streamN).map fun i => leNat ((bs.drop (h.streamOff + 2 * i)).take 2)

/-- Dictionary entry `i` (R44). -/
def dictEntry (bs : List Byte) (h : ImageHead) (i : Nat) : BitVec 384 :=
  BitVec.ofNat 384 (leNat ((bs.drop (h.dictOff + 48 * i)).take 48))

/-- The walk of R41 as R40 reads the stream: the bitmap it gives, or none where an index is past the dictionary or a
literal is cut short. `lit` counts the literal halfwords still to come. -/
def walkStream (dictN : Nat) : Nat → List Nat → Option (List Bool)
  | 0, [] => some []
  | _ + 1, [] => none
  | lit + 1, _ :: xs => (walkStream dictN lit xs).map (false :: ·)
  | 0, x :: xs =>
    if x = 0xFFFF then (walkStream dictN 24 xs).map (true :: ·)
    else if x < dictN then (walkStream dictN 0 xs).map (true :: ·)
    else none

/-- The image's own bundle-start bitmap. -/
def imageBitmap (bs : List Byte) (h : ImageHead) : List Bool :=
  (List.range h.streamN).map fun i => bit (nth (0 : Byte) bs (h.bmapOff + i / 8)) (i % 8)

/-- Whether a halfword address starts a bundle, by a bitmap. -/
def startIn (bm : List Bool) (a : Nat) : Bool := nth false bm a

/-! ### Relocation records (R367 to R369) -/

/-- A relocation record read. -/
structure Reloc where
  lit : Bool
  mode : Nat
  source : Nat
  index : Nat
  lo : Nat
  width : Nat
  shift : Nat
  addend : Int
  symbol : Nat
  deriving DecidableEq, Repr

/-- A record's three words read. -/
def relocOf (r : Word × Word × Word) : Reloc :=
  { lit := bit r.1 62, mode := fieldN r.1 60 2, source := fieldN r.1 56 4, index := fieldN r.1 32 16
    lo := fieldN r.1 23 9, width := fieldN r.1 16 7 + 1, shift := fieldN r.1 10 6, addend := r.2.1.toInt
    symbol := fieldN r.2.2 0 32 }

/-- The record words of an image. -/
def relocWords (bs : List Byte) (h : ImageHead) : List (Word × Word × Word) :=
  (List.range h.relocN).map fun i =>
    let o := h.relocOff + 24 * i
    (wordAt bs o, wordAt bs (o + 8), wordAt bs (o + 16))

/-- A record's own checks (R367). -/
def relocOk (h : ImageHead) (bm : List Bool) (code : List Nat) (r : Word × Word × Word) : Bool :=
  let q := relocOf r
  !bit r.1 63 && decide (q.mode ≤ 2) && decide (q.source ≤ 7) && fieldN r.1 48 8 == 0 && fieldN r.1 0 10 == 0 &&
    fieldN r.2.2 32 32 == 0 && decide (q.lo + q.width ≤ 384) &&
    (if q.lit then startIn bm q.index && nth 0 code q.index == 0xFFFF else decide (q.index < h.dictN))

/-- Two records' fields overlap in one bundle. -/
def Reloc.overlaps (p q : Reloc) : Bool :=
  p.lit == q.lit && p.index == q.index && decide (p.lo < q.lo + q.width) && decide (q.lo < p.lo + p.width)

/-- No two records overlap. -/
def noOverlap : List Reloc → Bool
  | [] => true
  | p :: ps => !(ps.any p.overlaps) && noOverlap ps

/-- A part record has its partner (R367). -/
def hasPartner (rs : List Reloc) (p : Reloc) : Bool :=
  p.mode != 2 || decide (64 ≤ p.shift + p.width) ||
    rs.any fun q => q.mode == 2 && q.source == p.source && q.addend == p.addend && q.shift == p.shift + p.width

/-- The values of R368 for one core; none where the source is not fixed. -/
structure RelocEnv where
  imageVa : Nat
  paramVa : Nat
  counterPage : Option Nat
  graph : Option (Nat × Nat)
  scbase : Nat
  slot : Option Nat
  deriving DecidableEq, Repr

/-- A source's value. -/
def RelocEnv.value (e : RelocEnv) : Nat → Option Nat
  | 0 => some 0
  | 1 => some e.imageVa
  | 2 => some e.paramVa
  | 3 => e.counterPage
  | 4 => e.graph.map fun g => g.1
  | 5 => e.graph.map fun g => g.2
  | 6 => some e.scbase
  | _ => e.slot

/-- Whether a value fits a record's field (R369). -/
def Reloc.fits (r : Reloc) (v : Int) : Bool :=
  let q := v / (2 ^ r.shift : Nat)
  match r.mode with
  | 0 => v % (2 ^ r.shift : Nat) == 0 && decide (-(2 ^ (r.width - 1) : Nat) ≤ q) && decide (q < (2 ^ (r.width - 1) : Nat))
  | 1 => v % (2 ^ r.shift : Nat) == 0 && decide (0 ≤ q) && decide (q < (2 ^ r.width : Nat))
  | _ => decide (-(2 ^ 63 : Nat) ≤ v) && decide (v < (2 ^ 64 : Nat))

/-- The bits a record's field receives (R369). -/
def Reloc.bits (r : Reloc) (v : Int) : Nat :=
  let v := if r.mode = 2 then v % (2 ^ 64 : Nat) else v
  (v / (2 ^ r.shift : Nat) % (2 ^ r.width : Nat)).toNat

/-- The first record whose value is known and does not fit: its index, symbol and value (R369). -/
def misfit (e : RelocEnv) (rs : List Reloc) : Option (Nat × Nat × Int) :=
  (indexed 0 rs).findSome? fun p =>
    match e.value p.2.source with
    | none => none
    | some v =>
      let v := (v : Int) + p.2.addend
      if p.2.fits v then none else some (p.1, p.2.symbol, v)

/-- Apply a record to a loaded core (R366, R368). -/
def Core.relocate (k : Core) (e : RelocEnv) (r : Reloc) : Core :=
  match e.value r.source with
  | none => k
  | some v =>
    let b := r.bits ((v : Int) + r.addend)
    if r.lit then
      let off := 2 * (r.index + 1)
      let w : BitVec 384 := BitVec.ofNat 384 (leNat (readBytes k.cmem off 48))
      k.writeCmem off (leBytes 48 (setField w r.lo r.width b).toNat)
    else { k with dict := set 0 r.index (setField (get 0 k.dict r.index) r.lo r.width b) k.dict }

/-! ### Declarations (R246, R332, R370) -/

/-- A handle declaration's checks (R246, R332). -/
def bufferOk (w : Word) (streamN : Nat) : Bool :=
  match handleOf w with
  | none => false
  | some h =>
    h.fill == 0 && h.drain == 0 && h.filled == 0 &&
    (if h.cmem then
      fieldN w 0 8 == 0 && decide (32 * (h.base + h.count * h.slot) ≤ Config.cmemBytes) && decide (2 * streamN ≤ 32 * h.base)
     else fieldN w 0 5 == 0 && decide (h.base + h.count * h.slot ≤ 1024))

/-- Right LEN of a declaration's type (R370). -/
def declLen (ty : Nat) : Nat :=
  match ty with
  | 6 => 32
  | 7 => 136
  | _ => 16

/-- A declaration's checks (R370). -/
def declOk (streamN : Nat) (head body : Word) : Bool :=
  let ty := fieldN head 56 8
  let arg := fieldN head 0 32
  decide (1 ≤ ty) && decide (ty ≤ 7) && fieldN head 48 8 == 0 && fieldN head 32 16 == declLen ty &&
  (match ty with
    | 1 => decide (arg < 16) && (body &&& ~~~rgnMask) == 0 && rgnOk body
    | 2 => decide (arg < 16) && bufferOk body streamN
    | 3 => decide (arg < 8) && decide (body.toNat < 8)
    | 4 => decide (arg < 2048) && body == 0
    | 5 => decide (arg < 65536) && decide (body.toNat < 65536)
    | _ => arg == 0)

/-- The head and first body word of each declaration, or none where they run past the image. -/
def declWords (bs : List Byte) (length : Nat) : Nat → Nat → Option (List (Word × Word))
  | 0, _ => some []
  | n + 1, off =>
    let head := wordAt bs off
    let len := fieldN head 32 16
    if len < 16 ∨ len % 8 ≠ 0 ∨ length < off + len then none
    else (declWords bs length n (off + len)).map ((head, wordAt bs (off + 8)) :: ·)

/-- Two declarations of one handle, entry or timeline. -/
def declTwice : List (Word × Word) → Bool
  | [] => false
  | d :: ds =>
    (decide (fieldN d.1 56 8 ≤ 3) && ds.any fun e => fieldN e.1 56 8 == fieldN d.1 56 8 && fieldN e.1 0 32 == fieldN d.1 0 32) ||
      declTwice ds

/-! ### The checks of an image (R29, R41, R367, R370) -/

/-- The walk of R41 and the checks of R367 on an image's bytes: the relocation records that pass. -/
def checkCode (bs : List Byte) (entry : Nat) (trapv : BitVec 32) (hasGraph : Bool) : Option (List (Word × Word × Word)) :=
  let h := imageHead bs
  let code := streamWords bs h
  match walkStream h.dictN 0 code with
  | none => none
  | some bm =>
    let rs := relocWords bs h
    let qs := rs.map relocOf
    if bm == imageBitmap bs h && startIn bm entry && (trapv == 0xFFFFFFFF || startIn bm trapv.toNat) &&
        rs.all (relocOk h bm code) && noOverlap qs && qs.all (hasPartner qs) &&
        (hasGraph || qs.all fun q => q.source != 4 && q.source != 5) then
      some rs
    else none

/-- An image that passes every check but signature and fits: what the loader keeps of it. -/
def checkImage (bs : List Byte) (id : Word) (entry : Nat) (hasGraph : Bool) : Option Loaded :=
  let h := imageHead bs
  if !headOk bs id then none
  else
    match checkCode bs entry h.trapv hasGraph, declWords bs h.length h.declN h.declOff with
    | some rs, some ds =>
      if ds.all (fun d => declOk h.streamN d.1 d.2) && !declTwice ds then
        some ⟨h.trapv, rs, ds.filter fun d => decide (fieldN d.1 56 8 ≤ 3)⟩
      else none
    | _, _ => none

/-- The bytes that the loader copies and checks at placement: the image, and what its header says lies past its end. -/
def ImageHead.span (h : ImageHead) : Nat :=
  [h.length, h.streamOff + 2 * h.streamN, h.dictOff + 48 * h.dictN, h.relocOff + 24 * h.relocN,
    h.bmapOff + ceilDiv h.streamN 8].foldl max 64

/-- A changed header still describes what the stores of a core can hold (DESIGN CHOICE, log entry 53). -/
def ImageHead.fits (h : ImageHead) : Bool := decide (h.dictN ≤ 4096) && decide (1 ≤ h.streamN) && decide (h.streamN ≤ 65536)

/-- Whether an image's signature passes (R406). -/
def signatureOk (bs : List Byte) (mask : BitVec 8) (keys : SMap (List Byte)) : Bool :=
  let h := imageHead bs
  let w := wordAt bs h.sigOff
  let slot := fieldN w 48 8
  let key := get [] keys slot
  h.length == h.sigOff + 0x68 && fieldN w 56 8 == 1 && decide (slot < 8) && fieldN w 0 48 == 0 && !key.isEmpty &&
    bit mask slot && Config.signatureVerifies key (bs.take h.sigOff) ((bs.drop (h.sigOff + 8)).take 96)

/-! ### Loading a core (R35 step 3, R39, R44, R45, R366) -/

/-- Copy an image to a core: code region, dictionary and bitmap, tagged with its identifier. -/
def Core.loadImage (k : Core) (bs : List Byte) (id : Word) : Core :=
  let h := imageHead bs
  { k with
    streamN := h.streamN, dictN := h.dictN, image := some id
    cmem := writeBytes k.cmem 0 ((bs.drop h.streamOff).take (2 * h.streamN))
    badCmem := k.badCmem.filter (fun b => decide (2 * h.streamN ≤ b)), badDict := [], badBits := []
    dict := (List.range h.dictN).foldl (fun m i => set 0 i (dictEntry bs h i) m) []
    bitmap := ((indexed 0 (imageBitmap bs h)).filter fun p => p.2).foldl (fun m p => set false p.1 true m) [] }

/-- CMEM above the code region is zero at placement (R39). -/
def Core.clearCmem (k : Core) : Core :=
  { k with cmem := k.cmem.filter fun p => decide (p.1 < 2 * k.streamN)
           badCmem := k.badCmem.filter fun b => decide (b < 2 * k.streamN) }

/-- Apply all relocation records to a core. -/
def Core.relocateAll (k : Core) (e : RelocEnv) (rs : List (Word × Word × Word)) : Core :=
  rs.foldl (fun k r => k.relocate e (relocOf r)) k

end Sys2Proof.Machine
end

