-- ==== Sys2Proof/Machine/Launch.lean ====
section
/-! DEFINITION. Launch records and their placement: queues and doorbells, validation, the loader's steps, gang start,
saving and restoring, and the freeing of cores (R28 to R38, R350 to R351, R360, R361, R424, R440, R457). -/

namespace Sys2Proof.Machine

/-! ### The record's fields (R28) -/

/-- ENTRY. -/
def Launch.entry (x : Launch) : Nat := fieldN (nth 0 x.words 2) 32 32
/-- SQUADS. -/
def Launch.squads (x : Launch) : Nat := fieldN (nth 0 x.words 3) 20 4
/-- Contexts per core, CTX + 1. -/
def Launch.ctxs (x : Launch) : Nat := fieldN (nth 0 x.words 3) 16 2 + 1
/-- CORES. -/
def Launch.coreN (x : Launch) : Nat := fieldN (nth 0 x.words 3) 8 8
/-- KEEP. -/
def Launch.keep (x : Launch) : Bool := bit (nth 0 x.words 3) 1
/-- RESTART. -/
def Launch.restart (x : Launch) : Bool := bit (nth 0 x.words 3) 0
/-- IMAGE_ID. -/
def Launch.imageId (x : Launch) : Word := nth 0 x.words 0
/-- IMAGE_VA. -/
def Launch.imageVa (x : Launch) : Nat := fieldN (nth 0 x.words 1) 0 56
/-- GRAPH_VA. -/
def Launch.graphVa (x : Launch) : Nat := fieldN (nth 0 x.words 4) 0 56
/-- COPY_VA. -/
def Launch.copyVa (x : Launch) : Nat := fieldN (nth 0 x.words 5) 0 56
/-- COPY_N. -/
def Launch.copyN (x : Launch) : Nat := fieldN (nth 0 x.words 6) 36 12
/-- WINDOW. -/
def Launch.window (x : Launch) : Nat := fieldN (nth 0 x.words 6) 24 10
/-- TOKENS. -/
def Launch.tokens (x : Launch) : Nat := fieldN (nth 0 x.words 6) 16 8
/-- RANK. -/
def Launch.rank (x : Launch) : Nat := fieldN (nth 0 x.words 6) 0 3
/-- WDOG. -/
def Launch.wdog (x : Launch) : Nat := fieldN (nth 0 x.words 7) 32 32
/-- EST; none for unknown. -/
def Launch.est (x : Launch) : Option Nat :=
  let e := fieldN (nth 0 x.words 7) 0 32
  if e = 0xFFFFFFFF then none else some e
/-- PARAM_VA. -/
def Launch.paramVa (x : Launch) : Nat := fieldN (nth 0 x.words 8) 0 56

/-- The pacer indices of a context's squads, as a mask (R30). -/
def Launch.squadMask (x : Launch) (k : Nat) : Nat := (2 ^ x.squads - 1) <<< (k * x.squads)

/-! ### Queues (R350) -/

/-- A queue of the starter. -/
def State.queue (s : State) (q : Nat) : Queue := get {} s.starter.queues q

/-- Put a queue back. -/
def State.setQueue (s : State) (q : Nat) (x : Queue) : State :=
  { s with starter := { s.starter with queues := set {} q x s.starter.queues } }

/-- RING_VA. -/
def Queue.ring (q : Queue) : Nat := fieldN (nth 0 q.desc 0) 0 56
/-- ENTRIES. -/
def Queue.entries (q : Queue) : Nat := fieldN (nth 0 q.desc 1) 16 16
/-- AGE. -/
def Queue.age (q : Queue) : Nat := fieldN (nth 0 q.desc 1) 8 8
/-- CEIL. -/
def Queue.ceil (q : Queue) : Nat := fieldN (nth 0 q.desc 1) 0 3
/-- WDOG_DEF. -/
def Queue.wdogDef (q : Queue) : Nat := fieldN (nth 0 q.desc 2) 32 32
/-- DRAIN. -/
def Queue.drain (q : Queue) : Nat := fieldN (nth 0 q.desc 2) 0 32

/-- A write of the device in a domain under R392; it is not made where the page does not take it. -/
def State.deviceWrite (s : State) (dom va : Nat) (bs : List Byte) : Option State :=
  match s.writeGlobal (deviceClient dom) .write va bs with
  | (.ok t, _) => some t
  | (.error _, _) => none

/-- A read of the device in a domain. -/
def State.deviceRead (s : State) (dom va n : Nat) : Except AccErr (List Byte) := (s.readGlobal (deviceClient dom) .read va n).1

/-- Write a queue's error record (R350). -/
def State.queueError (s : State) (q ekind elaunch : Nat) (einfo eval : Word) : State :=
  let x := s.queue q
  let w0 : Word := BitVec.ofNat 64 ((ekind <<< 56) + elaunch % 2 ^ 56)
  (s.deviceWrite x.dom (x.va.toNat + 0x20) (leBytes 8 w0.toNat ++ leBytes 8 einfo.toNat ++ leBytes 8 eval.toNat)).getD s

/-- STATUS of a launch record (R28): a write that is not made leaves the error record with EKIND 3. -/
def State.statusAt (s : State) (q dom va state : Nat) (cause : BitVec 16) : State :=
  let w : Word := BitVec.ofNat 64 ((state <<< 56) + cause.toNat)
  match s.deviceWrite dom (va + 0x48) (leBytes 8 w.toNat) with
  | some t => t
  | none => s.queueError q 3 va w 0

/-- STATUS of a launch by its number. -/
def State.setStatus (s : State) (l state : Nat) (cause : BitVec 16) : State :=
  match s.launch? l with
  | some x => s.statusAt x.queue x.dom x.va.toNat state cause
  | none => s

/-! ### Validation (R29, R31) -/

/-- Reserved fields and limits of a record's sixteen words (R29). -/
def recordOk (ws : List Word) : Bool :=
  let w (i : Nat) : Word := nth 0 ws i
  let cores := fieldN (w 3) 8 8
  let ctxs := fieldN (w 3) 16 2 + 1
  fieldN (w 1) 56 8 == 0 && fieldN (w 2) 16 16 == 0 && fieldN (w 3) 24 40 == 0 && fieldN (w 3) 18 2 == 0 &&
  fieldN (w 3) 2 6 == 0 && fieldN (w 4) 56 8 == 0 && fieldN (w 5) 56 8 == 0 && fieldN (w 6) 48 16 == 0 &&
  fieldN (w 6) 34 2 == 0 && fieldN (w 6) 3 13 == 0 && fieldN (w 8) 56 8 == 0 && ((ws.drop 10).all fun x => x == 0) &&
  decide (1 ≤ cores) && decide (cores ≤ 128) && decide (ctxs * fieldN (w 3) 20 4 ≤ 4) &&
  !(fieldN (w 6) 36 12 != 0 && fieldN (w 5) 0 56 == 0)

/-- A schedule entry's checks (R31). -/
def copyEntryOk (d : List Word) (cores squads : Nat) : Bool :=
  copyCommonOk d && nth 0 d 13 == 0 && decide (copySlot d < cores) && (copySquads d).all fun q => decide (q < squads)

/-- Cut a list of words into entries of sixteen. -/
def entriesOf (ws : List Word) : List (List Word) := (List.range (ws.length / 16)).map fun i => (ws.drop (16 * i)).take 16

/-- Why validation refuses a record: the cause, and for LOAD_RANGE the record's index, symbol and value. -/
structure Refused where
  cause : BitVec 16
  range : Option (Nat × Nat × Int) := none
  deriving DecidableEq, Repr

/-- FWBASE and GRAPH_ID as a launch's course table has them; none without one, or where it cannot be read. -/
def State.courseIds (s : State) (x : Launch) : Option (Nat × Nat) :=
  if x.graphVa = 0 then none
  else match s.deviceRead x.dom x.graphVa 24 with
    | .ok bs => some (fieldN (wordAt bs 8) 0 56, fieldN (wordAt bs 0) 32 16)
    | .error _ => none

/-- The relocation values that are fixed at validation (R368). -/
def State.relocEnvOf (s : State) (x : Launch) (scbase : Nat) : RelocEnv :=
  { imageVa := x.imageVa, paramVa := x.paramVa, counterPage := none
    graph := s.courseIds x
    scbase := scbase, slot := none }

/-- Validate a record that came through a queue (R29): the launch it makes, or the refusal. The order among causes is
LAUNCH_INVALID, IMAGE_FORMAT, LOAD_RANGE but for a header that cannot name its signature (DEDUCED, log entry 20). An
uncorrectable error in what validation reads refuses the record with LAUNCH_INVALID (DESIGN CHOICE, log entry 64). -/
def State.validate (s : State) (q va : Nat) (ws : List Word) : Except Refused Launch :=
  let dom := fieldN (nth 0 ws 2) 0 16
  let bad : Except Refused Launch := .error ⟨cLaunchInvalid, none⟩
  match s.domain? dom with
  | none => bad
  | some d =>
    if !recordOk ws || dom != (s.queue q).dom then bad
    else
      let x : Launch := { words := ws.take 10, va := BitVec.ofNat 64 va, dom := dom, queue := q, priv := if d.sup then 1 else 0 }
      match s.deviceRead dom x.copyVa (128 * x.copyN) with
      | .error _ => bad
      | .ok cs =>
        let copies := entriesOf (bytesToWords cs)
        if !(copies.all fun e => copyEntryOk e x.coreN (x.ctxs * x.squads)) then bad
        else
          match (s.readGlobal (deviceClient dom) .image x.imageVa 64).1 with
          | .error _ => bad
          | .ok hd =>
            if !headOk hd x.imageId then .error ⟨cImageFormat, none⟩
            else
              match (s.readGlobal (deviceClient dom) .image x.imageVa (imageHead hd).length).1 with
              | .error _ => bad
              | .ok bs =>
                if !signatureOk bs d.sigmask s.mgmt.keys then bad
                else
                  match checkImage bs x.imageId x.entry (x.graphVa != 0) with
                  | none => .error ⟨cImageFormat, none⟩
                  | some im =>
                    match misfit (s.relocEnvOf x d.scbase.toNat) (im.relocs.map relocOf) with
                    | some m => .error ⟨cLoadRange, some m⟩
                    | none => .ok { x with copies := copies, image := im }

/-- The error record of a LOAD_RANGE (R350, R369). -/
def State.rangeError (s : State) (q va : Nat) (m : Nat × Nat × Int) : State :=
  s.queueError q 1 va (BitVec.ofNat 64 ((m.2.1 <<< 32) + m.1)) (BitVec.ofInt 64 m.2.2)

/-- Take one record into a queue, or refuse it (R29, R351). -/
def State.submit (s : State) (q va : Nat) (ws : List Word) : State :=
  match s.validate q va ws with
  | .error r =>
    let s := match r.range with
      | some m => s.rangeError q va m
      | none => s
    s.statusAt q (s.queue q).dom va 5 r.cause
  | .ok x =>
    let n := s.starter.nextLaunch
    let s := { s with launches := s.launches ++ [(n, x)], starter := { s.starter with nextLaunch := n + 1 } }
    let y := s.queue q
    (s.setQueue q { y with list := y.list ++ [n] }).setStatus n 0 0

/-! ### Doorbells (R351) -/

/-- The ring is unreadable or corrupt: the queue is disabled (R351). -/
def State.ringCorrupt (s : State) (q va : Nat) : State :=
  let x := s.queue q
  (s.queueError q 5 va 0 0).setQueue q { x with enabled := false }

/-- Advance HEAD (R351). -/
def State.advanceHead (s : State) (q : Nat) : State :=
  let x := s.queue q
  let s := s.setQueue q { x with head := x.head + 1 }
  (s.deviceWrite x.dom (x.va.toNat + 0x18) (leBytes 4 (x.head + 1).toNat)).getD s

/-- Take a ring entry: an address that names no record is skipped with EKIND 4, as is one whose record cannot be read for an
uncorrectable error (DESIGN CHOICE, log entry 64). -/
def State.takeEntry (s : State) (q idx va : Nat) : State :=
  let x := s.queue q
  let none4 (s : State) (cause : BitVec 16) : State := s.queueError q 4 va (BitVec.ofNat 64 ((cause.toNat <<< 32) + idx)) 0
  if va % 128 ≠ 0 then none4 s cLaunchInvalid
  else
    match s.deviceRead x.dom va 128 with
    | .error e => none4 s e.code
    | .ok bs => s.submit q va (bytesToWords bs)

/-- Take `n` entries in ring order. -/
def State.takeEntries (s : State) (q : Nat) : Nat → State
  | 0 => s
  | n + 1 =>
    let x := s.queue q
    let idx := x.head.toNat % x.entries
    match s.deviceRead x.dom (x.ring + 8 * idx) 8 with
    | .error _ => s.ringCorrupt q (x.ring + 8 * idx)
    | .ok bs => ((s.advanceHead q).takeEntry q idx (leNat bs)).takeEntries q n

/-- A doorbell (R351). -/
def State.doorbell (s : State) (q : Nat) : State :=
  let x := s.queue q
  if !x.enabled then s
  else
    match s.deviceRead x.dom (x.va.toNat + 0x1C) 4 with
    | .error _ => s.ringCorrupt q (x.va.toNat + 0x1C)
    | .ok bs =>
      let n := (BitVec.ofNat 32 (leNat bs) - x.head).toNat
      if x.entries < n then s.ringCorrupt q 0 else s.takeEntries q n

/-! ### Lasting faults at a launch boundary (R440) -/

/-- Withdraw a core. -/
def Core.withdraw (k : Core) : Core := { k with withdrawn := true }

/-- A scrubbed tower: every row zero, every layer ON, every group touched (R32, R34). -/
def Tower.scrubbed (clk : Nat) : Tower := ({} : Tower).touchAll clk (List.range 72)

/-- The cell of the tower that a unit is a bank of. -/
def towerOf : ErrUnit → Option Nat
  | .towerBank _ cell _ _ => some cell
  | _ => none

/-- Apply one lasting fault to a core that holds no launch (R440). A tower that a spare replaces is out of use with the
errors it has shown. -/
def Core.applyLasting (clk : Nat) (k : Core) (u : ErrUnit) : Core :=
  match u with
  | .towerBank _ cell _ _ =>
    let row := cell / 16
    if (List.range 16).any fun col => k.usesSpare (row * 16 + col) then k.withdraw
    else
      { k with remap := set 0 cell (k.remapWord cell ||| 0x10102) k.remap
               spares := set .offSpare row (Tower.scrubbed clk) k.spares
               errs := k.errs.filter fun p => towerOf p.1 != some cell
               tests := k.tests.filter fun v => towerOf v != some cell }
  | .cellUnit .. => k.withdraw
  | .cmemWord .. => k.withdraw
  | .relayLane .. => k

/-- The first of each tower's units: one fault takes a tower out of use, whichever of its banks are faulty. -/
def onePerTower : List ErrUnit → List ErrUnit
  | [] => []
  | u :: us => u :: (onePerTower us).filter fun v => (towerOf u).isNone || towerOf v != towerOf u

/-- The lasting faults that waited for a launch boundary take effect. -/
def Core.settleLasting (clk : Nat) (k : Core) : Core :=
  { (onePerTower k.lasting).foldl (Core.applyLasting clk) k with lasting := [] }

/-- A unit as its core keeps it, and as the device names a unit of core `c`. -/
def unitAt (c : Nat) : ErrUnit → ErrUnit
  | .towerBank _ cell layer bank => .towerBank c cell layer bank
  | .cellUnit _ cell n => .cellUnit c cell n
  | .cmemWord _ w => .cmemWord c w
  | .relayLane p l => .relayLane p l

/-- The action that a lasting verdict leads to, as the health log numbers it (R400, R440). -/
def State.lastingAction (s : State) : ErrUnit → Nat
  | .towerBank c cell _ _ =>
    let k := s.core c
    if (List.range 16).any fun col => k.usesSpare (cell / 16 * 16 + col) ||
        (col != cell % 16 && k.lasting.any fun u => towerOf u == some (cell / 16 * 16 + col)) then 2 else 1
  | .cellUnit .. => 2
  | .cmemWord .. => 2
  | .relayLane .. => 3

/-- Append to the health log, which keeps the last 4,096 entries (R400). -/
def Mgmt.logHealth (m : Mgmt) (e : HealthEntry) : Mgmt :=
  { m with health := (m.health ++ [e]).drop (m.health.length + 1 - 4096), healthNext := m.healthNext + 1 }

/-- A verdict enters the health log and the device's totals (R399, R400, R439). -/
def Mgmt.countVerdict (m : Mgmt) (e : HealthEntry) : Mgmt :=
  { m.logHealth e with
      lasting := if e.lasting then BitVec.ofNat 16 (satAdd 16 m.lasting.toNat 1) else m.lasting
      transient := if e.lasting then m.transient else BitVec.ofNat 16 (satAdd 16 m.transient.toNat 1) }

/-- A unit found lasting is counted once, and its fault takes effect when the core holds no launch (R439, R440). -/
def Core.lastingFault (clk : Nat) (k : Core) (u : ErrUnit) : Core :=
  let k := { k.countErr 0 1 with lasting := k.lasting ++ [u] }
  if k.launch.isNone then k.settleLasting clk else k

/-- A bank holds a row in error, which a read of its self-test meets (R439). -/
def Tower.bankBad (t : Tower) (layer bank : Nat) : Bool :=
  (List.range 16).any fun w =>
    if bank = 8 then t.badXor.contains (xorRow (layer * 128 + w)) else t.isBad (layer * 128 + bank * 16 + w)

/-- What a self-test finds beside what its occurrence says: the errors that a bank still holds. -/
def Core.testFinds (k : Core) : ErrUnit → Bool
  | .towerBank _ cell layer bank => (k.tower cell).bankBad layer bank
  | _ => false

/-- A unit whose test waits for a launch boundary (R439). -/
def isCellUnit : ErrUnit → Bool
  | .cellUnit .. => true
  | _ => false

/-- The self-test of a unit of a core that waits for it is over (R439): lasting where it found an error or three errors were
met within 24 hours. A unit that waits for its lasting fault to take effect is not classified again. -/
def State.classify (s : State) (c : Nat) (u : ErrUnit) (failed : Bool) : State :=
  let k := s.core c
  let v := unitAt 0 u
  let k := { k with tests := k.tests.erase v, errs := k.errs.filter fun p => decide (s.clock < p.2 + dayCycles) }
  let s := s.setCore c k
  if k.lasting.contains v || k.withdrawn then s
  else
    let lasting := failed || k.testFinds v || decide (3 ≤ (k.errs.filter fun p => p.1 == v).length)
    let s := s.modMgmt fun m => m.countVerdict ⟨s.clock / 1024, u, lasting, if lasting then s.lastingAction u else 0⟩
    if lasting then s.setCore c (k.lastingFault s.clock v) else s

/-- A self-test of a unit of a core ends; a cell's is only run at a launch boundary (R439). -/
def State.coreVerdict (s : State) (c : Nat) (u : ErrUnit) (failed : Bool) : State :=
  let k := s.core c
  if !k.tests.contains (unitAt 0 u) || isCellUnit u && k.launch.isSome then s else s.classify c u failed

/-- The tests of a core's cells that wait for its launch boundary are run before the scrub; whether one finds an error is a free
value (R439) (DESIGN CHOICE, log entry 11). -/
def State.testCells (s : State) (c : Nat) : State :=
  ((s.core c).tests.filter isCellUnit).foldl (fun s u =>
    let (v, s) := s.drawFree
    s.classify c (unitAt c u) (bit v 0)) s

/-- A context whose launch has given up its core: idle, with nothing in flight; its registers keep their values, which no rule
clears before the next launch sets them (R32, R365). -/
def Ctx.release (x : Ctx) : Ctx :=
  { x with
    run := .idle, land := [], skip := 0, owed := 0, resume := none, wskip := false, streams := [], advances := [], loads := []
    wakes := [], issue := none, levels := [], pend := [], judgeQ := [], judgeSent := false, frontAsk := none, frontGot := none
    yieldPt := none, drainReq := false, frozen := false, halted := false, haltReq := false, stepReq := false, dbgRec := [] }

/-- A core gives up its launch: its contexts are idle, its units empty; registers, towers, dictionary and code stay (R34, R45,
R365). -/
def Core.release (clk : Nat) (k : Core) : Core :=
  Core.settleLasting clk { k with
    launch := none, slot := 0, ctxs := k.ctxs.map fun (p : Nat × Ctx) => (p.1, p.2.release)
    engines := [], gather := [], watch := [], holder := 0, held := 0
    cells := k.cells.map fun (p : Nat × Cell) =>
      (p.1, { p.2.kill with past := [], latch := [], rx := [], groupWakes := [], tower := { p.2.tower with defer := [] } })
    spares := k.spares.map fun (p : Nat × Tower) => (p.1, { p.2 with defer := [] }) }

/-- Drop the traffic of a launch that is under way. -/
def State.dropTraffic (s : State) (l : Nat) : State :=
  { s with xputs := s.xputs.filter (fun x => x.launch != l), batons := s.batons.filter (fun b => b.launch != l)
           express := s.express.filter fun e => e.launch != l }

/-- Free the cores of a launch. -/
def State.freeCores (s : State) (cs : List Nat) : State := cs.foldl (fun s c => s.setCore c ((s.core c).release s.clock)) s

/-- The CROSS graph of a launch that ends is kept for what other packages may still send its home judge (R301, R303). -/
def State.keepEnded (s : State) (l : Nat) : State :=
  match (s.launch? l).bind fun x => x.graph.map fun g => (x.dom, g) with
  | some (dom, g) =>
    if g.cross ∧ g.auth ≠ 3 then
      { s with mgmt := { s.mgmt with
        ended := (s.mgmt.ended.filter fun p => s.crossName p.1 p.2 != s.crossName dom g) ++ [(dom, g)] } }
    else s
  | none => s

/-- Remove a launch for good: its records on checked pages and its traffic go with it (R263). -/
def State.forget (s : State) (l : Nat) : State :=
  let s := ((s.keepEnded l).dropRecords l).dropTraffic l
  { s with launches := s.launches.filter (fun p => p.1 != l)
           starter := { s.starter with heldOut := s.starter.heldOut.filter fun h => h != l } }

/-- A release event: a retirement, a kill, or the placement of a launch that was saved (R355). -/
def State.releaseEvent (s : State) : State := { s with starter := { s.starter with released := true } }

/-! ### Saved-state storage (R457) -/

/-- Take an interval out of a list of intervals (first, count). -/
def cutInterval (xs : List (Nat × Nat)) (a n : Nat) : List (Nat × Nat) :=
  (xs.map fun x =>
    let lo := (x.1, min (x.1 + x.2) a - x.1)
    let hi := (max x.1 (a + n), x.1 + x.2 - max x.1 (a + n))
    (if 0 < lo.2 then [lo] else []) ++ (if 0 < hi.2 then [hi] else [])).flatten

/-- The whole 64 KiB frames of the stacks (R27). -/
def stackFrames : List (Nat × Nat) := (List.range 8).map fun i => (i * 0x100000, 976562)

/-- Frames free for saved states: outside every grant, the Filzan reserved region and the frames held. -/
def State.freeFrames (s : State) : List (Nat × Nat) :=
  let taken := (s.mgmt.domains.map fun d => d.grants).flatten ++ (s.launches.map fun p => p.2.frames).flatten
  taken.foldl (fun xs g => cutInterval xs g.1 g.2) (cutInterval stackFrames 0x7DE6B2 0x10001)

/-- Frames of S(V) (R457). -/
def Launch.saveFrames (x : Launch) : Nat :=
  x.coreN * (x.ctxs * 1 + 8 + x.ctxs * x.squads * 40)

/-- Take `n` frames, lowest first. -/
def takeFrames : List (Nat × Nat) → Nat → List (Nat × Nat)
  | [], _ => []
  | f :: fs, n => if n = 0 then [] else (f.1, min f.2 n) :: takeFrames fs (n - f.2)

/-- Whether there is room for a launch's saved state. -/
def State.roomToSave (s : State) (x : Launch) : Bool :=
  decide (x.saveFrames ≤ (s.freeFrames.map fun f => f.2).foldl (· + ·) 0)

/-! ### Saving (R360, R424) -/

/-- An engine context as it is saved: its running operation will start again from its committed position. -/
def Engine.saved (e : Engine) : Engine :=
  match e.run with
  | some r => { e with run := none, queue := { r.op with start := r.pos } :: e.queue }
  | none => e

/-- A context as it is saved. -/
def Ctx.saved (x : Ctx) : Ctx :=
  { x with run := (if x.run = .drained then .running else x.run), drainReq := false, frozen := false, haltReq := false, frontAsk := none }

/-- A tower as it is saved: wakes under way are over, deferrals end (R238). -/
def Tower.saved (t : Tower) : Tower := { t.wakes.foldl (fun t w => t.endWake w.layer) t with defer := [] }

/-- The cells of a core that a launch binds. -/
def Launch.boundCells (x : Launch) : List Nat := cellsOf (BitVec.ofNat 4 (2 ^ (x.ctxs * x.squads) - 1))

/-- A cell as it is saved: with the tower that serves it. -/
def Core.savedCell (k : Core) (n : Nat) : Cell := { k.cell n with tower := (k.tower n).saved, groupWakes := [] }

/-- What a core of a launch saves: the cells that the launch binds, with the towers that serve them (R424). -/
def Core.saved (k : Core) (x : Launch) : Core :=
  { k with
    ctxs := k.ctxs.map (fun (p : Nat × Ctx) => (p.1, p.2.saved))
    cells := (x.boundCells.filter fun n => k.savedCell n ≠ {}).map fun n => (n, k.savedCell n)
    engines := k.engines.map fun (p : Nat × Engine) => (p.1, p.2.saved) }

/-- Frames for a launch's saved state, lowest first, unless it holds some already (R457). -/
def State.holdFrames (s : State) (l : Nat) : State :=
  match s.launch? l with
  | some x => if x.frames.isEmpty then s.setLaunch l { x with frames := takeFrames s.freeFrames x.saveFrames } else s
  | none => s

/-- Put a launch back at the head or the tail of its queue in state 0 (R360, R364). -/
def State.requeue (s : State) (l : Nat) (toTail : Bool) : State :=
  match s.launch? l with
  | none => s
  | some x =>
    let y := s.queue x.queue
    s.setQueue x.queue { y with list := if toTail then y.list ++ [l] else l :: y.list }

/-- A context has a halt to come. -/
def Ctx.haltComes (x : Ctx) : Bool := x.haltReq || x.pend.any fun p => p.cause == cHalt

/-- The contexts of a launch that are to halt do so before it is saved (R424, R431). -/
def State.haltWaiting (s : State) (x : Launch) : State :=
  x.cores.foldl (fun s c =>
    ((s.core c).ctxs.map Prod.fst).foldl (fun s k => if (s.ctxAt c k).haltComes then s.halt c k else s) s) s

/-- Save a launch, free its cores and queue it again (R360, R424). Express entries on their way are kept with it, by the slot
of their core (R361). -/
def State.saveLaunch (s : State) (l : Nat) (toTail : Bool) : State :=
  match s.launch? l with
  | none => s
  | some x =>
    let s := s.haltWaiting x
    let cores := x.cores.map fun c => ((s.core c).slot, (s.core c).saved x)
    let mine := s.express.filter fun e => e.launch == l
    let bySlot (e : ExpressMsg) : ExpressMsg := { e with core := (s.core e.core).slot, fromCore := (s.core e.fromCore).slot }
    let t := ({ s with express := s.express.filter fun e => e.launch != l }).freeCores x.cores
    let t := t.setLaunch l { x with
      phase := .queued, cores := [], saved := some cores, express := mine.map bySlot, wdogSecond := false }
    (t.setStatus l 0 0).requeue l toTail

/-! ### Placing (R34 to R37, R361) -/

/-- Whole cores that hold no launch, lowest first. -/
def State.freeWhole (s : State) : List Nat :=
  (List.range Config.cores).filter fun c => (s.core c).launch.isNone && !(s.core c).withdrawn

/-- The authoritative judge of a graph on given cores (R288), and the home package where it is another (R303): which packages take
part in a CROSS graph is a fact of theirs, so whether one of a lower number does, and which, is a free value, a package that this
one has joined where one has a lower number (DESIGN CHOICE, log entries 11 and 81). -/
def State.judgeOf (s : State) (cross : Bool) (cores : List Nat) : (Nat × Nat) × State :=
  if cross then
    if s.mgmt.package = 0 then ((2, 0), s)
    else
      let (v, s) := s.drawFree
      let lower := s.mgmt.peers.filter fun p => decide (p < s.mgmt.package)
      let n := v.toNat / 2
      if bit v 0 then ((2, 0), s)
      else ((3, if lower.isEmpty then n % s.mgmt.package else nth 0 lower (n % lower.length)), s)
  else if cores.all fun c => decide (c < 64) then ((0, 0), s)
  else if cores.all fun c => decide (64 ≤ c) then ((1, 0), s)
  else ((2, 0), s)

/-- Whether a launch keeps what the towers of a cell hold (R34). -/
def Core.keeps (k : Core) (x : Launch) (n : Nat) : Bool := x.keep && get 0 k.lastDom (squadOf n) == x.dom

/-- Scrub a cell's own tower, and with it its spare where the cell is remapped (R34). -/
def Core.scrubCell (k : Core) (clk n : Nat) : Core :=
  (k.setCell n { k.cell n with tower := Tower.scrubbed clk }).setTower n (Tower.scrubbed clk)

/-- Step 2 of R35 on one core: every cell newly bound is scrubbed, but for what a launch keeps (R34). -/
def Core.scrubCells (k : Core) (clk : Nat) (x : Launch) : Core :=
  (x.boundCells.filter fun n => !k.keeps x n).foldl (fun k n => k.scrubCell clk n) k

/-- Start a cell afresh (R32); its towers have been scrubbed, or keep their rows. -/
def Core.startCell (k : Core) (n : Nat) : Core :=
  (k.setCell n { tower := (k.cell n).tower }).setTower n { k.tower n with layers := [], wakes := [], defer := [] }

/-- A context as gang start leaves it (R32, R33, R285, R386, R416). -/
def startCtx (x : Launch) (g : Option Graph) (core slot k : Nat) : Ctx :=
  let unit := slot * x.ctxs + k
  let sqm := x.squadMask k
  let w (n : Nat) : Word := BitVec.ofNat 64 n
  let decl (ty : Nat) := x.image.decls.filter fun d => fieldN d.1 56 8 == ty
  { run := .running, pc := BitVec.ofNat 17 x.entry
    g := [(1, x.paramVa), (2, unit), (3, x.coreN * x.ctxs), (4, sqm)].foldl (fun m p => set 0 p.1 (w p.2) m) []
    h := (decl 2).foldl (fun m d => set 0 (fieldN d.1 0 4) d.2 m) []
    tl := (decl 3).foldl (fun m d => set 0 (fieldN d.1 0 3)
      (w ((1 <<< 63) + (fieldN d.2 0 3 <<< 56) + (counterBase + slot * 65536 + 8 * fieldN d.2 0 3))) m) []
    place := w ((unit <<< 32) + (slot <<< 24) + (sqm <<< 20) + (k <<< 16) + ((core / 64) <<< 7) + core)
    priv := w ((x.priv <<< 16) + x.dom)
    tvec := if x.image.trapv = 0xFFFFFFFF then 0 else w (0x10000 + x.image.trapv.toNat % 65536)
    tsave := w (0x3F000 + 0x400 * k)
    curst := match g with
      | some g => w ((1 <<< 63) + g.start)
      | none => 0 }

/-- The schedule entries of an engine context of a slot, numbered (R318). -/
def Launch.engineAt (x : Launch) (slot e : Nat) : Engine :=
  let mine := (indexed 0 x.copies).filter fun p => copySlot p.2 == slot && copyEctx p.2 == e
  let (ops, total) := mine.foldl (fun (acc : List EngineOp × Nat) p =>
    let n := satAdd 64 acc.2 (copyInc p.2)
    (acc.1 ++ [⟨p.2, BitVec.ofNat 64 n, some p.1, 0, 0, 0, 0, copyGate p.2⟩], n)) ([], 0)
  { queue := ops, issued := BitVec.ofNat 64 total }

/-- Step 5 of R35 on one core: contexts, cells and per-core registers of R32, and the `.region` declarations. -/
def Core.gangInit (k : Core) (x : Launch) (g : Option Graph) (core slot : Nat) : Core :=
  let bound := x.boundCells
  let k := bound.foldl (fun k n => k.startCell n) k
  let regions := x.image.decls.filter fun d => fieldN d.1 56 8 == 1
  let k := bound.foldl (fun k n => k.setCell n { k.cell n with
    rgn := regions.foldl (fun m d => set 0 (fieldN d.1 0 4) d.2 m) [] }) k
  { k with
    ctxs := (List.range x.ctxs).foldl (fun m i => set {} i (startCtx x g core slot i) m) []
    engines := (List.range 8).foldl (fun m e => set {} e (x.engineAt slot e) m) []
    gather := [], watch := [], evq := [], evDrop := 0, evOvf := false, evEng := 0, ewstall := 0, holder := 0, held := 0 }

/-- Step 2 of R35 on one core of a saved launch (R361): the saved tower rows of every cell that it binds are written in the
place of the scrub. -/
def Core.restoreTowers (k : Core) (clk : Nat) (x : Launch) (sv : Core) : Core :=
  x.boundCells.foldl (fun k n => (k.scrubCell clk n).setTower n ((sv.cell n).tower.touchAll clk (List.range 72))) k

/-- Put a saved core back (R361): everything but the dictionary, the bitmap and the device's own registers. -/
def Core.restore (k : Core) (x : Launch) (sv : Core) (core slot : Nat) : Core :=
  let k := x.boundCells.foldl (fun k n =>
    let t := k.tower n
    (k.setCell n { sv.cell n with tower := (k.cell n).tower }).setTower n t) k
  { k with
    cmem := sv.cmem, badCmem := sv.badCmem, evq := sv.evq, evDrop := sv.evDrop, evOvf := sv.evOvf, evEng := sv.evEng
    watch := sv.watch, gather := sv.gather, engines := sv.engines, ewstall := 0, holder := 0, held := 0
    ctxs := sv.ctxs.map fun (p : Nat × Ctx) => (p.1, { p.2 with
      place := BitVec.ofNat 64 ((p.2.unit <<< 32) + (slot <<< 24) + (p.2.sqm.toNat <<< 20) + (p.1 <<< 16) +
        ((core / 64) <<< 7) + core) }) }

/-- The course table read and checked (R283, R37). -/
def State.readCourse (s : State) (x : Launch) : Except (BitVec 16) Graph :=
  match s.deviceRead x.dom x.graphVa 0x140 with
  | .error e => .error e.code
  | .ok hd =>
    let n := fieldN (wordAt hd 0) 0 8 + 1
    match s.deviceRead x.dom x.graphVa (courseBytes n) with
    | .error e => .error e.code
    | .ok bs =>
      let g := courseGraph bs
      let mapped := (s.translateAll (deviceClient x.dom).acc .judge (pieces g.fwbase.toNat 2112)).1
      if x.graphVa % 64 = 0 ∧ courseOk bs then
        match mapped with
        | .ok _ => .ok g
        | .error _ => .error cCourseInvalid
      else .error cCourseInvalid

/-- Step 4 of R35: the graph enters its judge; the units hold (START, 0), and the frontier words and the status block are
written (R285, R287, R302). Another package's home judge does both, and is told of the units that hold (START, 0)
(R303) (DEDUCED, log entry 29). -/
def State.startGraph (s : State) (l : Nat) (x : Launch) (g : Graph) (judge : Nat × Nat) : State :=
  let auth := judge.1
  let start := [((g.start, (0 : Word)), (x.coreN * x.ctxs : Int))]
  let g := { g with auth := auth, home := judge.2, counts := start }
  let g := { g with front := (List.range g.stations).foldl (fun m st => set 0 st (g.compute st) m) []
                    counts := if auth = 3 then [] else start }
  let s := s.modLaunch l fun y => { y with graph := some g }
  if auth = 3 then s.post (.deltas g.homePackage s.mgmt.package (s.crossName x.dom g) 0x3FF true (start.map fun d => (d.1.1, d.1.2, d.2)))
  else
  let s := { s with mgmt := { s.mgmt with ended := s.mgmt.ended.filter fun p => s.crossName p.1 p.2 != s.crossName x.dom g } }
  let s := (List.range 256).foldl (fun s st =>
    s.judgeWrite x.dom (g.fwbase.toNat + 8 * st) (if st < g.stations then g.frontier st else closedLap)) s
  s.writeStatusBlock x.dom g

/-- The judge that a launch's graph would have on given cores, with the graph; none where no graph enters a judge. A placement
draws it once, from the state in which it has been found possible (R292). -/
def State.judgeFor (s : State) (x : Launch) (cores : List Nat) : Option (Graph × Nat × Nat) × State :=
  if x.graph.isSome ∨ x.graphVa = 0 then (none, s)
  else
    match s.readCourse x with
    | .error _ => (none, s)
    | .ok g =>
      let (judge, s) := s.judgeOf g.cross cores
      (some (g, judge), s)

/-- The image for the cores that need it, copied as it stands and checked again for R41 and R367 (R29, R37): what its header
and its declarations said at validation stands. -/
def State.readImage (s : State) (x : Launch) : Except (BitVec 16) (List Byte × List (Word × Word × Word)) :=
  match x.brought, (s.readGlobal (deviceClient x.dom) .image x.imageVa 64).1 with
  | some bs, _ => .ok (bs, x.image.relocs)
  | none, .error e => .error e.code
  | none, .ok hd =>
    if !(imageHead hd).fits then .error cImageFormat
    else
      match (s.readGlobal (deviceClient x.dom) .image x.imageVa (imageHead hd).span).1 with
      | .error e => .error e.code
      | .ok bs =>
        match checkCode bs x.entry x.image.trapv (x.graphVa != 0) with
        | some rs => .ok (bs, rs)
        | none => .error cImageFormat

/-- How a placement ends: placed, or a failing state and cause with the state that reports it. -/
structure PlaceFail where
  state : Nat
  cause : BitVec 16
  range : Option (Nat × Nat × Int) := none
  deriving DecidableEq, Repr

/-- The squads that a launch binds on a core have been held in its domain: the condition of KEEP is tested against the last
launch to hold a squad, whether or not its placement came to its end (R34). -/
def Core.holdSquads (k : Core) (x : Launch) : Core :=
  { k with lastDom := ((List.range 4).filter fun q => decide (q < x.ctxs * x.squads)).foldl (fun m q => set 0 q x.dom m) k.lastDom }

/-- Step 2 of R35 on every core, after the tests that wait for it. -/
def State.scrubStage (s : State) (x : Launch) (slots : List (Nat × Nat)) : State :=
  slots.foldl (fun s p =>
    let s := s.testCells p.2
    let k := s.core p.2
    match x.saved with
    | some sv => s.setCore p.2 ((k.restoreTowers s.clock x ((sv.lookup p.1).getD {})).holdSquads x)
    | none => s.setCore p.2 ((k.scrubCells s.clock x).holdSquads x)) s

/-- Step 3 of R35 on every core: load or reuse the resident copy, then relocate (R45, R366, R369). -/
def State.loadCores (s : State) (x : Launch) (graph : Option (Nat × Nat)) (scbase : Nat) :
    List (Nat × Nat) → State × Option PlaceFail
  | [] => (s, none)
  | (slot, c) :: rest =>
    let k := s.core c
    let env : RelocEnv := ⟨x.imageVa, x.paramVa, some (counterBase + slot * 65536), graph, scbase, some slot⟩
    let finish (k : Core) (rs : List (Word × Word × Word)) : State × Option PlaceFail :=
      match misfit env (rs.map relocOf) with
      | some m => (s.setCore c k, some ⟨5, cLoadRange, some m⟩)
      | none => (s.setCore c ((k.relocateAll env rs).clearCmem)).loadCores x graph scbase rest
    if k.image = some x.imageId then finish k x.image.relocs
    else
      match s.readImage x with
      | .error cz => (s, some ⟨6, cz, none⟩)
      | .ok (bs, rs) => finish (k.loadImage bs x.imageId) rs

/-- FWBASE and GRAPH_ID for the relocations: of the launch's own graph when it was saved, else as the course table has
them. -/
def State.relocGraph (s : State) (x : Launch) : Option (Nat × Nat) :=
  match x.graph with
  | some g => some (g.fwbase.toNat, g.id)
  | none => s.courseIds x

/-- The graph that a placement loads: the launch's own when it was saved, else the course table's. -/
def State.placeGraph (s : State) (x : Launch) : Except PlaceFail (Option Graph) :=
  match x.graph with
  | some g => .ok (some g)
  | none =>
    if x.graphVa = 0 then .ok none
    else
      match s.readCourse x with
      | .ok g => .ok (some g)
      | .error cz => .error ⟨6, cz, none⟩

/-- Step 4 of R35: the course table into its judge. A copy schedule that has ceased to be readable fails the placement here,
after the images, their relocations and the course table: R37 gives it no stage (DESIGN CHOICE, log entry 54). -/
def State.graphStage (s : State) (l : Nat) (x : Launch) (judge : Nat × Nat) : State × Option PlaceFail :=
  match s.placeGraph x with
  | .error f => (s, some f)
  | .ok g =>
    match s.deviceRead x.dom x.copyVa (128 * x.copyN) with
    | .error e => (s, some ⟨6, e.code, none⟩)
    | .ok _ =>
      (match g with
        | some g => if x.graph.isSome then s else s.startGraph l x g judge
        | none => s, none)

/-- Step 5 of R35 on every core: the state of R32, or the saved state (R361). -/
def State.initStage (s : State) (l : Nat) (x : Launch) (slots : List (Nat × Nat)) : State :=
  let graph := (s.launch? l).bind fun y => y.graph
  slots.foldl (fun s p =>
    let k := s.core p.2
    match x.saved with
    | some sv => s.setCore p.2 (k.restore x ((sv.lookup p.1).getD {}) p.2 p.1)
    | none => s.setCore p.2 (k.gangInit x graph p.2 p.1)) s

/-- The express entries that were saved with a launch go on to the cores that now have their slots (R361). -/
def State.resumeExpress (s : State) (x : Launch) (cores : List Nat) : State :=
  { s with express := s.express ++ x.express.map fun e => { e with core := nth 0 cores e.core, fromCore := nth 0 cores e.fromCore } }

/-- The core of the new placement that has the slot that a core had in the saved one; other cores stay. -/
def Launch.movedCore (x : Launch) (cores : List Nat) (c : Nat) : Nat :=
  match (x.saved.getD []).find? fun p => fieldN (p.2.ctx 0).place 0 7 == c with
  | some p => cores.getD p.1 c
  | none => c

/-- A record of a launch that has moved names its agent, and its engine contexts, by the cores that they are on now. -/
def LineRec.moved (r : LineRec) (l : Nat) (core : Nat → Nat) : LineRec :=
  if r.launch ≠ l then r
  else { r with
    agent := match r.agent with
      | .ctx c k => .ctx (core c) k
      | .engine c e => .engine (core c) e
    id := match r.id with
      | .timeline m slot c e n => .timeline m slot (core c) e n
      | i => i }

/-- The records that a launch has left on checked pages go with it to the cores on which it is placed again, since no value may
differ from a run without the pre-emption (R263, R361) (DEDUCED, log entry 84). -/
def State.moveRecords (s : State) (l : Nat) (x : Launch) (cores : List Nat) : State :=
  let move (r : LineRec) : LineRec := r.moved l (x.movedCore cores)
  if x.saved.isNone then s
  else { s with lines := s.lines.map fun p => (p.1, { p.2 with write := p.2.write.map move, readers := p.2.readers.map move }) }

/-- Steps 2 to 5 of R35 for a launch on given cores, in that order; a failure ends them where it is met and leaves the cores
reserved until it is reported (R37). -/
def State.placeSteps (s : State) (l : Nat) (x : Launch) (cores : List Nat) (judge : Nat × Nat) : State × Option PlaceFail :=
  let slots := indexed 0 cores
  let scbase := if x.saved.isSome then x.scbase
    else match s.domain? x.dom with
      | some d => d.scbase
      | none => 0
  match (s.scrubStage x slots).loadCores x (s.relocGraph x) scbase.toNat slots with
  | (s, some f) => (s, some f)
  | (s, none) =>
    match s.graphStage l x judge with
    | (s, some f) => (s, some f)
    | (s, none) =>
      let s := s.modLaunch l fun y => { y with scbase := scbase }
      (((s.initStage l x slots).resumeExpress x cores).moveRecords l x cores, none)

/-- Place a launch (R35): reserve, take steps 1 to 5, and write state 1; an error is left for PLACEMENT_FAIL. -/
def State.place (s : State) (l : Nat) : State :=
  match s.launch? l with
  | none => s
  | some x =>
    let cores := s.freeWhole.take x.coreN
    let (found, s) := s.judgeFor x cores
    let s := (indexed 0 cores).foldl (fun s p => s.setCore p.2 { s.core p.2 with launch := some l, slot := p.1 }) s
    let seq := s.starter.nextSeq
    let restored := x.saved.isSome
    let s := { s with starter := { s.starter with nextSeq := seq + 1 } }
    let s := if restored then s.releaseEvent else s
    let s := s.modLaunch l fun y => { y with cores := cores, phase := .placed, placedSeq := seq, block := true }
    match s.placeSteps l x cores ((found.map Prod.snd).getD (2, 0)) with
    | (s, some f) =>
      let s := match f.range with
        | some m => s.rangeError x.queue x.va.toNat m
        | none => s
      s.modLaunch l fun y => { y with phase := .failing f.state f.cause }
    | (s, none) =>
      let s := s.modLaunch l fun y => { y with
        saved := none, frames := [], express := []
        counters := if restored then y.counters else []
        stage := if restored then y.stage else 0 }
      s.setStatus l 1 0

end Sys2Proof.Machine
end

