-- ==== Sys2Proof/Machine/System.lean ====
section
/-! DEFINITION. The system instructions of the M slot: refresh deferral and power states, system registers, translation
buffers, event records and watchpoints (R138 to R140, R237 to R240, R334 to R342 and the registers' own rules). -/

namespace Sys2Proof.Machine

/-! ### Power and refresh (R238, R334, R335) -/

/-- The squad mask of TDEFER, TPWR and VPWR. -/
def mSquads (f : MForm) : BitVec 4 := field f.imm 0 4

/-- A squad mask names a squad that the context does not hold: ILLEGAL_OP. -/
def notHeld (f : MForm) (s : State) : Bool := mSquads f &&& ~~~s.cx.sqm != 0

/-- An M-slot instruction with a further encoding check that depends on the context. -/
def memOpIf (bad : Bool) (m : Meaning) : Meaning := { m with check := { m.check with illegal := m.check.illegal || bad } }

/-- The retention limit of a temperature in milliseconds (R235). -/
def retention (celsius : Nat) : Nat :=
  if celsius ≤ 45 then 1024 else if celsius ≤ 50 then 724 else if celsius ≤ 55 then 512 else if celsius ≤ 60 then 362
  else if celsius ≤ 65 then 256 else if celsius ≤ 70 then 181 else if celsius ≤ 75 then 128 else if celsius ≤ 80 then 90
  else if celsius ≤ 85 then 64 else if celsius ≤ 90 then 45 else if celsius ≤ 95 then 32 else if celsius ≤ 100 then 22
  else if celsius ≤ 105 then 16 else if celsius ≤ 110 then 11 else 8

/-- Defer or resume the refresh of one layer (R238). -/
def Tower.deferLayer (t : Tower) (clk us l : Nat) : Tower :=
  if t.layer l = .off then t
  else if us = 0 then { t with defer := drop l t.defer }
  else { t with defer := set 0 l (clk + us * Config.cyclesPerUs) t.defer }

/-- TDEFER (R238). -/
def meanTdefer (f : MForm) (s : State) : Meaning :=
  let us := min (s.cx.greg f.a.toNat).toNat 1048576
  memOpIf (notHeld f s) (memOp (.tdefer f) f [] none
    (fun s =>
      let clk := s.clock
      s.modCore fun k => k.modTowers (mSquads f) fun _ t =>
        (maskList (field f.imm 4 8 : BitVec 8)).foldl (fun t l => t.deferLayer clk us l) t) s)
/-- Run TDEFER. -/
def execTdefer (f : MForm) (s : State) : Res := s.run (meanTdefer f s)

/-- When a TPWR changes a layer, by level and cycle: the later of now and the landings of the context's earlier writes to it
(R334). -/
def Core.layerDue (k : Core) (x : Ctx) (l : Nat) : Nat × Nat := x.lastOf (k.writesInto x fun r => rowLayer r == l)

/-- TPWR on one layer of a cell: at once, or after the writes in flight. -/
def Core.powerLayer (k : Core) (x : Ctx) (n l : Nat) (due : Nat × Nat) (p : LayerPower) : Core :=
  if x.over due.1 due.2 then k.setTower n ((k.tower n).powerTo l p)
  else
    let y := k.cell n
    k.setCell n { y with power := y.power ++ [⟨due.1, due.2, l, p⟩] }

/-- TPWR (R334). -/
def meanTpwr (f : MForm) (s : State) : Meaning :=
  memOpIf (notHeld f s) (memOp (.tpwr f) f [] none
    (fun s =>
      let x := s.cx
      let p := layerCode (fieldN f.imm 12 2)
      s.modCore fun k =>
        (maskList (field f.imm 4 8 : BitVec 8)).foldl (fun k l =>
          let due := k.layerDue x l
          (cellsOf (mSquads f)).foldl (fun k n => k.powerLayer x n l due p) k) k) s)
/-- Run TPWR. -/
def execTpwr (f : MForm) (s : State) : Res := s.run (meanTpwr f s)

/-- VPWR (R138, R140, R335); a squad that the context does not hold is ILLEGAL_OP (DESIGN CHOICE, log entry 68). -/
def meanVpwr (f : MForm) (s : State) : Meaning :=
  memOpIf (notHeld f s) (memOp (.vpwr f) f [] none
    (fun s =>
      let p := groupCode (fieldN f.imm 8 2)
      s.modCore fun k => k.modCells (mSquads f) fun _ y =>
        (maskList (field f.imm 4 4 : BitVec 4)).foldl (fun y g =>
          { y.setGroup g p with groupWakes := y.groupWakes.filter fun w => w != g }) y) s)
/-- Run VPWR. -/
def execVpwr (f : MForm) (s : State) : Res := s.run (meanVpwr f s)

/-! ### System registers (R336, R337) -/

/-- The numbers the manual names (R337) (DEDUCED, log entry 40). -/
def sysKnown (n : Nat) : Bool :=
  [0x001, 0x002, 0x010, 0x011, 0x012, 0x018, 0x020, 0x024, 0x025, 0x030, 0x031, 0x032, 0x033, 0x034, 0x0B8, 0x0B9,
    0x280, 0x281, 0x282, 0x2C0, 0x2C1, 0x2D0, 0x2D1, 0x2D2, 0x2E0, 0x2E1, 0x2E2, 0x2E4, 0x2E5].contains n ||
  (decide (0x040 ≤ n) && decide (n ≤ 0x04F)) || (decide (0x060 ≤ n) && decide (n ≤ 0x06F)) ||
  (decide (0x080 ≤ n) && decide (n ≤ 0x08F)) || (decide (0x0A0 ≤ n) && decide (n ≤ 0x0A7)) ||
  (decide (0x0FF ≤ n) && decide (n ≤ 0x207))

/-- SYS.EVSTAT (R123). -/
def Core.evstat (k : Core) : Word :=
  BitVec.ofNat 64 ((k.evDrop.toNat <<< 32) + ((if k.evOvf then 1 else 0) <<< 31) + (k.evEng.toNat <<< 8) + k.evq.length)

/-- SYS.RETLIM (R237). -/
def State.retlim (s : State) (c : Nat) : Word :=
  let t := (s.cluster (clusterOf c)).temp
  BitVec.ofNat 64 ((Nat.min t 255 <<< 16) + retention t)

/-- The cell whose region table a SYSR reads (R118): the lowest of the lowest bound squad. -/
def Ctx.rgnCell (x : Ctx) : Option Nat := (maskList x.sqm).head?.map fun q => q / 2 * 128 + q % 2 * 8

/-- SYS.TSTATE (R416). -/
def Ctx.tstate (x : Ctx) : Word :=
  BitVec.ofNat 64 ((x.depth <<< 8) + ((if x.tread then 1 else 0) <<< 7) + Nat.min (x.pend.filter fun p => p.cause != cHalt).length 127)

/-- STATE code of SYS.OWNER. -/
def OwnState.code : OwnState → Nat
  | .unowned => 0
  | .owned => 1
  | .handover => 2
  | .locked => 3

/-- SYS.OWNER (R397). -/
def State.ownerWord (s : State) : Word :=
  let m := s.mgmt
  let left := if m.own = .owned ∨ m.own = .handover then Nat.min ((m.leaseEnd - s.clock) / cyclesPerMs) 0xFFFFF else 0
  BitVec.ofNat 64 (((if m.own = .handover then m.heir else 0xFF) <<< 40) +
    ((if m.own = .owned ∨ m.own = .handover then m.owner else 0xFF) <<< 32) + (m.own.code <<< 30) + left)

/-- SYS.ALARM (R408). -/
def State.alarmWord (s : State) : Word :=
  BitVec.ofNat 64 ((s.mgmt.alarmEvents.toNat <<< 32) + (s.mgmt.alarmCause.toNat <<< 3) + s.mgmt.alarmLevel)

/-- SYS.PWRSTAT of a core's cluster (R382). -/
def State.pwrstat (s : State) (c : Nat) : Word :=
  let x := s.cluster (clusterOf c)
  BitVec.ofNat 64 (((if x.switching then 1 else 0) <<< 31) + ((if x.rail then 1 else 0) <<< 30) + ((x.cause % 8) <<< 27) +
    x.changes.toNat)

/-- Cores that are not withdrawn (R441). -/
def State.available (s : State) : Nat := ((List.range Config.cores).filter fun c => !(s.core c).withdrawn).length

/-- A group of ports runs below its bonded width (R441). -/
def State.degraded (s : State) : Bool :=
  s.mgmt.groups.any fun p => !p.2.ports.isEmpty && decide (p.2.width < 4 * p.2.ports.length)

/-- SYS.HEALTH (R441). -/
def State.healthWord (s : State) : Word :=
  BitVec.ofNat 64 (((if (get {} s.mgmt.dumps 0).valid then 1 else 0) <<< 10) + ((if s.degraded then 1 else 0) <<< 9) +
    s.available)

/-- STATE code of a port (R444). -/
def PortState.code : PortState → Nat
  | .down => 0
  | .inGroup => 1
  | .testing => 2
  | .lasting => 3

/-- SYS.PORTST of a port (R444). -/
def State.portWord (s : State) (n : Nat) : Word :=
  let p := get {} s.mgmt.ports n
  let w := (get {} s.mgmt.groups p.group).width
  BitVec.ofNat 64 ((p.replays.toNat <<< 48) + (p.crcErr.toNat <<< 32) + (p.lanes.toNat <<< 28) + (p.state.code <<< 26) +
    (p.group <<< 8) + (if p.state = .down then 0 else w))

/-- The value of a system register (R337). -/
def State.sysValue (s : State) (c k n : Nat) : Word :=
  let core := s.core c
  let x := core.ctx k
  let la := s.launchOf c
  match n with
  | 0x001 => x.place
  | 0x002 => x.shownVt
  | 0x010 => core.evstat
  | 0x011 => x.evflags
  | 0x012 => x.evtrap
  | 0x018 => match la with
    | some (_, l) => l.scbase
    | none => 0
  | 0x020 => x.sqgeom
  | 0x024 => x.retrisk
  | 0x025 => s.retlim c
  | 0x030 => x.curst
  | 0x031 => x.racea
  | 0x032 => x.raceb
  | 0x033 => x.racel
  | 0x034 => graphWord (la.bind fun p => p.2.graph)
  | 0x0B8 => x.engflta
  | 0x0B9 => x.engfltb
  | 0x0FF => BitVec.ofNat 64 core.remapSummary
  | 0x200 => x.tcause
  | 0x201 => x.taddr
  | 0x202 => x.trec
  | 0x203 => x.tvec
  | 0x204 => x.tsave
  | 0x205 => x.tstate
  | 0x206 => x.ncause
  | 0x207 => x.naddr
  | 0x280 => x.priv
  | 0x281 => s.ownerWord
  | 0x282 => s.alarmWord
  | 0x2C0 => 0
  | 0x2C1 => s.starter.stcfg
  | 0x2D0 => core.ewgrant
  | 0x2D1 => s.pwrstat c
  | 0x2D2 => core.ewstall
  | 0x2E0 => core.errcnt
  | 0x2E1 => x.errlast
  | 0x2E2 => s.healthWord
  | 0x2E4 => x.portsel
  | 0x2E5 => s.portWord x.portsel.toNat
  | n =>
    if n < 0x050 then match x.rgnCell with
      | some cell => get 0 (core.cell cell).rgn (n - 0x040)
      | none => 0
    else if n < 0x070 then get 0 x.xch (n - 0x060)
    else if n < 0x090 then get 0 x.h (n - 0x080)
    else if n < 0x0A8 then get 0 x.tl (n - 0x0A0)
    else core.remapWord (n - 0x100)

/-- What a read changes: the RC registers clear, and a read of SYS.TCAUSE sets READ (R10, R416). -/
def Ctx.sysRead (x : Ctx) (n : Nat) : Ctx :=
  match n with
  | 0x024 => { x with retrisk := 0 }
  | 0x0B8 => { x with engflta := 0 }
  | 0x0B9 => { x with engfltb := 0 }
  | 0x200 => { x with tread := true, tseen := true }
  | 0x2E1 => { x with errlast := 0, errHeld := false }
  | _ => x

/-- SYSR (R336). -/
def meanSysr (f : MForm) (s : State) : Meaning :=
  let n := fieldN f.imm 0 12
  memOpIf (!sysKnown n) (memOp (.sysr f) f [(.g, f.d.toNat, 1)] none
    (fun s =>
      let v := s.sysValue s.turn.core s.turn.ctx n
      s.modCx fun x => (x.sysRead n).landAt .g f.d.toNat v 1) s)
/-- Run SYSR. -/
def execSysr (f : MForm) (s : State) : Res := s.run (meanSysr f s)

/-- The bits of SYS.SQGEOM that belong to squads a context holds (R182). -/
def geomMask (sqm : BitVec 4) : Word :=
  BitVec.ofNat 64 (((maskList sqm).map fun q => 0xF <<< (4 * q)).foldl (· + ·) 0)

/-- Keep the bits of a register outside a mask and take those inside it. -/
def maskedWrite (old v mask : Word) : Word := (old &&& ~~~mask) ||| (v &&& mask)

/-- The fault of a SYSW (R116, R118, R241, R351, R376, R416). -/
def State.syswCause (s : State) (c k n : Nat) (v : Word) : Option Cause :=
  let x := s.ctxAt c k
  let needs : Nat :=
    if n = 0x018 ∨ n = 0x2C0 then 1 else if n = 0x2D0 ∨ (0x0FF ≤ n ∧ n ≤ 0x1FF) then 2 else 0
  if x.pl < needs then some ⟨cPrivilege, 0, none⟩
  else if 0x040 ≤ n ∧ n ≤ 0x04F then (if rgnOk v then none else some ⟨cRegionInvalid, 0, none⟩)
  else if n = 0x204 then
    let off := fieldN v 6 12 * 64
    if 0x40000 < off + 1024 ∨ off < 2 * (s.core c).streamN then
      some ⟨cAddrSpace, BitVec.ofNat 64 (0xCE00000000000000 + off), none⟩
    else none
  else none

/-- The effect of a SYSW (R336): read-only fields are left. -/
def State.syswEffect (s : State) (c k n : Nat) (v : Word) : State :=
  let core := s.core c
  let x := core.ctx k
  let ctx (y : Ctx) : State := s.setCtxAt c k y
  match n with
  | 0x010 =>
    s.setCore c { core with
      evOvf := core.evOvf && !bit v 31
      evDrop := if bit v 31 then 0 else core.evDrop
      evEng := core.evEng &&& ~~~(field v 8 7) }
  | 0x011 => ctx { x with evflags := x.evflags &&& ~~~(v &&& 0xFE) }
  | 0x012 => ctx { x with evtrap := v &&& 0xFE }
  | 0x018 =>
    match core.launch with
    | some l => s.modLaunch l fun y => { y with scbase := v &&& 0x00FFFFFFFFFFFFF0 }
    | none => s
  | 0x020 => ctx { x with sqgeom := maskedWrite x.sqgeom v (geomMask x.sqm) }
  | 0x030 => ctx { x with curst := v &&& 0x80000000000003FF }
  | 0x204 => ctx { x with tsave := v &&& 0x3FFC0 }
  | 0x2C0 => s.doorbell (fieldN v 0 6)
  | 0x2C1 => if x.pl = 2 then { s with starter := { s.starter with stcfg := v &&& 0xFFFF } } else s
  | 0x2D0 => s.setCore c { core with ewgrant := v &&& 0x1FFF1FFF }
  | 0x2E4 => ctx { x with portsel := BitVec.ofNat 64 (Nat.min (fieldN v 0 6) 47) }
  | n =>
    if 0x040 ≤ n ∧ n ≤ 0x04F then
      s.setCore c (core.modCells x.sqm fun _ y => { y with rgn := set 0 (n - 0x040) (v &&& rgnMask) y.rgn })
    else if 0x060 ≤ n ∧ n ≤ 0x06F then ctx { x with xch := set 0 (n - 0x060) (v &&& 0x0001FFFF00000001) x.xch }
    else s

/-- A SYSW of a given value (R336). -/
def meanSyswOf (f : MForm) (v : Word) (s : State) : Meaning :=
  let n := fieldN f.imm 0 12
  memOpIf (!sysKnown n) (memOp (.sysw f) f [] (s.syswCause s.turn.core s.turn.ctx n v)
    (fun s => s.syswEffect s.turn.core s.turn.ctx n v) s)
/-- SYSW (R336). -/
def meanSysw (f : MForm) (s : State) : Meaning := meanSyswOf f (s.cx.greg f.b.toNat) s
/-- Run SYSW. -/
def execSysw (f : MForm) (s : State) : Res := s.run (meanSysw f s)

/-! ### Translation buffers (R339, R340) -/

/-- Remove translations from every core's TLB and table entries from every die's walk cache (DEDUCED, log entry 14). -/
def State.invalidate (s : State) (p : TlbEntry → Bool) (q : WalkEntry → Bool) : State :=
  { s with cores := s.cores.foldl (fun m k => alter {} k.1 (fun x => { x with tlb := x.tlb.filter fun e => !p e }) m) s.cores
           walks := s.walks.foldl (fun m w => alter [] w.1 (fun x => x.filter fun e => !q e) m) s.walks }

/-- A supervisor owns its own domain and those whose PARENT it is (R388). -/
def State.ownsDomain (s : State) (own dom : Nat) : Bool :=
  own == dom || match s.domain? dom with
    | some d => d.parent == own
    | none => false

/-- The fault of a TLBINV (R339); kind all needs firmware privilege, as R339 says, where R57 says supervisor (DESIGN CHOICE, log
entry 67). -/
def State.tlbinvCause (s : State) (kind : Nat) (a : Word) : Option Cause :=
  let x := s.cx
  let own := fieldN x.priv 0 16
  let bad := match kind with
    | 0 => x.pl == 0
    | 1 => x.pl == 0 || (x.pl == 1 && !s.ownsDomain own (fieldN a 0 16))
    | _ => decide (x.pl < 2)
  if bad then some ⟨cPrivilege, 0, none⟩ else none

/-- TLBINV (R339): complete at once in this model, so a TLBSYNC never waits (DEDUCED, log entry 14). -/
def meanTlbinv (f : MForm) (s : State) : Meaning :=
  let kind := fieldN f.imm 0 2
  let a := s.cx.greg f.a.toNat
  let own := fieldN s.cx.priv 0 16
  let m := memOp (.tlbinv f) f [] (s.tlbinvCause kind a)
    (fun s => s.invalidate
      (fun e =>
        match kind with
        | 0 => e.covers own (fieldN a 0 56)
        | 1 => e.dom == fieldN a 0 16
        | _ => true)
      (fun e =>
        match kind with
        | 0 => e.dom == own && e.vpre == fieldN a 0 56 / 2 ^ levelShift e.lvl
        | 1 => e.dom == fieldN a 0 16
        | _ => true)) s
  memOpIf (m.taken && kind == 1 && fieldN a 16 48 != 0) m
/-- Run TLBINV. -/
def execTlbinv (f : MForm) (s : State) : Res := s.run (meanTlbinv f s)

/-- TLBSYNC (R340). -/
def meanTlbsync (f : MForm) (s : State) : Meaning :=
  memOp (.tlbsync f) f [] (if s.cx.pl = 0 then some ⟨cPrivilege, 0, none⟩ else none) id s
/-- Run TLBSYNC. -/
def execTlbsync (f : MForm) (s : State) : Res := s.run (meanTlbsync f s)

/-! ### Events and watchpoints (R341, R342) -/

/-- EVPOP (R341): the oldest record, or zeros. -/
def meanEvpop (f : MForm) (s : State) : Meaning :=
  let d := f.d.toNat
  memOp (.evpop f) f [(.g, d, 1), (.g, d + 1, 1)] none
    (fun s =>
      let r := s.cc.evq.headD (0, 0)
      (s.modCore fun k => { k with evq := k.evq.drop 1 }).modCx fun x =>
        (x.landAt .g d r.1 1).landAt .g (d + 1) r.2 1) s
/-- Run EVPOP. -/
def execEvpop (f : MForm) (s : State) : Res := s.run (meanEvpop f s)

/-- The rules of a watchpoint configuration (R342). -/
def watchOk (ws : List Word) (sqm : BitVec 4) : Bool :=
  let w (i : Nat) : Word := nth 0 ws i
  fieldN (w 0) 0 59 == 0 && fieldN (w 1) 56 8 == 0 && fieldN (w 2) 56 8 == 0 && fieldN (w 3) 36 28 == 0 &&
  fieldN (w 3) 16 16 == 0 && decide ((w 1).toNat ≤ (w 2).toNat) &&
  !(bit (w 0) 62 && (field (w 3) 32 4 : BitVec 4) &&& ~~~sqm != 0)

/-- WATCH's configuration as read and checked. -/
def watchFetch (f : MForm) (s : State) : Fetched (List Word) :=
  match s.fetchOperand (s.cx.greg f.a.toNat) 32 32 cWatchInvalid with
  | .ok bs t => if watchOk (bytesToWords bs) s.cx.sqm then .ok (bytesToWords bs) t else .issue ⟨cWatchInvalid, 0, none⟩
  | .issue cz => .issue cz
  | .late t => .late t

/-- WATCH (R342). -/
def meanWatch (f : MForm) (s : State) : Meaning :=
  let r := watchFetch f s
  memOp (.watch f) f [] r.cause
    (fun s => r.effect s fun ws t => t.modCore fun k => { k with watch := set [] (fieldN f.imm 0 3) ws k.watch }) s
/-- Run WATCH. -/
def execWatch (f : MForm) (s : State) : Res := s.run (meanWatch f s)

end Sys2Proof.Machine
end

