-- ==== Sys2Proof/Machine/Slots.lean ====
section
/-! DEFINITION. The meaning of every slot instruction by its constructor, for the whole-bundle check (R49). -/

namespace Sys2Proof.Machine

/-- NOP (R48): nothing to check, no effect. -/
def meanNop (_ : State) : Meaning := { taken := true, check := { illegal := false }, effect := id }
/-- Run NOP: an empty slot has nothing to complete, and its bit of CMASK stays 0, as in the record of R438's example
(DEDUCED, log entry 19). -/
def execNop (s : State) : Res := .next s

/-- The meaning of a slot instruction; an empty slot and a step of the device have none. -/
def slotMeaning (i : Instr) (s : State) : Option Meaning :=
  match i with
  | .nop => none
  | .add f => some (meanAdd f s)
  | .addi f => some (meanAddi f s)
  | .sub f => some (meanSub f s)
  | .mul f => some (meanMul f s)
  | .mulh f => some (meanMulh f s)
  | .mulhn f => some (meanMulhn f s)
  | .div f => some (meanDiv f s)
  | .divn f => some (meanDivn f s)
  | .rem f => some (meanRem f s)
  | .remn f => some (meanRemn f s)
  | .and f => some (meanAnd f s)
  | .andi f => some (meanAndi f s)
  | .or f => some (meanOr f s)
  | .ori f => some (meanOri f s)
  | .xor f => some (meanXor f s)
  | .xori f => some (meanXori f s)
  | .shl f => some (meanShl f s)
  | .shli f => some (meanShli f s)
  | .shr f => some (meanShr f s)
  | .shri f => some (meanShri f s)
  | .shra f => some (meanShra f s)
  | .shrai f => some (meanShrai f s)
  | .rotl f => some (meanRotl f s)
  | .clz f => some (meanClz f s)
  | .popc f => some (meanPopc f s)
  | .min f => some (meanMin f s)
  | .max f => some (meanMax f s)
  | .minn f => some (meanMinn f s)
  | .maxn f => some (meanMaxn f s)
  | .cmp f => some (meanCmp f s)
  | .sel f => some (meanSel f s)
  | .mov f => some (meanMov f s)
  | .li f => some (meanLi f s)
  | .lih f => some (meanLih f s)
  | .addr f => some (meanAddr f s)
  | .extb f => some (meanExtb f s)
  | .exth f => some (meanExth f s)
  | .extw f => some (meanExtw f s)
  | .bfx f => some (meanBfx f s)
  | .bfi f => some (meanBfi f s)
  | .pand f => some (meanPand f s)
  | .por f => some (meanPor f s)
  | .pnot f => some (meanPnot f s)
  | .fcvts f => some (meanFcvts f s)
  | .fcmps f => some (meanFcmps f s)
  | .lapset f => some (meanLapset f s)
  | .lapadd f => some (meanLapadd f s)
  | .lapget f => some (meanLapget f s)
  | .br f => some (meanBr f s)
  | .brc f => some (meanBrc f s)
  | .jmp f => some (meanJmp f s)
  | .call f => some (meanCall f s)
  | .ret f => some (meanRet f s)
  | .loop f => some (meanLoop f s)
  | .loopi f => some (meanLoopi f s)
  | .breakl f => some (meanBreakl f s)
  | .waitb f => some (meanWaitb f s)
  | .waitt f => some (meanWaitt f s)
  | .waitf f => some (meanWaitf f s)
  | .advp f => some (meanAdvp f s)
  | .advc f => some (meanAdvc f s)
  | .yield f => some (meanYield f s)
  | .endOp f => some (meanEndOp f s)
  | .sleep f => some (meanSleep f s)
  | .trap f => some (meanTrap f s)
  | .rft f => some (meanRft f s)
  | .ldb f => some (meanLdb f s)
  | .ldbn f => some (meanLdbn f s)
  | .ldh f => some (meanLdh f s)
  | .ldhn f => some (meanLdhn f s)
  | .ldw f => some (meanLdw f s)
  | .ldwn f => some (meanLdwn f s)
  | .ldd f => some (meanLdd f s)
  | .stb f => some (meanStb f s)
  | .sth f => some (meanSth f s)
  | .stw f => some (meanStw f s)
  | .std f => some (meanStd f s)
  | .amoadd f => some (meanAmoadd f s)
  | .amoand f => some (meanAmoand f s)
  | .amoor f => some (meanAmoor f s)
  | .amoxor f => some (meanAmoxor f s)
  | .amomin f => some (meanAmomin f s)
  | .amomax f => some (meanAmomax f s)
  | .amominn f => some (meanAmominn f s)
  | .amomaxn f => some (meanAmomaxn f s)
  | .amoswp f => some (meanAmoswp f s)
  | .amocas f => some (meanAmocas f s)
  | .fence f => some (meanFence f s)
  | .tlinc f => some (meanTlinc f s)
  | .tlread f => some (meanTlread f s)
  | .cpgo f => some (meanCpgo f s)
  | .cpstep f => some (meanCpstep f s)
  | .cpstat f => some (meanCpstat f s)
  | .gidx f => some (meanGidx f s)
  | .gcfg f => some (meanGcfg f s)
  | .bsend f => some (meanBsend f s)
  | .prog f => some (meanProg f s)
  | .front f => some (meanFront f s)
  | .gcancel f => some (meanGcancel f s)
  | .xput f => some (meanXput f s)
  | .tdefer f => some (meanTdefer f s)
  | .tpwr f => some (meanTpwr f s)
  | .vpwr f => some (meanVpwr f s)
  | .sysr f => some (meanSysr f s)
  | .sysw f => some (meanSysw f s)
  | .tlbinv f => some (meanTlbinv f s)
  | .tlbsync f => some (meanTlbsync f s)
  | .evpop f => some (meanEvpop f s)
  | .watch f => some (meanWatch f s)
  | .tld f => some (meanTld f s)
  | .tst f => some (meanTst f s)
  | .tldm f => some (meanTldm f s)
  | .vadd f => some (meanVadd f s)
  | .vsub f => some (meanVsub f s)
  | .vmul f => some (meanVmul f s)
  | .vfma f => some (meanVfma f s)
  | .vfms f => some (meanVfms f s)
  | .vfnma f => some (meanVfnma f s)
  | .vmin f => some (meanVmin f s)
  | .vmax f => some (meanVmax f s)
  | .vabs f => some (meanVabs f s)
  | .vneg f => some (meanVneg f s)
  | .vcps f => some (meanVcps f s)
  | .vcmp f => some (meanVcmp f s)
  | .vsel f => some (meanVsel f s)
  | .vrnd f => some (meanVrnd f s)
  | .vexf f => some (meanVexf f s)
  | .vlgf f => some (meanVlgf f s)
  | .vrcpf f => some (meanVrcpf f s)
  | .vrsqf f => some (meanVrsqf f s)
  | .vscl f => some (meanVscl f s)
  | .viadd f => some (meanViadd f s)
  | .visub f => some (meanVisub f s)
  | .vimul f => some (meanVimul f s)
  | .vimad f => some (meanVimad f s)
  | .vand f => some (meanVand f s)
  | .vor f => some (meanVor f s)
  | .vxor f => some (meanVxor f s)
  | .vshl f => some (meanVshl f s)
  | .vshr f => some (meanVshr f s)
  | .vshra f => some (meanVshra f s)
  | .vimin f => some (meanVimin f s)
  | .vimax f => some (meanVimax f s)
  | .vicmp f => some (meanVicmp f s)
  | .vcvt f => some (meanVcvt f s)
  | .vpack f => some (meanVpack f s)
  | .vunpk f => some (meanVunpk f s)
  | .vperm f => some (meanVperm f s)
  | .vbcast f => some (meanVbcast f s)
  | .vrsum f => some (meanVrsum f s)
  | .vrmax f => some (meanVrmax f s)
  | .vspar f => some (meanVspar f s)
  | .kand f => some (meanKand f s)
  | .kor f => some (meanKor f s)
  | .knot f => some (meanKnot f s)
  | .kmov f => some (meanKmov f s)
  | .kpop f => some (meanKpop f s)
  | .shn f => some (meanShn f s)
  | .she f => some (meanShe f s)
  | .shs f => some (meanShs f s)
  | .shw f => some (meanShw f s)
  | .xsnd f => some (meanXsnd f s)
  | .xrcv f => some (meanXrcv f s)
  | .mma f => some (meanMma f s)
  | .mzero f => some (meanMzero f s)
  | .mdrain f => some (meanMdrain f s)
  | .mload f => some (meanMload f s)
  | .mread f => some (meanMread f s)
  | .patch f => some (meanPatch f s)
  | .lqnear f => some (meanLqnear f s)
  | .lqdec f => some (meanLqdec f s)
  | .lqscale f => some (meanLqscale f s)
  | .lqmerge f => some (meanLqmerge f s)
  | _ => none

end Sys2Proof.Machine
end

