-- ==== Sys2Proof/Machine/Issue.lean ====
section
/-! DEFINITION. A virtual cycle of a context: what waits at the boundary before it, its landings and stream steps, and the
fetch, check and issue of the next bundle (R42, R47, R49, R65, R66, R90, R96, R97, R362, R373 to R375, R412, R413,
R420). -/

namespace Sys2Proof.Machine

/-! ### Fetch (R42, R437) -/

/-- What a fetch finds. -/
inductive Fetch where
  | ok (next : CodeAddr) (w : BitVec 384)
  | target
  | index
  /-- The code cannot be read: STORE of SYS.ERRLAST. -/
  | bad (store : Nat)
  deriving DecidableEq, Repr

/-- A dictionary entry read again from the image fails (R437). -/
def State.reloadFails (s : State) (c i : Nat) : Bool :=
  match s.launchOf c with
  | none => true
  | some (_, l) =>
    match (s.readGlobal (deviceClient l.dom) .image l.imageVa 64).1 with
    | .error _ => true
    | .ok hd =>
      match (s.readGlobal (deviceClient l.dom) .image (l.imageVa + (imageHead hd).dictOff + 48 * i) 48).1 with
      | .error _ => true
      | .ok _ => false

/-- `fetch(pc)` of R42. -/
def State.fetch (s : State) (c : Nat) (pc : CodeAddr) : Fetch :=
  let k := s.core c
  let h := pc.toNat
  if h < k.streamN ∧ k.badBits.contains (h / 64) ∧ k.cmemBad (h / 64 * 128) (min 128 (2 * k.streamN - h / 64 * 128)) then .bad 5
  else if !k.isStart h then .target
  else if k.cmemBad (2 * h) 2 then .bad 2
  else
    let x := k.halfword h
    if x = 0xFFFF then
      if k.cmemBad (2 * h + 2) 48 then .bad 2
      else .ok (pc + 25) (BitVec.ofNat 384 (leNat (readBytes k.cmem (2 * h + 2) 48)))
    else if x < k.dictN then
      if k.badDict.contains x && s.reloadFails c x then .bad 5 else .ok (pc + 1) (get 0 k.dict x)
    else .index

/-- The fetch of the next bundle: the 64-bit target of a transfer past 17 bits is no bundle start (R42, R82). -/
def State.fetchNext (s : State) (c k : Nat) : Fetch :=
  let x := s.ctxAt c k
  match x.via with
  | .transfer _ t => if t.toNat < 131072 then s.fetch c x.pc else .target
  | _ => s.fetch c x.pc

/-- Parity errors that a fetch has mended: each counts in COTHER (R437, R439). -/
def Core.mendFetch (k : Core) (pc : CodeAddr) : Core :=
  let n := (if k.badBits.contains (pc.toNat / 64) then 1 else 0) + if k.badDict.contains (k.halfword pc.toNat) then 1 else 0
  { k.countErr 32 n with
      badBits := k.badBits.filter fun n => n != pc.toNat / 64
      badDict := k.badDict.filter fun n => n != k.halfword pc.toNat }

/-- What a resumed bundle keeps in a record: its completed slots and its next address (R412, R420). -/
def Ctx.resumeMask (x : Ctx) : BitVec 5 :=
  match x.resume with
  | some r => r.cmask
  | none => 0

/-- NPC of a resumed bundle. -/
def Ctx.resumeNpc (x : Ctx) : Option CodeAddr := x.resume.bind fun r => r.npc

/-- A fetch fault (R42, R412): by a transfer or past the end it names the bundle that led there. The landings and steps of its
cycle have published what waited for them (R94). -/
def State.fetchTrap (s : State) (c k : Nat) (f : Fetch) : State :=
  let s := s.modCtxAt c k Ctx.publish
  let x := s.ctxAt c k
  let here (cause : BitVec 16) (info : Word) : Trap :=
    { cause := cause, fslot := 7, fpc := x.pc, info := info, rpc := x.pc, cmask := x.resumeMask, npc := x.resumeNpc
      wskip := x.wskipLeft }
  match f with
  | .target =>
    match x.via with
    | .transfer fpc t => s.takeTrap c k { cause := cIllegalTarget, fslot := 4, fpc := fpc, info := t, rpc := x.pc, wskip := x.wskipLeft }
    | .fell fpc =>
      if (s.core c).streamN ≤ x.pc.toNat then
        s.takeTrap c k { cause := cIllegalTarget, fslot := 7, fpc := fpc, info := x.pc.setWidth 64, rpc := x.pc, wskip := x.wskipLeft }
      else s.takeTrap c k (here cIllegalTarget (x.pc.setWidth 64))
    | .seq => s.takeTrap c k (here cIllegalTarget (x.pc.setWidth 64))
  | .bad store =>
    let s := s.noteBad c k ⟨store, 0, 0, if store = 2 then 2 * x.pc.toNat else x.pc.toNat⟩
    (if store = 5 then s.setCore c { s.core c with image := none } else s).takeTrap c k (here cUncorrectable 0)
  | _ => s.takeTrap c k (here cIllegalIndex 0)

/-! ### The five slots -/

/-- The slots of a bundle in the order of R49, by slot code, each decoded by its own map. -/
def slotsOf (w : BitVec 384) : List (Nat × Except DecodeError Instr) :=
  [(0, decodeS (bundleS0 w)), (1, decodeS (bundleS1 w)), (2, decodeM (bundleM w)), (3, decodeC (bundleC w)),
   (4, decodeF (bundleF w))]

/-- A slot that was complete when its bundle was left is a NOP now (R420). -/
def masked (done : BitVec 5) (xs : List (Nat × Except DecodeError Instr)) : List (Nat × Except DecodeError Instr) :=
  xs.map fun x => (x.1, if bit done x.1 then .ok .nop else x.2)

/-- The instruction of a slot; a slot that does not decode counts as NOP once it has been reported. -/
def slotAt (xs : List (Nat × Except DecodeError Instr)) (n : Nat) : Instr :=
  match xs.lookup n with
  | some (.ok i) => i
  | _ => .nop

/-- The meaning of a slot in its place. -/
def State.slotIn (s : State) (n : Nat) (i : Instr) : Meaning :=
  (slotMeaning i { s with turn := { s.turn with slot := n } }).getD (meanNop s)

/-- The first illegal slot of a bundle, in the order H, S0, S1, M, C, F (R49). -/
def State.firstIllegal (s : State) (w : BitVec 384) (xs : List (Nat × Except DecodeError Instr)) : Option Nat :=
  if !(Header.unpack (bundleH w)).ok then some 7
  else (xs.find? fun x => match x.2 with
    | .error _ => true
    | .ok i => (s.slotIn x.1 i).check.illegal).map Prod.fst

/-- The first slot with a cause of R49's later classes: SCHED_COLLIDE of any slot, LANDING_FULL, then each slot's own. -/
def firstCause (x : Ctx) (ms : List (Nat × Meaning)) : Option (Nat × Cause) :=
  let lands := (ms.map fun m => m.2.check.lands).flatten
  let meets (m : Nat × Meaning) : Bool :=
    m.2.check.collide || m.2.check.lands.any fun l => x.landHeld l || decide (1 < (lands.filter (· == l)).length)
  let before (n : Nat) : Nat := (((ms.filter fun q => decide (q.1 ≤ n)).map fun q => q.2.check.lands.length)).foldl (· + ·) 0
  match ms.find? meets with
  | some m => some (m.1, ⟨cSchedCollide, 0, none⟩)
  | none =>
    match ms.find? fun m => m.2.check.full || (!m.2.check.lands.isEmpty && decide (24 < x.land.length + before m.1)) with
    | some m => some (m.1, ⟨cLandingFull, 0, none⟩)
    | none => (ms.filterMap fun m => m.2.check.other.map fun z => (m.1, z)).head?

/-! ### Charges (R373, R374) -/

/-- Squads in a mask. -/
def squadsIn (sq : BitVec 4) : Nat := (maskList sq).length

/-- Weight of an S instruction. -/
def weightS : Instr → Nat
  | .nop => 0
  | .mul _ => 2
  | .mulh _ => 2
  | .mulhn _ => 2
  | .div _ => 2
  | .divn _ => 2
  | .rem _ => 2
  | .remn _ => 2
  | _ => 1

/-- Weight of an M instruction. -/
def weightM : Instr → Nat
  | .nop => 0
  | .sysr _ => 1
  | .sysw _ => 1
  | .fence _ => 1
  | .tlbsync _ => 1
  | .evpop _ => 1
  | _ => 2

/-- The factor of a C instruction's squads: 0 for the mask instructions, 2 for the latencies 1 and 2 of R132 and the
shifts, otherwise 3. -/
def weightC : Instr → Nat
  | .kand _ => 0
  | .kor _ => 0
  | .knot _ => 0
  | .kmov _ => 0
  | .kpop _ => 0
  | .tst _ => 2
  | .vmin _ => 2
  | .vmax _ => 2
  | .vabs _ => 2
  | .vneg _ => 2
  | .vcps _ => 2
  | .vsel _ => 2
  | .vrnd _ => 2
  | .vcmp _ => 2
  | .vicmp _ => 2
  | .viadd _ => 2
  | .visub _ => 2
  | .vand _ => 2
  | .vor _ => 2
  | .vxor _ => 2
  | .vshl _ => 2
  | .vshr _ => 2
  | .vshra _ => 2
  | .vimin _ => 2
  | .vimax _ => 2
  | .vperm _ => 2
  | .vbcast _ => 2
  | .shn _ => 2
  | .she _ => 2
  | .shs _ => 2
  | .shw _ => 2
  | _ => 3

/-- The floor of a bundle (R373): its slots' weights, the C slot's with the rows that it reads as it issues. -/
def bundleFloor (w : BitVec 384) (xs : List (Nat × Except DecodeError Instr)) (c : Meaning) : Nat :=
  let n := squadsIn (CForm.unpack (bundleC w)).sq
  let rows := match slotAt xs 3 with
    | .mma _ => 0
    | _ => c.rows
  let cw := if slotAt xs 3 = .nop then 0 else if weightC (slotAt xs 3) = 0 then 0 else weightC (slotAt xs 3) * n + rows * n
  min 63 (weightS (slotAt xs 0) + weightS (slotAt xs 1) + weightM (slotAt xs 2) + cw)

/-- The charge of a bundle: the greater of EW and the floor (DEDUCED, log entry 37). -/
def bundleCharge (w : BitVec 384) (xs : List (Nat × Except DecodeError Instr)) (c : Meaning) : Nat :=
  max (Header.unpack (bundleH w)).ew.toNat (bundleFloor w xs c)

/-- The charge of a stream's step (R374); the first step of a stream other than an MMA is its bundle's. -/
def Stream.stepCharge (st : Stream) : Nat :=
  let n := squadsIn st.form.sq
  let rows := ((cellsOf st.form.sq).map fun c =>
    ((st.rowsAt c st.done).filter fun r => r.counted).length).foldl max 0
  match st.kind with
  | .mma => ((if st.pair.k = 1 then 6 else if st.pair.k = 2 then 8 else 10) + rows) * n
  | _ => rows * n

/-- The charge of the tower rows that land in a context's present cycle. -/
def Core.landCharge (k : Core) (x : Ctx) : Nat :=
  ((maskList x.sqm).map fun q =>
    (((k.heldCells x.sqm).filter fun c => squadOf c == q).map fun c =>
      (((k.cell c).writes.filter fun w => w.level == x.depth && decide (w.due ≤ x.vt)).map fun w => w.row)).flatten.eraseDups.length)
    |>.foldl (· + ·) 0

/-- The charge of the C slot's MMA in its issue cycle: its first step (R374). -/
def State.firstStepCharge (s : State) (i : Instr) : Nat :=
  match i with
  | .mma f => if f.sq = 0 then 0 else (mmaStream f s).stepCharge
  | _ => 0

/-- The grant in force (R376). -/
def State.grant (s : State) (c : Nat) : Nat :=
  max 128 (fieldN (s.core c).ewgrant (if (s.cluster (clusterOf c)).rail then 0 else 16) 13)

/-- A core clock cycle's charge enters the window (R375). -/
def Core.charge (k : Core) (n : Nat) : Core := { k with charges := (n :: k.charges).take 64 }

/-- Whether the governor lets a virtual cycle of a charge pass (R375). -/
def State.mayCharge (s : State) (c n : Nat) : Bool :=
  decide (((s.core c).charges.take 63).foldl (· + ·) 0 + n ≤ s.grant c)

/-! ### What waits at a boundary (R413) -/

/-- Place of a pending cause in R413's order; a stream step's own causes stand at 3 to 5 and its UNCORRECTABLE at 7. -/
def causeRank (z : BitVec 16) : Nat :=
  if z = cUserTrap then 0 else if z = cWatchpoint then 1 else if z = cNumericEvent then 2
  else if z = cTowerOff then 4 else if z = cFormatMismatch then 5 else if z = cRetentionLimit then 6 else if z = cUncorrectable then 7 else if z = cEngineFault then 8 else 9

/-- Place of a pending cause: one latched in a rail change is delivered first (R379), and a WATCHPOINT that a stream's step met
in a handler stands with the causes of steps (R413, R415). -/
def Pending.rank (p : Pending) : Nat :=
  if p.latched then 0 else if p.cause = cWatchpoint ∧ bit p.info 34 then 3 else causeRank p.cause

/-- Keep the first of two pending causes in order, the earlier of equals. -/
def firstPending (b : Option Pending) (p : Pending) : Option Pending :=
  match b with
  | none => some p
  | some q => if p.rank < q.rank then some p else some q

/-- The next pending cause (R413). -/
def Ctx.nextPending (x : Ctx) : Option Pending := x.pend.foldl firstPending none

/-- Deliver a pending cause (R412, R413): a trap, or for the marker of a latched halt the halt (R379). -/
def State.deliver (s : State) (c k : Nat) (p : Pending) : State :=
  if p.cause = cHalt then s.halt c k
  else
  let s := s.modCtxAt c k fun x => { x with pend := x.pend.filter fun q => q.cause != p.cause }
  s.boundaryTrap c k p.cause p.slot (p.fpc.getD (s.ctxAt c k).pc) p.info p.wskip

/-- Streams of the running level that have a step due in the present cycle. -/
def Ctx.dueStreams (x : Ctx) : List Stream :=
  x.streams.filter fun st => st.level == x.depth && decide (0 < st.left) && decide (st.start + st.done ≤ x.vt)

/-- The causes of a stream's next step. -/
def Stream.nextCause (st : Stream) (k : Core) (wskip : Bool) : Option StepCause :=
  match st.kind with
  | .mma => st.mmaCause k st.done wskip
  | _ => st.stepCause k st.done wskip false none

/-- Place of a step's cause in R413's order. -/
def StepCause.rank (z : StepCause) : Nat :=
  if z.code = cWatchpoint then 3 else if z.code = cTowerOff then 4 else if z.code = cFormatMismatch then 5 else 7

/-- Keep the first of two causes in order. -/
def firstStep (b : Option (Stream × StepCause)) (z : Stream × StepCause) : Option (Stream × StepCause) :=
  match b with
  | none => some z
  | some q => if z.2.rank < q.2.rank then some z else some q

/-- The first cause of the steps due, in the order of R413; with `unwatched` watchpoints are left out. -/
def State.stepsCause (s : State) (c k : Nat) (unwatched : Bool) : Option (Stream × StepCause) :=
  let x := s.ctxAt c k
  (x.dueStreams.filterMap fun st => (st.nextCause (s.core c) (x.wskip || unwatched)).map fun z => (st, z)).foldl firstStep none

/-! ### A virtual cycle -/

/-- What came of a context's turn: nothing passed, with what it has started meanwhile; a trap or a stop at the boundary;
with the charge of what was performed before it; or a virtual cycle, with its charge and, where a bundle issued, that
bundle ready to run. -/
inductive Turned where
  | frozen (s : State)
  | stopped (s : State) (charge : Nat)
  | passed (s : State) (charge : Nat)
  deriving DecidableEq, Repr

/-- A stop at the boundary, charged with what has been performed of the present cycle before it (R374). -/
def State.stopWith (s : State) (c k : Nat) (stop : State → State) : Turned :=
  .stopped (stop (s.modCtxAt c k fun x => { x with owed := 0 })) (s.ctxAt c k).owed

/-- Start the wakes that something needs. -/
def State.startNeeds (s : State) (c : Nat) (needs : List PowerNeed) : State :=
  s.setCore c (needs.foldl Core.startNeed (s.core c))

/-- The landings of the present cycle (R68, R133). -/
def State.landAll (s : State) (c k : Nat) : State :=
  let s := s.modCtxAt c k Ctx.landDue
  s.setCore c ((s.core c).landCells s.clock (s.ctxAt c k))

/-- Perform the steps due, stream by stream, and the updates of MLOADs whose cycle it is (R179, R194). -/
def State.stepAll (s : State) (c k : Nat) : State :=
  let x := s.ctxAt c k
  let due (st : Stream) : Bool := st.level == x.depth && decide (0 < st.left) && decide (st.start + st.done ≤ x.vt)
  let loads (st : Stream) : Bool := st.level == x.depth && st.loadsAt x.vt
  let (s, done, _) := x.streams.foldl (fun (acc : State × List Stream × List Stream) st =>
    let (s, out, before) := acc
    if due st then
      let r := s.laterStep c k st before (stepOf st)
      (r.1, out ++ [r.2], before ++ [st])
    else if loads st then (s.setCore c (performMload (s.core c) st), out ++ [{ st with loaded := true }], before)
    else (s, out ++ [st], before)) (s, [], [])
  s.modCtxAt c k fun x => { x with streams := done }

/-- Nothing of the running level is in flight (R96, R420); what a lower level has frozen does not keep a drain from its end
(DESIGN CHOICE, log entry 69). -/
def State.idleAt (s : State) (c k : Nat) : Bool :=
  let x := s.ctxAt c k
  x.land.isEmpty && (s.core c).cellsIdle x &&
    x.streams.all fun st => st.level != x.depth || (st.left == 0 && decide (st.endCycle ≤ x.vt))

/-- A virtual cycle is over: advances are published, time goes on, finished streams leave (R65, R94). -/
def Ctx.endCycle (x : Ctx) : Ctx :=
  let x := x.publish
  { x with vt := x.vt + 1, owed := 0, wskip := x.wskipLeft
           streams := x.streams.filter fun st => st.level != x.depth || decide (x.vt < st.endCycle) }

/-- The end of a virtual cycle in which no bundle has issued: the streams that have finished are recorded. -/
def State.endTurn (s : State) (c k : Nat) : State := (s.flushDone c k fun _ => false).modCtxAt c k Ctx.endCycle

/-- A dormant context with a queued wake resumes at its handler (R297). -/
def Ctx.wakeUp (x : Ctx) : Ctx :=
  match x.wakes with
  | [] => x
  | w :: ws =>
    if x.run = .dormant ∧ !x.drainReq ∧ !x.halted then
      { x with run := .running, wakes := ws, pc := w.handler, via := .seq
               lap := set 0 0 w.lap x.lap, curst := 0x8000000000000000 ||| w.station.setWidth 64 }
    else x

/-- The end of a drain: END stops the context, SLEEP makes it dormant, RFT takes up its record (R96, R97, R420). An END or SLEEP
in a handler leaves what the interrupted levels have frozen undone (DESIGN CHOICE, log entry 69). -/
def State.finish (s : State) (c k : Nat) : State :=
  let s := (s.flushDone c k fun _ => false).modCtxAt c k Ctx.publish
  match (s.ctxAt c k).run with
  | .ending => s.modCtxAt c k fun x => { x with run := .stopped, issue := none }
  | .sleeping =>
    let cancelled := match (s.launchOf c).bind fun p => p.2.graph with
      | some g => g.state == 2
      | none => false
    s.modCtxAt c k fun x =>
      let x := { x with run := .dormant, issue := none }
      if cancelled then x.wakeUp.retireDormant else x.wakeUp
  | .returning => s.doRft c k
  | _ => s

/-- A SYSW of SYS.SQGEOM waits while a matrix stream or a fragment of the context is in flight (R182); `now` is its context
after the landings of the cycle, which give its predicate (R68). Of a handler it waits for the handler's own level only
(DESIGN CHOICE, log entry 75). -/
def State.geomWaits (s : State) (now : Ctx) (c k : Nat) (i : Instr) : Bool :=
  let x := s.ctxAt c k
  match i with
  | .sysw f => fieldN f.imm 0 12 == 0x020 && now.pred f.pr f.pn &&
      (x.streams.any (fun st => st.level == x.depth && st.kind == .mma && decide (0 < st.left)) ||
        ((s.core c).heldCells x.sqm).any fun n => ((s.core c).cell n).frags.any fun e => e.level == x.depth)
  | _ => false

/-- The F slot is a wait (R90). -/
def isWait : Instr → Bool
  | .waitb _ => true
  | .waitt _ => true
  | .waitf _ => true
  | _ => false

/-- Apply one queued host write: it is translated again, and one that no longer passes is counted in its window's
DROPPED (R272, R392, R402). -/
def State.applyWrite (s : State) (w : HostWrite) : State :=
  match s.writeGlobal (deviceClient w.dom) .hostWrite w.va.toNat w.data with
  | (.ok t, _) => t
  | (.error _, _) =>
    { s with mgmt := { s.mgmt with windows := s.mgmt.windows.map fun x =>
      if x.rkey = w.rkey then { x with dropped := BitVec.ofNat 64 (satAdd 64 x.dropped.toNat 1) } else x } }

/-- Apply the queued host writes that a test picks, in queue order (R272). -/
def State.applyHost (s : State) (mine : HostWrite → Bool) : State :=
  let t := (s.ingress.filter mine).foldl State.applyWrite s
  { t with ingress := s.ingress.filter fun w => !mine w }

/-- A launch of a domain owns its regions while it is placed or saved (R272, R361). -/
def State.regionOwned (s : State) (dom : Nat) : Bool :=
  s.launches.any fun p => p.2.dom == dom && (!p.2.cores.isEmpty || p.2.saved.isSome)

/-- Where no launch owns the regions of a domain, the writes held for it are applied (R272). -/
def State.openRegions (s : State) (dom : Nat) : State := if s.regionOwned dom then s else s.applyHost fun w => w.dom == dom

/-- The host writes that an HW bundle of this context applies: those of its launch when it is the window context. -/
def State.windowWrites (s : State) (c k : Nat) : State :=
  match s.launchOf c with
  | some (_, l) => if l.window = (s.ctxAt c k).unit then s.applyHost fun w => w.dom == l.dom else s
  | none => s

/-- An issue fault (R412): no slot takes effect; what was complete before a return stays complete, and the landings and steps of
its cycle have published what waited for them (R94). -/
def State.issueTrap (s : State) (c k slot : Nat) (z : Cause) : State :=
  let s := s.modCtxAt c k Ctx.publish
  let x := s.ctxAt c k
  (s.noteRace c k z).takeTrap c k
    { cause := z.code, fslot := slot, fpc := x.pc, info := z.info, rpc := x.pc, cmask := x.resumeMask, npc := x.resumeNpc
      wskip := x.wskipLeft }

/-- A cause waits in a context. -/
def Ctx.waits (x : Ctx) (cause : BitVec 16) : Bool := x.pend.any fun p => p.cause == cause

/-- A cause of a step in a handler waits (R413); bad data that it met is noted once (R438). -/
def State.pendStep (s : State) (c k : Nat) (pc : CodeAddr) (z : StepCause) : State :=
  let s := if (s.ctxAt c k).waits z.code then s else s.noteStep c k z
  s.pendCause c k ⟨z.code, 3, some pc, z.info, false, false⟩

/-- Put the bundle in issue; slots that were complete when it was left are complete (R412, R420). -/
def State.loadBundle (s : State) (c k : Nat) (next : CodeAddr) (w : BitVec 384)
    (xs : List (Nat × Except DecodeError Instr)) : State :=
  let h := Header.unpack (bundleH w)
  let t := s.modCtxAt c k fun x => { x with
    issue := some
      { pc := x.pc, next := next, hdr := (h.ew, h.skip), s0 := slotAt xs 0, s1 := slotAt xs 1, m := slotAt xs 2
        c := slotAt xs 3, f := slotAt xs 4, checked := true, done := x.resumeMask, target := none, raises := [], watch := none
        late := none, user := none, ending := .running, evtrap := x.evtrap } }
  { t with turn := ⟨c, k, 0⟩ }

/-- A wait of the F slot whose condition is not met (R90). -/
def waitsOn (f : Instr) (ms : List (Nat × Meaning)) : Bool := isWait f && ms.any fun m => m.1 == 4 && m.2.taken && !m.2.ready

/-- The cause of the first step of the stream that a bundle would start; with `unwatched` watchpoints are left out. -/
def earlyCause (ms : List (Nat × Meaning)) (unwatched : Bool) : Option StepCause :=
  ms.findSome? fun m => if m.2.taken then m.2.early unwatched else none

/-- The bundle at the pc is fetched and checked whole in the state `s` of its cycle, landings and steps done; `old` is
the state before them, in which a bundle that does not issue leaves its context. In order: an illegal slot, the wait of a
SYSW of SYS.SQGEOM, an unmet wait of the F slot, the other causes at issue, the boundary causes of a first stream step, which in
a handler wait as those of later steps do (R413), and what the slots need of power and of the networks (R49, R66, R90, R169, R182,
R201). The landings and the stream steps of the
cycle of a bundle that faults at fetch or at issue stand (DESIGN CHOICE, log entry 76). -/
def State.issueNext (old s : State) (c k charge : Nat) : Turned :=
  let x := s.ctxAt c k
  match s.fetchNext c k with
  | .ok next w =>
    let s := s.setCore c ((s.core c).mendFetch x.pc)
    let xs := masked x.resumeMask (slotsOf w)
    let t := s.loadBundle c k next w xs
    let t := if (Header.unpack (bundleH w)).hw then t.windowWrites c k else t
    match t.firstIllegal w xs with
    | some n => .stopped (s.issueTrap c k n ⟨cIllegalOp, 0, none⟩) charge
    | none =>
      let ms := (List.range 5).map fun n => (n, t.slotIn n (slotAt xs n))
      if old.geomWaits x c k (slotAt xs 2) then .passed (s.endTurn c k) charge
      else if waitsOn (slotAt xs 4) ms then
        let y := old.ctxAt c k
        if y.drainReq && y.depth == 0 then old.stopWith c k fun o => o.modCtxAt c k fun y => { y with run := .drained } else .frozen old
      else
        let issue (t : State) : Turned :=
          if ms.any fun m => m.2.taken && !m.2.ready then
            .frozen (ms.foldl (fun o m => if m.2.taken && !m.2.ready then m.2.prepare { o with turn := ⟨c, k, m.1⟩ } else o) old)
          else .passed t (charge + bundleCharge w xs (t.slotIn 3 (slotAt xs 3)) + t.firstStepCharge (slotAt xs 3))
        match firstCause x ms with
        | some (n, z) => .stopped (s.issueTrap c k n z) charge
        | none =>
          match earlyCause ms false, earlyCause ms true with
          | none, _ => issue t
          | some z, rest =>
            if x.depth = 0 then old.stopWith c k fun o => { o with turn := ⟨c, k, 3⟩ }.stepTrap c k x.pc z
            else
              match rest with
              | none => issue (t.pendStep c k x.pc z)
              | some y => .frozen ((old.pendStep c k x.pc z).pendStep c k x.pc y)
  | f => .stopped (s.fetchTrap c k f) charge

/-- A cycle without a bundle: a skipped one of R47, or one of a drain, which counts toward the skip of the bundle before it
(DESIGN CHOICE, log entry 50). -/
def State.idleCycle (s : State) (c k : Nat) : State := (s.modCtxAt c k fun x => { x with skip := x.skip - 1 }).endTurn c k

/-- What follows the landings and steps of a cycle: a drain goes on or ends, a skipped cycle passes, or a bundle issues. A
drain ends in the cycle of its last landing, and what comes next issues in that cycle (DESIGN CHOICE, log entry 50). -/
def State.afterSteps (old s : State) (c k charge : Nat) : Turned :=
  let x := s.ctxAt c k
  match x.run with
  | .running => if 0 < x.skip then .passed (s.idleCycle c k) charge else old.issueNext s c k charge
  | .drained =>
    if s.idleAt c k then
      let t := (s.flushDone c k fun _ => false).modCtxAt c k Ctx.publish
      if charge = 0 then .frozen t else .stopped t charge
    else .passed (s.idleCycle c k) charge
  | _ => if s.idleAt c k then .stopped (s.finish c k) charge else .passed (s.idleCycle c k) charge

/-- The landings and steps of the present cycle, once nothing keeps the context at the boundary; what has been performed of
it already is charged with it (R374). -/
def State.cycleBody (s : State) (c k : Nat) : Turned :=
  let x := s.ctxAt c k
  match (s.core c).landNeeds x with
  | n :: ns => .frozen (s.startNeeds c (n :: ns))
  | [] =>
    let t := s.landAll c k
    let due := x.dueStreams
    let needs := (due.map fun st => st.stepNeeds (t.core c) st.done).flatten
    if !needs.isEmpty then .frozen (s.startNeeds c needs)
    else if !t.mmasReady c ((due.filter fun st => st.kind == .mma).map fun st => (st, st.done)) then .frozen s
    else
      let charge := x.owed + (s.core c).landCharge x + (due.map Stream.stepCharge).foldl (· + ·) 0
      s.afterSteps ((t.stepAll c k).modCtxAt c k fun x => { x with owed := 0 }) c k charge

/-- A turn in a handler: nothing is delivered. A watchpoint of a step waits and the step goes on, any other cause of a
step waits with the context (R413). -/
def State.turnHandler (s : State) (c k : Nat) : Turned :=
  if (s.ctxAt c k).haltReq || (s.ctxAt c k).waits cHalt then s.stopWith c k fun s => s.halt c k
  else
    let pend (s : State) (z : Stream × StepCause) : State := s.pendStep c k z.1.pc z.2
    let t := s.landAll c k
    match t.stepsCause c k false, t.stepsCause c k true with
    | none, _ => s.cycleBody c k
    | some z, none => (pend s z).cycleBody c k
    | some z, some y => .frozen (pend (pend s z) y)

/-- What a context takes at a boundary at handler depth 0 (R413): the first of the pending causes and of those of the steps due.
A step's cause that is pending already merges with it: one trap is taken for both, which leaves no watchpoint of that step to
check. -/
def State.boundaryTake (s : State) (c k : Nat) : Option (State → State) :=
  match (s.ctxAt c k).nextPending, (s.landAll c k).stepsCause c k false with
  | none, none => none
  | some p, none => some fun s => s.deliver c k p
  | none, some z => some fun s => s.stepTrap c k z.1.pc z.2
  | some p, some z =>
    if z.2.rank < p.rank then some fun s => s.stepTrap c k z.1.pc z.2
    else if p.cause = z.2.code then some fun s => (s.noteStep c k z.2).deliver c k { p with wskip := p.wskip || z.2.wskip }
    else some fun s => s.deliver c k p

/-- A turn of a context (R413): the first of what waits at the boundary, a halt, or its next virtual cycle
(DEDUCED, log entry 21). -/
def State.turnOf (s : State) (c k : Nat) : Turned :=
  let x := s.ctxAt c k
  if x.depth ≠ 0 then s.turnHandler c k
  else
    match s.boundaryTake c k with
    | some take => s.stopWith c k take
    | none => if x.haltReq then s.stopWith c k fun s => s.halt c k else s.cycleBody c k

/-! ### BUNDLE_FETCH -/

/-- Whether a context consumes virtual cycles (R66, R362). -/
def Ctx.active (x : Ctx) : Bool :=
  !x.halted && !x.frozen && (x.run == .running || x.run == .ending || x.run == .sleeping || x.run == .returning || x.run == .drained ||
    (x.run == .dormant && !x.wakes.isEmpty && !x.drainReq))

/-- Whether the contexts of a core run: its launch is in state 2 and nothing stops its cluster (R36, R66, R235, R445). -/
def State.coreRuns (s : State) (c : Nat) : Bool :=
  let y := s.cluster (clusterOf c)
  !s.mgmt.fatal && !y.switching && !y.stopped &&
    match s.launchOf c with
    | some (_, l) =>
      match l.phase with
      | .running => true
      | .draining _ => true
      | .checkpointing => true
      | _ => false
    | none => false

/-- A context that stands still for a checkpoint or a drain: frozen or halted, in none of its handlers and not running
(R360, R371, R431). -/
def Ctx.settled (x : Ctx) : Bool :=
  x.frozen || x.halted || !(x.run == .running || x.run == .ending || x.run == .sleeping || x.run == .returning)

/-- Every context of a launch stands still. -/
def State.settledLaunch (s : State) (x : Launch) : Bool :=
  x.cores.all fun c => (List.range Config.contexts).all fun k => (s.ctxAt c k).settled

/-- Engines, deliveries, gathers and express entries of a core go on: its launch runs, or drains, or is to be saved and has a
context that still runs (R371); its cluster is not changing rail, and no fatal error has frozen the device (R36, R378,
R445). -/
def State.unitsRun (s : State) (c : Nat) : Bool :=
  !s.mgmt.fatal && !(s.cluster (clusterOf c)).switching &&
    match s.launchOf c with
    | some (_, l) =>
      match l.phase with
      | .running => true
      | .draining _ => true
      | .checkpointing => !s.settledLaunch l
      | _ => false
    | none => false

/-- A context's turn, or what it starts while it is frozen; none where it is not ready (R362). -/
def State.tryTurn (s : State) (c k : Nat) : State × Option Turned :=
  if !(s.ctxAt c k).active then (s, none)
  else
    match (s.modCtxAt c k Ctx.wakeUp).turnOf c k with
    | .frozen t => (t, none)
    | r => (s, some r)

/-- The contexts after the holder of a core's issue slot, in the order of R362. -/
def Core.others (k : Core) : List Nat := [1, 2, 3].map fun d => (k.holder + d) % 4

/-- Another context than the holder is ready. -/
def State.otherReady (s : State) (c : Nat) : Bool := (s.core c).others.any fun k => (s.tryTurn c k).2.isSome

/-- The slot passes to the first ready context after its holder; those before it start what they wait for. Where none is ready the
holder keeps it, and the count of its cycles starts anew (R362). -/
def State.passSlot (s : State) (c : Nat) : State :=
  let r := (s.core c).others.foldl (fun (acc : State × Bool) k =>
    if acc.2 then acc
    else
      match acc.1.tryTurn c k with
      | (t, some _) => (t.setCore c { t.core c with holder := k, held := 0 }, true)
      | (t, none) => (t, false)) (s, false)
  if r.2 then r.1 else r.1.setCore c { r.1.core c with held := 0 }

/-- A core clock cycle of the holder's charge: `held` counts the consecutive ones in which another context was ready (R362,
DEDUCED, log entry 43). -/
def Core.heldCycle (k : Core) (ready : Bool) (n : Nat) : Core := { k.charge n with held := if ready then k.held + 1 else 0 }

/-- A stall bundle (R375, R377). -/
def State.stall (s : State) (c : Nat) : State :=
  let k := (s.core c).heldCycle (s.otherReady c) 0
  s.setCore c { k with ewstall := k.ewstall + 1 }

/-- A turn's outcome with its core clock cycle (R362, R375). -/
def State.settleTurn (s : State) (c : Nat) : Turned → State
  | .frozen t => (t.setCore c ((t.core c).charge 0)).passSlot c
  | .stopped t n => if s.mayCharge c n then t.setCore c ((t.core c).heldCycle (s.otherReady c) n) else s.stall c
  | .passed t n => if s.mayCharge c n then t.setCore c ((t.core c).heldCycle (s.otherReady c) n) else s.stall c

/-- BUNDLE_FETCH: the turn of a context that holds its core's issue slot. A bundle that issues is left in issue for the
step to run. A cycle in which no context issues charges 0 (R375). -/
def execBundleFetch (c k : Nat) (s : State) : Res :=
  if Config.cores ≤ c ∨ Config.contexts ≤ k then .fault .noSuchPart
  else if (s.core c).holder != k then .next s
  else if !s.coreRuns c then .next (s.setCore c { (s.core c).charge 0 with held := 0 })
  else if !(s.ctxAt c k).active then .next ((s.setCore c ((s.core c).charge 0)).passSlot c)
  else
    let s := s.modCtxAt c k Ctx.wakeUp
    .next (s.settleTurn c (s.turnOf c k))

/-! ### Running a bundle -/

/-- F instructions that take effect after the other slots, and not where one of those must be repeated (R96 to R99). -/
def isLast : Instr → Bool
  | .endOp _ => true
  | .sleep _ => true
  | .trap _ => true
  | .rft _ => true
  | _ => false

/-- Run slots in turn. -/
def runSlots (ex : Instr → State → Res) : List (Nat × Instr) → State → Res
  | [], s => .next s
  | (n, i) :: rest, s =>
    match ex i { s with turn := { s.turn with slot := n } } with
    | .next t => runSlots ex rest t
    | .fault r => .fault r
    | .refused r => .refused r

/-- The slots of a bundle in the order in which they act: C reads before M changes what governs later bundles
(DEDUCED, log entry 22). -/
def Issue.order (i : Issue) : List (Nat × Instr) := [(0, i.s0), (1, i.s1), (3, i.c), (2, i.m)]

/-- The slot codes in the order of R49. -/
def raisesOf (i : Issue) (n : Nat) : List CellEv := ((i.raises.filter fun r => r.slot == n).map fun r => r.evs).flatten

/-- The stream that the bundle of the present cycle has started. -/
def Ctx.ownStream (x : Ctx) (st : Stream) : Bool := st.level == x.depth && st.start == x.vt

/-- The events that a slot of the bundle has raised: for the C slot, those of its stream's first step too. -/
def Ctx.slotEvents (x : Ctx) (i : Issue) (n : Nat) : List CellEv :=
  raisesOf i n ++ if n = 3 then ((x.streams.filter x.ownStream).map fun st => st.evs).flatten else []

/-- The events of a slot that are settled with its bundle: those of a stream that goes on are recorded later (R189). -/
def Ctx.slotRecords (x : Ctx) (i : Issue) (n : Nat) : List CellEv :=
  if (x.streams.filter x.ownStream).all fun st => st.left == 0 then x.slotEvents i n else raisesOf i n

/-- A stream whose events the bundle has recorded. -/
def Ctx.recorded (x : Ctx) : Ctx :=
  { x with streams := x.streams.map fun st => if x.ownStream st && st.left == 0 then { st with evs := [] } else st }

/-- Append the bundle's records in slot order, after those of streams that have ended in its cycle, and let an enabled kind
wait for delivery, with the first slot that raised one (R121, R124, R341) (DEDUCED, log entry 13). -/
def State.flushRaises (s : State) (c k : Nat) (i : Issue) : State :=
  let s := s.flushDone c k (s.ctxAt c k).ownStream
  let x := s.ctxAt c k
  let s := (List.range 5).foldl (fun s n => if (x.slotRecords i n).isEmpty then s else s.events c k i.pc n x.shownVt (x.slotRecords i n)) s
  let s := s.modCtxAt c k Ctx.recorded
  let kinds := kindsOf (((List.range 5).map (x.slotEvents i)).flatten)
  match (List.range 5).find? fun n => (kindsOf (x.slotEvents i n)).any fun q => bit i.evtrap q with
  | some n => s.modCtxAt c k fun x => x.pending
      ⟨cNumericEvent, n, some i.pc, BitVec.ofNat 64 ((kinds.map fun q => 2 ^ q).foldl (· + ·) 0), false, false⟩
  | none => s

/-- The bundle-end causes USER_TRAP and WATCHPOINT (R98, R426). -/
def Ctx.pendBundle (x : Ctx) (i : Issue) : Ctx :=
  let x := match i.user with
    | some code => x.pending ⟨cUserTrap, 4, some i.pc, code.setWidth 64, false, false⟩
    | none => x
  match i.watch with
  | some (slot, info) => x.pending ⟨cWatchpoint, slot, some i.pc, info, false, false⟩
  | none => x

/-- A context that was let go for one bundle halts at the next boundary (R427). -/
def Ctx.haltAfter (x : Ctx) : Ctx := { x with haltReq := x.haltReq || x.stepReq, stepReq := false }

/-- The end of a bundle: its records, then the trap of a slot that faulted after issue, an advance of its F slot published
before it (R94), or the choice of the next bundle and the end of the cycle (R82, R412). -/
def State.finishBundle (s : State) (c k : Nat) : State :=
  match (s.ctxAt c k).issue with
  | none => s
  | some i =>
    let s := (s.flushRaises c k i).modCtxAt c k fun x => (x.pendBundle i).haltAfter
    match i.late with
    | some (slot, cause, info) =>
      let s := s.modCtxAt c k Ctx.publish
      let x := s.ctxAt c k
      if bit i.done 4 then
        let (next, _, x) := x.chooseNext i
        (s.setCtxAt c k x).takeTrap c k
          { cause := cause, fslot := slot, fpc := i.pc, info := info, rpc := i.pc, cmask := i.done, npc := some next
            wskip := x.wskipLeft }
      else s.takeTrap c k
        { cause := cause, fslot := slot, fpc := i.pc, info := info, rpc := i.pc, cmask := i.done, wskip := x.wskipLeft }
    | none =>
      s.modCtxAt c k fun x =>
        let (next, via, x) := x.chooseNext i
        Ctx.endCycle { x with
          pc := next, via := via, skip := i.hdr.2.toNat, resume := none, run := i.ending
          issue := if i.ending = .returning then some i else none }

/-- The F slot of a bundle, unless it must wait for a slot that faulted (DEDUCED, log entry 21). -/
def runLast (ex : Instr → State → Res) (s : State) : Res :=
  match s.cx.issue with
  | some i => if i.late.isSome && isLast i.f then .next s else runSlots ex [(4, i.f)] s
  | none => .next s

/-- Run the bundle in issue, if one is: its slots by `ex`, then its end. -/
def runBundle (ex : Instr → State → Res) (s : State) : Res :=
  match s.cx.issue with
  | none => .next s
  | some i =>
    if s.cx.run = .running then
      match runSlots ex i.order s with
      | .next t =>
        match runLast ex t with
        | .next u => .next { u.finishBundle s.turn.core s.turn.ctx with turn := { s.turn with slot := 0 } }
        | r => r
      | r => r
    else .next s

end Sys2Proof.Machine
end

