-- ==== Sys2Proof/Machine/Retention.lean ====
section
/-! DEFINITION. Refresh, temperature, the retention guard and the targeted self-test (R234 to R240, R434, R435, R439,
R440). An occurrence that carries a clock time takes the clock there. -/

namespace Sys2Proof.Machine

/-- Time does not count toward a launch's watchdog while a cluster of its cores is stopped or one of its contexts is
halted (R364, R431). -/
def State.wdogRests (s : State) (x : Launch) : Bool :=
  x.cores.any fun c => (s.cluster (clusterOf c)).stopped || (s.core c).ctxs.any fun q => q.2.halted

/-- The clock goes on to a time (R353). -/
def State.tick (s : State) (time : Nat) : State :=
  let d := time - s.clock
  { s with
    clock := max s.clock time
    launches := s.launches.map fun p => if s.wdogRests p.2 then (p.1, { p.2 with wdogAt := p.2.wdogAt + d }) else p }

/-! ### Refresh (R234, R236, R434, R435) -/

/-- Rows of a bank of a layer. -/
def bankRows (layer bank : Nat) : List Nat := (List.range 16).map fun w => layer * 128 + bank * 16 + w

/-- A layer's refresh is deferred (R238). -/
def Tower.deferred (t : Tower) (clk l : Nat) : Bool := decide (clk < get 0 t.defer l)

/-- A refresh checks a row of a data bank: one in error is rebuilt, or left as it is; either counts (R434, R439). -/
def Core.refreshRow (k : Core) (clk cell r : Nat) : Core :=
  if (k.tower cell).uncorrectable r then k.countUncorr ⟨0, cell, r, 0⟩ clk else k.serveRow clk cell r

/-- A refresh checks a row of an XOR bank, given by a row of its stripe: it is recomputed where the stripe decodes. -/
def Core.refreshXor (k : Core) (clk cell r : Nat) : Core :=
  let t := k.tower cell
  if !t.badXor.contains (xorRow r) then k
  else if (stripe r).any t.isBad then k.countUncorr ⟨1, cell, r, 0⟩ clk
  else (k.setTower cell (t.settleXor r)).countCorr (.towerBank 0 cell (rowLayer r) 8) clk

/-- Refresh a group of the tower that serves a cell: its rows are checked and it is touched (R236, R434). -/
def Core.refresh (k : Core) (clk cell g : Nat) : Core :=
  let layer := g / 9
  let k := if g % 9 = 8 then (bankRows layer 0).foldl (fun k r => k.refreshXor clk cell r) k
    else ((bankRows layer (g % 9)).filter (k.tower cell).isBad).foldl (fun k r => k.refreshRow clk cell r) k
  k.setTower cell ((k.tower cell).touchAll clk [g])

/-- The scheduler refreshes a group of a tower: its layer is neither OFF nor deferred and its age is within a millisecond of
half the retention limit (R236) (DESIGN CHOICE, log entry 56). -/
def Tower.refreshDue (t : Tower) (clk limitMs g : Nat) : Bool :=
  t.layer (g / 9) != .off && !t.deferred clk (g / 9) && decide (limitMs * cyclesPerMs ≤ 2 * (clk - get 0 t.touch g + cyclesPerMs))

/-- Whether a group of the tower that serves a cell is to be refreshed; a change of rail keeps it waiting (R378). -/
def State.refreshDue (s : State) (c tower group : Nat) : Bool :=
  let x := s.cluster (clusterOf c)
  !x.switching && ((s.core c).tower tower).refreshDue s.clock (retention x.temp) group

/-- REFRESH: the scheduler refreshes a group of the tower that serves a cell, where its age calls for it. -/
def execRefresh (c tower group : Nat) (s : State) : Res :=
  if Config.cores ≤ c ∨ Config.cells ≤ tower ∨ 72 ≤ group then .fault .noSuchPart
  else .next (if s.refreshDue c tower group then s.setCore c ((s.core c).refresh s.clock tower group) else s)

/-- TEMP_READING: a cluster's reading sets the retention limit of its towers (R235). -/
def execTempReading (cluster celsius time : Nat) (s : State) : Res :=
  if 32 ≤ cluster then .fault .noSuchPart
  else
    let s := s.tick time
    .next (s.setCluster cluster { s.cluster cluster with temp := celsius })

/-! ### The guard (R239, R240) -/

/-- The groups of a tower in deferred layers, with their ages. -/
def Tower.deferredGroups (t : Tower) (clk : Nat) : List (Nat × Nat) :=
  ((List.range 72).filter fun g => t.deferred clk (g / 9)).map fun g => (g, clk - get 0 t.touch g)

/-- The cells of a context whose towers have a deferral. -/
def Core.deferringCells (k : Core) (x : Ctx) (clk : Nat) : List Nat :=
  (cellsOf x.sqm).filter fun n => !((k.tower n).deferredGroups clk).isEmpty

/-- Groups of a context's deferred layers whose age is within a millisecond of the limit: cell, group, age. -/
def Core.atRisk (k : Core) (x : Ctx) (clk limitMs : Nat) : List (Nat × Nat × Nat) :=
  ((k.deferringCells x clk).map fun n =>
    (((k.tower n).deferredGroups clk).filter fun g => decide ((limitMs - 1) * cyclesPerMs ≤ g.2)).map fun g => (n, g.1, g.2)).flatten

/-- SYS.RETRISK after a firing: merged into what it holds (R240). -/
def retriskMerge (old : Word) (risk : List (Nat × Nat × Nat)) (celsius : Nat) : Word :=
  let layers := risk.foldl (fun m r => m ||| 1 <<< (r.2.1 / 9)) (fieldN old 40 8)
  let sqm := risk.foldl (fun m r => m ||| 1 <<< squadOf r.1) (fieldN old 36 4)
  let age := risk.foldl (fun m r => max m (min 4095 (r.2.2 / cyclesPerMs))) (fieldN old 16 12)
  let groups := satAdd 16 (fieldN old 0 16) risk.length
  BitVec.ofNat 64 ((layers <<< 40) + (sqm <<< 36) + (min 255 celsius <<< 28) + (age <<< 16) + groups)

/-- The guard fires (R239): the context's deferrals end, the groups at risk and then the others deferred are refreshed,
SYS.RETRISK is set and RETENTION_LIMIT waits for the context's next boundary (DESIGN CHOICE, log entry 38). -/
def State.guardFires (s : State) (c k : Nat) (risk : List (Nat × Nat × Nat)) : State :=
  let core := s.core c
  let x := core.ctx k
  let cells := core.deferringCells x s.clock
  let rest := (cells.map fun n =>
    (((core.tower n).deferredGroups s.clock).filter fun g => !risk.any fun r => r.1 == n && r.2.1 == g.1).map
      fun g => (n, g.1)).flatten
  let core := (cellsOf x.sqm).foldl (fun q n => q.setTower n { q.tower n with defer := [] }) core
  let core := (risk.map (fun r => (r.1, r.2.1)) ++ rest).foldl (fun q r => q.refresh s.clock r.1 r.2) core
  let s := (s.setCore c core).modCtxAt c k fun x =>
    { x with retrisk := retriskMerge x.retrisk risk (s.cluster (clusterOf c)).temp }
  s.pendCause c k ⟨cRetentionLimit, 0, none, 0, false, false⟩

/-- The groups of a context's deferred layers for which the guard fires (R239). -/
def State.guardRisk (s : State) (c k : Nat) : List (Nat × Nat × Nat) :=
  (s.core c).atRisk (s.ctxAt c k) s.clock (retention (s.cluster (clusterOf c)).temp)

/-- RETENTION_GUARD: at a clock time, for one context. -/
def execRetentionGuard (c k time : Nat) (s : State) : Res :=
  if Config.cores ≤ c ∨ Config.contexts ≤ k then .fault .noSuchPart
  else
    let s := s.tick time
    let risk := s.guardRisk c k
    .next (if risk.isEmpty then s else s.guardFires c k risk)

/-! ### When clock time next calls for the scheduler or the guard (R236, R239) -/

/-- When a group calls for its refresh, or its deferred layer for the guard, if nothing touches it before; a deferral that ends
first lets its refresh resume (R238). -/
def Tower.keepAt (t : Tower) (clk limitMs g : Nat) : Option Nat :=
  let touch := get 0 t.touch g
  let stop := get 0 t.defer (g / 9)
  let refresh := touch + (limitMs * cyclesPerMs / 2 - cyclesPerMs)
  let guard := touch + (limitMs - 1) * cyclesPerMs
  if t.layer (g / 9) = .off then none
  else if clk < stop then some (if guard < stop then guard else max stop refresh)
  else some refresh

/-- The moments still to come at which the towers of a core call for it. -/
def State.keepTimes (s : State) (c : Nat) (k : Core) : List Nat :=
  ((List.range Config.cells).map fun n =>
    ((List.range 72).filterMap ((k.tower n).keepAt s.clock (retention (s.cluster (clusterOf c)).temp))).filter
      fun t => decide (s.clock < t)).flatten

/-- The next such moment in the device. -/
def State.nextKeep (s : State) : Option Nat := (s.cores.map fun p => s.keepTimes p.1 p.2).flatten.min?

/-- A tower without the deferrals that are over. -/
def Tower.expire (t : Tower) (clk : Nat) : Tower := { t with defer := t.defer.filter fun p => decide (clk < p.2) }

/-- DEFERRAL_EXPIRY: deferrals of a core whose time has come end (R238). -/
def execDeferralExpiry (c time : Nat) (s : State) : Res :=
  if Config.cores ≤ c then .fault .noSuchPart
  else
    let s := s.tick time
    let k := s.core c
    .next (s.setCore c { k with
      cells := k.cells.map (fun (p : Nat × Cell) => (p.1, { p.2 with tower := p.2.tower.expire s.clock }))
      spares := k.spares.map fun (p : Nat × Tower) => (p.1, p.2.expire s.clock) })

/-! ### Errors and the self-test (R433, R437, R439, R440) -/

/-- The core that a unit belongs to; a link lane belongs to none. -/
def unitCore : ErrUnit → Option Nat
  | .towerBank c _ _ _ => some c
  | .cellUnit c _ _ => some c
  | .cmemWord c _ => some c
  | .relayLane _ _ => none

/-- Whether the device has the unit. -/
def unitExists : ErrUnit → Bool
  | .towerBank c cell layer bank =>
    decide (c < Config.cores) && decide (cell < Config.cells) && decide (layer < 8) && decide (bank < 9)
  | .cellUnit c cell _ => decide (c < Config.cores) && decide (cell < Config.cells)
  | .cmemWord c w => decide (c < Config.cores) && decide (w < Config.cmemBytes / 8)
  | .relayLane p l => decide (p < Config.ports) && decide (l < 4)

/-- An error of a link lane is met: it counts for 24 hours, and the lane's self-test starts (R439). -/
def Mgmt.meetLane (m : Mgmt) (port lane clk : Nat) : Mgmt :=
  { m with
    laneErrs := (m.laneErrs.filter fun p => decide (clk < p.2 + dayCycles)) ++ [((port, lane), clk)]
    laneTests := if m.laneTests.contains (port, lane) then m.laneTests else m.laneTests ++ [(port, lane)] }

/-- An error that is corrected, met by an access: a tower row and its bank are touched by the write-back (R433); a link lane's
is known to its port (R442). -/
def State.corrected (s : State) (u : ErrUnit) : State :=
  match unitCore u with
  | none =>
    match u with
    | .relayLane port lane => s.modMgmt fun m => m.meetLane port lane s.clock
    | _ => s
  | some c =>
    let k := (s.core c).countCorr (unitAt 0 u) s.clock
    match u with
    | .towerBank _ cell layer bank =>
      if (k.tower cell).layer layer = .off then s
      else s.setCore c (k.setTower cell ((k.tower cell).touchAll s.clock [layer * 9 + bank]))
    | _ => s.setCore c k

/-- The members of a list with further ones that it lacks. -/
def withMarks {α : Type} [BEq α] (old new : List α) : List α := old ++ new.filter fun n => !old.contains n

/-- Words of 32 bits of a cell register, by its number: vector registers, masks, accumulators (R433). -/
def registerWords (n : Nat) : Nat := if n < 32 then 8 else if n < 40 then 1 else if n < 42 then 512 else 0

/-- A word of a fragment takes an error. -/
def FragVal.spoil (v : FragVal) (w : Nat) : FragVal := { v with bad := withMarks v.bad [w] }

/-- An error that its code does not correct arises; a cached translation is dropped instead, which mends it (R433). -/
def State.upset (s : State) (p : ErrPlace) : State :=
  let onTower (c cell r : Nat) (f : Tower → Tower) : State :=
    let t := (s.core c).tower cell
    if Config.cores ≤ c ∨ Config.cells ≤ cell ∨ 1024 ≤ r ∨ t.layer (rowLayer r) = .off then s
    else s.setCore c ((s.core c).setTower cell (f t))
  let onCell (c cell : Nat) (f : Cell → Cell) : State :=
    if Config.cores ≤ c ∨ Config.cells ≤ cell then s else s.setCore c ((s.core c).setCell cell (f ((s.core c).cell cell)))
  match p with
  | .towerRow c cell r => onTower c cell r fun t => { t with bad := withMarks t.bad [r] }
  | .xorRow c cell r => onTower c cell r fun t => { t with badXor := withMarks t.badXor [xorRow r] }
  | .cellRegister c cell n w => onCell c cell fun x => if w < registerWords n then { x with bad := withMarks x.bad [(n, w)] } else x
  | .latch c cell d w => onCell c cell fun x =>
    let l := get {} x.latch d
    if d < 4 ∧ w < 16 then { x with latch := set {} d { l with val := l.val.spoil w } x.latch } else x
  | .receive c cell i w => onCell c cell fun x =>
    { x with rx := x.rx.mapIdx fun j e => if j = i ∧ w < 16 then { e with val := e.val.spoil w } else e }
  | .cmem c off =>
    if Config.cores ≤ c ∨ Config.cmemBytes ≤ off then s
    else s.setCore c { s.core c with badCmem := withMarks (s.core c).badCmem ((List.range 8).map (off / 8 * 8 + ·)) }
  | .dict c i =>
    if Config.cores ≤ c ∨ (s.core c).dictN ≤ i then s
    else s.setCore c { s.core c with badDict := withMarks (s.core c).badDict [i] }
  | .bitmap c w =>
    if Config.cores ≤ c ∨ (s.core c).streamN ≤ 64 * w then s
    else s.setCore c { s.core c with badBits := withMarks (s.core c).badBits [w] }
  | .memory pa =>
    if 2 ^ 56 ≤ pa then s else { s with badMem := withMarks s.badMem ((List.range 32).map (pa / 32 * 32 + ·)) }
  | .tlb c i =>
    if Config.cores ≤ c ∨ (s.core c).tlb.length ≤ i then s
    else s.setCore c { (s.core c).countErr 32 1 with tlb := (s.core c).tlb.eraseIdx i }
  | .walkCache d i => { s with walks := set [] d ((get [] s.walks d).eraseIdx i) s.walks }

end Sys2Proof.Machine
end

