-- ==== Sys2Proof/Machine/Copy.lean ====
section
/-! DEFINITION. What the copy engines do in clock time: an operation's start with its reads, conversions and writes to
memory, its rows through the broadcast columns, its packets, its completion and its stop on an error (R115, R118, R121,
R243, R244, R269, R318 to R324, R328, R333). -/

namespace Sys2Proof.Machine

/-! ### The engine as an agent -/

/-- Error numbers of R328. -/
def ePageFault : Nat := 1
/-- PAGE_ACCESS. -/
def ePageAccess : Nat := 2
/-- ADDR_SPACE. -/
def eAddrSpace : Nat := 3
/-- TOWER_OFF. -/
def eTowerOff : Nat := 4
/-- RACE. -/
def eRace : Nat := 5
/-- LQ_PARTIAL. -/
def eLqPartial : Nat := 6
/-- BUF_RANGE. -/
def eBufRange : Nat := 7
/-- LINK_LOST. -/
def eLinkLost : Nat := 8
/-- UNCORRECTABLE. -/
def eUncorrectable : Nat := 9
/-- FORMAT. -/
def eFormat : Nat := 10

/-- The error number of a failed access. -/
def AccErr.engineErr (e : AccErr) : Nat :=
  if e.code = cPageFault then ePageFault else if e.code = cPageAccess then ePageAccess
  else if e.code = cRace then eRace else if e.code = cUncorrectable then eUncorrectable else eAddrSpace

/-- An engine's error: number, and the address of the failing access or 0. -/
abbrev CopyErr := Nat × Word

/-- The engine context of an operation under way, as an agent. -/
structure CopyEnv where
  core : Nat
  ectx : Nat
  d : List Word
  client : Client
  scbase : Word
  deriving DecidableEq, Repr

/-- The agent that runs an operation of a launch (R249, R262). -/
def State.copyEnv (s : State) (c e l : Nat) (la : Launch) (op : EngineOp) (scbase : Word) : CopyEnv :=
  ⟨c, e, op.desc, ⟨⟨some c, la.dom, some l, la.priv == 0⟩,
    some ⟨.engine c e, .timeline l (s.core c).slot c e op.number, l⟩⟩, scbase⟩

/-- A core's unit meets a failed access: an uncorrectable error counts (R439). -/
def State.unitMet (s : State) (c : Nat) (e : AccErr) (va : Nat) : State :=
  if e.code = cUncorrectable then s.setCore c ((s.core c).countUncorr ⟨4, 0, 0, va⟩ s.clock) else s

/-- Read global bytes as the engine. -/
def CopyEnv.read (v : CopyEnv) (s : State) (va n : Nat) : Except CopyErr (List Byte) × State :=
  match s.readGlobal v.client .read va n with
  | (.ok bs, t) => (.ok bs, t)
  | (.error e, t) => (.error (e.engineErr, BitVec.ofNat 64 (va % 2 ^ 56)), t.unitMet v.core e va)

/-- Write global bytes as the engine. -/
def CopyEnv.write (v : CopyEnv) (s : State) (va : Nat) (bs : List Byte) : Except CopyErr State × State :=
  match s.writeGlobal v.client .write va bs with
  | (.ok t, u) => (.ok t, u)
  | (.error e, u) => (.error (e.engineErr, BitVec.ofNat 64 (va % 2 ^ 56)), u)

/-- A signed sum as an address; none where it leaves the 56 bits of a virtual address (R26). -/
def vaOf (base : Word) (off : Int) : Option Nat :=
  let a := (base.toNat : Int) + off
  if 0 ≤ a ∧ a < 2 ^ 56 then some a.toNat else none

/-! ### Places in towers (R322) -/

/-- Where a position's byte lies in towers: cells, row, byte, and its place in the order of R244. -/
structure TowerPlace where
  cells : List Nat
  row : Nat
  byte : Nat
  order : Nat
  deriving DecidableEq, Repr

/-- The place of byte offset `o` under an address word of a kind. -/
def towerPlace (kind : Nat) (w : Word) (o : Int) : TowerPlace :=
  let cells := towerCells w
  let n := cells.length
  let q := o / 32
  let b := (o % 32).toNat
  if kind = 1 then
    let r := ((towerAddr w : Int) + q).toNat
    ⟨cells, r, b, r⟩
  else ⟨[nth 0 cells (q % n).toNat], ((towerAddr w : Int) + q / n).toNat, b, ((towerAddr w * n : Nat) + q : Int).toNat⟩

/-- An access of an agent in clock time wakes a layer that is not ON (R232) (DEDUCED, log entry 45). -/
def Core.wakeLayer (k : Core) (cell row : Nat) : Core :=
  let t := k.tower cell
  match t.layer (rowLayer row) with
  | .gated => k.setTower cell ((t.startWake (rowLayer row)).endWake (rowLayer row))
  | .drowsy => k.setTower cell ((t.startWake (rowLayer row)).endWake (rowLayer row))
  | _ => k

/-- Read a tower row as the engine. -/
def State.engineRow (s : State) (c cell row : Nat) : Except CopyErr Row × State :=
  let k := (s.core c).wakeLayer cell row
  let s := s.setCore c k
  if (k.tower cell).layer (rowLayer row) = .off then (.error (eTowerOff, 0), s)
  else if (k.tower cell).uncorrectable row then (.error (eUncorrectable, 0), s.setCore c (k.countUncorr ⟨0, cell, row, 0⟩ s.clock))
  else (.ok (k.towerRow cell row), s.setCore c (k.serveRow s.clock cell row))

/-- Byte `b` of a row. -/
def rowByte (r : Row) (b : Nat) : Byte := field r (8 * b) 8

/-! ### Formats (R115, R323) -/

/-- The format of the page of an address; 0 where it does not translate (DEDUCED, log entry 32). -/
def State.pageFmt (s : State) (v : CopyEnv) (base : Word) : Nat :=
  match (s.translate v.client.acc (fieldN base 0 56)).1 with
  | .ok x => pteFmt x.pte
  | .error _ => 0

/-- What a transfer does with formats (R323). -/
inductive CopyMode where
  | raw
  /-- A block format kept: scales follow their blocks. -/
  | blocks (fmt : Nat)
  /-- Into a tower region. -/
  | load (fmt : Nat)
  /-- Out of a tower region. -/
  | unload (fmt : Nat)
  | conv (src dst : Nat)
  | refuse
  deriving DecidableEq, Repr

/-- The table of R323 for the kinds of the sides and the formats of their pages. -/
def copyMode (d : List Word) (sf df : Nat) : CopyMode :=
  let sk := copySKind d
  let dk := copyDKind d
  if isTowerKind dk then
    if sk ≠ 0 ∨ sf = 0 then .raw
    else if towerRgnw (copyDst d) then .load sf
    else if 4 ≤ sf then .refuse
    else .raw
  else if isTowerKind sk then (if dk = 0 ∧ towerRgnw (copySrc d) ∧ 4 ≤ df then .unload df else .raw)
  else if sk = 0 ∧ dk = 0 then
    if sf = 0 ∨ df = 0 then .raw else if sf = df then (if 4 ≤ sf then .blocks sf else .raw) else .conv sf df
  else .raw

/-- Bytes of a block of elements (R114). -/
def blockBytes (fmt : Nat) : Nat := if fmt = 5 then 32 else 16

/-- The scale address of the block that holds an address (R115). -/
def scaleAddr (v : CopyEnv) (fmt va : Nat) : Nat := (v.scbase.toNat + va / blockBytes fmt * blockBytes fmt / 16) % 2 ^ 64

/-- Read a block's scale byte; its page has FMT 0 (R115). -/
def CopyEnv.readScale (v : CopyEnv) (s : State) (fmt va : Nat) : Except CopyErr Byte × State :=
  let a := scaleAddr v fmt va
  match v.read s a 1 with
  | (.ok bs, t) =>
    if s.pageFmt v (BitVec.ofNat 64 a) = 0 then (.ok (bs.headD 0), t) else (.error (eFormat, BitVec.ofNat 64 (a % 2 ^ 56)), t)
  | (.error e, t) => (.error e, t)

/-- Write a block's scale byte. -/
def CopyEnv.writeScale (v : CopyEnv) (s : State) (fmt va : Nat) (b : Byte) : Except CopyErr State × State :=
  let a := scaleAddr v fmt va
  match v.write s a [b] with
  | (.ok t, u) =>
    if s.pageFmt v (BitVec.ofNat 64 a) = 0 then (.ok t, u) else (.error (eFormat, BitVec.ofNat 64 (a % 2 ^ 56)), u)
  | (.error e, u) => (.error e, u)

/-! ### Byte by byte -/

/-- A transfer under way within its start: the state, the position reached, the error that ended it, rows gathered in
the order of R244, scale bytes for towers, bytes for packets, and numeric events of conversions. -/
structure CopyAcc where
  s : State
  pos : Nat
  err : Option CopyErr := none
  rows : SMap ColRow := []
  scales : List (List Nat × Nat × Nat × Byte) := []
  out : List (Nat × Word × Byte) := []
  evs : List (Nat × Nat) := []
  deriving DecidableEq, Repr

/-- Stop at an error. -/
def CopyAcc.stop (x : CopyAcc) (s : State) (e : CopyErr) : CopyAcc := { x with s := s, err := some e }

/-- Offset of a position on a side. -/
def CopyEnv.off (v : CopyEnv) (src : Bool) (p : Nat) : Int := copyOffset (copyLens v.d) (copyStrides v.d src) p

/-- The byte that a position reads (R320 to R322), with the address it comes from for a global source. -/
def CopyEnv.fetch (v : CopyEnv) (s : State) (p : Nat) : Except CopyErr Byte × State :=
  let w := copySrc v.d
  let o := v.off true p
  match copySKind v.d with
  | 0 =>
    match vaOf w o with
    | none => (.error (eAddrSpace, 0), s)
    | some va =>
      match v.read s va 1 with
      | (.ok bs, t) => (.ok (bs.headD 0), t)
      | (.error e, t) => (.error e, t)
  | 3 =>
    let a := (fieldN w 0 18 : Int) + o
    if a < 0 ∨ (Config.cmemBytes : Int) ≤ a then (.error (eAddrSpace, 0), s)
    else if (s.core v.core).cmemBad a.toNat 1 then
      (.error (eUncorrectable, 0), s.setCore v.core ((s.core v.core).countUncorr ⟨2, 0, 0, a.toNat⟩ s.clock))
    else (.ok (readByte (s.core v.core).cmem a.toNat), s)
  | k =>
    let q := towerPlace k w o
    match s.engineRow v.core (q.cells.headD 0) q.row with
    | (.ok r, t) => (.ok (rowByte r q.byte), t)
    | (.error e, t) => (.error e, t)

/-- Put a byte into a gathered row. -/
def ColRow.put (r : ColRow) (q : TowerPlace) (p : Nat) (b : Byte) : ColRow :=
  { cells := q.cells, row := q.row, val := setField r.val (8 * q.byte) 8 b.toNat, bits := setField r.bits (8 * q.byte) 8 0xFF
    first := if r.bits = 0 then p else min r.first p }

/-- Write the byte of a position to its destination, or gather it. -/
def CopyEnv.store (v : CopyEnv) (x : CopyAcc) (p : Nat) (b : Byte) : CopyAcc :=
  let w := copyDst v.d
  let o := v.off false p
  match copyDKind v.d with
  | 0 =>
    match vaOf w o with
    | none => x.stop x.s (eAddrSpace, 0)
    | some va =>
      match v.write x.s va [b] with
      | (.ok t, _) => { x with s := t, pos := p + 1 }
      | (.error e, t) => x.stop t e
  | 3 =>
    let a := (fieldN w 0 18 : Int) + o
    if a < 0 ∨ (Config.cmemBytes : Int) ≤ a ∨ a < 2 * (x.s.core v.core).streamN then x.stop x.s (eAddrSpace, 0)
    else { x with s := x.s.setCore v.core ((x.s.core v.core).writeCmem a.toNat [b]), pos := p + 1 }
  | 4 => { x with out := x.out ++ [(p, BitVec.ofInt 64 ((fieldN w 0 48 : Int) + o), b)], pos := p + 1 }
  | k =>
    let q := towerPlace k w o
    { x with rows := alter {} q.order (fun r => r.put q p b) x.rows, pos := p + 1 }

/-- The scale byte that goes with a position in a block transfer (R115, R323). -/
def CopyEnv.scale (v : CopyEnv) (x : CopyAcc) (m : CopyMode) (p : Nat) : CopyAcc :=
  match m with
  | .blocks f =>
    match vaOf (copySrc v.d) (v.off true p), vaOf (copyDst v.d) (v.off false p) with
    | some a, some b =>
      match v.readScale x.s f a with
      | (.ok q, t) =>
        match v.writeScale t f b q with
        | (.ok t, _) => { x with s := t }
        | (.error e, t) => x.stop t e
      | (.error e, t) => x.stop t e
    | _, _ => x.stop x.s (eAddrSpace, 0)
  | .load f =>
    if f < 4 then x
    else
      match vaOf (copySrc v.d) (v.off true p) with
      | none => x.stop x.s (eAddrSpace, 0)
      | some a =>
        match v.readScale x.s f a with
        | (.error e, t) => x.stop t e
        | (.ok q, t) =>
          let w := copyDst v.d
          let pl := towerPlace (copyDKind v.d) w (v.off false p)
          let n := (32 * (pl.row - towerAddr w) + pl.byte) / blockBytes f
          { x with s := t, scales := x.scales ++ [(pl.cells, fieldN w 26 10 + n / 32, n % 32, q)] }
  | .unload f =>
    match vaOf (copyDst v.d) (v.off false p) with
    | none => x.stop x.s (eAddrSpace, 0)
    | some b =>
      let w := copySrc v.d
      let pl := towerPlace (copySKind v.d) w (v.off true p)
      let n := (32 * (pl.row - towerAddr w) + pl.byte) / blockBytes f
      match x.s.engineRow v.core (pl.cells.headD 0) ((fieldN w 26 10 + n / 32) % 1024) with
      | (.error e, t) => x.stop t e
      | (.ok r, t) =>
        match v.writeScale t f b (rowByte r (n % 32)) with
        | (.ok t, _) => { x with s := t }
        | (.error e, t) => x.stop t e
  | _ => x

/-- One position of a transfer that moves bytes; a position whose pages give another format is refused. -/
def CopyEnv.moveByte (v : CopyEnv) (m : CopyMode) (x : CopyAcc) (p : Nat) : CopyAcc :=
  if x.err.isSome then x
  else
    let fmtAt (w : Word) (o : Int) : Nat :=
      match vaOf w o with
      | some a => x.s.pageFmt v (BitVec.ofNat 64 a)
      | none => 0
    let here := copyMode v.d (if copySKind v.d = 0 then fmtAt (copySrc v.d) (v.off true p) else 0)
      (if copyDKind v.d = 0 then fmtAt (copyDst v.d) (v.off false p) else 0)
    match v.fetch x.s p with
    | (.error e, t) => x.stop t e
    | (.ok b, t) =>
      if here ≠ m then x.stop t (eFormat, 0)
      else
        let y := v.scale { x with s := t } m p
        if y.err.isSome then y else v.store y p b

/-! ### Conversions (R211, R323) -/

/-- Element formats of page formats. -/
def pageElem (f : Nat) : Fmt := (Fmt.ofRegion f).getD .fp32

/-- An element read for conversion: position, absolute index in the destination's format, value. -/
structure ConvElem where
  p : Nat
  idx : Nat
  val : FVal
  deriving DecidableEq, Repr

/-- Byte address and code width of element `o` from an address, in a page format; LQ8 elements lie in codewords. -/
def elemAddr (f : Nat) (base : Word) (o : Int) : Option Nat :=
  match f with
  | 1 => vaOf base (2 * o)
  | 4 => vaOf base (o / 2)
  | 6 => vaOf base (2 * (o / 8))
  | _ => vaOf base o

/-- Read one element as a value (R106, R205). -/
def CopyEnv.readElem (v : CopyEnv) (s : State) (f : Nat) (o : Int) : Except CopyErr FVal × State :=
  match elemAddr f (copySrc v.d) o with
  | none => (.error (eAddrSpace, 0), s)
  | some a =>
    match v.read s a (if f = 1 ∨ f = 6 then 2 else 1) with
    | (.error e, t) => (.error e, t)
    | (.ok bs, t) =>
      let w := leNat bs
      if s.pageFmt v (BitVec.ofNat 64 a) ≠ f then (.error (eFormat, 0), t)
      else if f < 4 then (.ok ((pageElem f).spec.decode w), t)
      else
        match v.readScale t f a with
        | (.error e, t) => (.error e, t)
        | (.ok q, t) =>
          (.ok (match f with
            | 4 => mxValue .mxfp4 q.toNat (if o % 2 = 0 then w % 16 else w / 16)
            | 5 => mxValue .mxfp8 q.toNat w
            | _ => lqValue q.toNat (nth 0 (lqDecode (BitVec.ofNat 16 w)) (o % 8).toNat)), t)

/-- Absolute index of a destination element in its format. -/
def destIndex (f : Nat) (base : Word) (o : Int) : Nat :=
  match f with
  | 4 => (2 * (base.toNat : Int) + o).toNat
  | 6 => (8 * ((base.toNat / 2 : Nat) : Int) + o).toNat
  | _ => ((base.toNat : Int) + o).toNat

/-- Read the elements of a converting transfer, up to the first error. -/
def CopyEnv.readElems (v : CopyEnv) (sf df : Nat) : List Nat → State → List ConvElem × Option (Nat × CopyErr) × State
  | [], s => ([], none, s)
  | p :: ps, s =>
    match v.readElem s sf (v.off true p) with
    | (.error e, t) => ([], some (p, e), t)
    | (.ok x, t) =>
      let r := v.readElems sf df ps t
      (⟨p, destIndex df (copyDst v.d) (v.off false p), x⟩ :: r.1, r.2)

/-- Note a number of events of each kind raised. -/
def CopyAcc.note (x : CopyAcc) (k : Kinds) : CopyAcc :=
  { x with evs := x.evs ++ ((List.range 8).filter (bit k)).map fun i => (i, 1) }

/-- Write an element of a plain format (R323). -/
def CopyEnv.writePlain (v : CopyEnv) (df : Nat) (x : CopyAcc) (q : ConvElem) : CopyAcc :=
  if x.err.isSome then x
  else
    let r := toFloatFmt (pageElem df).spec .rne q.val
    match elemAddr df (copyDst v.d) (v.off false q.p) with
    | none => x.stop x.s (eAddrSpace, 0)
    | some a =>
      if x.s.pageFmt v (BitVec.ofNat 64 a) ≠ df then x.stop x.s (eFormat, 0)
      else
        match v.write x.s a (leBytes (if df = 1 then 2 else 1) r.1) with
        | (.ok t, _) => { x with s := t, pos := q.p + 1 }.note r.2
        | (.error e, t) => x.stop t e

/-- Elements of a block of a page format. -/
def blockElems (f : Nat) : Nat := if f = 6 then 64 else 32

/-- Cut elements into segments: consecutive indices within one block; each with whether it starts a run. -/
def segments (n : Nat) : Bool → List ConvElem → List (Bool × List ConvElem)
  | _, [] => []
  | first, q :: qs =>
    match qs with
    | [] => [(first, [q])]
    | r :: _ =>
      let joins := r.idx == q.idx + 1
      if joins && r.idx / n == q.idx / n then
        match segments n first qs with
        | (_, seg) :: rest => (first, q :: seg) :: rest
        | [] => [(first, [q])]
      else (first, [q]) :: segments n (!joins) qs

/-- A block as it is to be written: its bytes' values and mask, its scale where it changes, and its events. -/
structure BlockOut where
  val : Nat
  mask : Nat
  scale : Option Byte
  evs : List (Nat × Nat)
  deriving DecidableEq, Repr

/-- A block of elements of a width from their codes, with a mask of those written. -/
def packBlock (w : Nat) (es : List (Option Nat)) : Nat × Nat :=
  (indexed 0 es).foldl (fun a e =>
    match e.2 with
    | some c => (a.1 + ((c % 2 ^ w) <<< (w * e.1)), a.2 + ((2 ^ w - 1) <<< (w * e.1)))
    | none => a) (0, 0)

/-- Events of elements, one each. -/
def kindCounts (ks : List Kinds) : List (Nat × Nat) := (ks.map fun k => ((List.range 8).filter (bit k)).map fun i => (i, 1)).flatten

/-- Encode a segment of an MX block (R107, R193, R211): `a` is its first place; `old` the scale it meets, none at a block
boundary, where the scale is searched and the rest of the block is +0. -/
def mxSegment (g : Fmt) (a : Nat) (xs : List FVal) (old : Option Byte) : BlockOut :=
  let n := xs.length
  let lost := (xs.filter FVal.unblockable).length
  match old with
  | none =>
    let s := mxScale g .rne xs
    let es := mxEncode g .rne s xs
    let w := g.width
    let r := packBlock w ((es.map fun e => some e.1) ++ List.replicate (32 - n) (some 0))
    ⟨r.1, r.2, some (BitVec.ofNat 8 s), kindCounts (es.map Prod.snd)⟩
  | some q =>
    let s := if q = 0xFF ∨ 0 < lost then 255 else q.toNat
    let es := mxEncode g .rne s xs
    let r := packBlock g.width (List.replicate a none ++ es.map fun e => some e.1)
    ⟨r.1, r.2, if s = 255 then some 0xFF else none, if s = 255 then [(5, lost)] else kindCounts (es.map Prod.snd)⟩

/-- Encode a segment of an LQ8 block (R210, R211). -/
def lqSegment (a : Nat) (xs : List FVal) (old : Option Byte) : BlockOut :=
  let n := xs.length
  let lost := (xs.filter FVal.unblockable).length
  let es : List LqElem := List.replicate a (false, .fin false 0 0) ++ (xs.map fun x => (true, x)) ++
    List.replicate (64 - a - n) (false, .fin false 0 0)
  let s := match old with
    | none => lqScale es
    | some q => if q = 0xFF ∨ 0 < lost then 255 else q.toNat
  let (ws, ev) := lqEncodeBlock s es
  let evs := ev.map fun (e : EvItem) => (e.kind, e.count)
  match old with
  | none =>
    let r := packBlock 16 (ws.map fun w => some w.toNat)
    ⟨r.1, r.2, some (BitVec.ofNat 8 s), evs⟩
  | some _ =>
    let r := packBlock 16 ((indexed 0 ws).map fun w => if a / 8 ≤ w.1 ∧ w.1 < (a + n + 7) / 8 then some w.2.toNat else none)
    ⟨r.1, r.2, if s = 255 then some 0xFF else none, if s = 255 then [(5, lost)] else evs⟩

/-- Bytes as they stand at an address the engine may write. -/
def State.peek (s : State) (v : CopyEnv) (va n : Nat) : Nat :=
  match (s.translate v.client.acc va).1 with
  | .ok x => leNat (s.locBytes x.loc n)
  | .error _ => 0

/-- A byte of a block that a write of some of its bits keeps, wholly or in part, is in error: putting the block together reads
it (R433, R438). -/
def State.keptBad (s : State) (v : CopyEnv) (va n : Nat) (bits : BitVec 256) : Bool :=
  match (s.translate v.client.acc va).1 with
  | .ok ⟨.mem pa, _⟩ => (List.range n).any fun i => field bits (8 * i) 8 != 0xFF && s.memBad (pa + i) 1
  | _ => false

/-- Write one segment of a block format; its first place decides between the search and the existing scale. -/
def CopyEnv.writeSegment (v : CopyEnv) (df : Nat) (x : CopyAcc) (seg : Bool × List ConvElem) : CopyAcc :=
  if x.err.isSome then x
  else
    match seg.2 with
    | [] => x
    | q :: _ =>
      let n := blockElems df
      let a := q.idx % n
      let va := q.idx / n * blockBytes df
      let xs := seg.2.map fun e => e.val
      let last := seg.2.foldl (fun m e => max m e.p) q.p
      if x.s.pageFmt v (BitVec.ofNat 64 va) ≠ df ∨ 2 ^ 56 ≤ va then x.stop x.s (eFormat, BitVec.ofNat 64 (va % 2 ^ 56))
      else
        let (old, s) : Except CopyErr (Option Byte) × State :=
          if a = 0 then (.ok none, x.s)
          else match v.readScale x.s df va with
            | (.ok b, t) => (.ok (some b), t)
            | (.error e, t) => (.error e, t)
        match old with
        | .error e => x.stop s e
        | .ok old =>
          let b := if df = 6 then lqSegment a xs old else mxSegment (pageElem df) a xs old
          let m : BitVec 256 := BitVec.ofNat 256 b.mask
          let now : BitVec 256 := BitVec.ofNat 256 (s.peek v va (blockBytes df))
          let new := mergeBits now (BitVec.ofNat 256 b.val) m
          match v.write s va (leBytes (blockBytes df) new.toNat) with
          | (.error e, t) => x.stop t e
          | (.ok t, _) =>
            if s.keptBad v va (blockBytes df) m then
              x.stop (s.unitMet v.core ⟨cUncorrectable, none⟩ va) (eUncorrectable, BitVec.ofNat 64 (va % 2 ^ 56))
            else
            let r : Except CopyErr State × State := match b.scale with
              | some q => v.writeScale t df va q
              | none => (.ok t, t)
            match r with
            | (.error e, t) => x.stop t e
            | (.ok t, _) => { x with s := t, pos := last + 1, evs := x.evs ++ b.evs }

/-- The elements that a conversion to a block format writes when the element of a position cannot be read: those of a block
that this element would continue are left, so that nothing at or above the committed position is changed but by its own
value (R328). -/
def uncut (n idx : Nat) (segs : List (Bool × List ConvElem)) : List (Bool × List ConvElem) :=
  match segs.getLast? with
  | some (_, q :: qs) => if ((q :: qs).getLast?.map fun e => e.idx + 1) = some idx ∧ q.idx / n = idx / n then segs.dropLast else segs
  | _ => segs

/-- A converting transfer (R323). Its innermost strides are zero; a run that starts within a codeword writes nothing. One without
positions moves nothing, whatever its strides (R31). -/
def CopyEnv.convert (v : CopyEnv) (sf df : Nat) (x : CopyAcc) (ps : List Nat) : CopyAcc :=
  if ps.isEmpty then x
  else if copySstr v.d 0 ≠ 0 ∨ copyDstr v.d 0 ≠ 0 then x.stop x.s (eFormat, 0)
  else
    let (es, e, s) := v.readElems sf df ps x.s
    let x := { x with s := s }
    let bad := e.map Prod.fst
    let cut (segs : List (Bool × List ConvElem)) : List (Bool × List ConvElem) :=
      match bad with
      | some p => uncut (blockElems df) (destIndex df (copyDst v.d) (v.off false p)) segs
      | none => segs
    let segs := segments (blockElems df) true es
    let left := (segs.drop (cut segs).length).head?.bind fun g => g.2.head?.map fun q => q.p
    let y :=
      if df < 4 then es.foldl (v.writePlain df) x
      else
        let partials := decide (df = 6) && (decide ((copyDst v.d).toNat % 2 = 1) || segs.any fun g => g.1 && match g.2 with
          | q :: _ => q.idx % 8 != 0
          | [] => false)
        if partials then x.stop s (eLqPartial, 0) else (cut segs).foldl (v.writeSegment df) x
    match y.err, e with
    | none, some (p, e) => { y with err := some e, pos := if df < 4 then p else left.getD p }
    | _, _ => y

/-! ### COPY_OP_START -/

/-- Rows of scale bytes for towers, gathered in the order of their rows. They are written before the rows of elements, which
R244 orders by the offsets that scale bytes do not have, so that every position below the committed one has its scale with it
(R323, R328) (DEDUCED, log entry 32). -/
def scaleRows (xs : List (List Nat × Nat × Nat × Byte)) : SMap ColRow :=
  xs.foldl (fun m q => alter {} (q.2.1 * 256 + q.1.headD 0)
    (fun r => r.put ⟨q.1, q.2.1, q.2.2.1, 0⟩ (2 ^ 38) q.2.2.2) m) []

/-- The region entries that a transfer into a tower writes (R323): FIRST TADDR, COUNT the rows that the whole
pattern writes in the cell, SROW as the address word gives it. A pattern without a position moves nothing (R31). -/
def CopyEnv.entries (v : CopyEnv) (f : Nat) : List (Nat × Nat × Word) :=
  let w := copyDst v.d
  let places := ((List.range (copyCount v.d)).map fun p => towerPlace (copyDKind v.d) w (v.off false p))
  if places.isEmpty then []
  else (towerCells w).map fun c =>
    let rows := ((places.filter fun q => q.cells.contains c).map fun q => q.row).eraseDups.length
    (c, fieldN w 36 4, BitVec.ofNat 64 (((rows % 2048) <<< 32) + (towerAddr w <<< 22) + (fieldN w 26 10 <<< 12) + f))

/-- Cut gathered bytes into packets of 256 positions (R324). -/
def packetsOf : Nat → List (Nat × Word × Byte) → List (List (Word × Byte) × Nat)
  | 0, _ => []
  | fuel + 1, xs =>
    match xs with
    | [] => []
    | (p, _, _) :: _ =>
      let goal := (p / 256 + 1) * 256
      let now := xs.takeWhile fun q => decide (q.1 < goal)
      let stop := now.foldl (fun m q => max m (q.1 + 1)) 0
      ((now.map fun q => (q.2.1, q.2.2)), stop) :: packetsOf fuel (xs.drop now.length)

/-- Append the records of a transfer's conversions, one per kind (R121 to R123). -/
def Core.engineEvents (k : Core) (e : Nat) (op : EngineOp) (evs : List (Nat × Nat)) : Core :=
  let sch := op.entry.isSome
  let w0 := (((op.entry.getD (addr16of op.pc)) % 65536) <<< 48) + (2 <<< 45) + (1 <<< 39) + (e <<< 36) +
    ((if sch then 0 else op.ctx) <<< 34) + ((if sch then 1 else 0) <<< 33) + (if sch then 0 else op.vt.toNat % 2 ^ 32)
  (List.range 8).foldl (fun k kind =>
    let mine := evs.filter fun q => q.1 == kind
    if mine.isEmpty then k
    else
      let n := min (mine.foldl (fun a q => a + q.2) 0) 0xFFFFFFFF
      let k := k.appendEvent (BitVec.ofNat 64 (w0 + (kind <<< 40)), BitVec.ofNat 64 n)
      { k with evEng := k.evEng ||| BitVec.ofNat 7 (2 ^ (kind - 1)) }) k

/-- Perform the reads, conversions and memory writes of an operation from its first position (DEDUCED, log entry 32). -/
def CopyEnv.perform (v : CopyEnv) (s : State) (start : Nat) : CopyAcc × CopyMode :=
  let ps := (List.range (copyCount v.d - start)).map (· + start)
  let sf := if copySKind v.d = 0 then s.pageFmt v (copySrc v.d) else 0
  let df := if copyDKind v.d = 0 then s.pageFmt v (copyDst v.d) else 0
  let m := copyMode v.d sf df
  let x : CopyAcc := { s := s, pos := start }
  match m with
  | .conv a b => (v.convert a b x ps, m)
  | .load f =>
    if (v.entries f).all fun q => rgnOk q.2.2 then (ps.foldl (v.moveByte m) x, m) else (x.stop s (eFormat, 0), m)
  | .refuse => (ps.foldl (v.moveByte .raw) x, m)
  | _ => (ps.foldl (v.moveByte m) x, m)

/-- An engine context of a core. -/
def Core.engine (k : Core) (e : Nat) : Engine := get {} k.engines e

/-- Put an engine context back. -/
def Core.setEngine (k : Core) (e : Nat) (x : Engine) : Core := { k with engines := set {} e x k.engines }

/-- The operation that an engine context can start: the head of its queue, its gate released (R318). -/
def State.copyReady (s : State) (c e : Nat) : Option (EngineOp × List EngineOp) :=
  let x := (s.core c).engine e
  match s.launchOf c, x.run, x.queue with
  | some (_, l), none, op :: rest => if s.unitsRun c ∧ op.gate ≤ l.stage then some (op, rest) else none
  | _, _, _ => none

/-- The packet as a flit for the package that the address word names (R321): a write, or for a remote source a read. -/
def packetOp (d : List Word) (group : Nat) (bytes : List (Word × Byte)) : RemoteOp :=
  if copySKind d = 4 then .reads (fieldN (copySrc d) 48 10) group (bytes.map Prod.fst)
  else .writes (fieldN (copyDst d) 48 10) group bytes

/-- Send the packets that a run has waiting, in order. -/
def State.sendPackets (s : State) (c e group : Nat) : List (List (Word × Byte) × Nat) → State
  | [] => s
  | p :: ps =>
    let x := (s.core c).engine e
    match x.run with
    | none => s
    | some r =>
      match s.sendFlit r.via (packetOp r.op.desc group p.1) (some (c, e)) with
      | none => s
      | some (n, t) =>
        (t.setCore c ((t.core c).setEngine e { x with
          run := some { r with packets := ps, sent := r.sent ++ [(n, p.2)] } })).sendPackets c e group ps

/-- Send what a run has waiting; a rail change of its cluster keeps it (R378). -/
def State.sendRun (s : State) (c e : Nat) : State :=
  if (s.cluster (clusterOf c)).switching then s
  else
  match s.launchOf c, ((s.core c).engine e).run with
  | some (_, l), some r =>
    match s.mgmt.fabricGroup l.dom with
    | some g => s.sendPackets c e g r.packets
    | none => s
  | _, _ => s

/-- Send what the runs of some cores have waiting. -/
def State.sendRuns (s : State) (cs : List Nat) : State :=
  cs.foldl (fun s c => (List.range 8).foldl (fun s e => s.sendRun c e) s) s

/-- The positions of a remote source as addresses to read. -/
def CopyEnv.remoteReads (v : CopyEnv) (start : Nat) : List (Nat × Word × Byte) :=
  ((List.range (copyCount v.d - start)).map (· + start)).map fun p =>
    (p, BitVec.ofInt 64 ((fieldN (copySrc v.d) 0 48 : Int) + v.off true p), 0)

/-- Start an operation (R318): what it does at once, and what its columns and packets have still to do. -/
def State.startCopy (s : State) (c e l : Nat) (la : Launch) (op : EngineOp) (rest : List EngineOp) : State :=
  let v := s.copyEnv c e l la op la.scbase
  let remote := copySKind op.desc = 4 ∨ copyDKind op.desc = 4
  let put (s : State) (r : EngineRun) : State :=
    s.setCore c ((s.core c).setEngine e { (s.core c).engine e with queue := rest, run := some r })
  if remote ∧ (s.mgmt.fabricGroup la.dom).isNone ∧ op.start < copyCount op.desc then
    put s { op := op, pos := op.start, goal := op.start, scbase := la.scbase, err := some (ePageAccess, 0), since := s.clock }
  else if copySKind op.desc = 4 then
    let (g, s) := s.routeTo (fieldN (copySrc op.desc) 48 10)
    let ps := packetsOf (copyCount op.desc / 256 + 2) (v.remoteReads op.start)
    (put s { op := op, pos := op.start, goal := copyCount op.desc, scbase := la.scbase, packets := ps, via := g, since := s.clock }).sendRun c e
  else
    let (x, m) := v.perform s op.start
    let s := x.s.setCore c ((x.s.core c).engineEvents e op x.evs)
    let rows := ((scaleRows x.scales).map Prod.snd) ++ x.rows.map Prod.snd
    let entries := match m with
      | .load f => if x.err.isSome then [] else v.entries f
      | _ => []
    let goal := if x.err.isSome then x.pos else max x.pos (copyCount op.desc)
    if copyDKind op.desc = 4 then
      let (g, s) := s.routeTo (fieldN (copyDst op.desc) 48 10)
      (put s { op := op, pos := op.start, goal := goal, scbase := la.scbase, via := g, err := x.err, since := s.clock
               packets := packetsOf (copyCount op.desc / 256 + 2) x.out }).sendRun c e
    else
      let pos := if rows.isEmpty then goal else rows.foldl (fun m r => min m r.first) goal
      put s { op := op, pos := pos, goal := goal, scbase := la.scbase, rows := rows, entries := entries, err := x.err, since := s.clock }

/-- COPY_OP_START: an engine context takes the next operation from its queue. -/
def execCopyOpStart (c e : Nat) (s : State) : Res :=
  if Config.cores ≤ c ∨ 8 ≤ e then .fault .noSuchPart
  else
    match s.copyReady c e, s.launchOf c with
    | some (op, rest), some (l, la) => .next (s.startCopy c e l la op rest)
    | _, _ => .next s

/-! ### COLUMN_ROW_WRITE (R243, R244, R322) -/

/-- Stop a run for its columns: nothing that is left is written; every position below the committed one is. -/
def EngineRun.stopRows (r : EngineRun) (e : CopyErr) : EngineRun :=
  let pos := r.rows.foldl (fun m q => min m q.first) r.goal
  { r with rows := [], entries := [], err := some e, pos := pos, goal := pos }

/-- Write a column's row in all its cells. -/
def Core.columnWrite (k : Core) (clk : Nat) (q : ColRow) : Core := q.cells.foldl (fun k c => k.writeRow clk c q.row q.val q.bits) k

/-- A core whose engine context has the run `r`. -/
def Core.withRun (k : Core) (e : Nat) (r : EngineRun) : Core := k.setEngine e { k.engine e with run := some r }

/-- The next row of an engine context lands. -/
def State.columnRow (s : State) (c e : Nat) (r : EngineRun) (q : ColRow) (rest : List ColRow) : State :=
  let k := q.cells.foldl (fun k n => k.wakeLayer n q.row) (s.core c)
  if q.cells.any fun n => (k.tower n).layer (rowLayer q.row) == .off then
    s.setCore c (k.withRun e (r.stopRows (eTowerOff, 0)))
  else
    match if q.bits = BitVec.allOnes 256 then none else q.cells.find? fun n => (k.tower n).uncorrectable q.row with
    | some n => s.setCore c ((k.countUncorr ⟨0, n, q.row, 0⟩ s.clock).withRun e (r.stopRows (eUncorrectable, 0)))
    | none =>
      let k := k.columnWrite s.clock q
      s.setCore c (k.withRun e { r with rows := rest, pos := rest.foldl (fun m w => min m w.first) r.goal })

/-- COLUMN_ROW_WRITE: a broadcast column delivers the next row of an engine context's transfer. -/
def execColumnRowWrite (c e : Nat) (s : State) : Res :=
  if Config.cores ≤ c ∨ 8 ≤ e then .fault .noSuchPart
  else
    match ((s.core c).engine e).run with
    | some r =>
      match r.rows with
      | q :: rest => .next (if s.unitsRun c then s.columnRow c e r q rest else s)
      | [] => .next s
    | none => .next s

/-! ### Completion and error (R268, R269, R328, R333) -/

/-- Nothing of a run is left to do. -/
def EngineRun.over (r : EngineRun) : Bool := r.rows.isEmpty && r.packets.isEmpty && r.sent.isEmpty

/-- An operation completes: its region entries are written, its increment is added, its end marker advances. -/
def State.completeCopy (s : State) (c e : Nat) (r : EngineRun) : State :=
  let k := s.core c
  let x := k.engine e
  let k := r.entries.foldl (fun k q => k.setCell q.1 { k.cell q.1 with rgn := set 0 q.2.1 q.2.2 (k.cell q.1).rgn }) k
  let s := s.setCore c (k.setEngine e { x with run := none, done := x.done + 1 })
  match k.launch with
  | some l => s.modLaunch l fun la => la.addCounter k.slot e (copyInc r.op.desc)
  | none => s

/-- COPY_OP_COMPLETE. -/
def execCopyOpComplete (c e : Nat) (s : State) : Res :=
  if Config.cores ≤ c ∨ 8 ≤ e then .fault .noSuchPart
  else
    match ((s.core c).engine e).run with
    | some r => .next (if s.unitsRun c ∧ r.over ∧ r.err = none then s.completeCopy c e r else s)
    | none => .next s

/-- A context has stopped for good. -/
def Ctx.hasStopped (x : Ctx) : Bool := x.run == .stopped || x.run == .retired || x.run == .idle

/-- The context that a core's unit reports to (R328, R333): the one given, or the lowest that has not stopped. -/
def Core.reportTo (k : Core) (want : Option Nat) : Option Nat :=
  let ks := k.ctxs.map Prod.fst
  let live := ks.filter fun n => !(k.ctx n).hasStopped
  match want with
  | some n => if (k.ctx n).hasStopped then live.head? else some n
  | none => match ks.head? with
    | some n => if (k.ctx n).hasStopped then live.head? else some n
    | none => none

/-- SYS.ENGFLTA and SYS.ENGFLTB of a report; an unread earlier error stands, with MORE (R328, R413). -/
def Ctx.engineFault (x : Ctx) (va : Word) (w : Nat) : Ctx :=
  if fieldN x.engfltb 56 8 ≠ 0 then { x with engfltb := x.engfltb ||| 0x0004000000000000 }
  else { x with engflta := BitVec.ofNat 64 (fieldN va 0 56), engfltb := BitVec.ofNat 64 w }

/-- Report an engine's or the gather unit's error by ENGINE_FAULT (R328); where every context of the core has stopped, the
launch ends with it (R333). -/
def State.reportEngine (s : State) (c : Nat) (want : Option Nat) (va : Word) (w : Nat) : State :=
  let k := s.core c
  match k.reportTo want with
  | some n => (s.modCtxAt c n fun x => x.engineFault va w).pendCause c n ⟨cEngineFault, 0, none, 0, false, false⟩
  | none =>
    match k.launch with
    | some l => s.modLaunch l fun la => { la with engineFault := true }
    | none => s

/-- SYS.ENGFLTB of an operation's error. -/
def engineWord (e : Nat) (op : EngineOp) (err pos : Nat) : Nat :=
  (err <<< 56) + (e <<< 52) + ((if op.entry.isSome then 1 else 0) <<< 51) + (((op.entry.getD 0) % 4096) <<< 38) + pos % 2 ^ 38

/-- An operation stops at its committed position: no increment, its end marker advances, and it is reported. -/
def State.stopCopy (s : State) (c e : Nat) (r : EngineRun) (err : CopyErr) : State :=
  let k := s.core c
  let x := k.engine e
  let s := s.setCore c (k.setEngine e { x with
    run := none, done := x.done + 1, stopped := true, err := BitVec.ofNat 8 err.1, pos := r.pos })
  s.reportEngine c (if r.op.entry.isSome then none else some r.op.ctx) err.2 (engineWord e r.op err.1 r.pos)

/-- COPY_OP_ERROR. -/
def execCopyOpError (c e : Nat) (s : State) : Res :=
  if Config.cores ≤ c ∨ 8 ≤ e then .fault .noSuchPart
  else
    match ((s.core c).engine e).run with
    | some r =>
      match r.err with
      | some err => .next (if s.unitsRun c ∧ r.over then s.stopCopy c e r err else s)
      | none => .next s
    | none => .next s

end Sys2Proof.Machine
end

