-- ==== Sys2Proof/Machine/Power.lean ====
section
/-! DEFINITION. The control interval, rail changes and the network's clock (R378 to R384). -/

namespace Sys2Proof.Machine

/-- The thermal limit's rail request for a temperature (R235, R380). -/
def thermalRequest (celsius : Nat) : RailRequest := if 110 < celsius then .stop else if 105 < celsius then .low else .high

/-- Restrictiveness of a rail request: stop wins over low, low over high. -/
def railRank : RailRequest → Nat
  | .stop => 0
  | .low => 1
  | .high => 2

/-- The four limits' requests for a cluster in the order of R380. -/
def limitsOf (r : PowerRequest) (celsius : Nat) : List LimitRequest :=
  [⟨thermalRequest celsius, r.thermalGrants⟩, r.current, r.cap, r.boost]

/-- The most restrictive of requests. -/
def outcomeOf (xs : List LimitRequest) : RailRequest :=
  xs.foldl (fun (m : RailRequest) (x : LimitRequest) => if railRank x.rail < railRank m then x.rail else m) .high

/-- SYS.PWRSTAT's CAUSE: the first limit whose request is the outcome, from 1 (DEDUCED, log entry 37). -/
def causeOf (xs : List LimitRequest) : Nat :=
  match (indexed 1 xs).find? fun p => p.2.rail == outcomeOf xs with
  | some p => p.1
  | none => 0

/-- The limits that bind a cluster, as CAP_GET's bits: those that ask for the outcome when it is not the high rail. -/
def bindingBits (xs : List LimitRequest) : BitVec 4 :=
  if outcomeOf xs = .high then 0
  else (indexed 0 xs).foldl (fun (m : BitVec 4) p => if p.2.rail = outcomeOf xs then m ||| BitVec.ofNat 4 (2 ^ p.1) else m) 0

/-- A core's grants: the least of those requested, GLO and GHI (R376, R380). -/
def grantOf (xs : List LimitRequest) (i : Nat) : Word :=
  let g := xs.foldl (fun (m : Nat × Nat) (x : LimitRequest) =>
    match x.grants[i]? with
    | some v => (min m.1 v.1.toNat, min m.2 v.2.toNat)
    | none => m) (8191, 8191)
  BitVec.ofNat 64 ((g.1 <<< 16) + g.2)

/-- A cluster after its interval: stopped or not, and a rail change begun where the outcome asks for the other rail
(R378, R380). -/
def Cluster.settle (x : Cluster) (o : RailRequest) (cause : Nat) : Cluster :=
  let x := { x with stopped := o == .stop, cause := cause }
  let want := match o with
    | .stop => x.rail
    | .low => false
    | .high => true
  if x.switching || want == x.rail then x else { x with switching := true, toRail := want }

/-- One cluster's requests take effect. -/
def State.applyRequest (s : State) (r : PowerRequest) : State :=
  if 32 ≤ r.cluster then s
  else
    let xs := limitsOf r (s.cluster r.cluster).temp
    let s := (List.range 4).foldl (fun s i =>
      let c := 4 * r.cluster + i
      s.setCore c { s.core c with ewgrant := grantOf xs i }) s
    let s := s.setCluster r.cluster ((s.cluster r.cluster).settle (outcomeOf xs) (causeOf xs))
    { s with mgmt := { s.mgmt with capLimits := s.mgmt.capLimits ||| bindingBits xs } }

/-- A cluster's requests: those given for it, and where none are no more than its temperature asks for. -/
def requestOf (reqs : List PowerRequest) (n : Nat) : PowerRequest :=
  (reqs.find? fun r => r.cluster == n).getD ⟨n, [], ⟨.high, []⟩, ⟨.high, []⟩, ⟨.high, []⟩⟩

/-- CONTROL_INTERVAL: the requests of the limits for each cluster, and the package's mean power over the last
millisecond (R380, R381). -/
def execControlInterval (reqs : List PowerRequest) (watts time : Nat) (s : State) : Res :=
  let s := s.tick time
  let s := { s with mgmt := { s.mgmt with meanW := watts, capLimits := 0 } }
  .next (if s.mgmt.fatal then s else ((List.range 32).map (requestOf reqs)).foldl State.applyRequest s)

/-- RAIL_CHANGE_END: the cluster is on the rail that it went to; contexts and engines go on (R378, R379). -/
def execRailChangeEnd (cluster : Nat) (s : State) : Res :=
  if 32 ≤ cluster then .fault .noSuchPart
  else
    let x := s.cluster cluster
    .next (if x.switching then
      (s.setCluster cluster { x with switching := false, rail := x.toRail, changes := x.changes + 1 }).sendRuns
        ((List.range 4).map fun i => 4 * cluster + i)
    else s)

/-- NOC_FREQ_STEP: a die's network moves one step toward the frequency called for, of 1.2, 1.4, 1.6, 1.8 and 2.0 GHz
(R383). -/
def execNocFreqStep (die want : Nat) (s : State) : Res :=
  if 3 ≤ die then .fault .noSuchPart
  else
    let f := get 0 s.noc die
    let want := min want 4
    .next { s with noc := set 0 die (if f < want then f + 1 else if want < f then f - 1 else f) s.noc }

end Sys2Proof.Machine
end

