-- ==== Sys2Proof/Machine/Delivery.lean ====
section
/-! DEFINITION. Deliveries into handles in clock time: the gather unit, XPUT data and batons (R232, R247, R296, R297,
R329 to R333). -/

namespace Sys2Proof.Machine

/-! ### A slot of a handle (R246, R247, R332) -/

/-- How a delivery into a handle's next slot ends. -/
inductive Filled where
  /-- No free slot: the producer waits. -/
  | full
  /-- The advance would pass COUNT because the context has advanced the pointer itself, or the handle is null. -/
  | refused
  /-- A layer of the slot is OFF: nothing is written. -/
  | off
  /-- A row that it writes in part is in error: nothing is written (R436). -/
  | bad (b : BadAt)
  | done (s : State)
  deriving DecidableEq, Repr

/-- Rows that a byte list covers. -/
def rowsOf (bs : List Byte) : Nat := (bs.length + 31) / 32

/-- The row that a delivery covers in part and that is in error in one of some cells: what it keeps is consumed (R436). -/
def Core.fillBad (k : Core) (cells : List Nat) (row : Nat) (bs : List Byte) : Option BadAt :=
  if bs.length % 32 = 0 then none
  else
    let r := row + rowsOf bs - 1
    (cells.find? fun n => (k.tower n).uncorrectable r).map fun n => ⟨0, n, r, 0⟩

/-- Write bytes from row `row` up into the towers of some cells. -/
def Core.fillRows (k : Core) (clk : Nat) (cells : List Nat) (row : Nat) (bs : List Byte) : Core :=
  (List.range (rowsOf bs)).foldl (fun k i =>
    let part := (bs.drop (32 * i)).take 32
    let v : Row := BitVec.ofNat 256 (leNat part)
    let bits : Row := BitVec.ofNat 256 (2 ^ (8 * part.length) - 1)
    cells.foldl (fun k n => k.writeRow clk n (row + i) v bits) k) k

/-- Wake the layers of rows in cells. -/
def Core.wakeRows (k : Core) (cells : List Nat) (row n : Nat) : Core :=
  (List.range n).foldl (fun k i => cells.foldl (fun k c => k.wakeLayer c (row + i)) k) k

/-- Deliver bytes from byte 0 of the next slot of a context's handle and publish it (R247, R94). Its producers are the
gather unit, XPUT and batons: R247 names the copy engine too, but no address word of R321 names a handle, and no copy
operation comes here (DESIGN CHOICE, log entry 51). -/
def State.fillSlot (s : State) (c k hn : Nat) (bs : List Byte) : Filled :=
  let x := s.ctxAt c k
  match x.producerView hn, x.handle? hn with
  | some view, some own =>
    if view.count ≤ view.filled then .full
    else
      let base := view.slotBase view.fill
      let publish (s : State) : State := s.modCtxAt c k fun x => x.setHandle hn (own.advanceFill 1)
      let fits := decide (own.filled < own.count)
      if view.cmem then
        let s := s.setCore c ((s.core c).writeCmem (32 * base) bs)
        if fits then .done (publish s) else .refused
      else
        let cells := cellsOf x.sqm
        let core := (s.core c).wakeRows cells base (rowsOf bs)
        let off := (List.range (rowsOf bs)).any fun i => cells.any fun n => (core.tower n).layer (rowLayer (base + i)) == .off
        if off then .off
        else if let some b := core.fillBad cells base bs then .bad b
        else if fits then .done (publish (s.setCore c (core.fillRows s.clock cells base bs)))
        else .refused
  | _, _ => .refused

/-- A delivery that met a layer which is OFF raises TOWER_OFF in the holding context (R232) (DEDUCED, log entry 18). -/
def State.deliveryOff (s : State) (c k : Nat) : State := s.pendCause c k ⟨cTowerOff, 0, none, 0, false, false⟩

/-- A delivery that would keep bytes in error raises UNCORRECTABLE in the holding context (R436, R438) (DEDUCED, log entry
18). -/
def State.deliveryBad (s : State) (c k : Nat) (b : BadAt) : State :=
  (s.noteBad c k b).pendCause c k ⟨cUncorrectable, 0, none, 0, false, false⟩

/-! ### The gather unit (R329, R330) -/

/-- The gather unit as the agent of the context that fed an index (R249, R262). -/
def State.gatherClient (s : State) (c : Nat) (g : GatherIdx) : Client :=
  let l := ((s.core c).launch).getD 0
  ⟨s.ctxAccessor c g.ctx, some ⟨.ctx c g.ctx, match g.stamp with
    | some (st, lap) => .stamp l st lap
    | none => .unstamped, l⟩⟩

/-- The gather unit stops an index with an error: it and the later indices of its context fill nothing (R330). -/
def State.gatherError (s : State) (c : Nat) (g : GatherIdx) (err : CopyErr) : State :=
  let k := s.core c
  (s.setCore c { k with gather := k.gather.filter fun q => q.ctx != g.ctx }).reportEngine c (some g.ctx) err.2
    ((err.1 <<< 56) + (1 <<< 55))

/-- Serve the oldest index of a core's address queue. -/
def State.gatherRow (s : State) (c : Nat) (g : GatherIdx) (rest : List GatherIdx) : State :=
  let x := s.ctxAt c g.ctx
  let va := fieldN (nth 0 g.cfg 0) 0 56 + g.index.toNat * (nth 0 g.cfg 2).toNat
  if x.hasStopped then s.gatherError c g (eBufRange, 0)
  else if fieldN (nth 0 g.cfg 1) 32 32 ≤ g.index.toNat then s.gatherError c g (eBufRange, 0)
  else
    match x.producerView g.handle with
    | none => s.gatherError c g (eBufRange, 0)
    | some h =>
      if h.count ≤ h.filled then s
      else
        match s.readGlobal (s.gatherClient c g) .read va (Machine.gatherRow g.cfg) with
        | (.error e, t) => (t.unitMet c e va).gatherError c g (e.engineErr, BitVec.ofNat 64 (va % 2 ^ 56))
        | (.ok bs, t) =>
          match t.fillSlot c g.ctx g.handle bs with
          | .done u => u.setCore c { u.core c with gather := rest }
          | .off => t.gatherError c g (eTowerOff, 0)
          | .bad b => (t.setCore c ((t.core c).countUncorr b t.clock)).gatherError c g (eUncorrectable, 0)
          | .refused => t.gatherError c g (eBufRange, 0)
          | .full => t

/-- GATHER_ROW_FILL: the unit reads a row and fills the next slot of the handle; without a free slot it waits. -/
def execGatherRowFill (c : Nat) (s : State) : Res :=
  if Config.cores ≤ c then .fault .noSuchPart
  else
    match (s.core c).gather with
    | g :: rest => .next (if s.unitsRun c then s.gatherRow c g rest else s)
    | [] => .next s

/-! ### Units of a launch -/

/-- The core and context of a launch's unit while its deliveries go on (R33). -/
def State.unitCtx (s : State) (l u : Nat) : Option (Nat × Nat) :=
  match s.launch? l with
  | none => none
  | some x =>
    let n := fieldN (nth 0 x.words 3) 16 2 + 1
    match x.cores[u / n]? with
    | some c => if s.unitsRun c then some (c, u % n) else none
    | none => none

/-- A unit's context, placed or saved. -/
def State.unitView (s : State) (l u : Nat) : Option Ctx :=
  match s.launch? l with
  | none => none
  | some x =>
    match x.cores[u / x.ctxs]? with
    | some c => some (s.ctxAt c (u % x.ctxs))
    | none => (x.saved.bind fun sv => sv.lookup (u / x.ctxs)).map fun k => k.ctx (u % x.ctxs)

/-- Change a unit's context, placed or saved. -/
def State.modUnit (s : State) (l u : Nat) (f : Ctx → Ctx) : State :=
  match s.launch? l with
  | none => s
  | some x =>
    match x.cores[u / x.ctxs]? with
    | some c => s.modCtxAt c (u % x.ctxs) f
    | none =>
      let change (q : Nat × Core) : Nat × Core :=
        if q.1 = u / x.ctxs then (q.1, q.2.setCtx (u % x.ctxs) (f (q.2.ctx (u % x.ctxs)))) else q
      s.modLaunch l fun y => { y with saved := y.saved.map fun sv => sv.map change }

/-- What a unit has sent is stopped with an error: the unit, placed or saved, takes ENGINE_FAULT (R247, R328, R404) (DEDUCED, log
entry 29). -/
def State.senderStopped (s : State) (l u err : Nat) : State :=
  let w := err <<< 56
  match s.launch? l with
  | none => s
  | some x =>
    match x.cores[u / x.ctxs]? with
    | some c => s.reportEngine c (some (u % x.ctxs)) 0 w
    | none => s.modUnit l u fun y =>
        if y.hasStopped then y else (y.engineFault 0 w).pending ⟨cEngineFault, 0, none, 0, false, false⟩

/-! ### XPUT_DELIVERY (R331, R333) -/

/-- An earlier delivery of the same sender to the same handle is still under way. -/
def overtakesXput (xs : List Xput) (x : Xput) : Bool :=
  xs.any fun y => y.launch == x.launch && y.sender == x.sender && y.unit == x.unit && y.handle == x.handle

/-- Deliver XPUT data. To a stopped context nothing is published and the sender is not told (R333); an advance that is refused
stops it with BUF_RANGE, reported to its sender (R247). -/
def State.deliverXput (s : State) (n : Nat) (x : Xput) : State :=
  let gone : State := { s with xputs := s.xputs.eraseIdx n }
  match s.unitCtx x.launch x.unit with
  | none => s
  | some (c, k) =>
    if (s.ctxAt c k).hasStopped then gone
    else
      match gone.fillSlot c k x.handle x.data with
      | .full => s
      | .refused => gone.senderStopped x.launch x.sender eBufRange
      | .off => gone.deliveryOff c k
      | .bad b => gone.deliveryBad c k b
      | .done t => t

/-- XPUT_DELIVERY: delivery `n` under way is written into its handle's next slot and published. -/
def execXputDelivery (n : Nat) (s : State) : Res :=
  .next (match s.xputs[n]? with
    | some x => if overtakesXput (s.xputs.take n) x then s else s.deliverXput n x
    | none => s)

/-! ### Deltas of the device's own (R289, R303) -/

/-- Deltas of a unit's judge operation as they travel to the home judge; unit 0x3FF for the device's own. -/
def State.forwardDeltas (s : State) (dom : Nat) (g : Graph) (unit : Nat) (prog : Bool) (ds : List ((Nat × Word) × Int)) : State :=
  s.post (.deltas g.homePackage s.mgmt.package (s.crossName dom g) unit prog (ds.map fun d => (d.1.1, d.1.2, d.2)))

/-- Apply deltas of the device's own to a launch's graph where its judge is; none where they must wait. -/
def State.judgeDeltas (s : State) (l : Nat) (ds : List ((Nat × Word) × Int)) : Option State :=
  match (s.launch? l).bind fun x => x.graph.map fun g => (x.dom, g) with
  | none => some s
  | some (dom, g) => if g.auth = 3 then some (s.forwardDeltas dom g 0x3FF true ds) else s.applyDeltas l ds

/-! ### BATON_DELIVERY (R296, R297, R333) -/

/-- The header of a baton's slot (R296). -/
def Baton.header (b : Baton) : List Byte :=
  leBytes 8 b.lap.toNat ++ leBytes 1 b.station ++ [0] ++ leBytes 2 b.payload.length ++ leBytes 2 b.sender ++ List.replicate 18 0

/-- An earlier baton of the same sender to the same handle is still under way. -/
def overtakesBaton (bs : List Baton) (b : Baton) : Bool :=
  bs.any fun y => y.launch == b.launch && y.sender == b.sender && y.unit == b.unit && y.handle == b.handle

/-- A published baton leaves a wake (R297). -/
def Ctx.queueWake (x : Ctx) (b : Baton) : Ctx :=
  if b.handler = 0xFFFF then x
  else { x with wakes := x.wakes ++ [⟨b.handle, b.handler.setWidth 17, BitVec.ofNat 8 b.station, b.lap⟩] }

/-- A baton that cannot be delivered: the judge applies its −1 and counts it dropped (R333); none while the −1 has to
wait for room or for a link (DEDUCED, log entry 29). -/
def State.dropBaton (s : State) (b : Baton) : Option State :=
  (s.countLost b.launch 1 0).judgeDeltas b.launch [((b.station, b.lap), -1)]

/-- A baton whose advance is refused is reported to its sender, in this package or in its own (R247, R303). -/
def State.reportBaton (s : State) (b : Baton) : State :=
  match b.source, (s.launch? b.launch).bind fun x => x.graph.map fun g => s.crossName x.dom g with
  | none, _ => s.senderStopped b.launch b.sender eBufRange
  | some pkg, some id => s.post (.stopped pkg id b.sender eBufRange)
  | some _, none => s

/-- A unit that a launch does not have: a baton with FAB = 1 may name one (R295). -/
def State.lacksUnit (s : State) (l u : Nat) : Bool := (s.launch? l).any fun x => decide (x.coreN * x.ctxs ≤ u)

/-- Deliver a baton. One for a unit that the launch does not have is settled as one for a stopped context is (R333; DEDUCED, log
entry 29); one whose advance is refused is so too, and is reported (R247). -/
def State.deliverBaton (s : State) (n : Nat) (b : Baton) : State :=
  let gone : State := { s with batons := s.batons.eraseIdx n }
  match s.unitCtx b.launch b.unit with
  | none => if s.lacksUnit b.launch b.unit then (gone.dropBaton b).getD s else s
  | some (c, k) =>
    if (s.ctxAt c k).hasStopped then (gone.dropBaton b).getD s
    else
      match gone.fillSlot c k b.handle (b.header ++ b.payload) with
      | .full => s
      | .refused => ((gone.dropBaton b).map fun t => t.reportBaton b).getD s
      | .off => gone.deliveryOff c k
      | .bad b => gone.deliveryBad c k b
      | .done t => t.modCtxAt c k fun x => x.queueWake b

/-- BATON_DELIVERY: counted baton `n` under way is written into its handle's next slot and published. -/
def execBatonDelivery (n : Nat) (s : State) : Res :=
  .next (match s.batons[n]? with
    | some b => if overtakesBaton (s.batons.take n) b then s else s.deliverBaton n b
    | none => s)

end Sys2Proof.Machine
end

