-- ==== Sys2Proof/Machine/JudgeSteps.lean ====
section
/-! DEFINITION. The judge's steps: the head of a context's judge queue is applied, and a graph is cancelled (R287 to R293,
R301 to R303). -/

namespace Sys2Proof.Machine

/-- The deltas of a judge operation. -/
def JudgeOp.deltas : JudgeOp → List ((Nat × Word) × Int)
  | .bsend st lap _ _ _ _ _ => [((st, lap), 1)]
  | .prog ds => ds.map fun d => ((d.1, d.2.1), d.2.2)

/-- Batons and PROGs that a judge operation stands for. -/
def JudgeOp.gone : JudgeOp → Nat × Nat
  | .bsend .. => (1, 0)
  | .prog _ => (0, 1)

/-- The operation of a context's queue is done with. -/
def Ctx.dequeueJudge (x : Ctx) : Ctx := { x with judgeQ := x.judgeQ.drop 1, judgeSent := false }

/-! ### Batons and the judge queue -/

/-- What is lost of a graph of this package's home judge whose launch is over counts in its status block (R301). -/
def State.countEnded (s : State) (id : BitVec 64) (dropped ignored : Nat) : State :=
  match s.endedGraph id with
  | none => s
  | some (dom, g) =>
    let h := { g with
      dropped := BitVec.ofNat 32 (satAdd 32 g.dropped.toNat dropped), ignored := BitVec.ofNat 32 (satAdd 32 g.ignored.toNat ignored) }
    { s with mgmt := { s.mgmt with ended := s.mgmt.ended.map fun p => if p = (dom, g) then (dom, h) else p } }.writeStatusBlock dom h

/-- A counted baton of a graph that has no delivery (R333, R404): its −1 goes to the judge, and it counts as dropped. -/
def State.refuseBaton (s : State) (id : BitVec 64) (st : Nat) (lap : Word) : State :=
  match s.crossLaunch id with
  | some (l, g) =>
    let s := s.countLost l 1 0
    if g.state = 2 then s else (s.judgeDeltas l [((st, lap), -1)]).getD s
  | none =>
    if (s.endedGraph id).isSome then s.countEnded id 1 0
    else (s.post (.deltas none s.mgmt.package id 0x3FF true [(st, lap, -1)])).post (.lost none id 1 0)

/-- The baton of a BSEND whose +1 has been applied goes out (R289, R294): to this package's unit, or over Relay to the
domain bound to the fabric group of the sender's (R404). -/
def State.releaseBaton (s : State) (l sender : Nat) : JudgeOp → State
  | .prog _ => s
  | .bsend st lap unit handle handler pkg payload =>
    let b : Baton := { launch := l, station := st, lap := lap, sender := sender, unit := unit, handle := handle, handler := handler, payload := payload }
    match s.launch? l, pkg with
    | some x, some p =>
      if p = s.mgmt.package then { s with batons := s.batons ++ [b] }
      else
        match x.graph, s.mgmt.fabricGroup x.dom with
        | some g, some grp => s.post (.baton p grp (s.crossName x.dom g) unit handle handler (b.header ++ payload))
        | some g, none => (s.refuseBaton (s.crossName x.dom g) st lap).senderStopped l sender ePageAccess
        | none, _ => s
    | _, _ => { s with batons := s.batons ++ [b] }

/-- Apply the head of a context's judge queue (R289 to R292): on a cancelled graph it is counted as lost (R301); a graph
of another package's home judge has it forwarded, and its answer awaited (R303). -/
def State.judgeHead (s : State) (c k l dom : Nat) (g : Graph) (o : JudgeOp) : State :=
  let gone (s : State) : State := s.modCtxAt c k Ctx.dequeueJudge
  if (s.ctxAt c k).judgeSent then s
  else if g.state = 2 then gone (s.countLost l o.gone.1 o.gone.2)
  else if g.auth = 3 then
    (s.forwardDeltas dom g (s.ctxAt c k).unit (o.gone.1 == 0) o.deltas).modCtxAt c k fun x => { x with judgeSent := true }
  else
    match s.applyDeltas l o.deltas with
    | none => s
    | some t =>
      let refused := match (t.launch? l).bind fun x => x.graph with
        | some h => h.state == 2
        | none => true
      if refused then gone t else gone (t.releaseBaton l (s.ctxAt c k).unit o)

/-- JUDGE_APPLY: the authoritative judge applies the oldest operation of a context. -/
def execJudgeApply (c k : Nat) (s : State) : Res :=
  if Config.cores ≤ c ∨ Config.contexts ≤ k then .fault .noSuchPart
  else
    match s.launchOf c, (s.ctxAt c k).judgeQ with
    | some (l, la), o :: _ =>
      match la.graph with
      | some g => .next (if s.mgmt.fatal then s else s.judgeHead c k l la.dom g o)
      | none => .next (s.modCtxAt c k Ctx.dequeueJudge)
    | _, _ => .next s

/-! ### A graph of another package's home judge (R303) -/

/-- The home judge has answered a unit's forwarded operation: a baton whose +1 is applied goes out (R289 rule 3), unless
the graph has been cancelled meanwhile (R304). -/
def State.judgeReplied (s : State) (l u : Nat) (g : Graph) (ok : Bool) : State :=
  match s.unitView l u with
  | none => s
  | some x =>
    match x.judgeSent, x.judgeQ with
    | true, o :: _ =>
      let t := s.modUnit l u Ctx.dequeueJudge
      if !ok then t else if g.state = 2 then t.countLost l o.gone.1 0 else t.releaseBaton l u o
    | _, _ => s

/-- What the home judge does for a graph that a flit names; where the graph's home is elsewhere, nothing; where its launch is
over, what `gone` says; and none, so that the flit waits, where the graph is not placed yet (DEDUCED, log entry 29). -/
def State.atHome (s : State) (id : BitVec 64) (act : Nat → Graph → Option State) (gone : State) : Option State :=
  match s.crossLaunch id with
  | some (l, g) => if g.auth = 3 then some s else act l g
  | none => if (s.endedGraph id).isSome then some gone else none

/-- The home judge takes a batch of another package's unit, and answers it (R289, R291, R301); none where it has to wait for
room (R292). A batch that comes after the cancel, or after the launch's end, is lost; those of the device itself are no PROGs. -/
def State.homeDeltas (s : State) (pkg : Nat) (id : BitVec 64) (unit : Nat) (prog : Bool) (ds : List ((Nat × Word) × Int)) : Option State :=
  let dropped := if prog then 0 else 1
  let ignored := if prog && unit != 0x3FF then 1 else 0
  s.atHome id (fun l g =>
      if g.state = 2 then some ((s.countLost l dropped ignored).post (.applied pkg id unit false))
      else (s.applyDeltas l ds).map fun t =>
        t.post (.applied pkg id unit (((t.launch? l).bind fun x => x.graph).any fun h => h.state != 2)))
    ((s.countEnded id dropped ignored).post (.applied pkg id unit false))

/-- What the home judge answers is kept for the FRONT that waits for it. -/
def Ctx.frontTold (x : Ctx) (st : Nat) (v : Word) : Ctx :=
  if x.frontAsk = some st then { x with frontAsk := none, frontGot := some (st, v) } else x

/-- GRAPH_CANCEL: the judge takes the cancel of a launch's graph that GCANCEL has asked for (R301); the home judge of
another package is told (R303). -/
def execGraphCancel (l : Nat) (s : State) : Res :=
  match (s.launch? l).bind fun x => x.graph.map fun g => (x.dom, g) with
  | none => .next s
  | some (dom, g) =>
    match g.cancelReq with
    | some unit =>
      .next (if s.mgmt.fatal then s
        else if g.auth = 3 then (s.modGraph l fun g => { g with cancelReq := none }).post (.cancel g.homePackage (s.crossName dom g) unit)
        else s.cancelGraph l 0 unit)
    | none => .next s

end Sys2Proof.Machine
end

