-- ==== Sys2Proof/Machine/Starter.lean ====
section
/-! DEFINITION. The starter: the slice arbiter, pre-emption, go, drains, checkpoints and kills, the watchdog, and the
retirement of contexts and launches (R36, R37, R96, R292, R350 to R365, R371, R424, R441). -/

namespace Sys2Proof.Machine

/-! ### Times (R353) -/

/-- Reference-clock cycles of a slice unit. -/
def cyclesPerSu : Nat := 1024

/-- Whole slice units from a clock time to now. -/
def State.suSince (s : State) (t : Nat) : Nat := (s.clock - t) / cyclesPerSu

/-- rem of R354 inside a slice. -/
def State.sliceRem (s : State) : Nat := s.starter.slice - s.suSince s.starter.sliceAt

/-! ### Ranks (R352) -/

/-- min(RANK, CEIL) of a launch; one of no queue has no CEIL (R352; DESIGN CHOICE, log entry 63). -/
def State.baseRank (s : State) (x : Launch) : Nat := if Config.queues ≤ x.queue then x.rank else min x.rank (s.queue x.queue).ceil

/-- Effective rank of a queue's head. -/
def State.headRank (s : State) (q : Nat) : Nat :=
  let y := s.queue q
  match y.list with
  | [] => 0
  | l :: _ =>
    match s.launch? l with
    | some x => min 7 (s.baseRank x + y.boost)
    | none => 0

/-! ### Whether a launch can be placed (R354, R292, R457) -/

/-- The judge reservation of a launch can be made. -/
def State.judgeRoom (s : State) (x : Launch) (cores : List Nat) : Bool :=
  match (s.judgeFor x cores).1 with
  | none => true
  | some (g, auth, _) => auth == 3 || decide (g.resv ≤ s.freePool auth)

/-- A block of placement memory is free, or the launch holds one. -/
def State.blockFree (s : State) (x : Launch) : Bool :=
  x.block || decide ((s.launches.filter fun p => p.2.block).length < 1024)

/-- place_possible of R354. -/
def State.placePossible (s : State) (x : Launch) : Bool :=
  let cores := s.freeWhole
  decide (x.coreN ≤ cores.length) && s.judgeRoom x (cores.take x.coreN) && s.blockFree x

/-! ### Launches for self-test (R385) -/

/-- Filzan takes events at all: its image was verified, no fatal error has frozen the device, and it is not at level 2. -/
def State.filzanServes (s : State) : Bool := !s.mgmt.bootFail && !s.mgmt.fatal && decide (s.mgmt.alarmLevel < 2)

/-- The launch that Filzan makes of a record and an image of its own: in domain 0 at firmware privilege, of no queue, with no
graph, copy schedule, watchdog or KEEP, at rank 7, so that nothing pre-empts it; an image that the loader would refuse makes
none (R385) (DESIGN CHOICE, log entry 63). -/
def State.selfTestLaunch (s : State) (ws : List Word) (image : List Byte) : Option Launch :=
  let x : Launch := {
    words := ws.take 10, va := 0, dom := 0, queue := Config.queues, priv := 2, brought := some image }
  if recordOk ws && fieldN (nth 0 ws 2) 0 16 == 0 && x.rank == 7 && x.wdog == 0 && !x.keep && x.graphVa == 0 && x.copyN == 0 then
    match checkImage image x.imageId x.entry false with
    | some im => if (misfit (s.relocEnvOf x 0) (im.relocs.map relocOf)).isNone then some { x with image := im } else none
    | none => none
  else none

/-- Filzan places a launch for self-test where it finds room and no launch is committed, which reserves the cores (R355). -/
def State.placeSelfTest (s : State) (ws : List Word) (image : List Byte) : State :=
  match s.selfTestLaunch ws image with
  | none => s
  | some x =>
    if s.starter.commit.isNone ∧ s.placePossible x then
      let n := s.starter.nextLaunch
      State.place { s with launches := s.launches ++ [(n, x)], starter := { s.starter with nextLaunch := n + 1 } } n
    else s

/-! ### Selection (R354 to R356) -/

/-- A queue's head is held out. -/
def State.headHeld (s : State) (q : Nat) : Bool :=
  match (s.queue q).list with
  | l :: _ => s.starter.heldOut.contains l
  | [] => false

/-- skip(q) of R356. -/
def State.skipQueue (s : State) (q : Nat) : State :=
  let y := s.queue q
  if y.skips + 1 < y.age then s.setQueue q { y with skips := y.skips + 1 }
  else s.setQueue q { y with skips := 0, boost := if s.headRank q < 7 then y.boost + 1 else y.boost }

/-- Whether head `p` comes before head `q` in the order of R354. -/
def State.headBefore (s : State) (p q : Nat) : Bool :=
  let a := s.headRank p
  let b := s.headRank q
  let x := (s.queue p).stamp
  let y := (s.queue q).stamp
  decide (b < a) || (a == b && (decide (x < y) || (x == y && decide (p < q))))

/-- Insert a queue in the order of R354. -/
def State.insertHead (s : State) (q : Nat) : List Nat → List Nat
  | [] => [q]
  | p :: ps => if s.headBefore q p then q :: p :: ps else p :: s.insertHead q ps

/-- Queues by number, and after them the place where launches of no queue wait to be placed again (DESIGN CHOICE, log entry 63). -/
def queuesAll : List Nat := List.range (Config.queues + 1)

/-- H of R354. -/
def State.heads (s : State) : List Nat :=
  let qs := queuesAll.filter fun q => ((s.queue q).enabled || q == Config.queues) && !(s.queue q).list.isEmpty && !s.headHeld q
  qs.foldl (fun hs q => s.insertHead q hs) []

/-- The launch at the head of a queue. -/
def State.headOf (s : State) (q : Nat) : Option (Nat × Launch) :=
  match (s.queue q).list with
  | [] => none
  | l :: _ => (s.launch? l).map fun x => (l, x)

/-- admissible(h) of R354. -/
def State.admissible (s : State) (rem q : Nat) : Bool :=
  s.headRank q == 7 ||
    match s.headOf q with
    | some (_, x) =>
      match x.est with
      | some e => decide (e ≤ rem)
      | none => false
    | none => false

/-- sel of R354. -/
def State.select (s : State) (boundary : Bool) : Option Nat :=
  let rem := if boundary then s.starter.slice else s.sliceRem
  let hs := s.heads
  match hs.find? (s.admissible rem) with
  | some q => some q
  | none => if boundary then hs.head? else none

/-- hold_out of R355: the launch is at the head of its queue and out of selection until a release event. -/
def State.holdOut (s : State) (l : Nat) : State := { s with starter := { s.starter with heldOut := s.starter.heldOut ++ [l] } }

/-! ### Pre-emption (R358 to R360) -/

/-- W(V): the estimated run left; none for unknown. -/
def State.runLeft (s : State) (x : Launch) : Option Nat := x.est.map fun e => e - s.suSince x.runAt

/-- The next bundle of a context is a wait that is not met (R90, R360). -/
def State.unmetWait (s : State) (c k : Nat) : Bool :=
  let x := s.ctxAt c k
  x.skip == 0 &&
    match s.fetchNext c k with
    | .ok _ w =>
      match decodeF (bundleF w) with
      | .ok i => isWait i && (let m := { s with turn := ⟨c, k, 4⟩ }.slotIn 4 i; m.taken && !m.ready)
      | .error _ => false
    | _ => false

/-- Contexts of a launch, by core and number. -/
def State.ctxsOf (s : State) (x : Launch) : List (Nat × Nat) :=
  (x.cores.map fun c => (s.core c).ctxs.map fun p => (c, p.1)).flatten

/-- A context still runs for the purposes of Y(V): it has not ended, is not dormant, halted or in an unmet wait. -/
def State.stillRuns (s : State) (c k : Nat) : Bool :=
  let x := s.ctxAt c k
  !x.halted && (x.run == .running || x.run == .returning || x.run == .sleeping) && !s.unmetWait c k

/-- now() of a handler level of a context: its own of the running level, the frozen one of a level below; none of a level that
is over (R418). -/
def Ctx.nowOf (x : Ctx) (level : Nat) : Option Nat :=
  if level = x.depth then some x.vt
  else if level < x.depth then ((x.recVt :: x.levels.map fun q => q.recVt)[x.depth - 1 - level]?).map BitVec.toNat
  else none

/-- Distance of a context to its next yield point in su; none for unknown (R359). The point and now() are those of the level
that issued the YIELD; after that level's return the distance is unknown (DEDUCED, log entry 42). -/
def State.yieldDistance (s : State) (x : Launch) (c k : Nat) : Option Nat :=
  let y := s.ctxAt c k
  match y.yieldPt with
  | none => none
  | some p =>
    if y.yieldEnd then s.runLeft x
    else p.bind fun t => (y.nowOf y.yieldLevel).map fun n => ceilDiv (t - n) cyclesPerSu

/-- Y(V). -/
def State.yieldLeft (s : State) (x : Launch) : Option Nat :=
  (((s.ctxsOf x).filter fun q => s.stillRuns q.1 q.2).map fun q => s.yieldDistance x q.1 q.2).foldl
    (fun a d => match a, d with
      | some m, some n => some (max m n)
      | _, _ => none) (some 0)

/-- A number known to be at most a limit; an unknown one is not. -/
def knownLe (v : Option Nat) (n : Nat) : Bool :=
  match v with
  | some m => decide (m ≤ n)
  | none => false

/-- Ask a launch's contexts to stop at their next YIELD or END (R360); room for its state is taken now (R358, R457). -/
def State.requestDrain (s : State) (l : Nat) (toTail : Bool) : State :=
  match s.launch? l with
  | none => s
  | some x =>
    let s := (s.ctxsOf x).foldl (fun s q => s.modCtxAt q.1 q.2 fun y => { y with drainReq := true }) s
    (s.modLaunch l fun y => { y with phase := .draining toTail }).holdFrames l

/-- A context has a handler to finish, or a pending trap to take, before a checkpoint can save it (R371, R432). -/
def Ctx.mustRun (x : Ctx) : Bool := x.active && (x.depth != 0 || !x.pend.isEmpty)

/-- Stop a context for a checkpoint: as it stands, or after its handler at its next YIELD or END. -/
def Ctx.forCheckpoint (x : Ctx) : Ctx := if x.mustRun then { x with drainReq := true } else { x with frozen := true }

/-- Freeze a launch for its checkpoint (R360, R371, R424); room for its state is taken now (R358, R457). -/
def State.requestCheckpoint (s : State) (l : Nat) : State :=
  match s.launch? l with
  | none => s
  | some x =>
    let s := (s.ctxsOf x).foldl (fun s q => s.modCtxAt q.1 q.2 Ctx.forCheckpoint) s
    (s.modLaunch l fun y => { y with phase := .checkpointing }).holdFrames l

/-- An action on a victim. -/
inductive Action where
  | wait | drain | checkpoint | kill
  deriving DecidableEq, Repr

/-- The first row of R358's table that applies, with its tokens. -/
def State.rowFor (s : State) (rankC tokens limit : Nat) (v : Launch) : Action × Nat :=
  if tokens = 0 ∨ rankC ≤ s.baseRank v then (.wait, 0)
  else if knownLe (s.runLeft v) limit then (.wait, 0)
  else if knownLe (s.yieldLeft v) limit && s.roomToSave v then (.drain, 1)
  else if 2 ≤ tokens ∧ s.roomToSave v then (.checkpoint, 2)
  else if v.restart then (.kill, 1)
  else if s.roomToSave v then (.drain, 1)
  else (.wait, 0)

/-- Take an action on a victim. -/
def State.takeAction (s : State) (v : Nat) : Action → State
  | .wait => s
  | .drain => s.requestDrain v false
  | .checkpoint => s.requestCheckpoint v
  | .kill => s.beginKill v 4 cPreempted

/-- Whether victim `a` comes before `b`: lower rank first, then the later placement. -/
def State.victimBefore (s : State) (a b : Launch) : Bool :=
  decide (s.baseRank a < s.baseRank b) || (s.baseRank a == s.baseRank b && decide (b.placedSeq < a.placedSeq))

/-- Insert a victim in order. -/
def State.insertVictim (s : State) (v : Nat × Launch) : List (Nat × Launch) → List (Nat × Launch)
  | [] => [v]
  | w :: ws => if s.victimBefore v.2 w.2 then v :: w :: ws else w :: s.insertVictim v ws

/-- The launches whose cores are already to be freed. -/
def Launch.leaving (x : Launch) : Bool :=
  match x.phase with
  | .draining _ => true
  | .checkpointing => true
  | .killing .. => true
  | .failing .. => true
  | _ => false

/-- Go through the victims until enough cores are freed or to be freed. -/
def State.preemptEach (rankC limit : Nat) : List (Nat × Launch) → Nat → Nat → State → State × Nat
  | [], _, t, s => (s, t)
  | v :: vs, lack, t, s =>
    if lack = 0 then (s, t)
    else
      let (a, n) := s.rowFor rankC t limit v.2
      State.preemptEach rankC limit vs (lack - v.2.cores.length) (t - n) (s.takeAction v.1 a)

/-- preempt_for of R354, R358: with C's effective rank at its selection. -/
def State.preemptFor (s : State) (l : Nat) (x : Launch) (rankC : Nat) : State :=
  let going := (s.launches.filter fun p => p.2.leaving).map fun p => p.2.cores.length
  let lack := x.coreN - (s.freeWhole.length + going.foldl (· + ·) 0)
  let vs := (s.launches.filter fun p => p.2.phase == .running).foldl (fun vs v => s.insertVictim v vs) []
  let (s, t) := State.preemptEach rankC (s.queue x.queue).drain vs lack x.tokens s
  { s with starter := { s.starter with commit := some ⟨l, t, []⟩ } }

/-! ### ARBITRATE (R354) -/

/-- The bookkeeping of a selection: other queues are skipped, the queue is stamped and loses its boost and skips, and the
launch leaves its queue. -/
def State.serve (s : State) (q : Nat) : State :=
  let others := queuesAll.filter fun p => p != q && !(s.queue p).list.isEmpty && !s.headHeld p
  let s := others.foldl State.skipQueue s
  let n := s.starter.arb + 1
  let s := { s with starter := { s.starter with arb := n } }
  let y := s.queue q
  s.setQueue q { y with stamp := n, boost := 0, skips := 0, list := y.list.drop 1 }

/-- A selected launch is placed, committed, held out, or rejected because the device has too few cores left (R441). -/
def State.selected (s : State) (q l : Nat) (x : Launch) : State :=
  let rankC := s.headRank q
  let t := s.serve q
  if s.available < x.coreN then
    ((t.setStatus l 5 cLaunchInvalid).forget l).openRegions x.dom
  else if t.placePossible x then t.place l
  else if t.freeWhole.length < x.coreN then t.preemptFor l x rankC
  else s.holdOut l

/-- A committed launch at an arbitration point: whether anything else may be selected. -/
def State.committed (s : State) (m : Commitment) : State × Bool :=
  match s.launch? m.launch with
  | none => ({ s with starter := { s.starter with commit := none } }, true)
  | some x =>
    let free : State := { s with starter := { s.starter with commit := none } }
    if s.placePossible x then (free.place m.launch, false)
    else if s.freeWhole.length < x.coreN then (s, false)
    else ((free.requeue m.launch false).holdOut m.launch, true)

/-- arbitrate(point) of R354. -/
def State.arbitrate (s : State) (boundary : Bool) : State :=
  let s := if s.starter.released then { s with starter := { s.starter with heldOut := [], released := false } } else s
  let (s, go) := match s.starter.commit with
    | some m => s.committed m
    | none => (s, true)
  if !go then s
  else
    match s.select boundary with
    | none => s
    | some q =>
      match s.headOf q with
      | some (l, x) => s.selected q l x
      | none => s

/-- Clock cycle at which the slice in force ends. -/
def Starter.sliceEnd (x : Starter) : Nat := x.sliceAt + x.slice * cyclesPerSu

/-- The next slice begins where the last one ended, with the length SYS.STCFG now gives (R353), and arbitrates. -/
def State.nextSlice (s : State) : State :=
  { s with starter := { s.starter with
      sliceAt := s.starter.sliceEnd, slice := max 8 (fieldN s.starter.stcfg 0 16) } }.arbitrate true

/-- An arbitration point that an event makes: at a slice boundary it is that boundary's, with rem = SLICE (R371). -/
def State.arbitratePoint (s : State) : State := if s.starter.sliceEnd ≤ s.clock then s.nextSlice else s.arbitrate false

/-- SLICE_BOUNDARY (R353). -/
def execSliceBoundary (time : Nat) (s : State) : Res :=
  let s := s.tick time
  .next (if s.mgmt.fatal ∨ s.clock < s.starter.sliceEnd then s else s.nextSlice)

/-! ### Go and failed placements (R36, R37, R369) -/

/-- GO_SIGNAL: a placed launch is in state 2; what a cancel meanwhile left dormant retires (R371). -/
def State.go (s : State) (l : Nat) (x : Launch) : State :=
  let s := (s.setStatus l 2 0).modLaunch l fun y => { y with phase := .running, runAt := s.clock, wdogAt := s.clock }
  let cancelled := match x.graph with
    | some g => g.state == 2
    | none => false
  if cancelled then (s.ctxsOf x).foldl (fun s q => s.modCtxAt q.1 q.2 Ctx.retireDormant) s else s

/-- GO_SIGNAL. -/
def execGoSignal (l : Nat) (s : State) : Res :=
  .next (match s.launch? l with
    | some x => if x.phase = .placed ∧ !s.mgmt.fatal then s.go l x else s
    | none => s)

/-- PLACEMENT_FAIL: the failure that the placement met is reported and everything reserved is released
(DEDUCED, log entry 28). -/
def execPlacementFail (l cause : Nat) (s : State) : Res :=
  .next (match s.launch? l with
    | some x =>
      match x.phase with
      | .failing st z =>
        if z.toNat = cause ∧ !s.mgmt.fatal then
          let s := s.killGraph l
          (((s.freeCores x.cores).setStatus l st z).forget l).openRegions x.dom
        else s
      | _ => s
    | none => s)

/-! ### Drains, checkpoints and kills (R360) -/

/-- A context counts as drained (R360, R431): stopped, dormant or halted as it stands, or stopped by the starter with its
landings and streams done and nothing pending (DEDUCED, log entry 41). -/
def State.ctxDrained (s : State) (c k : Nat) : Bool :=
  let x := s.ctxAt c k
  x.halted || x.run == .dormant || x.run == .stopped || x.run == .retired || x.run == .wedged ||
    (x.run == .drained && s.idleAt c k && (x.pend.isEmpty || x.depth != 0))

/-- DRAIN_DONE. -/
def execDrainDone (l : Nat) (s : State) : Res :=
  .next (match s.launch? l with
    | some x =>
      match x.phase with
      | .draining toTail =>
        if (s.ctxsOf x).all (fun q => s.ctxDrained q.1 q.2) ∧ !s.mgmt.fatal then (s.saveLaunch l toTail).arbitratePoint else s
      | _ => s
    | none => s)

/-- CHECKPOINT_DONE: every context stands still (R371). -/
def execCheckpointDone (l : Nat) (s : State) : Res :=
  .next (match s.launch? l with
    | some x =>
      if x.phase = .checkpointing ∧ s.settledLaunch x ∧ !s.mgmt.fatal then (s.saveLaunch l false).arbitratePoint else s
    | none => s)

/-- A killed launch's cores are freed and its STATUS is written; its graph is cancelled first (R301, R360)
(DEDUCED, log entry 28). -/
def State.killDone (s : State) (l : Nat) (x : Launch) (st : Nat) (z : BitVec 16) : State :=
  let s := s.killGraph l
  (((((s.freeCores x.cores).setStatus l st z).forget l).releaseEvent).openRegions x.dom).arbitratePoint

/-- KILL_COMPLETE. -/
def execKillComplete (l : Nat) (s : State) : Res :=
  .next (match s.launch? l with
    | some x =>
      match x.phase with
      | .killing st z => if s.mgmt.fatal then s else s.killDone l x st z
      | _ => s
    | none => s)

/-! ### The watchdog (R364) -/

/-- A launch's watchdog period in reference-clock cycles; 0 for none. -/
def State.wdogPeriod (s : State) (x : Launch) : Nat :=
  (if x.wdog = 0 then (s.queue x.queue).wdogDef else x.wdog) * Config.cyclesPerUs

/-- A launch is in state 2, with its watchdog running (DEDUCED, log entry 42). -/
def State.wdogRuns (s : State) (x : Launch) : Bool :=
  !s.mgmt.fatal && s.wdogPeriod x != 0 && !s.wdogRests x &&
    match x.phase with
    | .running => true
    | .draining _ => true
    | .checkpointing => true
    | _ => false

/-- The error record of a watchdog's kill (R350): the lowest unit that has not reached a yield point. -/
def State.wdogRecord (s : State) (x : Launch) : State :=
  let stuck := (s.ctxsOf x).filter fun q => !s.ctxDrained q.1 q.2
  let least := stuck.foldl (fun (m : Option (Nat × Nat)) q => match m with
    | none => some q
    | some p => if (s.ctxAt q.1 q.2).unit < (s.ctxAt p.1 p.2).unit then some q else some p) none
  match least with
  | none => s.queueError x.queue 2 x.va.toNat 0 0
  | some q =>
    let y := s.ctxAt q.1 q.2
    s.queueError x.queue 2 x.va.toNat
      (BitVec.ofNat 64 ((y.unit <<< 48) + (addr16of y.pc <<< 32) + stuck.length)) y.shownVt

/-- The kill that ends a watchdog's second period. -/
def State.wdogKill (s : State) (l : Nat) (x : Launch) : State := (s.wdogRecord x).beginKill l 4 cWatchdog

/-- The first period is over: a drain to the tail of the queue without tokens, or with a drain under way the second
period; without room to save, the kill at once (R371, R457). -/
def State.wdogExpires (s : State) (l : Nat) (x : Launch) : State :=
  let second (s : State) : State := s.modLaunch l fun y => { y with wdogSecond := true, wdogAt := s.clock }
  match x.phase with
  | .draining _ => second s
  | .checkpointing => second s
  | _ => if s.roomToSave x then second (s.requestDrain l true) else s.wdogKill l x

/-- WATCHDOG_EXPIRY. -/
def execWatchdogExpiry (l time : Nat) (s : State) : Res :=
  let s := s.tick time
  .next (match s.launch? l with
    | some x =>
      if s.wdogRuns x ∧ !x.wdogSecond ∧ x.wdogAt + s.wdogPeriod x ≤ s.clock then s.wdogExpires l x else s
    | none => s)

/-- WATCHDOG_KILL. -/
def execWatchdogKill (l time : Nat) (s : State) : Res :=
  let s := s.tick time
  .next (match s.launch? l with
    | some x => if s.wdogRuns x ∧ x.wdogSecond ∧ x.wdogAt + s.wdogPeriod x ≤ s.clock then s.wdogKill l x else s
    | none => s)

/-! ### Retirement (R96, R365) -/

/-- The operations that a context has given to the engines of its core are over. -/
def Core.enginesDone (k : Core) (ctx : Nat) : Bool :=
  k.engines.all fun p =>
    (p.2.queue.all fun o => o.entry.isSome || o.ctx != ctx) &&
      match p.2.run with
      | some r => r.op.entry.isSome || r.op.ctx != ctx
      | none => true

/-- CONTEXT_RETIRE: a context that has stopped retires when its engine queues are empty (R96). -/
def execContextRetire (c k : Nat) (s : State) : Res :=
  if Config.cores ≤ c ∨ Config.contexts ≤ k then .fault .noSuchPart
  else
    let x := s.ctxAt c k
    let quiet := (s.core c).enginesDone k && (s.core c).gather.all (fun g => g.ctx != k) && x.judgeQ.isEmpty
    .next (if x.run = .stopped ∧ quiet ∧ s.unitsRun c then s.modCtxAt c k fun y => { y with run := .retired } else s)

/-- Every engine context of a core is idle and its gather indices are consumed. -/
def Core.unitsIdle (k : Core) : Bool := k.gather.isEmpty && k.engines.all fun p => p.2.run.isNone && p.2.queue.isEmpty

/-- An operation is a baton of a graph. -/
def isBatonOf (id : BitVec 64) : RemoteOp → Bool
  | .baton _ _ g _ _ _ _ => g == id
  | _ => false

/-- A counted baton of a launch's CROSS graph is still on its way to another package, which has not acknowledged it. -/
def State.batonOut (s : State) (x : Launch) : Bool :=
  match x.graph with
  | some g =>
    let id := s.crossName x.dom g
    g.cross && (s.mgmt.outbox.any (fun e => isBatonOf id e.2) ||
      s.mgmt.groups.any fun p => p.2.unacked.any fun f => isBatonOf id f.2)
  | none => false

/-- Whether a launch retires (R365) (DEDUCED, log entry 28). -/
def State.retires (s : State) (l : Nat) (x : Launch) : Bool :=
  let isOver (c k : Nat) : Bool :=
    let y := s.ctxAt c k
    y.run == .retired || (y.run == .dormant && y.wakes.isEmpty && y.judgeQ.isEmpty)
  !s.mgmt.fatal && (s.ctxsOf x).all (fun q => isOver q.1 q.2) && !(s.batons.any fun b => b.launch == l) &&
    !s.batonOut x && !(s.xputs.any fun q => q.launch == l) && x.cores.all (fun c => (s.core c).unitsIdle)

/-- A launch retires: its graph is cancelled if it still holds counts, state 3 is written — or state 6 where an engine
error met nobody (R333) — its cores are freed, the host writes held for it are applied (R272), and an arbitration point
comes. -/
def State.retire (s : State) (l : Nat) (x : Launch) : State :=
  let s := s.retireGraph l
  let s := if x.engineFault then s.setStatus l 6 cEngineFault else s.setStatus l 3 0
  ((((s.freeCores x.cores).forget l).releaseEvent).openRegions x.dom).arbitratePoint

/-- LAUNCH_RETIRE. -/
def execLaunchRetire (l : Nat) (s : State) : Res :=
  .next (match s.launch? l with
    | some x =>
      match x.phase with
      | .running => if s.retires l x then s.retire l x else s
      | .draining _ => if s.retires l x then s.retire l x else s
      | .checkpointing => if s.retires l x then s.retire l x else s
      | _ => s
    | none => s)

end Sys2Proof.Machine
end

