-- ==== Sys2Proof/Machine/Relay.lean ====
section
/-! DEFINITION. Relay ports and groups: flits, acknowledgements, lanes, tests, and what arrives from other packages (R303,
R324, R392, R403, R404, R442 to R444). -/

namespace Sys2Proof.Machine

/-! ### Ports and groups -/

/-- A Relay port. -/
def Mgmt.port (m : Mgmt) (p : Nat) : Port := get {} m.ports p

/-- Put a port back. -/
def Mgmt.setPort (m : Mgmt) (p : Nat) (x : Port) : Mgmt := { m with ports := set {} p x m.ports }

/-- A port group, under its lowest port. -/
def Mgmt.group (m : Mgmt) (g : Nat) : Group := get {} m.groups g

/-- Put a group back. -/
def Mgmt.setGroup (m : Mgmt) (g : Nat) (x : Group) : Mgmt := { m with groups := set {} g x m.groups }

/-- Add an answer. -/
def State.answer (s : State) (a : Answer) : State := { s with answers := a :: s.answers }

/-- How many ports of a number of healthy ones carry a group: the largest power of two (R443). -/
def carrying (healthy : Nat) : Nat := if 4 ≤ healthy then 4 else if 2 ≤ healthy then 2 else healthy

/-- The ports of a group that are in it and healthy, in rising order. -/
def Mgmt.healthy (m : Mgmt) (x : Group) : List Nat := x.ports.filter fun p => (m.port p).state == .inGroup

/-- A group is carried by some ports. -/
def Group.carriedBy (x : Group) (ps : List Nat) : Group := { x with active := ps, width := 4 * ps.length }

/-- A group widens: the lowest-numbered of all its healthy ports carry it (R443, R444). -/
def Mgmt.widen (m : Mgmt) (g : Nat) : Mgmt :=
  let x := m.group g
  let ps := m.healthy x
  m.setGroup g (x.carriedBy (ps.take (carrying ps.length)))

/-- A group narrows to the lowest-numbered of the ports that carry it and are still healthy; when none is, to those of the
healthy ports that stood by (R443, R456) (DEDUCED, log entry 52). -/
def Mgmt.narrow (m : Mgmt) (g : Nat) : Mgmt :=
  let x := m.group g
  let ps := m.healthy x
  let left := x.active.filter ps.contains
  if left.isEmpty then m.widen g else m.setGroup g (x.carriedBy (left.take (carrying left.length)))

/-- Count a replay of a group at its ports (R444, R455). -/
def Mgmt.countReplay (m : Mgmt) (g : Nat) : Mgmt :=
  (m.group g).ports.foldl (fun m p =>
    m.setPort p { m.port p with replays := BitVec.ofNat 16 (satAdd 16 (m.port p).replays.toNat 1) }) m

/-- The unacknowledged flits of a group are sent again, from the one after the last acknowledged; a group that is down sends
them when it comes up (R442, R443). -/
def State.resend (s : State) (g : Nat) : State :=
  let x := s.mgmt.group g
  if x.unacked.isEmpty then s.modMgmt fun m => m.setGroup g { x with resend := false }
  else if x.width = 0 then s.modMgmt fun m => m.setGroup g { x with resend := true }
  else
    let s := s.modMgmt fun m => m.setGroup g { x with resend := false }
    { s with answers := (x.unacked.reverse.map fun f => Answer.relayFlit g f.1 f.2) ++ s.answers }

/-- The replay that a loss asks of a group: it counts, as what a negative acknowledgement has sent again does not (R443, R444,
R455) (DEDUCED, log entry 52). -/
def State.replay (s : State) (g : Nat) : State :=
  let x := s.mgmt.group g
  (if x.unacked.isEmpty ∨ x.width = 0 then s else s.modMgmt fun m => m.countReplay g).resend g

/-- Send what waits, after a link has come up or moved on: what is to be told to other packages, then every engine
context's packets. -/
def State.sendAll (s : State) : State :=
  let s := s.sendEach s.mgmt.outbox
  s.sendRuns (s.cores.map Prod.fst)

/-- Runs that use a group and have packets to go or to be acknowledged stop with LINK_LOST (R324, R403). -/
def State.loseLink (s : State) (hit : EngineRun → Bool) : State :=
  { s with cores := s.cores.map fun (q : Nat × Core) =>
      (q.1, { q.2 with engines := q.2.engines.map fun (e : Nat × Engine) =>
        (e.1, match e.2.run with
          | some r =>
            if (!r.packets.isEmpty || !r.sent.isEmpty) && hit r then
              { e.2 with run := some { r with packets := [], sent := [], err := some (eLinkLost, 0) } }
            else e.2
          | none => e.2) }) }

/-- What uses a group knows it under another number: routes and runs. -/
def State.rerouted (s : State) (old new : Nat) : State :=
  let s := s.modMgmt fun m => { m with
    routes := m.routes.map fun r => if r.2 = old + 1 then (r.1, new + 1) else r }
  { s with cores := s.cores.map fun (q : Nat × Core) =>
      (q.1, { q.2 with engines := q.2.engines.map fun (e : Nat × Engine) =>
        (e.1, { e.2 with run := e.2.run.map fun r => if r.via = old then { r with via := new } else r }) }) }

/-- Some ports leave a group for good (R403): it is kept, and shown, under the lowest port that it still has (R444). -/
def State.leaveGroup (s : State) (g : Nat) (ps : List Nat) : State :=
  let x := s.mgmt.group g
  let left := x.ports.filter fun p => !ps.contains p
  match left with
  | [] => s.modMgmt fun m => { m with groups := drop g m.groups }
  | n :: _ =>
    let s := s.modMgmt fun m =>
      let m := { m with groups := drop g m.groups }
      let m := m.setGroup n { x with ports := left }
      (left.foldl (fun m p => m.setPort p { m.port p with group := n }) m).narrow n
    let s := s.rerouted g n
    if (s.mgmt.group n).active = x.active then s else s.replay n

/-- Take ports down: they leave their groups and their keys go (R403, R405); copies that used the groups stop. -/
def State.portsDown (s : State) (ps : List Nat) : State :=
  let gs := ((ps.filter fun p => (s.mgmt.port p).state != .down).map fun p => (s.mgmt.port p).group).eraseDups
  let used := gs.filter fun g => (s.mgmt.group g).active.any ps.contains || (s.mgmt.group g).ports.all ps.contains
  let s := s.loseLink fun r => used.contains r.via
  let s := s.modMgmt fun m =>
    ps.foldl (fun m p => m.setPort p { m.port p with
      state := .down, lanes := 0, group := 0, keyed := false, admission := [], passed := 0, crcTimes := [] }) m
  gs.foldl (fun s g => s.leaveGroup g ps) s

/-! ### What arrives (R303, R324, R392, R404) -/

/-- What acts for another package in a bound domain: at user privilege, unless the domain's launches run at supervisor's (R386,
R392, R404) (DEDUCED, log entry 83). -/
def State.remoteClient (s : State) (dom : Nat) : Client :=
  ⟨⟨none, dom, none, !(s.domain? dom).any fun d => d.sup⟩, none⟩

/-- Bytes of a remote write, in order up to the first that the domain does not take; the error for the sender. -/
def State.remoteWrites (s : State) (dom : Nat) : List (Word × Byte) → State × Nat
  | [] => (s, 0)
  | b :: bs =>
    match s.writeGlobal (s.remoteClient dom) .remoteWrite b.1.toNat [b.2] with
    | (.ok t, _) => t.remoteWrites dom bs
    | (.error e, _) => (s, e.engineErr)

/-- Bytes of a remote read. -/
def State.remoteReads (s : State) (dom : Nat) : List Word → Except Nat (List Byte)
  | [] => .ok []
  | a :: as =>
    match (s.readGlobal (s.remoteClient dom) .remoteRead a.toNat 1).1 with
    | .ok bs => (s.remoteReads dom as).map (bs ++ ·)
    | .error e => .error e.engineErr

/-- Data for an engine context's oldest unanswered read: its destination bytes are written, its packet is done (R324); none
while a rail change makes the engine wait (R378). -/
def State.remoteData (s : State) (c e : Nat) (bs : List Byte) : Option State :=
  if (s.cluster (clusterOf c)).switching then none
  else some <|
  match s.launchOf c, ((s.core c).engine e).run with
  | some (l, la), some r =>
    match r.sent with
    | [] => s
    | p :: rest =>
      let v := s.copyEnv c e l la r.op r.scbase
      let ps := (List.range (p.2 - r.pos)).map (· + r.pos)
      let x := (ps.zip bs).foldl (fun (x : CopyAcc) q => if x.err.isSome then x else v.store x q.1 q.2)
        { s := s, pos := r.pos }
      let r := match x.err with
        | none => { r with sent := rest, pos := p.2 }
        | some err => { r with sent := [], packets := [], err := some err, pos := x.pos }
      x.s.setCore c ((x.s.core c).withRun e r)
  | _, _ => s

/-- A packet's writes, for the domain bound to the group (R324, R404). -/
def State.remoteWrite (s : State) (port group : Nat) (bytes : List (Word × Byte)) : State :=
  match s.mgmt.boundDomain group with
  | none => s.answer (.relayError port ePageAccess)
  | some dom =>
    let (t, err) := s.remoteWrites dom bytes
    if err = 0 then t else t.answer (.relayError port err)

/-- A packet's read, for the domain bound to the group. -/
def State.remoteRead (s : State) (port group : Nat) (addrs : List Word) : State :=
  match s.mgmt.boundDomain group with
  | none => s.answer (.relayError port ePageAccess)
  | some dom =>
    match s.remoteReads dom addrs with
    | .ok bs => s.answer (.relayData port bs)
    | .error err => s.answer (.relayError port err)

/-- A baton from another package reaches only the domain bound to its group (R404); none is delivered after a cancel
(R304). -/
def State.remoteBaton (s : State) (port group : Nat) (id : BitVec 64) (unit handle : Nat) (handler : BitVec 16)
    (bs : List Byte) : State :=
  let w := bs.take 32
  let st := (nth 0 w 8).toNat
  match s.crossLaunch id with
  | some (l, g) =>
    if g.state = 2 then s.countLost l 1 0
    else if s.mgmt.boundDomain group = (s.launch? l).map fun x => x.dom then
      { s with batons := s.batons ++ [{
        launch := l, station := st, lap := wordAt w 0, sender := leNat ((w.drop 12).take 2), unit := unit, handle := handle
        handler := handler, payload := bs.drop 32, source := some (s.mgmt.group (s.mgmt.port port).group).peer }] }
    else (s.answer (.relayError port ePageAccess)).refuseBaton id st (wordAt w 0)
  | none => (s.answer (.relayError port ePageAccess)).refuseBaton id st (wordAt w 0)

/-- The home judge has cancelled a graph: what this package has of it goes too (R301, R303), and after a refusal every
context of the launch takes GRAPH_FAULT, once (R291). -/
def State.homeCancelled (s : State) (id : BitVec 64) (cause : BitVec 48) : State :=
  match s.crossAt id false with
  | none => s
  | some (l, g) =>
    if g.state = 2 then s
    else
    let s := s.cancelGraph l cause 0x3FF
    if cause = 0 then s else s.pendAll l ⟨cGraphFault, 0, none, 0, false, false⟩

/-- What a flit carries is done; none when it has to wait (R292). What is for another package has no effect here. -/
def State.remoteOp (s : State) (port : Nat) (op : RemoteOp) : Option State :=
  let mine (pkg : Nat) : Bool := pkg == s.mgmt.package
  let only (here : Bool) (t : Option State) : Option State := if here then t else some s
  match op with
  | .writes pkg group bytes => only (mine pkg) (some (s.remoteWrite port group bytes))
  | .reads pkg group addrs => only (mine pkg) (some (s.remoteRead port group addrs))
  | .data c e bs => s.remoteData c e bs
  | .baton pkg group id unit handle handler bs => only (mine pkg) (some (s.remoteBaton port group id unit handle handler bs))
  | .deltas home pkg id unit prog ds => only (home.all mine) (s.homeDeltas pkg id unit prog (ds.map fun d => ((d.1, d.2.1), d.2.2)))
  | .applied pkg id unit ok =>
    match s.crossLaunch id with
    | some (l, g) => only (mine pkg) (some (s.judgeReplied l unit g ok))
    | none => some s
  | .announce id st f =>
    match s.crossAt id false with
    | some (l, _) => some (s.announce l st (f.getD closedLap))
    | none => some s
  | .cancel home id unit => only (home.all mine) (s.atHome id (fun l _ => some (s.cancelGraph l 0 unit)) s)
  | .cancelled id cause => some (s.homeCancelled id cause)
  | .lost home id dropped ignored =>
    only (home.all mine) (s.atHome id (fun l _ => some (s.countLost l dropped ignored)) (s.countEnded id dropped ignored))
  | .frontAsk home pkg id unit st =>
    only (home.all mine) (s.atHome id (fun _ g => some (s.post (.frontTell pkg id unit st (g.frontier st))))
      (s.post (.frontTell pkg id unit st closedLap)))
  | .frontTell pkg id unit st v =>
    match s.crossLaunch id with
    | some (l, _) => only (mine pkg) (some (s.modUnit l unit fun x => x.frontTold st v))
    | none => some s
  | .stopped pkg id unit err =>
    match s.crossLaunch id with
    | some (l, _) => only (mine pkg) (some (s.senderStopped l unit err))
    | none => some s
  | .part => some s

/-- What a flit completes, with the parts then received of an operation that is not complete: an operation acts when the flits
before it have been its parts, and has no effect otherwise (R442; DESIGN CHOICE, log entry 80). -/
def State.takeFlit (s : State) (port parts : Nat) : Option RemoteOp → Option State × Nat
  | none => (some s, parts)
  | some .part => (some s, parts + 1)
  | some op => (if parts + 1 = flitsOf op then s.remoteOp port op else some s, 0)

/-- A port leaves its group, for its test or as lasting; the group narrows and sends again what is not acknowledged
(R443, R444). -/
def State.losePort (s : State) (port : Nat) (q : PortState) (lanes : BitVec 4) : State :=
  let g := (s.mgmt.port port).group
  let was := (s.mgmt.group g).active
  let s := s.modMgmt fun m =>
    (m.setPort port { m.port port with state := q, lanes := lanes, passed := 0, crcTimes := [] }).narrow g
  if (s.mgmt.group g).active = was then s else s.replay g

/-- The lane that stands for a port's fault: the lowest without lock (R400). -/
def faultyLane (lanes : BitVec 4) : Nat := ((List.range 4).find? fun l => !bit lanes l).getD 0

/-- A lane of a port is lost: an error of the lane; the port leaves its group and is tested (R439, R443). -/
def State.loseLane (s : State) (port : Nat) (lanes : BitVec 4) : State :=
  (s.modMgmt fun m => m.meetLane port (faultyLane lanes) s.clock).losePort port .testing lanes

/-- A lane's self-test is over (R400, R439, R444): an error, or the third of the lane within 24 hours, is a lasting fault of its
port. -/
def State.laneVerdict (s : State) (port lane : Nat) (failed : Bool) : State :=
  let s := s.modMgmt fun m => { m with
    laneTests := m.laneTests.erase (port, lane), laneErrs := m.laneErrs.filter fun p => decide (s.clock < p.2 + dayCycles) }
  let lasting := failed || decide (3 ≤ (s.mgmt.laneErrs.filter fun p => p.1 == (port, lane)).length)
  let s := s.modMgmt fun m => m.countVerdict ⟨s.clock / 1024, .relayLane port lane, lasting, if lasting then 3 else 0⟩
  if !lasting then s
  else if (s.mgmt.port port).state = .inGroup then s.losePort port .lasting 0
  else s.modMgmt fun m => m.setPort port { m.port port with state := .lasting, lanes := 0, passed := 0 }

/-- A flit that fails its CRC: it counts, and the sixteenth within a millisecond loses the port a lane (R442, R443). -/
def State.crcFails (s : State) (port : Nat) : State :=
  let p := s.mgmt.port port
  let recent := s.clock :: p.crcTimes.filter fun t => decide (s.clock ≤ t + cyclesPerMs)
  let s := s.modMgmt fun m => m.setPort port { p with crcErr := BitVec.ofNat 16 (satAdd 16 p.crcErr.toNat 1), crcTimes := recent }
  if 16 ≤ recent.length then s.loseLane port p.lanes else s

/-- FLIT_RECEIVE: in order and whole, a flit is accepted, done and acknowledged; otherwise it is discarded and the next
expected number is named (R442). -/
def execFlitReceive (port seq : Nat) (crcOk : Bool) (w : Option RemoteOp) (s : State) : Res :=
  if Config.ports ≤ port then .fault .noSuchPart
  else
    let p := s.mgmt.port port
    let g := s.mgmt.group p.group
    .next (if p.state ≠ .inGroup ∨ s.mgmt.fatal then s
      else if !crcOk then (s.crcFails port).answer (.relayNak port g.recvSeq)
      else if seq ≠ g.recvSeq then s.answer (.relayNak port g.recvSeq)
      else
        let next := (g.recvSeq + 1) % 2 ^ 24
        match s.takeFlit port g.parts w with
        | (none, _) => s.answer (.relayNak port g.recvSeq)
        | (some t, parts) =>
          (t.modMgmt fun m => m.setGroup p.group { m.group p.group with recvSeq := next, parts := parts }).answer (.relayAck port next))

/-! ### Acknowledgements (R442) -/

/-- How many of the oldest unacknowledged flits an acknowledgement that names the next number covers. -/
def Group.covered (g : Group) (seq : Nat) : Nat :=
  match g.unacked with
  | [] => 0
  | (n, _) :: _ =>
    let d := (seq + 2 ^ 24 - n) % 2 ^ 24
    if d ≤ g.unacked.length then d else 0

/-- A packet of an engine context is acknowledged: its positions are committed; a read still waits for its data. -/
def State.packetAcked (s : State) (c e seq : Nat) : State :=
  match ((s.core c).engine e).run with
  | none => s
  | some r =>
    if copySKind r.op.desc = 4 then s
    else
      match r.sent.lookup seq with
      | none => s
      | some stop => s.setCore c ((s.core c).withRun e { r with sent := r.sent.filter (fun q => q.1 != seq), pos := stop })

/-- The owner of an acknowledged flit learns of it. -/
def State.flitAcked (s : State) (g : Group) (seq : Nat) : State :=
  match g.owner.find? fun o => o.1 == seq with
  | none => s
  | some (_, c, e) => s.packetAcked c e seq

/-- The operation that a flit carries packets of stops, if it still runs. -/
def State.packetStopped (s : State) (o : Nat × Nat × Nat) (err : Nat) : State :=
  match ((s.core o.2.1).engine o.2.2).run with
  | none => s
  | some r =>
    if r.sent.any fun q => q.1 == o.1 then
      s.setCore o.2.1 ((s.core o.2.1).withRun o.2.2 { r with packets := [], sent := [], err := some (err, 0) })
    else s

/-- What an error that the remote package reports for an unacknowledged flit stops, where it stops something: the copy whose
packet it is (R324), or the sender of a baton, whom its header names (R296, R404). -/
def State.stopsFlit (s : State) (g : Group) (err : Nat) (f : Nat × RemoteOp) : Option State :=
  match g.owner.find? (fun o => o.1 == f.1), f.2 with
  | some o, _ => some (s.packetStopped o err)
  | none, .baton _ _ id _ _ _ bs =>
    (s.crossLaunch id).map fun p => s.senderStopped p.1 (leNat ((bs.drop 12).take 2)) err
  | none, _ => none

/-- The remote package reports an error for the oldest unacknowledged packet or baton: the operation that sent it stops
(R324, R404). -/
def State.remoteError (s : State) (g : Group) (err : Nat) : State := (g.unacked.findSome? (s.stopsFlit g err)).getD s

/-- FLIT_ACK: flits before `seq` are acknowledged; a negative acknowledgement has the rest sent again; `err` is an error
that the remote package reports, 0 for none. -/
def execFlitAck (port seq : Nat) (nak : Bool) (err : Nat) (s : State) : Res :=
  if Config.ports ≤ port then .fault .noSuchPart
  else
    let p := s.mgmt.port port
    let g := s.mgmt.group p.group
    .next (if p.state ≠ .inGroup ∨ s.mgmt.fatal then s
      else
        let n := g.covered seq
        let old := g.unacked.take n
        let g' := { g with
          unacked := g.unacked.drop n, delivered := if n = 0 then g.delivered else s.clock
          owner := g.owner.filter fun o => !old.any fun f => f.1 == o.1 }
        let s := s.modMgmt fun m => m.setGroup p.group g'
        let s := if nak then s.resend p.group else s
        let s := old.foldl (fun s f => s.flitAcked g f.1) s
        (if err = 0 then s else s.remoteError g' err).sendAll)

/-! ### Lanes and tests (R443, R444) -/

/-- LANE_LOSS: a lane of a port in a group loses lock. -/
def execLaneLoss (port lane : Nat) (s : State) : Res :=
  if Config.ports ≤ port ∨ 4 ≤ lane then .fault .noSuchPart
  else
    let p := s.mgmt.port port
    .next (if p.state ≠ .inGroup ∨ s.mgmt.fatal then s else s.loseLane port (setField p.lanes lane 1 0))

/-- PORT_TEST_DONE: a test without an error counts as passed, and the lanes that wait for their self-test have it; any error is
a lasting fault of the port, which the health log names by its lowest lane without lock (R400, R439, R444). -/
def execPortTestDone (port : Nat) (errors : Bool) (s : State) : Res :=
  if Config.ports ≤ port then .fault .noSuchPart
  else
    let p := s.mgmt.port port
    .next (if p.state ≠ .testing ∨ s.mgmt.fatal then s
      else if errors then s.laneVerdict port (faultyLane p.lanes) true
      else
        let s := (s.mgmt.laneTests.filter fun q => q.1 == port).foldl (fun s q => s.laneVerdict port q.2 false) s
        if (s.mgmt.port port).state = .testing then
          s.modMgmt fun m => m.setPort port { m.port port with passed := p.passed + 1, lanes := 0xF }
        else s)

/-- SELF_TEST: an error is met and corrected, an error arises that its code does not correct, a self-test ends, or Filzan places
a launch for self-test. -/
def execSelfTest (e : TestEvent) (failed : Bool) (time : Nat) (s : State) : Res :=
  let t := s.tick time
  match e with
  | .corrected u => if !unitExists u then .fault .noSuchPart else .next (t.corrected u)
  | .upset p => .next (t.upset p)
  | .launch ws image => .next (if t.filzanServes then t.placeSelfTest ws image else t)
  | .verdict u =>
    if !unitExists u then .fault .noSuchPart
    else .next (match u, unitCore u with
      | .relayLane p l, _ => if !t.mgmt.laneTests.contains (p, l) || t.mgmt.fatal then t else t.laneVerdict p l failed
      | _, some c => t.coreVerdict c u failed
      | _, none => t)

/-- Whether a port may rejoin: two tests have passed and its group has nothing unacknowledged; in a group that is down its
ports retrain, and a tested one comes back at once (R443, R444) (DEDUCED, log entry 52). -/
def State.mayRejoin (s : State) (port : Nat) : Bool :=
  let p := s.mgmt.port port
  let g := s.mgmt.group p.group
  p.state == .testing && !s.mgmt.fatal &&
    ((decide (2 ≤ p.passed) && g.unacked.isEmpty) || (g.active.isEmpty && decide (1 ≤ p.passed)))

/-- PORT_REJOIN: the port is in its group again and the group widens; what a group that was down has still to deliver is
sent again. -/
def execPortRejoin (port : Nat) (s : State) : Res :=
  if Config.ports ≤ port then .fault .noSuchPart
  else
    let p := s.mgmt.port port
    .next (if s.mayRejoin port then
      let s := s.modMgmt fun m => (m.setPort port { p with state := .inGroup, passed := 0, lanes := 0xF }).widen p.group
      (if (s.mgmt.group p.group).resend then s.replay p.group else s).sendAll
    else s)

/-- A remote copy has delivered nothing for 100 ms (R324, R443). -/
def State.linkSilent (s : State) (r : EngineRun) : Bool :=
  (!r.packets.isEmpty || !r.sent.isEmpty) &&
    decide (max r.since (s.mgmt.group r.via).delivered + 100 * cyclesPerMs ≤ s.clock)

/-- LINK_LOST: a remote copy whose group has delivered nothing for 100 ms stops (R324). -/
def execLinkLost (c e : Nat) (s : State) : Res :=
  if Config.cores ≤ c ∨ 8 ≤ e then .fault .noSuchPart
  else
    match ((s.core c).engine e).run with
    | some r =>
      .next (if s.linkSilent r then
        s.setCore c ((s.core c).withRun e { r with packets := [], sent := [], err := some (eLinkLost, 0) })
      else s)
    | none => .next s

end Sys2Proof.Machine
end

