-- ==== Sys2Proof/Machine/Alarm.lean ====
section
/-! DEFINITION. Resuming a halted context, locking debugging, ending launches for Filzan, ownership's end, and the security
alarm with what raises it (R360, R395, R405, R407, R408, R427, R429). -/

namespace Sys2Proof.Machine

/-! ### A halted context (R427 to R431) -/

/-- The resume point of a context that stands at a bundle boundary, as a boundary trap would record it (R431): no cause. -/
def Ctx.haltPoint (x : Ctx) : Trap :=
  { cause := 0, fslot := 0, fpc := x.pc, rpc := x.pc, cmask := x.resumeMask, skipl := x.skip, npc := x.resumeNpc
    wskip := x.wskip }

/-- The frozen resume state of a halted context in the layout of R414 (R428, space 0x02). -/
def State.frozenWords (s : State) (c k : Nat) : List Word :=
  let x := s.ctxAt c k
  if x.dbgRec.isEmpty then
    (recordWords x.haltPoint (s.cluster (clusterOf c)).rail x (s.core c).engines).map (BitVec.ofNat 64)
  else x.dbgRec

/-- The resume step of R420 for a halted context, without a change of depth (R427). -/
def Ctx.takeUp (x : Ctx) (r : Restored) : Ctx :=
  { x.moveLevel x.depth x.vt r.vt with
    loops := r.loops, land := r.land, vt := r.vt, pc := r.rpc, via := .seq, skip := r.skipl, wskip := r.wskip
    resume := if r.cmask = 0 then none else some ⟨r.cmask, r.npc⟩ }

/-- A context goes on after a halt. -/
def Ctx.letGo (x : Ctx) : Ctx := { x with halted := false, haltReq := false, dbgRec := [] }

/-- A debugger resume of a context of a core, placed or saved; none where the frozen state fails the checks of R420 (R429). -/
def Core.dbgResume (core : Core) (k : Nat) : Option Core :=
  let x := core.ctx k
  if x.dbgRec.isEmpty then some (core.setCtx k x.letGo)
  else
    match restoreRecord x.dbgRec with
    | none => none
    | some r =>
      let core := { core with cells := core.cells.map fun (p : Nat × Cell) =>
        (p.1, if bit x.sqm (squadOf p.1) then p.2.moveLevel x.depth x.vt r.vt else p.2) }
      some (core.setCtx k (x.takeUp r).letGo)

/-- A debugger resume of a placed context. -/
def State.dbgResume (s : State) (c k : Nat) : Option State := ((s.core c).dbgResume k).map fun q => s.setCore c q

/-- A context that nothing halts any more: neither a latched halt, nor one asked for, nor the end of a step. -/
def Ctx.unhalt (x : Ctx) : Ctx :=
  { x with haltReq := false, stepReq := false, pend := x.pend.filter fun p => p.cause != cHalt }

/-- The contexts of a core as the locking of their domain leaves them: the halted ones resume as a debugger resume would,
with the frozen state as it stood where what the debugger has written of it fails R420 (R407). -/
def Core.lockCtxs (core : Core) : Core :=
  (core.ctxs.map Prod.fst).foldl (fun q k =>
    let q := q.setCtx k (q.ctx k).unhalt
    if (q.ctx k).halted then (q.dbgResume k).getD (q.setCtx k (q.ctx k).letGo) else q) core

/-- Halts that have not been answered when their domain is locked are refused with BAD_ARG (DEDUCED, log entry 44). -/
def State.refuseHalts (s : State) (gone : Nat → Bool) : State :=
  let mine (h : Nat × Nat × Nat × BitVec 8) : Bool := gone h.1
  { s with
    mgmt := { s.mgmt with halts := s.mgmt.halts.filter fun h => !mine h }
    answers := ((s.mgmt.halts.filter fun h => mine h && (get none s.mgmt.sessions h.2.2.1).isSome).map fun h =>
      answerOf h.2.2.1 0xE2 h.2.2.2 2 []) ++ s.answers }

/-- Lock the debugging of domains: their halted contexts resume, those of saved launches too (R407). -/
def State.lockDomains (s : State) (p : Nat → Bool) : State :=
  let s := s.modMgmt fun m => { m with unlocked := m.unlocked.filter fun d => !p d }
  let cores := ((s.launches.filter fun l => p l.2.dom).map fun l => l.2.cores).flatten
  let s := cores.foldl (fun s c => s.setCore c (s.core c).lockCtxs) s
  let locked (l : Launch) : Launch := { l with saved := l.saved.map fun sv => sv.map fun q => (q.1, q.2.lockCtxs) }
  let s := { s with launches := s.launches.map fun (l : Nat × Launch) => (l.1, if p l.2.dom then locked l.2 else l.2) }
  s.refuseHalts cores.contains

/-! ### Ending launches (R360, R399, R408) -/

/-- A queued launch — one never placed, saved, or committed — leaves the starter with a STATUS state and cause. -/
def State.endWaiting (s : State) (l : Nat) (x : Launch) (st : Nat) (z : BitVec 16) : State :=
  let s := s.killGraph l
  let y := s.queue x.queue
  let s := s.setQueue x.queue { y with list := y.list.filter fun n => n != l }
  let s := { s with starter := { s.starter with commit := s.starter.commit.filter fun m => m.launch != l } }
  ((s.setStatus l st z).forget l).releaseEvent

/-- Kill a launch whatever it is doing. -/
def State.killAny (s : State) (l : Nat) (st : Nat) (z : BitVec 16) : State :=
  match s.launch? l with
  | none => s
  | some x => if x.phase = .queued then s.endWaiting l x st z else s.beginKill l st z

/-! ### Ownership's end (R395) -/

/-- The device is unowned, and debugging locked. -/
def State.unown (s : State) : State :=
  (s.modMgmt fun m => { m with own := .unowned, owner := 0xFF, heir := 0xFF, leaseEnd := 0, leaseSec := 0 }).lockDomains
    fun _ => true

/-- A lease or a handover whose time is over has lapsed. -/
def State.settleOwner (s : State) : State :=
  if (s.mgmt.own = .owned ∨ s.mgmt.own = .handover) ∧ s.mgmt.leaseEnd ≤ s.clock then s.unown else s

/-! ### The alarm (R408) -/

/-- Bit of CAUSE, counted from bit 3 of SYS.ALARM. -/
inductive AlarmCause where
  | tamper | glitch | auth | debugUnlock | escalation
  deriving DecidableEq, Repr

/-- The place of a cause in the field. -/
def AlarmCause.bitNo : AlarmCause → Nat
  | .tamper => 0
  | .glitch => 1
  | .auth => 2
  | .debugUnlock => 3
  | .escalation => 4

/-- Set an alarm's level and cause; the level never falls before reset. -/
def Mgmt.raiseAlarm (m : Mgmt) (lvl : Nat) (z : AlarmCause) : Mgmt :=
  { m with alarmLevel := max m.alarmLevel lvl, alarmCause := setField m.alarmCause z.bitNo 1 1 }

/-- Erase the volatile keys of R405: image roots and sessions; the Relay keys go with the ports. -/
def Mgmt.eraseKeys (m : Mgmt) : Mgmt := { m with keys := [], sessions := [] }

/-- The effects of alarm level 2, in the order of R408. -/
def State.levelTwo (s : State) (z : AlarmCause) : State :=
  let s := s.modMgmt fun m => m.raiseAlarm 2 z
  let s := s.portsDown (List.range Config.ports)
  let s := s.modMgmt Mgmt.eraseKeys
  let s := (s.launches.map Prod.fst).foldl (fun s l => s.killAny l 4 cSecurityAlarm) s
  let s := { s with ingress := [] }
  (s.unown).modMgmt fun m => { m with own := .locked }

/-- Ten minutes, in reference-clock cycles. -/
def tenMinutes : Nat := 600000 * cyclesPerMs

/-- One minute, in reference-clock cycles. -/
def oneMinute : Nat := 60000 * cyclesPerMs

/-- A level-1 event: SYS.ALARM records it; the third within ten minutes raises level 2. -/
def State.levelOne (s : State) (z : AlarmCause) : State :=
  let recent := s.clock :: s.mgmt.alarmTimes.filter fun t => decide (s.clock ≤ t + tenMinutes)
  let s := s.modMgmt fun m =>
    { m.raiseAlarm 1 z with
      alarmEvents := BitVec.ofNat 32 (satAdd 32 m.alarmEvents.toNat 1), alarmTimes := recent }
  if 3 ≤ recent.length ∧ s.mgmt.alarmLevel < 2 then s.levelTwo .escalation else s

/-- An authentication failure of an endpoint: counted; the eighth within 60 s is a level-1 event and the endpoint is
refused for 60 s (R394, R403, R408). -/
def State.authFailure (s : State) (endpoint : Nat) : State :=
  let recent := s.clock :: (get [] s.mgmt.failures endpoint).filter fun t => decide (s.clock ≤ t + oneMinute)
  let s := s.modMgmt fun m => { m with authFail := BitVec.ofNat 16 (satAdd 16 m.authFail.toNat 1) }
  if 8 ≤ recent.length then
    (s.modMgmt fun m => { m with
      failures := set [] endpoint [] m.failures, lockout := set 0 endpoint (s.clock + oneMinute) m.lockout }).levelOne .auth
  else s.modMgmt fun m => { m with failures := set [] endpoint recent m.failures }

/-- An endpoint is refused for its failures. -/
def State.lockedOut (s : State) (endpoint : Nat) : Bool := decide (s.clock < get 0 s.mgmt.lockout endpoint)

/-- TAMPER_DETECT: tamper, a glitch that is not recovered, or an unlock attempt through the test access port. -/
def execTamperDetect (kind : TamperKind) (time : Nat) (s : State) : Res :=
  let s := s.tick time
  .next (match kind with
    | .tamper => s.levelTwo .tamper
    | .glitchUnrecovered => s.levelTwo .glitch
    | .testPort => s.levelTwo .debugUnlock)

/-- GLITCH_RECOVERED: a level-1 event. -/
def execGlitchRecovered (time : Nat) (s : State) : Res := .next ((s.tick time).levelOne .glitch)

/-- AUTH_LOCKOUT_EXPIRY: an endpoint whose 60 s are over is heard again. -/
def execAuthLockoutExpiry (endpoint time : Nat) (s : State) : Res :=
  let s := s.tick time
  .next (if s.lockedOut endpoint then s else s.modMgmt fun m => { m with lockout := drop endpoint m.lockout })

end Sys2Proof.Machine
end

