-- ==== Sys2Proof/Machine/Filzan.lean ====
section
/-! DEFINITION. Filzan's commands (R387, R388, R394 to R407): who may send them, what they change and what they answer.
Debugger commands, dumps and reset are in Debug, Dump and Errors. -/

namespace Sys2Proof.Machine

/-! ### Taking a command (R394 to R400) -/

/-- Number of masters (R394). -/
def masters : Nat := 64

/-- Who may send a command (R381, R394, R396). -/
inductive Sender where
  /-- Every authenticated master. -/
  | anyone
  | owner
  /-- The owner, or the baseboard controller (R381, R396). -/
  | ownerOrBaseboard
  /-- The owner, or the baseboard controller while the device is unowned (R394). -/
  | trust
  deriving DecidableEq, Repr

/-- Whether master `m` may send it. -/
def State.allows (s : State) (w : Sender) (m : Nat) : Bool :=
  let own := s.mgmt.own == .owned && s.mgmt.owner == m
  match w with
  | .anyone => true
  | .owner => own
  | .ownerOrBaseboard => own || m == 0
  | .trust => own || (m == 0 && s.mgmt.own == .unowned)

/-- A field of a request body, little-endian (R400). -/
def bodyN (body : List Byte) (lo n : Nat) : Nat := leNat ((body.drop lo).take n)

/-- Bytes of a body that have to be zero. -/
def bodyZero (body : List Byte) (lo n : Nat) : Bool := ((body.drop lo).take n).all fun b => b == 0

/-- What a command that is carried out answers: status, response body, state. -/
structure Reply where
  status : Nat
  body : List Byte
  state : State

/-- OK, with an empty body. -/
def Reply.ok (s : State) : Reply := ⟨0, [], s⟩

/-- BAD_ARG. -/
def Reply.bad (s : State) : Reply := ⟨2, [], s⟩

/-- BUSY. -/
def Reply.busy (s : State) : Reply := ⟨3, [], s⟩

/-- Answer a command (R398). -/
def State.reply (s : State) (m code : Nat) (tag : Byte) (status : Nat) (body : List Byte) : State :=
  s.answer (answerOf m (BitVec.ofNat 8 code ||| 0x80) tag (BitVec.ofNat 8 status) body)

/-- The STATUS report of R400. -/
def State.report (s : State) : List Byte :=
  let m := s.mgmt
  let joinBytes := leBytes 6 m.joinFail.toNat
  let queues := (List.range Config.queues).map fun q =>
    leBytes 4 (s.queue q).head.toNat ++ leBytes 4 (if (s.queue q).enabled then 1 else 0)
  let windows := m.windows.map fun w => leBytes 8 w.rkey.toNat ++ leBytes 8 w.dropped.toNat
  leBytes 8 s.ownerWord.toNat ++ leBytes 8 s.alarmWord.toNat ++ leBytes 8 s.healthWord.toNat ++ [0, 0] ++
    leBytes 2 m.authFail.toNat ++ leBytes 2 m.lasting.toNat ++ leBytes 2 m.transient.toNat ++ joinBytes ++
    leBytes 2 m.windows.length ++ queues.flatten ++ windows.flatten

/-- The report after BOOT_FAIL: only BOOT is set (R400). -/
def bootReport : List Byte := List.replicate 24 0 ++ [1] ++ List.replicate 527 0

/-- Commands that are answered after a fatal error: STATUS, DUMP_READ, RESET (R445). -/
def answeredFatal (code : Nat) : Bool := code == 0x70 || code == 0x72 || code == 0x7E

/-- A master has a session and Filzan listens to it. -/
def State.hears (s : State) (m : Nat) : Bool :=
  s.filzanServes && match get none s.mgmt.sessions m with
    | some ep => !s.lockedOut ep
    | none => false

/-- A command of an authenticated master: ownership first, then its layout and arguments, then its effect. -/
def State.attend (s : State) (m code : Nat) (tag : Byte) (w : Sender) (ok : Bool) (go : State → Reply) : State :=
  let s := s.settleOwner
  if !s.allows w m then s.reply m code tag 1 []
  else if !ok then s.reply m code tag 2 []
  else
    let r := go s
    r.state.reply m code tag r.status r.body

/-- Filzan takes a command (R394, R398, R405, R408, R445): what its own state lets through, authentication, and then the
command itself (DEDUCED, log entry 33). -/
def State.command (s : State) (m code : Nat) (tag : Byte) (w : Sender) (ok : Bool) (go : State → Reply) : State :=
  if s.mgmt.bootFail then (if code = 0x70 then s.reply m code tag (if ok then 0 else 2) (if ok then bootReport else []) else s)
  else if s.mgmt.fatal && !answeredFatal code then s
  else if s.mgmt.alarmLevel = 2 then
    if code = 0x70 then s.attend m code tag w ok go else if code = 0x10 then s.reply m code tag 6 [] else s
  else
    match get none s.mgmt.sessions m with
    | none => (s.reply m code tag 4 []).authFailure m
    | some ep => if s.lockedOut ep then s.reply m code tag 4 [] else s.attend m code tag w ok go

/-- A command's step: the masters are 0 to 63. -/
def commandStep (m code : Nat) (tag : Byte) (w : Sender) (ok : State → Bool) (go : State → Reply) (s : State) : Res :=
  if masters ≤ m then .fault .noSuchPart else .next (s.command m code tag w (ok s) go)

/-! ### Caps and status (R381, R400) -/

/-- CAP_SET: 0 restores 3,200 W; 400 to 3,200 W. -/
def execCapSet (m : Nat) (tag : Byte) (body : List Byte) (s : State) : Res :=
  let v := bodyN body 0 2
  commandStep m 0x01 tag .ownerOrBaseboard
    (fun _ => body.length == 2 && (v == 0 || (decide (400 ≤ v) && decide (v ≤ 3200))))
    (fun s => .ok (s.modMgmt fun g => { g with capW := if v = 0 then 3200 else v })) s

/-- CAP_GET. -/
def execCapGet (m : Nat) (tag : Byte) (body : List Byte) (s : State) : Res :=
  commandStep m 0x02 tag .anyone (fun _ => body.isEmpty)
    (fun s => ⟨0, leBytes 2 s.mgmt.capW ++ leBytes 2 s.mgmt.meanW ++ leBytes 4 s.mgmt.capLimits.toNat, s⟩) s

/-- STATUS. -/
def execStatus (m : Nat) (tag : Byte) (body : List Byte) (s : State) : Res :=
  commandStep m 0x70 tag .anyone (fun _ => body.isEmpty) (fun s => ⟨0, s.report, s⟩) s

/-! ### Ownership (R395) -/

/-- Master `m` owns the device, with a lease in seconds. -/
def State.own (s : State) (m sec : Nat) : State :=
  s.modMgmt fun g => { g with
    own := .owned, owner := m, heir := 0xFF, leaseSec := sec, leaseEnd := s.clock + sec * 1000 * cyclesPerMs }

/-- Whether master `m` may claim the device. -/
def State.mayClaim (s : State) (m : Nat) : Bool :=
  match s.mgmt.own with
  | .unowned => true
  | .handover => s.mgmt.heir == m
  | _ => false

/-- CLAIM. -/
def execClaim (m : Nat) (tag : Byte) (body : List Byte) (s : State) : Res :=
  let p := bodyN body 0 2
  commandStep m 0x10 tag .anyone (fun _ => true)
    (fun s =>
      if !s.mayClaim m then ⟨1, [], s⟩
      else if body.length ≠ 2 ∨ p < 1 ∨ 600 < p then .bad s
      else .ok (s.own m p)) s

/-- RENEW. -/
def execRenew (m : Nat) (tag : Byte) (body : List Byte) (s : State) : Res :=
  commandStep m 0x11 tag .owner (fun _ => body.isEmpty) (fun s => .ok (s.own m s.mgmt.leaseSec)) s

/-- RELEASE. -/
def execRelease (m : Nat) (tag : Byte) (body : List Byte) (s : State) : Res :=
  commandStep m 0x12 tag .owner (fun _ => body.isEmpty) (fun s => .ok s.unown) s

/-- HANDOVER: to the heir for 10 s; 0xFF acts as RELEASE (DEDUCED, log entry 34). -/
def execHandover (m : Nat) (tag : Byte) (body : List Byte) (s : State) : Res :=
  let h := bodyN body 0 1
  commandStep m 0x13 tag .owner (fun _ => body.length == 1 && (decide (h < masters) || h == 0xFF))
    (fun s => .ok (if h = 0xFF then s.unown
      else (s.unown).modMgmt fun g => { g with own := .handover, heir := h, leaseEnd := s.clock + 10000 * cyclesPerMs })) s

/-- LEASE_EXPIRY: at a clock time, an owner whose lease is over has lapsed. -/
def execLeaseExpiry (time : Nat) (s : State) : Res :=
  let s := s.tick time
  .next (if s.mgmt.own = .owned ∧ s.filzanServes then s.settleOwner else s)

/-- HANDOVER_TIMEOUT: at a clock time, a handover whose 10 s are over has lapsed. -/
def execHandoverTimeout (time : Nat) (s : State) : Res :=
  let s := s.tick time
  .next (if s.mgmt.own = .handover ∧ s.filzanServes then s.settleOwner else s)

/-! ### Sessions (R394) -/

/-- The master that an endpoint's new session is given: 0 for the baseboard, else the one it has, else the lowest free. -/
def State.masterFor (s : State) (endpoint : Nat) : Option Nat :=
  if endpoint = 0 then some 0
  else
    match s.mgmt.sessions.find? fun p => p.2 == some endpoint with
    | some p => some p.1
    | none => ((List.range 63).map (· + 1)).find? fun m => (get none s.mgmt.sessions m).isNone

/-- A root certificate's hash stands in the platform trust store: in a slot as TRUST_SET has written it, or as it was before
(R394). -/
def Mgmt.trusts (m : Mgmt) (root : List Byte) : Bool :=
  (List.range 8).any fun i => (m.trust.lookup i).getD (Config.trustRoot i) == root

/-- An endpoint has a master's session: its queue pairs are that master's. -/
def Mgmt.startSession (g : Mgmt) (m endpoint : Nat) : Mgmt :=
  { g with
    sessions := set none m (some endpoint) g.sessions
    pairs := g.pairs.map fun p => (p.1, if p.2 = some (.endpoint endpoint) then some (.master m) else p.2) }

/-- A master's session ends, and its queue pairs with it (DESIGN CHOICE, log entry 62). -/
def Mgmt.endSession (g : Mgmt) (m : Nat) : Mgmt :=
  { g with
    sessions := drop m g.sessions
    pairs := g.pairs.filter fun p => p.2 != some (.master m)
    retries := g.retries.filter fun r => get none g.pairs r.1 != some (.master m) }

/-- SPDM_SESSION: an endpoint whose chain ends at a trusted root and that passes its authentication has a session; one that
fails is counted. -/
def execSpdmSession (endpoint : Nat) (passed : ChainProof) (time : Nat) (s : State) : Res :=
  let s := s.tick time
  .next (if !s.filzanServes || s.lockedOut endpoint then s
    else if !(passed.passed && s.mgmt.trusts passed.root) then s.authFailure endpoint
    else
      match s.masterFor endpoint with
      | some m => s.modMgmt fun g => g.startSession m endpoint
      | none => s)

/-- SESSION_END: the session's keys go; an owner's session takes the ownership with it (R395, R405). -/
def execSessionEnd (m : Nat) (s : State) : Res :=
  if masters ≤ m then .fault .noSuchPart
  else
    let s := s.modMgmt fun g => g.endSession m
    .next (if s.mgmt.own = .owned ∧ s.mgmt.owner = m ∧ s.filzanServes then s.unown else s)

/-- MEASUREMENT_RETRIEVAL: part of SPDM; an endpoint without a session is refused and counted
(DESIGN CHOICE, log entry 10). -/
def execMeasurementRetrieval (m : Nat) (s : State) : Res :=
  if masters ≤ m then .fault .noSuchPart
  else
    .next (if !s.filzanServes then s
      else
        match get none s.mgmt.sessions m with
        | some ep => if s.lockedOut ep then s.answer (.refusal (m != 0)) else s.answer (.measurement m)
        | none => (s.answer (.refusal (m != 0))).authFailure m)

/-- TRUST_SET. -/
def execTrustSet (m : Nat) (tag : Byte) (body : List Byte) (s : State) : Res :=
  let slot := bodyN body 0 1
  commandStep m 0x18 tag .trust (fun _ => body.length == 49 && decide (slot < 8))
    (fun s => .ok (s.modMgmt fun g => { g with trust := set [] slot (body.drop 1) g.trust })) s

/-! ### Domains (R387, R388) -/

/-- The descriptor of R387 as a domain. -/
def domainOf (ws : List Word) : Domain :=
  let w (i : Nat) : Word := nth 0 ws i
  { id := fieldN (w 0) 48 16, parent := fieldN (w 0) 32 16, dbg := bit (w 0) 9, sup := bit (w 0) 8, sigmask := field (w 0) 0 8
    root := fieldN (w 1) 0 48, scbase := w 2 &&& 0x00FFFFFFFFFFFFFF
    grants := (List.range (fieldN (w 3) 0 5)).map fun i => (fieldN (w (4 + i)) 32 32, fieldN (w (4 + i)) 0 32) }

/-- Reserved fields and alignments of a descriptor. -/
def domainFormOk (ws : List Word) : Bool :=
  let w (i : Nat) : Word := nth 0 ws i
  let n := fieldN (w 3) 0 5
  fieldN (w 0) 10 22 == 0 && fieldN (w 1) 48 16 == 0 && fieldN (w 2) 56 8 == 0 && fieldN (w 3) 5 59 == 0 &&
    decide (1 ≤ n) && decide (n ≤ 16) && decide (1 ≤ fieldN (w 0) 48 16) && fieldN (w 1) 0 11 == 0 && fieldN (w 2) 0 4 == 0

/-- A grant: at least one frame, no hole, nothing of Filzan's. -/
def grantOk (g : Nat × Nat) : Bool :=
  decide (1 ≤ g.2) && physRange (g.1 * 65536) (g.2 * 65536) && !meetsFilzan (g.1 * 65536) (g.2 * 65536)

/-- What DOMAIN_SET refuses with BAD_ARG (R387). -/
def State.domainOk (s : State) (ws : List Word) : Bool :=
  let d := domainOf ws
  let parentOk := d.parent == 0 || match s.domain? d.parent with
    | some p => p.sup
    | none => false
  domainFormOk ws && (s.domain? d.id).isNone && parentOk && d.grants.all grantOk && d.grantsRange d.root 1

/-- A grant covers a frame that holds a saved state (R457). -/
def State.coversSaved (s : State) (d : Domain) : Bool :=
  d.grants.any fun g => s.launches.any fun l => l.2.frames.any fun f => decide (g.1 < f.1 + f.2) && decide (f.1 < g.1 + g.2)

/-- DOMAIN_SET. -/
def execDomainSet (m : Nat) (tag : Byte) (body : List Byte) (s : State) : Res :=
  let ws := bytesToWords body
  commandStep m 0x20 tag .owner (fun s => body.length == 160 && s.domainOk ws)
    (fun s =>
      let d := domainOf ws
      if s.coversSaved d then .busy s else .ok (s.modMgmt fun g => { g with domains := g.domains ++ [d] })) s

/-- A domain is in use: by a launch, or by an enabled queue (R388) (DEDUCED, log entry 34). -/
def State.domainBusy (s : State) (dom : Nat) : Bool :=
  s.launches.any (fun l => l.2.dom == dom) || (List.range Config.queues).any fun q => (s.queue q).enabled && (s.queue q).dom == dom

/-- DOMAIN_CLEAR: with the domain go its translations, its fabric binding and its unlocking. -/
def execDomainClear (m : Nat) (tag : Byte) (body : List Byte) (s : State) : Res :=
  let dom := bodyN body 0 2
  commandStep m 0x21 tag .owner (fun s => body.length == 2 && (s.domain? dom).isSome)
    (fun s =>
      if s.domainBusy dom then .busy s
      else .ok ((s.invalidate (fun e => e.dom == dom) fun e => e.dom == dom).modMgmt fun g => { g with
        domains := g.domains.filter fun d => d.id != dom
        bindings := g.bindings.filter fun b => b.1 != dom
        unlocked := g.unlocked.filter fun d => d != dom })) s

/-! ### Host windows (R402) -/

/-- An R_Key that has not been given since reset: the device's choice, moved past those given. -/
def State.newKey (s : State) : BitVec 32 :=
  let k := Config.freeRKey s.freeCtr
  let tries := (List.range (s.mgmt.usedKeys.length + 1)).map fun i => k + BitVec.ofNat 32 i
  (tries.find? fun x => !s.mgmt.usedKeys.contains x).getD k

/-- WINDOW_SET's arguments. -/
def State.windowOk (s : State) (body : List Byte) : Bool :=
  let base := bodyN body 8 8
  let len := bodyN body 16 8
  (s.domain? (bodyN body 0 2)).isSome && decide (bodyN body 2 1 ≤ 1) && bodyZero body 3 5 && base % 65536 == 0 &&
    len % 65536 == 0 && decide (1 ≤ len) && decide (len ≤ 2 ^ 40) && decide (base + len ≤ 2 ^ 56)

/-- WINDOW_SET. -/
def execWindowSet (m : Nat) (tag : Byte) (body : List Byte) (s : State) : Res :=
  commandStep m 0x22 tag .owner (fun s => body.length == 32 && s.windowOk body)
    (fun s =>
      let k := s.newKey
      let x : Window := ⟨k, bodyN body 0 2, bodyN body 8 8, bodyN body 16 8, bodyN body 2 1 == 1,
        BitVec.ofNat 64 (bodyN body 24 8), 0⟩
      let s := s.modMgmt fun g => { g with windows := g.windows ++ [x], usedKeys := k :: g.usedKeys }
      ⟨0, leBytes 4 k.toNat, { s with freeCtr := s.freeCtr + 1 }⟩) s

/-- The window of an R_Key. -/
def State.window? (s : State) (rkey : Nat) : Option Window := s.mgmt.windows.find? fun w => w.rkey.toNat == rkey

/-- WINDOW_CLEAR. -/
def execWindowClear (m : Nat) (tag : Byte) (body : List Byte) (s : State) : Res :=
  let k := bodyN body 0 4
  commandStep m 0x23 tag .owner (fun s => body.length == 4 && (s.window? k).isSome)
    (fun s => .ok (s.modMgmt fun g => { g with windows := g.windows.filter fun w => w.rkey.toNat != k })) s

/-- Whether a master may read through a window (R396, R402). -/
def State.mayRead (s : State) (m : Nat) (w : Window) : Bool :=
  (s.mgmt.own == .owned && s.mgmt.owner == m) || (decide (m < 64) && bit w.readers m)

/-- A read of a window, each page checked as R392 gives (R402). -/
def State.readWindow (s : State) (w : Window) (off n : Nat) : Except AccErr (List Byte) :=
  (s.readGlobal (deviceClient w.dom) .hostRead (w.base + off) n).1

/-- MEM_READ: as an RDMA READ would; the NAK of an uncorrectable error is its answer (R438). -/
def execMemRead (m : Nat) (tag : Byte) (body : List Byte) (s : State) : Res :=
  let off := bodyN body 8 8
  let n := bodyN body 16 2
  if masters ≤ m then .fault .noSuchPart
  else
    let lost (s : State) : Bool :=
      match s.window? (bodyN body 0 4) with
      | some w => s.hears m && s.mayRead m w && decide (off + n ≤ w.len) &&
          match s.readWindow w off n with
          | .error e => e.code == cUncorrectable
          | .ok _ => false
      | none => false
    let ok := body.length == 18 && bodyZero body 4 4 && decide (1 ≤ n) && decide (n ≤ 4096)
    .next (if ok && lost s.settleOwner then s.settleOwner.answer (.rdmaError m)
      else s.command m 0x71 tag .anyone ok fun s =>
        match s.window? (bodyN body 0 4) with
        | none => .bad s
        | some w =>
          if !s.mayRead m w then ⟨1, [], s⟩
          else if w.len < off + n then .bad s
          else
            match s.readWindow w off n with
            | .ok bs => ⟨0, bs, s⟩
            | .error _ => .bad s)

/-! ### Queues, doorbells and kills (R350, R351, R360) -/

/-- A descriptor's reserved fields and limits (R350). -/
def queueDescOk (ws : List Word) (dom : Nat) : Bool :=
  let w (i : Nat) : Word := nth 0 ws i
  let n := fieldN (w 1) 16 16
  fieldN (w 0) 56 8 == 0 && fieldN (w 1) 32 16 == 0 && fieldN (w 1) 3 5 == 0 && w 7 == 0 && fieldN (w 0) 0 6 == 0 &&
    ((List.range 9).any fun i => n == 2 ^ (i + 4)) && fieldN (w 1) 8 8 != 0 && fieldN (w 1) 48 16 == dom && dom != 0

/-- QUEUE_SET: the descriptor is read in its domain; HEAD is as it stands there. -/
def execQueueSet (m : Nat) (tag : Byte) (body : List Byte) (s : State) : Res :=
  let q := bodyN body 0 1
  let dom := bodyN body 2 2
  let va := bodyN body 8 8
  let form := body.length == 16 && decide (q < Config.queues) && bodyZero body 1 1 && bodyZero body 4 4 && va % 64 == 0 &&
    decide (va < 2 ^ 56)
  commandStep m 0x30 tag .owner (fun _ => form)
    (fun s =>
      match s.deviceRead dom va 64 with
      | .error _ => .bad s
      | .ok bs =>
        let ws := bytesToWords bs
        if !queueDescOk ws dom then .bad s
        else .ok (s.setQueue q { s.queue q with
          enabled := true, dom := dom, va := BitVec.ofNat 64 va, desc := ws.take 3, head := field (nth 0 ws 3) 0 32 })) s

/-- QUEUE_CLEAR: queued launches stay queued, unselectable. -/
def execQueueClear (m : Nat) (tag : Byte) (body : List Byte) (s : State) : Res :=
  let q := bodyN body 0 1
  commandStep m 0x31 tag .owner (fun _ => body.length == 1 && decide (q < Config.queues))
    (fun s => .ok (s.setQueue q { s.queue q with enabled := false })) s

/-- DOORBELL: as SYS.QBELL. -/
def execDoorbell (m : Nat) (tag : Byte) (body : List Byte) (s : State) : Res :=
  let q := bodyN body 0 1
  commandStep m 0x32 tag .owner (fun _ => body.length == 1 && decide (q < Config.queues)) (fun s => .ok (s.doorbell q)) s

/-- The launch of a record of a domain. -/
def State.launchAt (s : State) (dom va : Nat) : Option Nat :=
  (s.launches.find? fun p => p.2.dom == dom && p.2.va.toNat == va).map Prod.fst

/-- KILL. -/
def execKill (m : Nat) (tag : Byte) (body : List Byte) (s : State) : Res :=
  commandStep m 0x33 tag .owner (fun _ => body.length == 16 && bodyZero body 2 6 && bodyN body 0 2 != 0)
    (fun s =>
      match s.launchAt (bodyN body 0 2) (bodyN body 8 8) with
      | some l => .ok ((s.killAny l 4 cKilled).openRegions (bodyN body 0 2))
      | none => .bad s) s

/-! ### Keys (R405) -/

/-- KEY_LOAD. -/
def execKeyLoad (m : Nat) (tag : Byte) (body : List Byte) (s : State) : Res :=
  let slot := bodyN body 0 1
  commandStep m 0x40 tag .owner (fun _ => body.length == 97 && decide (slot < 8))
    (fun s => .ok (s.modMgmt fun g => { g with keys := set [] slot (body.drop 1) g.keys })) s

/-- KEY_CLEAR. -/
def execKeyClear (m : Nat) (tag : Byte) (body : List Byte) (s : State) : Res :=
  let slot := bodyN body 0 1
  commandStep m 0x41 tag .owner (fun _ => body.length == 1 && decide (slot < 8))
    (fun s => .ok (s.modMgmt fun g => { g with keys := drop slot g.keys })) s

/-! ### The fabric (R403, R404, R442) -/

/-- The endpoint number under which a port's peer is counted. -/
def peerEndpoint (port : Nat) : Nat := 2 ^ 32 + port

/-- A port has joined: its registers count from now. -/
def Mgmt.joined (m : Mgmt) (admission : List Byte) (g p : Nat) : Mgmt :=
  m.setPort p { state := .inGroup, lanes := 0xF, group := g, keyed := true, admission := admission }

/-- What the far end of a port is (R403): the fabric and the package that it names, whether it proves its key and the
admission value, and whether the link trains at all. -/
structure Peer where
  fabric : BitVec 32
  package : Nat
  proves : Bool
  trains : Bool
  deriving DecidableEq, Repr

/-- The far end of a port as it presents itself: its affair, a free value (DESIGN CHOICE, log entry 11). -/
def State.drawPeer (s : State) : Peer × State :=
  let (v, s) := s.drawFree
  (⟨field v 0 32, fieldN v 32 10, bit v 42, bit v 43⟩, s)

/-- A peer passes the authentication of a join (R403). -/
def Peer.passes (p : Peer) (fabric : BitVec 32) (pkg : Nat) : Bool := p.fabric == fabric && p.package != pkg && p.proves

/-- The peers of ports, drawn one by one. -/
def State.drawPeers (s : State) : List Nat → List (Nat × Peer) × State
  | [] => ([], s)
  | p :: ps =>
    let (x, s) := s.drawPeer
    let (xs, s) := s.drawPeers ps
    ((p, x) :: xs, s)

/-- The ports of a FABRIC_JOIN after training: those whose peers passed are one group under the lowest of them, whose peer names
the package at its far end; the others
stay down, and those whose peer failed its authentication count as failures (DEDUCED, log entry 35). -/
def State.join (s : State) (fabric : BitVec 32) (pkg : Nat) (admission : List Byte) (ports : List Nat) : State :=
  let (peers, s) := (s.portsDown ports).drawPeers ports
  let passed (q : Nat × Peer) : Bool := q.2.passes fabric pkg && !s.lockedOut (peerEndpoint q.1)
  let joined := peers.filter fun q => q.2.trains && passed q
  let good := joined.map Prod.fst
  let bad := (peers.filter fun q => q.2.trains && !passed q).map Prod.fst
  let g := good.headD 0
  let s := s.modMgmt fun m =>
    let m := good.foldl (fun m p => m.joined admission g p) m
    let m := { m with
      fabricId := fabric, package := pkg
      joinFail := ports.foldl (fun x p => setField x p 1 (if bad.contains p then 1 else 0)) m.joinFail }
    if good.isEmpty then m else (m.setGroup g { ports := good, peer := (joined.head?.map fun q => q.2.package).getD 0, delivered := s.clock }).widen g
  (bad.foldl (fun s p => s.authFailure (peerEndpoint p)) s).sendAll

/-- FABRIC_JOIN. -/
def execFabricJoin (m : Nat) (tag : Byte) (body : List Byte) (s : State) : Res :=
  let ports := maskList (BitVec.ofNat 48 (bodyN body 8 6))
  let form := body.length == 48 && decide (bodyN body 4 2 ≤ 1023) && bodyZero body 6 2 && bodyZero body 14 2 &&
    (ports.length == 1 || ports.length == 2 || ports.length == 4)
  commandStep m 0x50 tag .owner (fun _ => form)
    (fun s => .ok (s.join (BitVec.ofNat 32 (bodyN body 0 4)) (bodyN body 4 2) ((body.drop 16).take 32) ports)) s

/-- FABRIC_LEAVE. -/
def execFabricLeave (m : Nat) (tag : Byte) (body : List Byte) (s : State) : Res :=
  commandStep m 0x51 tag .owner (fun _ => body.length == 6)
    (fun s => .ok (s.portsDown (maskList (BitVec.ofNat 48 (bodyN body 0 6))))) s

/-- FABRIC_BIND: at most one group for a domain and one domain for a group. -/
def execFabricBind (m : Nat) (tag : Byte) (body : List Byte) (s : State) : Res :=
  let dom := bodyN body 0 2
  let grp := bodyN body 2 2
  commandStep m 0x52 tag .owner
    (fun s => body.length == 4 && (s.domain? dom).isSome && s.mgmt.bindings.all fun b => (b.1 == dom) == (b.2 == grp))
    (fun s => .ok (s.modMgmt fun g =>
      { g with bindings := if g.bindings.contains (dom, grp) then g.bindings else g.bindings ++ [(dom, grp)] })) s

/-! ### Debug unlock (R407) and the health log (R400) -/

/-- DEBUG_UNLOCK: refused for a domain with DBG = 0, which is a level-1 event. -/
def execDebugUnlock (m : Nat) (tag : Byte) (body : List Byte) (s : State) : Res :=
  let dom := bodyN body 0 2
  commandStep m 0x60 tag .owner (fun s => body.length == 2 && (s.domain? dom).isSome)
    (fun s =>
      match s.domain? dom with
      | some d =>
        if d.dbg then .ok (s.modMgmt fun g => { g with unlocked := if g.unlocked.contains dom then g.unlocked else dom :: g.unlocked })
        else .bad (s.levelOne .debugUnlock)
      | none => .bad s) s

/-- DEBUG_LOCK. -/
def execDebugLock (m : Nat) (tag : Byte) (body : List Byte) (s : State) : Res :=
  let dom := bodyN body 0 2
  commandStep m 0x61 tag .owner (fun s => body.length == 2 && (s.domain? dom).isSome)
    (fun s => .ok (s.lockDomains fun d => d == dom)) s

/-- Kind, core or port, cell or lane, and unit of a health-log entry (R400). -/
def unitBytes : ErrUnit → Nat × Nat × Nat × Nat
  | .towerBank c cell layer bank => (0, c, cell, if bank = 8 then 64 + layer else layer * 8 + bank)
  | .cellUnit c cell n => (1, c, cell, n)
  | .cmemWord c w => (2, c, 0, w)
  | .relayLane p l => (3, p, l, 0)

/-- A health-log entry's 16 bytes (R400). -/
def HealthEntry.bytes (e : HealthEntry) : List Byte :=
  let u := unitBytes e.unit
  leBytes 8 e.time ++ leBytes 1 u.1 ++ leBytes 1 (if e.lasting then 1 else 0) ++ leBytes 1 u.2.1 ++ leBytes 1 u.2.2.1 ++
    leBytes 2 u.2.2.2 ++ leBytes 1 e.action ++ [0]

/-- HEALTH_READ: the entries still held from the first index given, up to the count. -/
def execHealthRead (m : Nat) (tag : Byte) (body : List Byte) (s : State) : Res :=
  let i := bodyN body 0 2
  let n := bodyN body 2 2
  commandStep m 0x74 tag .owner (fun _ => body.length == 4 && decide (1 ≤ n) && decide (n ≤ 255))
    (fun s =>
      let oldest := s.mgmt.healthNext - s.mgmt.health.length
      let es := ((indexed oldest s.mgmt.health).filter fun p => decide (i ≤ p.1)).take n
      ⟨0, leBytes 8 es.length ++ (es.map fun p => p.2.bytes).flatten, s⟩) s

end Sys2Proof.Machine
end

