-- ==== Sys2Proof/Machine/Debug.lean ====
section
/-! DEFINITION. The debugger: halting, resuming and stepping a context, and reading and writing its state (R139, R232, R379,
R407, R427 to R431, R436, R438). -/

namespace Sys2Proof.Machine

/-! ### Target words (R428) -/

/-- A target word's fields. -/
structure Target where
  space : Nat
  core : Nat
  ctx : Nat
  cell : Nat
  index : Nat
  deriving DecidableEq, Repr

/-- The fields of a target word. -/
def targetOf (w : Word) : Target := ⟨fieldN w 56 8, fieldN w 49 7, fieldN w 47 2, fieldN w 39 8, fieldN w 0 39⟩

/-- Bytes of a target; none for a SPACE or INDEX that the table does not give. -/
def Target.bytes (t : Target) : Option Nat :=
  let upTo (n len : Nat) : Option Nat := if t.index < n then some len else none
  match t.space with
  | 0x01 => upTo 69 8
  | 0x02 => if t.index % 8 = 0 then upTo 1024 8 else none
  | 0x03 => if sysKnown t.index then some 8 else none
  | 0x10 => upTo 32 32
  | 0x11 => upTo 8 2
  | 0x12 => if t.index < 32 then some 128 else upTo 34 1
  | 0x13 => upTo 1024 32
  | 0x14 => upTo 4 80
  | 0x15 => upTo 4 80
  | 0x16 => upTo 40 40
  | 0x17 => upTo 8 64
  | _ => none

/-- A launch's core whose domain is unlocked (R407, R427). -/
def State.unlockedCore (s : State) (c : Nat) : Bool :=
  match s.launchOf c with
  | some (_, l) => s.mgmt.unlocked.contains l.dom
  | none => false

/-- The context that holds a cell's squad. -/
def Core.holderOf (k : Core) (cell : Nat) : Option Nat := (List.range 4).find? fun n => bit (k.ctx n).sqm (squadOf cell)

/-- Whether the context that a target needs to be halted is (R428). -/
def State.targetHalted (s : State) (t : Target) : Bool :=
  let k := s.core t.core
  if t.space = 0x03 then true
  else if t.space < 0x10 ∨ t.space = 0x17 then (k.ctx t.ctx).halted
  else
    match k.holderOf t.cell with
    | some n => (k.ctx n).halted
    | none => false

/-! ### Bytes of the spaces -/

/-- A fragment as bytes: 64 of data, then valid, format, fragment number in two bytes, and scales (DESIGN CHOICE, log entry 30). -/
def fragBytes (valid : Bool) (v : FragVal) : List Byte :=
  (leBytes 64 v.bits.toNat ++ leBytes 1 (if valid then 1 else 0) ++ leBytes 1 v.fmt ++ leBytes 2 v.num ++
    (v.scales.map fun n => BitVec.ofNat 8 n) ++ List.replicate 12 0).take 80

/-- A fragment read back from bytes; as many scales as its format has. -/
def fragOf (bs : List Byte) : FragVal :=
  let fmt := (nth 0 bs 65).toNat
  { bits := BitVec.ofNat 512 (leNat (bs.take 64)), fmt := fmt, num := leNat ((bs.drop 66).take 2)
    scales := ((bs.drop 68).take (2 * (blockHalves fmt).length)).map fun b => b.toNat }

/-- An express entry's bytes: as a latch, then its channel and whether it was forwarded. -/
def expressBytes : Option Express → List Byte
  | none => List.replicate 80 0
  | some e => (fragBytes true e.val).take 78 ++ leBytes 1 e.chan ++ leBytes 1 (if e.forwarded then 1 else 0)

/-- A landing entry's bytes: value, then its destination, 0 to 31 for v and 32 to 39 for m, and REM. -/
def landingBytes (vt : Nat) : Option CellLanding → List Byte
  | none => List.replicate 40 0
  | some e =>
    leBytes 32 e.val.toNat ++ leBytes 1 (if e.isMask then 32 + e.idx else e.idx) ++ leBytes 1 (e.due - vt) ++ List.replicate 6 0

/-- The predicates as one byte. -/
def Ctx.predByte (x : Ctx) : Nat := (List.range 8).foldl (fun n i => if x.preg i then n + 2 ^ i else n) 0

/-- Elements of an accumulator row as bytes. -/
def Acc.rowBytes (a : Acc) (r : Nat) : List Byte := ((List.range 32).map fun j => leBytes 4 (a.at_ (32 * r + j)).toNat).flatten

/-- A tag's code. -/
def AccTag.code : AccTag → Nat
  | .empty => 0
  | .fp => 1
  | .int => 2

/-- A tag's code read back. -/
def accTagOf : Nat → AccTag
  | 0 => .empty
  | 1 => .fp
  | _ => .int

/-- The entries of a cell's landing queue that belong to the level that is frozen, and the others. -/
def Cell.landsAt (x : Cell) (level : Nat) : List CellLanding := x.land.filter fun e => e.level == level

/-- The bad data that a debugger read of a target meets, as the errors of the core name it (R438). -/
def State.targetBad (s : State) (t : Target) : Option BadAt :=
  let k := s.core t.core
  let x := k.cell t.cell
  let reg (n : Nat) (word : Nat → Bool) : Option BadAt :=
    if x.bad.any fun b => b.1 == n && word b.2 then some ⟨3, t.cell, n, 0⟩ else none
  match t.space with
  | 0x10 => reg t.index fun _ => true
  | 0x11 => reg (32 + t.index) fun _ => true
  | 0x12 => reg (40 + t.index / 16) fun w => w / 32 == t.index % 16
  | 0x13 => if (k.tower t.cell).uncorrectable t.index then some ⟨0, t.cell, t.index, 0⟩ else none
  | 0x14 => if !(get {} x.latch t.index).val.bad.isEmpty then some ⟨3, t.cell, 42 + t.index, 0⟩ else none
  | 0x15 => if x.rx[t.index]?.any fun e => !e.val.bad.isEmpty then some ⟨3, t.cell, 46, 0⟩ else none
  | _ => none

/-- What a debugger access meets in the way of power states and bad data: a status other than OK (R430, R438). -/
def State.targetStatus (s : State) (t : Target) (isRead : Bool) : Nat :=
  let k := s.core t.core
  if t.space = 0x10 ∧ (k.cell t.cell).group (t.index / 8) = .gated then 0x08
  else if t.space = 0x13 ∧ (k.tower t.cell).layer (rowLayer t.index) = .off then 0x07
  else if isRead ∧ (s.targetBad t).isSome then 0x0A else 0

/-- A read that returns no data counts the bad data that it met (R438, R439). -/
def State.targetMeets (s : State) (t : Target) (status : Nat) : State :=
  match s.targetBad t with
  | some b => if status = 0x0A then s.setCore t.core ((s.core t.core).countUncorr b s.clock) else s
  | none => s

/-- A drowsy group that a debugger access wakes stays ON (R139, R430). -/
def Core.wakeGroup (k : Core) (t : Target) : Core :=
  let x := k.cell t.cell
  let g := t.index / 8
  if t.space = 0x10 ∧ x.group g = .drowsy then
    k.setCell t.cell { x.setGroup g .on with groupWakes := x.groupWakes.filter fun w => w != g }
  else k

/-- The bytes of a target (R428). -/
def State.targetRead (s : State) (t : Target) : List Byte :=
  let k := s.core t.core
  let c := k.ctx t.ctx
  let x := k.cell t.cell
  let holder := k.ctx ((k.holderOf t.cell).getD 0)
  match t.space with
  | 0x01 =>
    leBytes 8 (if t.index < 64 then (c.greg t.index).toNat else if t.index = 64 then c.predByte else (c.lapReg (t.index - 65)).toNat)
  | 0x02 => leBytes 8 (nth 0 (s.frozenWords t.core t.ctx) (t.index / 8)).toNat
  | 0x03 =>
    leBytes 8 (if 0x040 ≤ t.index ∧ t.index ≤ 0x04F then get 0 x.rgn (t.index - 0x040)
      else s.sysValue t.core t.ctx t.index).toNat
  | 0x10 => leBytes 32 (x.vreg t.index).toNat
  | 0x11 => leBytes 2 (x.mreg t.index).toNat
  | 0x12 =>
    let a (n : Nat) : Acc := if n = 0 then x.a0 else x.a1
    if t.index < 32 then (a (t.index / 16)).rowBytes (t.index % 16) else leBytes 1 (a (t.index - 32)).tag.code
  | 0x13 => leBytes 32 (k.towerRow t.cell t.index).toNat
  | 0x14 =>
    let l := get {} x.latch t.index
    fragBytes l.valid l.val
  | 0x15 => expressBytes x.rx[t.index]?
  | 0x16 => landingBytes holder.vt (x.landsAt holder.depth)[t.index]?
  | _ =>
    match (c.streams.filter fun st => st.level == c.depth)[t.index / 2]? with
    | some st => leBytes 64 (get 0 st.cap (2 * t.cell + t.index % 2)).toNat
    | none => List.replicate 64 0

/-! ### Writes (R429) -/

/-- Write an element range of an accumulator, also where an earlier view of it is kept (R171). -/
def Cell.mapAcc (x : Cell) (a : Nat) (f : Acc → Acc) : Cell :=
  let x := { x with past := x.past.map fun (p : AccPast) => if p.which = a then { p with before := f p.before } else p }
  if a = 0 then { x with a0 := f x.a0 } else { x with a1 := f x.a1 }

/-- An accumulator row from bytes. -/
def Acc.setRow (a : Acc) (r : Nat) (bs : List Byte) : Acc :=
  { a with el := (List.range 32).foldl (fun m j => set 0 (32 * r + j) (BitVec.ofNat 32 (leNat ((bs.drop (4 * j)).take 4))) m) a.el }

/-- A debugger's write of a system register: what a SYSW may write, one cell's entry for a per-cell register; a doorbell
holds no state. -/
def State.debugSysw (s : State) (t : Target) (v : Word) : State :=
  let k := s.core t.core
  if 0x040 ≤ t.index ∧ t.index ≤ 0x04F then
    let x := k.cell t.cell
    s.setCore t.core (k.setCell t.cell { x with rgn := set 0 (t.index - 0x040) (v &&& rgnMask) x.rgn })
  else if t.index = 0x2C0 then s
  else if t.index = 0x2C1 then { s with starter := { s.starter with stcfg := v &&& 0xFFFF } }
  else s.syswEffect t.core t.ctx t.index v

/-- A landing entry rewritten. -/
def landingOf (vt : Nat) (e : CellLanding) (bs : List Byte) : CellLanding :=
  let d := (nth 0 bs 32).toNat
  { e with val := BitVec.ofNat 256 (leNat (bs.take 32)), isMask := decide (32 ≤ d), idx := if 32 ≤ d then d % 8 else d
           due := vt + (nth 0 bs 33).toNat }

/-- Replace the `i`-th entry of a level. -/
def replaceAt (level : Nat) (f : CellLanding → CellLanding) : Nat → List CellLanding → List CellLanding
  | _, [] => []
  | i, e :: es =>
    if e.level = level then
      match i with
      | 0 => f e :: es
      | j + 1 => e :: replaceAt level f j es
    else e :: replaceAt level f i es

/-- Whether the bytes name something that the target can take. -/
def State.targetTakes (s : State) (t : Target) (bs : List Byte) : Bool :=
  let k := s.core t.core
  let c := k.ctx t.ctx
  let x := k.cell t.cell
  match t.space with
  | 0x03 =>
    match s.syswCause t.core t.ctx t.index (BitVec.ofNat 64 (leNat bs)) with
    | some z => z.code == cPrivilege
    | none => true
  | 0x12 => decide (t.index < 32) || decide ((nth 0 bs 0).toNat < 3)
  | 0x15 => decide (t.index < x.rx.length)
  | 0x16 =>
    let holder := k.ctx ((k.holderOf t.cell).getD 0)
    decide (t.index < (x.landsAt holder.depth).length) && decide ((nth 0 bs 32).toNat < 40)
  | 0x17 => decide (t.index / 2 < (c.streams.filter fun st => st.level == c.depth).length)
  | _ => true

/-- Write a target (R428, R429) (DESIGN CHOICE, log entry 30). -/
def State.targetWrite (s : State) (t : Target) (bs : List Byte) : State :=
  let k := s.core t.core
  let c := k.ctx t.ctx
  let x := k.cell t.cell
  let v := leNat bs
  let ctx (y : Ctx) : State := s.setCtxAt t.core t.ctx y
  let cell (y : Cell) : State := s.setCore t.core (k.setCell t.cell y)
  let holder := k.ctx ((k.holderOf t.cell).getD 0)
  match t.space with
  | 0x01 =>
    ctx (if t.index < 64 then c.writeReg .g t.index (BitVec.ofNat 64 v)
      else if t.index = 64 then (List.range 8).foldl (fun y i => y.writeReg .p i (predWord (v / 2 ^ i % 2 == 1))) c
      else c.writeReg .lap (t.index - 65) (BitVec.ofNat 64 v))
  | 0x02 => ctx { c with dbgRec := setNth (s.frozenWords t.core t.ctx) (t.index / 8) (BitVec.ofNat 64 v) }
  | 0x03 => s.debugSysw t (BitVec.ofNat 64 v)
  | 0x10 => cell ((x.setV t.index (BitVec.ofNat 256 v)).mend t.index fun _ => true)
  | 0x11 => cell ((x.setM t.index (BitVec.ofNat 16 v)).mend (32 + t.index) fun _ => true)
  | 0x12 =>
    if t.index < 32 then
      cell ((x.mapAcc (t.index / 16) fun a => a.setRow (t.index % 16) bs).mend (40 + t.index / 16) fun w => w / 32 == t.index % 16)
    else cell (x.mapAcc (t.index - 32) fun a => { a with tag := accTagOf v })
  | 0x13 => s.setCore t.core (k.writeRow s.clock t.cell t.index (BitVec.ofNat 256 v) (BitVec.allOnes 256))
  | 0x14 => cell { x with latch := set {} t.index ⟨fragOf bs, (nth 0 bs 64) != 0⟩ x.latch }
  | 0x15 =>
    if nth 0 bs 64 = 0 then cell { x with rx := x.rx.eraseIdx t.index }
    else cell { x with rx := setNth x.rx t.index ⟨(nth 0 bs 78).toNat, nth 0 bs 79 != 0, fragOf bs⟩ }
  | 0x16 => cell { x with land := replaceAt holder.depth (fun e => landingOf holder.vt e bs) t.index x.land }
  | _ =>
    match (c.streams.filter fun st => st.level == c.depth)[t.index / 2]? with
    | none => s
    | some st =>
      let st' := { st with cap := set 0 (2 * t.cell + t.index % 2) (BitVec.ofNat 512 v) st.cap }
      ctx { c with streams := c.streams.map fun u => if u = st then st' else u }

/-- A read leaves what reads leave: a tower row served is touched (R234), a drowsy group woken. A read of an RC system register
clears nothing: R10's read that clears is a program's SYSR (DESIGN CHOICE, log entry 57). -/
def State.targetTouch (s : State) (t : Target) : State :=
  let k := (s.core t.core).wakeGroup t
  s.setCore t.core (if t.space = 0x13 then k.serveRow s.clock t.cell t.index else k)

/-! ### Commands (R427, R431) -/

/-- The core and context that a two-byte body names; none where bits [15:9] are not zero. -/
def ctxOfBody (body : List Byte) : Option (Nat × Nat) :=
  let v := bodyN body 0 2
  if body.length = 2 ∧ v < 512 then some (v % 128, v / 128) else none

/-- A context of an unlocked launch that has been started. -/
def State.debuggable (s : State) (body : List Byte) : Bool :=
  match ctxOfBody body with
  | some (c, k) => s.unlockedCore c && (s.ctxAt c k).run != .idle
  | none => false

/-- A halt that its context meets later: during a rail change it is latched, in order with the causes that are (R379); where
a cause of R413 comes first at the boundary, the context halts after that trap. -/
def State.haltWaits (s : State) (c k : Nat) : Bool :=
  let x := s.ctxAt c k
  x.active && ((s.cluster (clusterOf c)).switching ||
    (s.coreRuns c && x.depth == 0 && (x.nextPending.isSome || (s.stepsCause c k false).isSome)))

/-- A halt is on its way to a context; its answer waits. -/
def State.haltLater (s : State) (c k m : Nat) (tag : Byte) : State :=
  let s := if (s.cluster (clusterOf c)).switching then s.pendCause c k ⟨cHalt, 0, none, 0, false, false⟩
    else s.modCtxAt c k fun x => { x with haltReq := true }
  s.modMgmt fun g => { g with halts := g.halts ++ [(c, k, m, tag)] }

/-- DBG_HALT: the context stands at a bundle boundary and halts, or does when the halt reaches it; it is answered then. -/
def execDbgHalt (m : Nat) (tag : Byte) (body : List Byte) (s : State) : Res :=
  let (c, k) := (ctxOfBody body).getD (0, 0)
  if masters ≤ m then .fault .noSuchPart
  else
    let t := s.settleOwner
    if t.hears m && t.allows .owner m && t.debuggable body && t.haltWaits c k then .next (t.haltLater c k m tag)
    else
      .next (s.command m 0x62 tag .owner (s.debuggable body) fun s => .ok (s.halt c k))

/-- DBG_RESUME: refused with BAD_ARG where the frozen state fails the checks of R420. -/
def execDbgResume (m : Nat) (tag : Byte) (body : List Byte) (s : State) : Res :=
  let (c, k) := (ctxOfBody body).getD (0, 0)
  commandStep m 0x63 tag .owner (fun s => s.debuggable body)
    (fun s =>
      if !(s.ctxAt c k).halted then ⟨9, [], s⟩
      else
        match s.dbgResume c k with
        | some t => .ok t
        | none => .bad s) s

/-- DBG_STEP: a resume that halts again after one bundle. -/
def execDbgStep (m : Nat) (tag : Byte) (body : List Byte) (s : State) : Res :=
  let (c, k) := (ctxOfBody body).getD (0, 0)
  commandStep m 0x64 tag .owner (fun s => s.debuggable body)
    (fun s =>
      if !(s.ctxAt c k).halted then ⟨9, [], s⟩
      else
        match s.dbgResume c k with
        | some t => .ok (t.modCtxAt c k fun x => { x with stepReq := true })
        | none => .bad s) s

/-- DBG_READ. -/
def execDbgRead (m : Nat) (tag : Byte) (body : List Byte) (s : State) : Res :=
  let t := targetOf (BitVec.ofNat 64 (bodyN body 0 8))
  commandStep m 0x65 tag .owner (fun s => body.length == 8 && s.unlockedCore t.core && t.bytes.isSome)
    (fun s =>
      if !s.targetHalted t then ⟨9, [], s⟩
      else
        let st := s.targetStatus t true
        if st ≠ 0 then ⟨st, [], s.targetMeets t st⟩ else ⟨0, s.targetRead t, s.targetTouch t⟩) s

/-- DBG_WRITE. -/
def execDbgWrite (m : Nat) (tag : Byte) (body : List Byte) (s : State) : Res :=
  let t := targetOf (BitVec.ofNat 64 (bodyN body 0 8))
  let bs := body.drop 8
  commandStep m 0x66 tag .owner
    (fun s => decide (8 ≤ body.length) && s.unlockedCore t.core && t.bytes == some bs.length)
    (fun s =>
      if !s.targetHalted t then ⟨9, [], s⟩
      else
        let st := s.targetStatus t false
        if st ≠ 0 then ⟨st, [], s⟩
        else if !s.targetTakes t bs then .bad s
        else .ok ((s.setCore t.core ((s.core t.core).wakeGroup t)).targetWrite t bs)) s

end Sys2Proof.Machine
end

