-- ==== Sys2Proof/Machine/Dump.lean ====
section
/-! DEFINITION. The dump area: its slots, headers and sections, and the commands that read and clear it (R445 to R447). A
header has at most 254 section entries: types 2 to 4 have one for each core where that many fit, and otherwise one section
of a type holds every core it shows, one core after another, each core from a new 4 KiB unit (DESIGN CHOICE, log entry 31). -/

namespace Sys2Proof.Machine

/-! ### Sections -/

/-- Units of 4 KiB that a core takes in a section of a type. -/
def sectionUnits : Nat → Nat
  | 1 => 4
  | 2 => 64
  | 3 => 462
  | 4 => 2185
  | _ => 1

/-- The cores that a dump shows in a type, in order; types 6 and 7 are of no core. -/
def Dump.shown (d : Dump) (type : Nat) : List Nat :=
  if type = 4 ∧ d.kind = 1 then [d.origin] else if 6 ≤ type then [] else d.cores.map Prod.fst

/-- The types that a dump holds: 6 and 7 in a device dump only (R446). -/
def Dump.types (d : Dump) : List Nat := if d.kind = 0 then [1, 2, 3, 4, 5, 6, 7] else [1, 2, 3, 4, 5]

/-- Types 2 to 4 have a section for each core, every other type one: there are at most 254 entries then. -/
def Dump.split (d : Dump) : Bool :=
  decide ((d.shown 2).length + (d.shown 3).length + (d.shown 4).length + (d.types.length - 3) ≤ 254)

/-- The sections of a dump, each with its type and cores. -/
def Dump.sections (d : Dump) : List (Nat × List Nat) :=
  (d.types.map fun t =>
    if d.split && 2 ≤ t && t ≤ 4 then (d.shown t).map fun c => (t, [c]) else [(t, d.shown t)]).flatten

/-- Bytes rounded up to whole units, one at least. -/
def unitsFor (bytes : Nat) : Nat := max 1 ((bytes + 4095) / 4096)

/-- Length of a section in units. -/
def Dump.length (d : Dump) (p : Nat × List Nat) : Nat :=
  match p.1 with
  | 6 => unitsFor d.judges.length
  | 7 => unitsFor d.starter.length
  | t => p.2.length * sectionUnits t

/-- Sections with their offsets, in units from the slot's base: the header is the first. -/
def Dump.offsets (d : Dump) : List ((Nat × List Nat) × Nat) :=
  (d.sections.foldl (fun (acc : List ((Nat × List Nat) × Nat) × Nat) t => (acc.1 ++ [(t, acc.2)], acc.2 + d.length t)) ([], 1)).1

/-- The header's words (R446): MAGIC is 0 in a slot that is cleared. -/
def Dump.header (d : Dump) : List Nat :=
  let secs := d.offsets
  [((if d.valid then 0x504D5544 else 0) <<< 32) + (d.kind <<< 24) + (d.fatal <<< 16) + d.cause.toNat, d.seq, d.time, secs.length] ++
    (secs.map fun p => [(p.1.1 <<< 56) + (p.1.2.headD 0 <<< 49), (p.2 <<< 32) + d.length p.1]).flatten

/-- The per-context registers of R337, in order. -/
def ctxSysNumbers : List Nat :=
  [0x001, 0x002, 0x011, 0x012, 0x020, 0x024, 0x030, 0x031, 0x032, 0x033, 0x034] ++ (List.range 16).map (0x060 + ·) ++
    (List.range 16).map (0x080 + ·) ++ (List.range 8).map (0x0A0 + ·) ++ [0x0B8, 0x0B9] ++ (List.range 8).map (0x200 + ·) ++
    [0x280, 0x2E1, 0x2E4]

/-- Type 1 for a context: the layout of R414, then g, p, lap and the system registers, eight bytes each. -/
def State.dumpCtx (s : State) (c k : Nat) : List Byte :=
  let x := s.ctxAt c k
  let ws := (s.frozenWords c k).map fun w => w.toNat
  let regs := (List.range 64).map (fun n => (x.greg n).toNat) ++ [x.predByte] ++ (List.range 4).map fun n => (x.lapReg n).toNat
  ((ws ++ regs ++ ctxSysNumbers.map fun n => (s.sysValue c k n).toNat).map (leBytes 8)).flatten

/-- Type 3 for a cell: the spaces of R428 from registers to landing entries, in their order. -/
def Cell.dump (x : Cell) (vt level : Nat) : List Byte :=
  ((List.range 32).map fun n => leBytes 32 (x.vreg n).toNat).flatten ++ ((List.range 8).map fun n => leBytes 2 (x.mreg n).toNat).flatten ++
    ((List.range 16).map x.a0.rowBytes).flatten ++ ((List.range 16).map x.a1.rowBytes).flatten ++
    leBytes 1 x.a0.tag.code ++ leBytes 1 x.a1.tag.code ++
    ((List.range 4).map fun n => fragBytes (get {} x.latch n).valid (get {} x.latch n).val).flatten ++
    ((List.range 4).map fun n => expressBytes x.rx[n]?).flatten ++
    ((List.range 40).map fun n => landingBytes vt (x.landsAt level)[n]?).flatten

/-- Bytes of a cell in type 3. -/
def cellBytes : Nat := 7378

/-- Type 4's towers of a core: the 256 own ones, then the spares. -/
def Core.dumpTower (k : Core) (n : Nat) : Tower := if n < 256 then (k.cell n).tower else k.spare (n - 256)

/-- A row that is shown as zero and flagged: its layer is OFF or it cannot be read. -/
def Tower.hidden (t : Tower) (r : Nat) : Bool := t.layer (rowLayer r) == .off || t.uncorrectable r

/-- A byte of type 4: a bit for each row of each tower, then the rows. -/
def Core.dumpTowerByte (k : Core) (o : Nat) : Byte :=
  if o < 34816 then
    BitVec.ofNat 8 ((List.range 8).foldl (fun n i =>
      if (k.dumpTower ((8 * o + i) / 1024)).hidden ((8 * o + i) % 1024) then n + 2 ^ i else n) 0)
  else
    let q := o - 34816
    let t := k.dumpTower (q / 32768)
    let r := q / 32 % 1024
    if 272 ≤ q / 32768 ∨ t.hidden r then 0 else nth 0 (leBytes 32 (t.row r).toNat) (q % 32)

/-- Type 5 of a core: event queue, SYS.EVSTAT, SYS.ERRCNT, remap table. -/
def Core.dumpEvents (k : Core) : List Byte :=
  (fitTo 128 ((k.evq.map fun r => [r.1.toNat, r.2.toNat]).flatten) ++ [k.evstat.toNat, k.errcnt.toNat] ++
    (List.range 256).map (fun n => (k.remapWord n).toNat)).map (leBytes 8) |>.flatten

/-! ### Types 6 and 7 (R446; their layout is a DESIGN CHOICE, log entry 31) -/

/-- A launch's judge table and station table: eight-byte words, then the station bytes, the summary codes, the counts and
the announced frontiers. -/
def judgeDump (l : Nat) (g : Graph) : List Byte :=
  (([l, g.id, g.start, g.stations, g.fwbase.toNat, (if g.cross then 1 else 0), g.resv, g.auth, g.state, g.cause.toNat, g.dropped.toNat,
      g.ignored.toNat, g.cancelUnit, g.stn.length, g.table.length, g.counts.length, g.front.length]).map (leBytes 8)).flatten ++
    g.stn ++ (g.table.map fun x => leBytes 2 x.toNat).flatten ++
    (g.counts.map fun p => leBytes 8 p.1.1 ++ leBytes 8 p.1.2.toNat ++ leBytes 8 (BitVec.ofInt 64 p.2).toNat).flatten ++
    (g.front.map fun p => leBytes 8 p.1 ++ leBytes 8 p.2.toNat).flatten

/-- Type 6: the judge tables of every launch. -/
def State.judgeBytes (s : State) : List Byte :=
  (s.launches.map fun p => match p.2.graph with
    | some g => judgeDump p.1 g
    | none => []).flatten

/-- A starter queue's words, then its launches, head first. -/
def queueDump (q : Queue) : List Byte :=
  (([if q.enabled then 1 else 0, q.dom, q.va.toNat, (nth 0 q.desc 0).toNat, (nth 0 q.desc 1).toNat, (nth 0 q.desc 2).toNat, q.head.toNat,
      q.boost, q.skips, q.stamp, q.list.length] ++ q.list).map (leBytes 8)).flatten

/-- A launch's number and the two STATUS words of its record, zero where its page does not give them. -/
def State.statusDump (s : State) (l : Nat) (x : Launch) : List Byte :=
  leBytes 8 l ++ match (s.readGlobal (deviceClient x.dom) .read (x.va.toNat + 0x48) 16).1 with
    | .ok bs => bs
    | .error _ => List.replicate 16 0

/-- Type 7: the starter's queues, the launches' STATUS words and the health log. -/
def State.starterBytes (s : State) : List Byte :=
  ((List.range Config.queues).map fun q => queueDump (s.queue q)).flatten ++
    (s.launches.map fun p => s.statusDump p.1 p.2).flatten ++ (s.mgmt.health.map HealthEntry.bytes).flatten

/-- The byte at an offset of a core's part of a section. -/
def State.dumpByte (s : State) (d : Dump) (type c o : Nat) : Byte :=
  let k := s.core c
  match type with
  | 1 => if o / 4096 < 4 then nth 0 (s.dumpCtx c (o / 4096)) (o % 4096) else 0
  | 2 => readByte k.cmem o
  | 3 =>
    let n := o / cellBytes
    let holder := k.ctx ((k.holderOf n).getD 0)
    if n < 256 then nth 0 ((k.cell n).dump holder.vt holder.depth) (o % cellBytes) else 0
  | 4 => k.dumpTowerByte o
  | 5 => nth 0 k.dumpEvents o
  | 6 => nth 0 d.judges o
  | 7 => nth 0 d.starter o
  | _ => 0

/-- The byte at an offset of a slot. -/
def State.slotByte (s : State) (d : Dump) (o : Nat) : Byte :=
  if o < 4096 then nth 0 ((d.header.map (leBytes 8)).flatten) o
  else
    let u := o / 4096
    let then_ : State := { s with cores := d.cores, launches := d.launches }
    match d.offsets.find? fun p => decide (p.2 ≤ u) && decide (u < p.2 + d.length p.1) with
    | none => 0
    | some ((t, cs), start) =>
      let part := (if 6 ≤ t then d.length (t, cs) else sectionUnits t) * 4096
      then_.dumpByte d t (nth 0 cs ((o - start * 4096) / part)) ((o - start * 4096) % part)

/-- Size of a slot (R446). -/
def slotSize (slot : Nat) : Nat := if slot = 0 then 0x60000000 else 0x30000000

/-! ### Writing the device dump (R445) -/

/-- The device dump: every core as it stands at the freeze. -/
def State.deviceDump (s : State) (fatal : Nat) : State :=
  let d : Dump := { valid := true, kind := 0, fatal := fatal, seq := s.mgmt.dumpSeq, time := s.clock / 1024
                    cores := (List.range Config.cores).map (fun c => (c, s.core c)), launches := s.launches
                    judges := s.judgeBytes, starter := s.starterBytes }
  s.modMgmt fun m => { m with dumps := set {} 0 d m.dumps, dumpSeq := m.dumpSeq + 1 }

/-! ### Commands (R447) -/

/-- DUMP_READ. -/
def execDumpRead (m : Nat) (tag : Byte) (body : List Byte) (s : State) : Res :=
  let slot := bodyN body 0 1
  let off := bodyN body 8 8
  let n := bodyN body 16 2
  commandStep m 0x72 tag .owner
    (fun _ => body.length == 18 && decide (slot < 3) && bodyZero body 1 7 && decide (1 ≤ n) && decide (n ≤ 4096) &&
      decide (off + n ≤ slotSize slot))
    (fun s => ⟨0, (List.range n).map fun i => s.slotByte (get {} s.mgmt.dumps slot) (off + i), s⟩) s

/-- DUMP_CLEAR: MAGIC is 0 from now. -/
def execDumpClear (m : Nat) (tag : Byte) (body : List Byte) (s : State) : Res :=
  let slot := bodyN body 0 1
  commandStep m 0x73 tag .owner (fun _ => body.length == 1 && decide (slot < 3))
    (fun s => .ok (s.modMgmt fun g => { g with dumps := set {} slot { get {} g.dumps slot with valid := false } g.dumps })) s

end Sys2Proof.Machine
end

