-- ==== Sys2Proof/Machine/Errors.lean ====
section
/-! DEFINITION. Fatal errors, Filzan's watchdog, and the device's reset (R395, R405, R441, R445 to R447). -/

namespace Sys2Proof.Machine

/-! ### Fatal errors (R445) -/

/-- FATAL of the dump header (R446). -/
def fatalCode : FatalKind → Nat
  | .judge => 1
  | .hubState => 2
  | .keyStore => 3
  | .landingBuffer => 4
  | .filzanMemory => 5
  | .hubLasting => 7

/-- STATUS state 6 with cause KILLED for a launch whose page still takes it. -/
def State.lastStatus (s : State) (x : Launch) : State :=
  let w : Nat := (6 <<< 56) + cKilled.toNat
  (s.deviceWrite x.dom (x.va.toNat + 0x48) (leBytes 8 w)).getD s

/-- The device's end on a fatal error, in the order of R445: contexts freeze, ports go down, the device dump and the
STATUS words are written. -/
def State.fatalEnd (s : State) (code : Nat) : State :=
  let s := s.modMgmt fun m => { m with fatal := true }
  let s := s.portsDown (List.range Config.ports)
  let s := s.deviceDump code
  s.launches.foldl (fun s p => s.lastStatus p.2) s

/-- FATAL_ERROR. -/
def execFatalError (kind : FatalKind) (time : Nat) (s : State) : Res := .next ((s.tick time).fatalEnd (fatalCode kind))

/-- FILZAN_WATCHDOG_FAIL. -/
def execFilzanWatchdogFail (time : Nat) (s : State) : Res := .next ((s.tick time).fatalEnd 6)

/-! ### Reset (R395, R399, R405, R441, R447) -/

/-- Dump slots whose MAGIC is valid. -/
def keptDumps (m : SMap Dump) : SMap Dump := m.filter fun p => p.2.valid

/-- The device after a reset: every register at its reset value; memory as it stood (DESIGN CHOICE, log entry 2), the trust store, the
dumps, the dump number since manufacture, and what is outside the device. A withdrawn core stays so where its self-test
fails again (DEDUCED, log entry 36). -/
def State.afterReset (s : State) (verified : Bool) (fails : Nat → Bool) : State :=
  { State.reset with
    cores := ((List.range Config.cores).filter fun c => (s.core c).withdrawn && fails c).map fun c => (c, { withdrawn := true })
    mem := s.mem, badMem := s.badMem, agenda := s.agenda, answers := s.answers, freeCtr := s.freeCtr
    mgmt := { trust := s.mgmt.trust, dumps := keptDumps s.mgmt.dumps, dumpSeq := s.mgmt.dumpSeq, bootFail := !verified } }

/-- POWER_ON_RESET: a reset input; whether the firmware's check passes and which withdrawn cores fail their test again are
the input's. -/
def execPowerOnReset (verified : Bool) (failedCores : List Nat) (s : State) : Res :=
  .next (s.afterReset verified failedCores.contains)

/-- Reset by command: the firmware check's and the self-tests' outcomes are free values (R399, R405) (DESIGN CHOICE, log entry
11). -/
def State.commandReset (s : State) : State :=
  let (v, s) := s.drawFree
  let (w, s) := s.drawFree
  let (f, s) := s.drawFree
  s.afterReset (bit f 0) fun c => if c < 64 then bit v c else bit w (c - 64)

/-- RESET: after the response. -/
def execReset (m : Nat) (tag : Byte) (body : List Byte) (s : State) : Res :=
  if masters ≤ m then .fault .noSuchPart
  else
    let t := s.settleOwner
    let takes := !t.mgmt.bootFail && decide (t.mgmt.alarmLevel < 2) && t.allows .owner m && body.isEmpty &&
      match get none t.mgmt.sessions m with
      | some ep => !t.lockedOut ep
      | none => false
    let u := s.command m 0x7E tag .owner body.isEmpty fun s => .ok s
    .next (if takes then u.commandReset else u)

end Sys2Proof.Machine
end

