-- ==== Sys2Proof/Machine/Attach.lean ====
section
/-! DEFINITION. The host attachment: commands in SENDs, RDMA writes and reads (R271, R272, R398, R401, R402, R438). -/

namespace Sys2Proof.Machine

/-! ### Commands over Ethernet (R398, R401) -/

/-- The meaning of a command code for a master; none for a code that is not assigned. -/
def commandOf (m : Nat) (code : Nat) (tag : Byte) (body : List Byte) : Option (State → Res) :=
  match code with
  | 0x01 => some (execCapSet m tag body)
  | 0x02 => some (execCapGet m tag body)
  | 0x10 => some (execClaim m tag body)
  | 0x11 => some (execRenew m tag body)
  | 0x12 => some (execRelease m tag body)
  | 0x13 => some (execHandover m tag body)
  | 0x18 => some (execTrustSet m tag body)
  | 0x20 => some (execDomainSet m tag body)
  | 0x21 => some (execDomainClear m tag body)
  | 0x22 => some (execWindowSet m tag body)
  | 0x23 => some (execWindowClear m tag body)
  | 0x30 => some (execQueueSet m tag body)
  | 0x31 => some (execQueueClear m tag body)
  | 0x32 => some (execDoorbell m tag body)
  | 0x33 => some (execKill m tag body)
  | 0x40 => some (execKeyLoad m tag body)
  | 0x41 => some (execKeyClear m tag body)
  | 0x50 => some (execFabricJoin m tag body)
  | 0x51 => some (execFabricLeave m tag body)
  | 0x52 => some (execFabricBind m tag body)
  | 0x60 => some (execDebugUnlock m tag body)
  | 0x61 => some (execDebugLock m tag body)
  | 0x62 => some (execDbgHalt m tag body)
  | 0x63 => some (execDbgResume m tag body)
  | 0x64 => some (execDbgStep m tag body)
  | 0x65 => some (execDbgRead m tag body)
  | 0x66 => some (execDbgWrite m tag body)
  | 0x70 => some (execStatus m tag body)
  | 0x71 => some (execMemRead m tag body)
  | 0x72 => some (execDumpRead m tag body)
  | 0x73 => some (execDumpClear m tag body)
  | 0x74 => some (execHealthRead m tag body)
  | 0x7E => some (execReset m tag body)
  | _ => none

/-- A host endpoint's master. -/
def State.masterOf (s : State) (endpoint : Nat) : Option Nat :=
  (s.mgmt.sessions.find? fun p => p.2 == some endpoint && p.1 != 0).map Prod.fst

/-- Master number shown in the answer to an endpoint that is no master. -/
def noMaster : Nat := 0xFF

/-! ### Queue pairs (R401, R402) -/

/-- Queue pairs of the device. -/
def queuePairs : Nat := 1024

/-- The host of a SEND: its endpoint's master, or the endpoint. -/
def State.peerOf (s : State) (endpoint : Nat) : HostPeer :=
  match s.masterOf endpoint with
  | some m => .master m
  | none => .endpoint endpoint

/-- A queue pair waits for a write to be sent again, and this is another operation: it is out of sequence (R402). -/
def Mgmt.outOfOrder (g : Mgmt) (qp : Nat) (w : Option (Nat × Nat × List Byte)) : Bool :=
  match get none g.retries qp with
  | some r => some r != w
  | none => false

/-- A host's operation may come on a queue pair: it is the host's, or it is free and becomes the host's with an operation that is
supported (R15; DESIGN CHOICE, log entry 62). After an RNR NAK nothing of a queue pair is taken before the write is sent again
(R401, R402). -/
def State.pairTakes (s : State) (p : HostPeer) (qp : Nat) (w : Option (Nat × Nat × List Byte)) : Bool :=
  ((get none s.mgmt.pairs qp).all fun q => q == p) && !s.mgmt.outOfOrder qp w

/-- A queue pair is a host's. -/
def State.connect (s : State) (p : HostPeer) (qp : Nat) : State :=
  if get none s.mgmt.pairs qp = some p then s else s.modMgmt fun g => { g with pairs := set none qp (some p) g.pairs }

/-- An operation on a queue pair. -/
def State.onPair (s : State) (p : HostPeer) (qp : Nat) (w : Option (Nat × Nat × List Byte)) (go : State → Res) : Res :=
  if queuePairs ≤ qp then .fault .noSuchPart
  else if s.pairTakes p qp w then go (s.connect p qp) else .next s

/-- A command of an endpoint without a session: answered as Filzan's state lets it, and a failure of its authentication. -/
def State.strangerSend (s : State) (endpoint : Nat) (msg : List Byte) : State :=
  let code := bodyN msg 0 1
  let tag := nth 0 msg 1
  let plain := msg.length == 4 && bodyN msg 2 2 == 0
  if s.mgmt.bootFail then s.command noMaster code tag .anyone plain Reply.ok
  else if s.mgmt.fatal && !answeredFatal code then s
  else if s.mgmt.alarmLevel = 2 then
    (if code = 0x70 then s.reply noMaster code tag (if plain then 0 else 2) (if plain then s.report else [])
      else if code = 0x10 then s.reply noMaster code tag 6 [] else s)
  else (s.reply noMaster code tag 4 []).authFailure endpoint

/-- HOST_COMMAND_SEND: the bytes of a SEND as a command (R398). Too short a message, or one whose length field does not
count its body, is refused with BAD_ARG; a code that is not assigned with UNSUPPORTED, and leaves a free queue pair free
(R15; DEDUCED, log entry 33). -/
def execHostCommandSend (q : QueuePair) (msg : List Byte) (s : State) : Res :=
  s.onPair (s.peerOf q.peer) q.number none fun t =>
    let code := bodyN msg 0 1
    let tag := nth 0 msg 1
    match t.masterOf q.peer with
    | none => .next (t.strangerSend q.peer msg)
    | some m =>
      if msg.length < 4 ∨ bodyN msg 2 2 ≠ msg.length - 4 then .next (t.command m code tag .anyone false Reply.ok)
      else
        match commandOf m code tag (msg.drop 4) with
        | some go => go t
        | none => .next (s.command m code tag .anyone true fun s => ⟨5, [], s⟩)

/-- UNSUPPORTED_OPTION: an error response of the interface and no change of the device (R15): UNSUPPORTED to a command code
over I3C that is not assigned (R398), a NAK for an invalid request to a queue pair (R401), or the interface's refusal. -/
def execUnsupportedOption (path : UnsupportedPath) (code : Nat) (s : State) : Res :=
  match path with
  | .option overHost => .next (if s.filzanServes then s.answer (.refusal overHost) else s)
  | .request m qp =>
    if masters ≤ m ∨ queuePairs ≤ qp then .fault .noSuchPart
    else .next (if s.pairTakes (.master m) qp none && s.filzanServes then s.answer (.rdmaInvalid m qp) else s)
  | .command tag =>
    .next (if (commandOf 0 code tag []).isSome then s
      else s.command 0 code tag .anyone true fun s => ⟨5, [], s⟩)

/-! ### RDMA (R271, R272, R402) -/

/-- Bytes held in the ingress buffer. -/
def State.ingressBytes (s : State) : Nat := (s.ingress.map fun w => w.data.length).foldl (· + ·) 0

/-- Size of the ingress buffer. -/
def ingressSize : Nat := 4194304

/-- Every page of a range of a window passes R392. -/
def State.windowPasses (s : State) (w : Window) (need : Need) (off n : Nat) : Bool :=
  match (s.translateAll (deviceClient w.dom).acc need (pieces (w.base + off) n)).1 with
  | .ok _ => true
  | .error _ => false

/-- Queue an accepted write; where no launch owns its region it is applied as it is queued (R272)
(DEDUCED, log entry 43). -/
def State.queueWrite (s : State) (w : Window) (off : Nat) (data : List Byte) : State :=
  let t : State := { s with ingress := s.ingress ++ [⟨w.rkey, w.dom, BitVec.ofNat 64 (w.base + off), data⟩] }
  t.openRegions w.dom

/-- Keep, or forget, the write that a queue pair has to send again. -/
def State.retry (s : State) (qp : Nat) (w : Option (Nat × Nat × List Byte)) : State :=
  s.modMgmt fun g => { g with retries := set none qp w g.retries }

/-- A write through a window: queued, answered with RNR NAK where it does not fit, or refused with a NAK for a remote access
error (R402). -/
def State.hostWrite (s : State) (m qp rkey offset : Nat) (data : List Byte) : State :=
  match s.window? rkey with
  | none => (s.retry qp none).answer (.rdmaNak m)
  | some w =>
    if s.hears m && s.allows .owner m && w.write && decide (offset + data.length ≤ w.len) &&
        s.windowPasses w .hostWrite offset data.length then
      if ingressSize < s.ingressBytes + data.length then (s.retry qp (some (rkey, offset, data))).answer (.rdmaRnr m qp)
      else ((s.retry qp none).queueWrite w offset data).answer (.rdmaAck m qp)
    else (s.retry qp none).answer (.rdmaNak m)

/-- Nothing is taken over RDMA: the firmware check failed, a fatal error froze the device, or the alarm is at level 2. -/
def State.rdmaClosed (s : State) : Bool := s.mgmt.bootFail || s.mgmt.fatal || decide (2 ≤ s.mgmt.alarmLevel)

/-- RDMA_WRITE on a queue pair (R401, R402). -/
def execRdmaWrite (m qp rkey offset : Nat) (data : List Byte) (s : State) : Res :=
  if masters ≤ m then .fault .noSuchPart
  else s.onPair (.master m) qp (some (rkey, offset, data)) fun s =>
    .next (if s.rdmaClosed then s else s.settleOwner.hostWrite m qp rkey offset data)

/-- A read through a window: the bytes, a NAK for a remote access error, or a remote operational error for data that cannot be
read (R402, R438). -/
def State.hostRead (s : State) (m rkey offset len : Nat) : State :=
  match s.window? rkey with
  | none => s.answer (.rdmaNak m)
  | some w =>
    if s.hears m && s.mayRead m w && decide (offset + len ≤ w.len) then
      match s.readWindow w offset len with
      | .ok bs => s.answer (.rdmaData m bs)
      | .error e => s.answer (if e.code = cUncorrectable then .rdmaError m else .rdmaNak m)
    else s.answer (.rdmaNak m)

/-- RDMA_READ on a queue pair. -/
def execRdmaRead (q : QueuePair) (rkey offset len : Nat) (s : State) : Res :=
  if masters ≤ q.peer then .fault .noSuchPart
  else s.onPair (.master q.peer) q.number none fun s =>
    .next (if s.rdmaClosed then s else s.settleOwner.hostRead q.peer rkey offset len)

end Sys2Proof.Machine
end

