-- ==== Sys2Proof/Machine/Auto.lean ====
section
/-! DEFINITION. What the device does next (log entries 4 and 6): a guard or a refresh that is due; else the next occurrence of
the agenda; else the first of the device's own steps that would change it, in a fixed order; else the turn of the next core. -/

namespace Sys2Proof.Machine

/-! ### The device's own steps that may be due -/

/-- Cells whose tower may have a wake: those listed, or all where a spare serves. -/
def Core.cellNums (k : Core) : List Nat := if k.spares.isEmpty then k.cells.map Prod.fst else List.range Config.cells

/-- Wakes that end. -/
def Core.wakeEvents (c : Nat) (k : Core) : List Instr :=
  (k.cellNums.map fun n => (k.tower n).wakes.map fun w => Instr.layerWakeDone c n w.layer).flatten ++
    (k.cells.map fun p => p.2.groupWakes.map fun g => Instr.groupWakeDone c p.1 g).flatten

/-- What an engine context does next. -/
def engineEvent (c e : Nat) (x : Engine) : List Instr :=
  match x.run with
  | some r =>
    if !r.rows.isEmpty then [.columnRowWrite c e]
    else if !r.over then [.linkLost c e]
    else if r.err.isSome then [.copyOpError c e] else [.copyOpComplete c e]
  | none => if x.queue.isEmpty then [] else [.copyOpStart c e]

/-- A context's judge queue and its retirement. -/
def ctxEvents (c k : Nat) (x : Ctx) : List Instr :=
  (if x.judgeQ.isEmpty || x.judgeSent then [] else [.judgeApply c k]) ++ (if x.run = .stopped then [.contextRetire c k] else [])

/-- What may be due on a core. -/
def Core.events (c : Nat) (k : Core) : List Instr :=
  k.wakeEvents c ++ (k.engines.map fun p => engineEvent c p.1 p.2).flatten ++
    (if k.gather.isEmpty then [] else [.gatherRowFill c]) ++ (k.ctxs.map fun p => ctxEvents c p.1 p.2).flatten ++
    (if 4096 ≤ k.held then [.issueSlotTimeout c] else [])

/-- What may be due of a launch. -/
def State.launchEvents (s : State) (l : Nat) (x : Launch) : List Instr :=
  let cancel := match x.graph with
    | some g => if g.cancelReq.isSome then [Instr.graphCancel l] else []
    | none => []
  let watch := if s.clock = 0 then [] else [Instr.watchdogExpiry l s.clock, .watchdogKill l s.clock]
  cancel ++ watch ++ match x.phase with
    | .queued => []
    | .placed => [.goSignal l]
    | .running => if s.retires l x then [.launchRetire l] else []
    | .draining _ =>
      (if s.retires l x then [.launchRetire l] else []) ++
        (if (s.ctxsOf x).all fun q => s.ctxDrained q.1 q.2 then [.drainDone l] else [])
    | .checkpointing => (if s.retires l x then [.launchRetire l] else []) ++ [.checkpointDone l]
    | .killing .. => [.killComplete l]
    | .failing _ z => [.placementFail l z.toNat]

/-- The guard and the refreshes that clock time has made due, guards first (R236, R239). No group is of an age that calls for
either in the first three milliseconds. -/
def State.keepEvents (s : State) : List Instr :=
  if s.clock < 3 * cyclesPerMs then []
  else
    (s.cores.map fun p => ((p.2.ctxs.map Prod.fst).filter fun k => !(s.guardRisk p.1 k).isEmpty).map
      fun k => Instr.retentionGuard p.1 k s.clock).flatten ++
    (s.cores.map fun p => ((List.range Config.cells).map fun n => ((List.range 72).filter (s.refreshDue p.1 n)).map
      fun g => Instr.refresh p.1 n g).flatten).flatten

/-- What may be due in the device: deliveries, cores, launches, the slice, rail changes, ports. -/
def State.dueEvents (s : State) : List Instr :=
  (indexed 0 s.express).map (fun p => .expressArrival p.1) ++ (s.cores.map fun p => p.2.events p.1).flatten ++
    (indexed 0 s.xputs).map (fun p => .xputDelivery p.1) ++ (indexed 0 s.batons).map (fun p => .batonDelivery p.1) ++
    (s.launches.map fun p => s.launchEvents p.1 p.2).flatten ++
    (if s.starter.sliceEnd ≤ s.clock then [.sliceBoundary s.clock] else []) ++
    ((s.clusters.filter fun p => p.2.switching).map fun p => .railChangeEnd p.1) ++
    ((s.mgmt.ports.filter fun p => s.mayRejoin p.1).map fun p => .portRejoin p.1)

/-- A step would change the device. -/
def changes (ex : Instr → State → Res) (s : State) (i : Instr) : Bool :=
  match ex i s with
  | .next t => decide (t ≠ s)
  | _ => false

/-! ### Turns of the cores -/

/-- The core after `c` that holds a launch, in rising order and round again. -/
def State.nextCore (s : State) (c : Nat) : Nat :=
  let held := (s.cores.filter fun p => p.2.launch.isSome).map Prod.fst
  match held.find? fun d => decide (c < d) with
  | some d => d
  | none => held.headD c

/-- The turn of the core whose turn it is. -/
def State.turnEvent (s : State) : Instr := .bundleFetch s.turn.core (s.core s.turn.core).holder

/-- What the device does next of itself (DESIGN CHOICE, log entry 6). -/
def State.ownEvent (ex : Instr → State → Res) (s : State) : Instr := (s.dueEvents.find? (changes ex s)).getD s.turnEvent

/-- After a core's own turn the next core has its turn. -/
def State.rotate (s : State) : State := { s with turn := ⟨s.nextCore s.turn.core, 0, 0⟩ }

/-- One occurrence: it is carried out, and with a fetch the bundle that issued. -/
def occur (ex : Instr → State → Res) (i : Instr) (s : State) : Res :=
  match ex i s with
  | .next t => runBundle ex t
  | r => r

/-- A command's master. -/
def commandMaster : Instr → Option Nat
  | .capSet m _ _ => some m
  | .capGet m _ _ => some m
  | .claim m _ _ => some m
  | .renew m _ _ => some m
  | .release m _ _ => some m
  | .handover m _ _ => some m
  | .trustSet m _ _ => some m
  | .domainSet m _ _ => some m
  | .domainClear m _ _ => some m
  | .windowSet m _ _ => some m
  | .windowClear m _ _ => some m
  | .queueSet m _ _ => some m
  | .queueClear m _ _ => some m
  | .doorbell m _ _ => some m
  | .kill m _ _ => some m
  | .keyLoad m _ _ => some m
  | .keyClear m _ _ => some m
  | .fabricJoin m _ _ => some m
  | .fabricLeave m _ _ => some m
  | .fabricBind m _ _ => some m
  | .debugUnlock m _ _ => some m
  | .debugLock m _ _ => some m
  | .status m _ _ => some m
  | .memRead m _ _ => some m
  | .dumpRead m _ _ => some m
  | .dumpClear m _ _ => some m
  | .healthRead m _ _ => some m
  | .reset m _ _ => some m
  | .dbgHalt m _ _ => some m
  | .dbgResume m _ _ => some m
  | .dbgStep m _ _ => some m
  | .dbgRead m _ _ => some m
  | .dbgWrite m _ _ => some m
  | _ => none

/-- Which of commands that arrive together is taken first: I3C's, whose master is 0, and then the lower master (R398); none
for what is no command. A SEND is its endpoint's master's. -/
def State.commander (s : State) (i : Instr) : Option Nat :=
  match i with
  | .hostCommandSend q _ => some ((s.masterOf q.peer).getD masters)
  | .unsupportedOption (.command _) _ => some 0
  | _ => commandMaster i

/-- The place of the first command with the least master. -/
def firstOf : List (Nat × Option Nat) → Option (Nat × Nat)
  | [] => none
  | (n, m) :: xs =>
    match m, firstOf xs with
    | none, r => r
    | some a, none => some (n, a)
    | some a, some (j, b) => if a ≤ b then some (n, a) else some (j, b)

/-- The place in the agenda of the next occurrence: its head, or of commands that arrive together the first to be taken. -/
def State.nextPlace (s : State) : Nat :=
  match s.agenda.head?.bind s.commander with
  | none => 0
  | some _ => ((firstOf ((indexed 0 (s.agenda.take s.together)).map fun p => (p.1, s.commander p.2))).map Prod.fst).getD 0

/-- The guard or the refresh that clock time has made due. -/
def State.keepNext (ex : Instr → State → Res) (s : State) : Option Instr := s.keepEvents.find? (changes ex s)

/-- An occurrence of the agenda is over, unless it would take the clock past a moment at which a tower calls for a refresh or
for the guard: then the clock goes to that moment first, and the occurrence is still to come. -/
def State.unlessKept (s : State) : Res → Res
  | .next t =>
    if t.clock ≤ s.clock then .next t
    else
      match s.nextKeep with
      | some d => .next (if d ≤ t.clock then s.tick d else t)
      | none => .next t
  | r => r

/-- One step of the device, its instructions run by `ex`: what keeps the towers comes before all else (R236, R239). -/
def stepWith (ex : Instr → State → Res) (s : State) : Res :=
  match s.keepNext ex with
  | some i => occur ex i s
  | none =>
    match s.agenda[s.nextPlace]? with
    | some i => s.unlessKept (occur ex i { s with agenda := s.agenda.eraseIdx s.nextPlace, together := s.together - 1 })
    | none =>
      match occur ex (s.ownEvent ex) s with
      | .next t => .next (if s.ownEvent ex = s.turnEvent then t.rotate else t)
      | r => r

/-! ### A program in place (DESIGN CHOICE, log entry 3) -/

/-- A launch of one core and one context that runs, as after its placement and go. -/
def probeLaunch : Launch :=
  { words := [0, 0, 0, 0x400100, 0, 0, 0x3FF000000, 0, 0, 0], va := 0, dom := 0, queue := 0, priv := 1, phase := .running, cores := [0] }

/-- Halfwords of a literal bundle: the escape and then the bundle, low halfword first (R39). -/
def literalHalfwords (w : BitVec 384) : List Nat := 0xFFFF :: (List.range 24).map fun i => fieldN w (16 * i) 16

/-- A core that holds the launch, with a literal bundle as the whole of its code stream. -/
def Core.withBundle (k : Core) (w : BitVec 384) : Core :=
  { k with
    launch := some 0, slot := 0, streamN := 25, bitmap := set false 0 true [], holder := 0, held := 0
    cmem := writeBytes k.cmem 0 ((literalHalfwords w).map (leBytes 2)).flatten
    ctxs := [(0, startCtx probeLaunch none 0 0 0)] }

/-- The state with a bundle as the program of core 0, context 0, next to be fetched. -/
def State.withBundle (s : State) (w : BitVec 384) : State :=
  ({ s with launches := [(0, probeLaunch)], agenda := [], together := 0, turn := {} }).setCore 0 ((s.core 0).withBundle w)

end Sys2Proof.Machine
end

