-- ==== Sys2Proof/Machine/Landings.lean ====
section
/-! DEFINITION. The parts of a virtual cycle as steps of their own (R68, R133, R143, R179, R181, R194), what arrives in
clock time in a cell (R187), the publication of an advance (R94), the entry of a pending trap (R417) and the ends of wakes
and power changes (R139, R232, R334). A part of a cycle acts only where the context's cycle would pass, and a cycle that
finds a part done does not do it again. -/

namespace Sys2Proof.Machine

/-- Whether a core and a context exist. -/
def isCtx (c k : Nat) : Bool := decide (c < Config.cores) && decide (k < Config.contexts)

/-- Whether the context's present virtual cycle would pass (R66, R375). -/
def State.passes (s : State) (c k : Nat) : Bool :=
  s.coreRuns c && (s.ctxAt c k).active &&
    match s.turnOf c k with
    | .passed _ n => s.mayCharge c n
    | _ => false

/-- A step that concerns a context: a stop where it does not exist, no change where its time has not come. -/
def ctxStep (c k : Nat) (ready : Bool) (s t : State) : Res :=
  if isCtx c k then .next (if ready then t else s) else .fault .noSuchPart

/-! ### Landings and stream steps -/

/-- RESULT_LANDING: the scalar results due land (R68). -/
def execResultLanding (c k : Nat) (s : State) : Res :=
  ctxStep c k (s.passes c k) s (s.modCtxAt c k Ctx.landDue)

/-- What is performed of a cycle before it passes is charged with it (R374). -/
def State.owe (s : State) (c k n : Nat) : State := s.modCtxAt c k fun x => { x with owed := x.owed + n }

/-- The landings in the cells, charged with their cycle. -/
def State.landOwed (s : State) (c k : Nat) : State :=
  (s.setCore c ((s.core c).landCells s.clock (s.ctxAt c k))).owe c k ((s.core c).landCharge (s.ctxAt c k))

/-- CELL_RESULT_LANDING: the cell results and tower writes due land (R133, R136). -/
def execCellResultLanding (c k : Nat) (s : State) : Res := ctxStep c k (s.passes c k) s (s.landOwed c k)

/-- Whether stream `n` of a context has a step due, of a kind. -/
def Ctx.stepDue (x : Ctx) (n : Nat) (kind : StreamKind → Bool) : Option Stream :=
  match x.streams[n]? with
  | some st =>
    if kind st.kind && st.level == x.depth && decide (0 < st.left) && decide (st.start + st.done ≤ x.vt) then some st else none
  | none => none

/-- Perform the step of stream `n` that is due, after the landings of its cycle. -/
def State.oneStep (s : State) (c k n : Nat) (st : Stream) : State :=
  let s := (s.modCtxAt c k Ctx.landDue).landOwed c k
  let before := (s.ctxAt c k).streams.take n |>.filter fun b => b.level == st.level
  let r := (s.owe c k st.stepCharge).laterStep c k st before (stepOf st)
  r.1.modCtxAt c k fun x => { x with streams := x.streams.set n r.2 }

/-- The step of stream `n`, if it is due and the cycle passes. -/
def State.streamStep (s : State) (c k n : Nat) (kind : StreamKind → Bool) : State :=
  match (s.ctxAt c k).stepDue n kind with
  | some st => if s.passes c k then s.oneStep c k n st else s
  | none => s

/-- MMA_STEP: a step of a matrix stream (R179). -/
def execMmaStep (c k n : Nat) (s : State) : Res :=
  ctxStep c k true s (s.streamStep c k n fun q => q == .mma)

/-- STREAM_ROW_READ: the rows that a TLDM, MLOAD or lattice read is due to read (R143, R194, R212). -/
def execStreamRowRead (c k n : Nat) (s : State) : Res :=
  ctxStep c k true s (s.streamStep c k n fun q => q != .mma)

/-- The update of an MLOAD in its cycle, after the landings. -/
def State.mloadNow (s : State) (c k n : Nat) : State :=
  let x := s.ctxAt c k
  match x.streams[n]? with
  | some st =>
    if st.level == x.depth && st.loadsAt x.vt && s.passes c k then
      let t := (s.modCtxAt c k Ctx.landDue).landOwed c k
      (t.setCore c (performMload (t.core c) st)).modCtxAt c k fun x => { x with streams := x.streams.set n { st with loaded := true } }
    else s
  | none => s

/-- MLOAD_PERFORM (R194). -/
def execMloadPerform (c k n : Nat) (s : State) : Res := ctxStep c k true s (s.mloadNow c k n)

/-- The fragments due arrive in a cell's latches. -/
def Cell.landFrags (x : Cell) (level vt : Nat) : Cell :=
  let due (e : FragMove) : Bool := e.level == level && decide (e.due ≤ vt)
  (x.frags.filter due).foldl Cell.takeFrag { x with frags := x.frags.filter fun e => !due e }

/-- FRAGMENT_ARRIVAL: forwarded fragments and shifted registers that are due arrive (R181, R183, R197). -/
def execFragmentArrival (c k : Nat) (s : State) : Res :=
  let x := s.ctxAt c k
  let core := s.core c
  ctxStep c k (s.passes c k) s (s.setCore c ((core.heldCells x.sqm).foldl
    (fun q n => q.setCell n ((q.cell n).landFrags x.depth x.vt)) core))

/-- LAYER_POWER_CHANGE: the changes of TPWR that are due on a core take effect in the contexts whose cycle would pass, with the
landings of their cycle before them (R334). -/
def execLayerPowerChange (c : Nat) (s : State) : Res :=
  if Config.cores ≤ c then .fault .noSuchPart
  else .next (((List.range Config.contexts).filter (s.passes c)).foldl (fun t k => t.landOwed c k) s)

/-! ### Clock time -/

/-- An entry reaches its cell when its core holds its launch and no rail change stops it (R378), no earlier one of its sender
and channel is on the way, and there is room (R186, R187). -/
def State.expressArrives (s : State) (n : Nat) : Bool :=
  match s.express[n]? with
  | some m =>
    (s.core m.core).launch == some m.launch && s.unitsRun m.core && decide (((s.core m.core).cell m.cell).rx.length < 4) &&
      !(s.express.take n).any fun e =>
        e.core == m.core && e.cell == m.cell && e.fromCore == m.fromCore && e.fromCell == m.fromCell && e.val.chan == m.val.chan
  | none => false

/-- EXPRESS_ARRIVAL: entry `n` on the way arrives in its cell's receive buffer (R187). -/
def execExpressArrival (n : Nat) (s : State) : Res :=
  .next (if s.expressArrives n then
    match s.express[n]? with
    | some m =>
      let k := s.core m.core
      let y := k.cell m.cell
      { s with express := s.express.eraseIdx n }.setCore m.core (k.setCell m.cell { y with rx := y.rx ++ [m.val] })
    | none => s
  else s)

/-- Whether an advance of a handle is over and still unpublished. -/
def Ctx.publishes (x : Ctx) (h : Nat) (a : Advance) : Bool := a.handle == h && (decide (x.depth < a.level) || (a.level == x.depth && decide (a.due < x.vt)))

/-- HANDLE_PUBLISH: the advances of a handle whose last cycle is over are published (R94). -/
def execHandlePublish (c k h : Nat) (s : State) : Res :=
  ctxStep c k true s (s.modCtxAt c k fun x => { x with advances := x.advances.filter fun a => !x.publishes h a })

/-- The trap that a context at a boundary takes for what waits there, if any (R413). -/
def State.boundaryEntry (s : State) (c k : Nat) : State :=
  let x := s.ctxAt c k
  if x.depth ≠ 0 ∨ !x.active ∨ !s.coreRuns c then s
  else
    match s.boundaryTake c k with
    | some take => take s
    | none => s

/-- TRAP_ENTRY: a cause that waits at the boundary is taken (R411 to R417). -/
def execTrapEntry (c k : Nat) (s : State) : Res := ctxStep c k true s (s.boundaryEntry c k)

/-- LAYER_WAKE_DONE: a wake of a layer ends (R232, R233) (DEDUCED, log entry 45). -/
def execLayerWakeDone (c cell layer : Nat) (s : State) : Res :=
  if Config.cores ≤ c ∨ Config.cells ≤ cell ∨ 8 ≤ layer then .fault .noSuchPart
  else
    let k := s.core c
    .next (s.setCore c (k.setTower cell ((k.tower cell).endWake layer)))

/-- A wake of a register group ends: it is ON, and where it was gated its registers are zero (R139). -/
def Cell.endGroupWake (x : Cell) (g : Nat) : Cell :=
  if x.groupWakes.contains g then { x.setGroup g .on with groupWakes := x.groupWakes.filter fun n => n != g } else x

/-- GROUP_WAKE_DONE (R139). -/
def execGroupWakeDone (c cell group : Nat) (s : State) : Res :=
  if Config.cores ≤ c ∨ Config.cells ≤ cell ∨ 4 ≤ group then .fault .noSuchPart
  else
    let k := s.core c
    .next (s.setCore c (k.setCell cell ((k.cell cell).endGroupWake group)))

end Sys2Proof.Machine
end

