-- ==== Sys2Proof/Machine/Registers.lean ====
section
/-! DEFINITION. Writes and reads of single system registers as steps of their own: a SYSW of a value, or a SYSR into a
register, by a context that runs, with that instruction's own checks and traps (R116, R118, R123, R182, R240, R262, R328,
R336, R351, R353, R376, R416, R438). -/

namespace Sys2Proof.Machine

/-- A register instruction in the M slot for a system register's number, always taken. -/
def sysForm (n : Nat) (d : BitVec 6) : MForm := ⟨d, 0, 0, 0, 0, 0, BitVec.ofNat 26 n⟩

/-- A context that may issue between bundles (R66). -/
def State.mayIssue (s : State) (c k : Nat) : Bool :=
  s.coreRuns c && !(s.ctxAt c k).halted && (s.ctxAt c k).run == .running && (s.ctxAt c k).issue.isNone

/-- Perform a register instruction in a context's M slot and give the turn back (DEDUCED, log entry 39). -/
def State.registerStep (s : State) (c k : Nat) (m : State → Meaning) : Res :=
  if Config.cores ≤ c ∨ Config.contexts ≤ k then .fault .noSuchPart
  else if !s.mayIssue c k then .next s
  else
    let t := { s with turn := ⟨c, k, 2⟩ }
    match t.run (m t) with
    | .next u => .next { u with turn := s.turn }
    | r => r

/-- A SYSW of a value to a register. -/
def State.writeStep (s : State) (c k n : Nat) (v : Word) : Res := s.registerStep c k (meanSyswOf (sysForm n 0) v)

/-- A SYSR of a register into g[d]. -/
def State.readStep (s : State) (c k n : Nat) (d : BitVec 6) : Res := s.registerStep c k (meanSysr (sysForm n d))

/-- SCBASE_WRITE (R116). -/
def execScbaseWrite (c k : Nat) (v : BitVec 64) (s : State) : Res := s.writeStep c k 0x018 v

/-- RGN_WRITE (R118): entry `n` of the region table. -/
def execRgnWrite (c k n : Nat) (v : BitVec 64) (s : State) : Res :=
  if 16 ≤ n then .fault .noSuchPart else s.writeStep c k (0x040 + n) v

/-- SQGEOM_WRITE (R182): it waits while a matrix stream or a fragment of the context is in flight. -/
def execSqgeomWrite (c k : Nat) (v : BitVec 64) (s : State) : Res :=
  if s.geomWaits (s.ctxAt c k) c k (.sysw (sysForm 0x020 0)) then .next s else s.writeStep c k 0x020 v

/-- CURST_WRITE (R262). -/
def execCurstWrite (c k : Nat) (v : BitVec 64) (s : State) : Res := s.writeStep c k 0x030 v

/-- EVSTAT_WRITE (R123): by the lowest context of the core that may issue. -/
def execEvstatWrite (c : Nat) (v : BitVec 64) (s : State) : Res :=
  if Config.cores ≤ c then .fault .noSuchPart
  else
    match (List.range Config.contexts).find? fun k => s.mayIssue c k with
    | some k => s.writeStep c k 0x010 v
    | none => .next s

/-- EVFLAGS_WRITE (R123). -/
def execEvflagsWrite (c k : Nat) (v : BitVec 64) (s : State) : Res := s.writeStep c k 0x011 v

/-- TSAVE_WRITE (R416). -/
def execTsaveWrite (c k : Nat) (v : BitVec 64) (s : State) : Res := s.writeStep c k 0x204 v

/-- QBELL_WRITE (R351). -/
def execQbellWrite (c k : Nat) (v : BitVec 64) (s : State) : Res := s.writeStep c k 0x2C0 v

/-- STCFG_WRITE (R353). -/
def execStcfgWrite (c k : Nat) (v : BitVec 64) (s : State) : Res := s.writeStep c k 0x2C1 v

/-- EWGRANT_WRITE (R376). -/
def execEwgrantWrite (c k : Nat) (v : BitVec 64) (s : State) : Res := s.writeStep c k 0x2D0 v

/-- TCAUSE_READ (R416). -/
def execTcauseRead (c k : Nat) (d : BitVec 6) (s : State) : Res := s.readStep c k 0x200 d

/-- RETRISK_READ (R240). -/
def execRetriskRead (c k : Nat) (d : BitVec 6) (s : State) : Res := s.readStep c k 0x024 d

/-- ENGFLT_READ (R328): SYS.ENGFLTA, or with `b` SYS.ENGFLTB. -/
def execEngfltRead (c k : Nat) (b : Bool) (d : BitVec 6) (s : State) : Res := s.readStep c k (if b then 0x0B9 else 0x0B8) d

/-- ERRLAST_READ (R438). -/
def execErrlastRead (c k : Nat) (d : BitVec 6) (s : State) : Res := s.readStep c k 0x2E1 d

/-! ### Turns of the issue slot (R362, R375) -/

/-- The holder of a core's slot has held it for 4,096 cycles in which another context was ready, is at a bundle boundary, and
another context is ready (R362). -/
def State.slotOver (s : State) (c : Nat) : Bool :=
  let x := s.ctxAt c (s.core c).holder
  s.coreRuns c && decide (4096 ≤ (s.core c).held) && (x.run != .running || x.skip == 0) && s.otherReady c

/-- ISSUE_SLOT_TIMEOUT: a context that has held the slot for 4,096 cycles gives it up when another is ready (R362). -/
def execIssueSlotTimeout (c : Nat) (s : State) : Res :=
  if Config.cores ≤ c then .fault .noSuchPart
  else .next (if s.slotOver c then s.passSlot c else s)

/-- The virtual cycle that the holder of a core's slot would pass exceeds the grant (R375). -/
def State.governed (s : State) (c : Nat) : Bool :=
  let k := (s.core c).holder
  s.coreRuns c && (s.ctxAt c k).active &&
    match s.turnOf c k with
    | .passed _ n => !s.mayCharge c n
    | _ => false

/-- GOVERNOR_STALL: a stall bundle (R375, R377). -/
def execGovernorStall (c : Nat) (s : State) : Res :=
  if Config.cores ≤ c then .fault .noSuchPart else .next (if s.governed c then s.stall c else s)

end Sys2Proof.Machine
end

