-- ==== Sys2Proof/Machine/Dispatch.lean ====
section
/-! DEFINITION. One arm per instruction: the direct call of its meaning. -/

namespace Sys2Proof.Machine

/-- Run one instruction or one step of the device. -/
def exec (i : Instr) (s : State) : Host.Outcome State Fault Refusal :=
  match i with
  | .nop => Sys2Proof.Machine.execNop s
  | .add f => Sys2Proof.Machine.execAdd f s
  | .addi f => Sys2Proof.Machine.execAddi f s
  | .sub f => Sys2Proof.Machine.execSub f s
  | .mul f => Sys2Proof.Machine.execMul f s
  | .mulh f => Sys2Proof.Machine.execMulh f s
  | .mulhn f => Sys2Proof.Machine.execMulhn f s
  | .div f => Sys2Proof.Machine.execDiv f s
  | .divn f => Sys2Proof.Machine.execDivn f s
  | .rem f => Sys2Proof.Machine.execRem f s
  | .remn f => Sys2Proof.Machine.execRemn f s
  | .and f => Sys2Proof.Machine.execAnd f s
  | .andi f => Sys2Proof.Machine.execAndi f s
  | .or f => Sys2Proof.Machine.execOr f s
  | .ori f => Sys2Proof.Machine.execOri f s
  | .xor f => Sys2Proof.Machine.execXor f s
  | .xori f => Sys2Proof.Machine.execXori f s
  | .shl f => Sys2Proof.Machine.execShl f s
  | .shli f => Sys2Proof.Machine.execShli f s
  | .shr f => Sys2Proof.Machine.execShr f s
  | .shri f => Sys2Proof.Machine.execShri f s
  | .shra f => Sys2Proof.Machine.execShra f s
  | .shrai f => Sys2Proof.Machine.execShrai f s
  | .rotl f => Sys2Proof.Machine.execRotl f s
  | .clz f => Sys2Proof.Machine.execClz f s
  | .popc f => Sys2Proof.Machine.execPopc f s
  | .min f => Sys2Proof.Machine.execMin f s
  | .max f => Sys2Proof.Machine.execMax f s
  | .minn f => Sys2Proof.Machine.execMinn f s
  | .maxn f => Sys2Proof.Machine.execMaxn f s
  | .cmp f => Sys2Proof.Machine.execCmp f s
  | .sel f => Sys2Proof.Machine.execSel f s
  | .mov f => Sys2Proof.Machine.execMov f s
  | .li f => Sys2Proof.Machine.execLi f s
  | .lih f => Sys2Proof.Machine.execLih f s
  | .addr f => Sys2Proof.Machine.execAddr f s
  | .extb f => Sys2Proof.Machine.execExtb f s
  | .exth f => Sys2Proof.Machine.execExth f s
  | .extw f => Sys2Proof.Machine.execExtw f s
  | .bfx f => Sys2Proof.Machine.execBfx f s
  | .bfi f => Sys2Proof.Machine.execBfi f s
  | .pand f => Sys2Proof.Machine.execPand f s
  | .por f => Sys2Proof.Machine.execPor f s
  | .pnot f => Sys2Proof.Machine.execPnot f s
  | .fcvts f => Sys2Proof.Machine.execFcvts f s
  | .fcmps f => Sys2Proof.Machine.execFcmps f s
  | .lapset f => Sys2Proof.Machine.execLapset f s
  | .lapadd f => Sys2Proof.Machine.execLapadd f s
  | .lapget f => Sys2Proof.Machine.execLapget f s
  | .br f => Sys2Proof.Machine.execBr f s
  | .brc f => Sys2Proof.Machine.execBrc f s
  | .jmp f => Sys2Proof.Machine.execJmp f s
  | .call f => Sys2Proof.Machine.execCall f s
  | .ret f => Sys2Proof.Machine.execRet f s
  | .loop f => Sys2Proof.Machine.execLoop f s
  | .loopi f => Sys2Proof.Machine.execLoopi f s
  | .breakl f => Sys2Proof.Machine.execBreakl f s
  | .waitb f => Sys2Proof.Machine.execWaitb f s
  | .waitt f => Sys2Proof.Machine.execWaitt f s
  | .waitf f => Sys2Proof.Machine.execWaitf f s
  | .advp f => Sys2Proof.Machine.execAdvp f s
  | .advc f => Sys2Proof.Machine.execAdvc f s
  | .yield f => Sys2Proof.Machine.execYield f s
  | .endOp f => Sys2Proof.Machine.execEndOp f s
  | .sleep f => Sys2Proof.Machine.execSleep f s
  | .trap f => Sys2Proof.Machine.execTrap f s
  | .rft f => Sys2Proof.Machine.execRft f s
  | .ldb f => Sys2Proof.Machine.execLdb f s
  | .ldbn f => Sys2Proof.Machine.execLdbn f s
  | .ldh f => Sys2Proof.Machine.execLdh f s
  | .ldhn f => Sys2Proof.Machine.execLdhn f s
  | .ldw f => Sys2Proof.Machine.execLdw f s
  | .ldwn f => Sys2Proof.Machine.execLdwn f s
  | .ldd f => Sys2Proof.Machine.execLdd f s
  | .stb f => Sys2Proof.Machine.execStb f s
  | .sth f => Sys2Proof.Machine.execSth f s
  | .stw f => Sys2Proof.Machine.execStw f s
  | .std f => Sys2Proof.Machine.execStd f s
  | .amoadd f => Sys2Proof.Machine.execAmoadd f s
  | .amoand f => Sys2Proof.Machine.execAmoand f s
  | .amoor f => Sys2Proof.Machine.execAmoor f s
  | .amoxor f => Sys2Proof.Machine.execAmoxor f s
  | .amomin f => Sys2Proof.Machine.execAmomin f s
  | .amomax f => Sys2Proof.Machine.execAmomax f s
  | .amominn f => Sys2Proof.Machine.execAmominn f s
  | .amomaxn f => Sys2Proof.Machine.execAmomaxn f s
  | .amoswp f => Sys2Proof.Machine.execAmoswp f s
  | .amocas f => Sys2Proof.Machine.execAmocas f s
  | .fence f => Sys2Proof.Machine.execFence f s
  | .tlinc f => Sys2Proof.Machine.execTlinc f s
  | .tlread f => Sys2Proof.Machine.execTlread f s
  | .cpgo f => Sys2Proof.Machine.execCpgo f s
  | .cpstep f => Sys2Proof.Machine.execCpstep f s
  | .cpstat f => Sys2Proof.Machine.execCpstat f s
  | .gidx f => Sys2Proof.Machine.execGidx f s
  | .gcfg f => Sys2Proof.Machine.execGcfg f s
  | .bsend f => Sys2Proof.Machine.execBsend f s
  | .prog f => Sys2Proof.Machine.execProg f s
  | .front f => Sys2Proof.Machine.execFront f s
  | .gcancel f => Sys2Proof.Machine.execGcancel f s
  | .xput f => Sys2Proof.Machine.execXput f s
  | .tdefer f => Sys2Proof.Machine.execTdefer f s
  | .tpwr f => Sys2Proof.Machine.execTpwr f s
  | .vpwr f => Sys2Proof.Machine.execVpwr f s
  | .sysr f => Sys2Proof.Machine.execSysr f s
  | .sysw f => Sys2Proof.Machine.execSysw f s
  | .tlbinv f => Sys2Proof.Machine.execTlbinv f s
  | .tlbsync f => Sys2Proof.Machine.execTlbsync f s
  | .evpop f => Sys2Proof.Machine.execEvpop f s
  | .watch f => Sys2Proof.Machine.execWatch f s
  | .tld f => Sys2Proof.Machine.execTld f s
  | .tst f => Sys2Proof.Machine.execTst f s
  | .tldm f => Sys2Proof.Machine.execTldm f s
  | .vadd f => Sys2Proof.Machine.execVadd f s
  | .vsub f => Sys2Proof.Machine.execVsub f s
  | .vmul f => Sys2Proof.Machine.execVmul f s
  | .vfma f => Sys2Proof.Machine.execVfma f s
  | .vfms f => Sys2Proof.Machine.execVfms f s
  | .vfnma f => Sys2Proof.Machine.execVfnma f s
  | .vmin f => Sys2Proof.Machine.execVmin f s
  | .vmax f => Sys2Proof.Machine.execVmax f s
  | .vabs f => Sys2Proof.Machine.execVabs f s
  | .vneg f => Sys2Proof.Machine.execVneg f s
  | .vcps f => Sys2Proof.Machine.execVcps f s
  | .vcmp f => Sys2Proof.Machine.execVcmp f s
  | .vsel f => Sys2Proof.Machine.execVsel f s
  | .vrnd f => Sys2Proof.Machine.execVrnd f s
  | .vexf f => Sys2Proof.Machine.execVexf f s
  | .vlgf f => Sys2Proof.Machine.execVlgf f s
  | .vrcpf f => Sys2Proof.Machine.execVrcpf f s
  | .vrsqf f => Sys2Proof.Machine.execVrsqf f s
  | .vscl f => Sys2Proof.Machine.execVscl f s
  | .viadd f => Sys2Proof.Machine.execViadd f s
  | .visub f => Sys2Proof.Machine.execVisub f s
  | .vimul f => Sys2Proof.Machine.execVimul f s
  | .vimad f => Sys2Proof.Machine.execVimad f s
  | .vand f => Sys2Proof.Machine.execVand f s
  | .vor f => Sys2Proof.Machine.execVor f s
  | .vxor f => Sys2Proof.Machine.execVxor f s
  | .vshl f => Sys2Proof.Machine.execVshl f s
  | .vshr f => Sys2Proof.Machine.execVshr f s
  | .vshra f => Sys2Proof.Machine.execVshra f s
  | .vimin f => Sys2Proof.Machine.execVimin f s
  | .vimax f => Sys2Proof.Machine.execVimax f s
  | .vicmp f => Sys2Proof.Machine.execVicmp f s
  | .vcvt f => Sys2Proof.Machine.execVcvt f s
  | .vpack f => Sys2Proof.Machine.execVpack f s
  | .vunpk f => Sys2Proof.Machine.execVunpk f s
  | .vperm f => Sys2Proof.Machine.execVperm f s
  | .vbcast f => Sys2Proof.Machine.execVbcast f s
  | .vrsum f => Sys2Proof.Machine.execVrsum f s
  | .vrmax f => Sys2Proof.Machine.execVrmax f s
  | .vspar f => Sys2Proof.Machine.execVspar f s
  | .kand f => Sys2Proof.Machine.execKand f s
  | .kor f => Sys2Proof.Machine.execKor f s
  | .knot f => Sys2Proof.Machine.execKnot f s
  | .kmov f => Sys2Proof.Machine.execKmov f s
  | .kpop f => Sys2Proof.Machine.execKpop f s
  | .shn f => Sys2Proof.Machine.execShn f s
  | .she f => Sys2Proof.Machine.execShe f s
  | .shs f => Sys2Proof.Machine.execShs f s
  | .shw f => Sys2Proof.Machine.execShw f s
  | .xsnd f => Sys2Proof.Machine.execXsnd f s
  | .xrcv f => Sys2Proof.Machine.execXrcv f s
  | .mma f => Sys2Proof.Machine.execMma f s
  | .mzero f => Sys2Proof.Machine.execMzero f s
  | .mdrain f => Sys2Proof.Machine.execMdrain f s
  | .mload f => Sys2Proof.Machine.execMload f s
  | .mread f => Sys2Proof.Machine.execMread f s
  | .patch f => Sys2Proof.Machine.execPatch f s
  | .lqnear f => Sys2Proof.Machine.execLqnear f s
  | .lqdec f => Sys2Proof.Machine.execLqdec f s
  | .lqscale f => Sys2Proof.Machine.execLqscale f s
  | .lqmerge f => Sys2Proof.Machine.execLqmerge f s
  | .bundleFetch c k => Sys2Proof.Machine.execBundleFetch c k s
  | .resultLanding c k => Sys2Proof.Machine.execResultLanding c k s
  | .cellResultLanding c k => Sys2Proof.Machine.execCellResultLanding c k s
  | .mmaStep c k n => Sys2Proof.Machine.execMmaStep c k n s
  | .streamRowRead c k n => Sys2Proof.Machine.execStreamRowRead c k n s
  | .mloadPerform c k n => Sys2Proof.Machine.execMloadPerform c k n s
  | .fragmentArrival c k => Sys2Proof.Machine.execFragmentArrival c k s
  | .expressArrival n => Sys2Proof.Machine.execExpressArrival n s
  | .handlePublish c k h => Sys2Proof.Machine.execHandlePublish c k h s
  | .trapEntry c k => Sys2Proof.Machine.execTrapEntry c k s
  | .layerWakeDone c cell layer => Sys2Proof.Machine.execLayerWakeDone c cell layer s
  | .groupWakeDone c cell group => Sys2Proof.Machine.execGroupWakeDone c cell group s
  | .layerPowerChange c => Sys2Proof.Machine.execLayerPowerChange c s
  | .refresh c tower group => Sys2Proof.Machine.execRefresh c tower group s
  | .tempReading cluster celsius time => Sys2Proof.Machine.execTempReading cluster celsius time s
  | .retentionGuard c k time => Sys2Proof.Machine.execRetentionGuard c k time s
  | .deferralExpiry c time => Sys2Proof.Machine.execDeferralExpiry c time s
  | .selfTest e failed time => Sys2Proof.Machine.execSelfTest e failed time s
  | .copyOpStart c e => Sys2Proof.Machine.execCopyOpStart c e s
  | .columnRowWrite c e => Sys2Proof.Machine.execColumnRowWrite c e s
  | .copyOpComplete c e => Sys2Proof.Machine.execCopyOpComplete c e s
  | .copyOpError c e => Sys2Proof.Machine.execCopyOpError c e s
  | .gatherRowFill c => Sys2Proof.Machine.execGatherRowFill c s
  | .xputDelivery n => Sys2Proof.Machine.execXputDelivery n s
  | .batonDelivery n => Sys2Proof.Machine.execBatonDelivery n s
  | .judgeApply c k => Sys2Proof.Machine.execJudgeApply c k s
  | .graphCancel l => Sys2Proof.Machine.execGraphCancel l s
  | .scbaseWrite c k v => Sys2Proof.Machine.execScbaseWrite c k v s
  | .rgnWrite c k n v => Sys2Proof.Machine.execRgnWrite c k n v s
  | .sqgeomWrite c k v => Sys2Proof.Machine.execSqgeomWrite c k v s
  | .curstWrite c k v => Sys2Proof.Machine.execCurstWrite c k v s
  | .evstatWrite c v => Sys2Proof.Machine.execEvstatWrite c v s
  | .evflagsWrite c k v => Sys2Proof.Machine.execEvflagsWrite c k v s
  | .tsaveWrite c k v => Sys2Proof.Machine.execTsaveWrite c k v s
  | .qbellWrite c k v => Sys2Proof.Machine.execQbellWrite c k v s
  | .stcfgWrite c k v => Sys2Proof.Machine.execStcfgWrite c k v s
  | .ewgrantWrite c k v => Sys2Proof.Machine.execEwgrantWrite c k v s
  | .tcauseRead c k d => Sys2Proof.Machine.execTcauseRead c k d s
  | .retriskRead c k d => Sys2Proof.Machine.execRetriskRead c k d s
  | .engfltRead c k b d => Sys2Proof.Machine.execEngfltRead c k b d s
  | .errlastRead c k d => Sys2Proof.Machine.execErrlastRead c k d s
  | .sliceBoundary time => Sys2Proof.Machine.execSliceBoundary time s
  | .goSignal l => Sys2Proof.Machine.execGoSignal l s
  | .placementFail l cause => Sys2Proof.Machine.execPlacementFail l cause s
  | .drainDone l => Sys2Proof.Machine.execDrainDone l s
  | .checkpointDone l => Sys2Proof.Machine.execCheckpointDone l s
  | .killComplete l => Sys2Proof.Machine.execKillComplete l s
  | .watchdogExpiry l time => Sys2Proof.Machine.execWatchdogExpiry l time s
  | .watchdogKill l time => Sys2Proof.Machine.execWatchdogKill l time s
  | .contextRetire c k => Sys2Proof.Machine.execContextRetire c k s
  | .launchRetire l => Sys2Proof.Machine.execLaunchRetire l s
  | .issueSlotTimeout c => Sys2Proof.Machine.execIssueSlotTimeout c s
  | .governorStall c => Sys2Proof.Machine.execGovernorStall c s
  | .controlInterval reqs watts time => Sys2Proof.Machine.execControlInterval reqs watts time s
  | .railChangeEnd cluster => Sys2Proof.Machine.execRailChangeEnd cluster s
  | .nocFreqStep die want => Sys2Proof.Machine.execNocFreqStep die want s
  | .leaseExpiry time => Sys2Proof.Machine.execLeaseExpiry time s
  | .handoverTimeout time => Sys2Proof.Machine.execHandoverTimeout time s
  | .spdmSession endpoint passed time => Sys2Proof.Machine.execSpdmSession endpoint passed time s
  | .sessionEnd m => Sys2Proof.Machine.execSessionEnd m s
  | .rdmaWrite m qp rkey offset data => Sys2Proof.Machine.execRdmaWrite m qp rkey offset data s
  | .rdmaRead m rkey offset len => Sys2Proof.Machine.execRdmaRead m rkey offset len s
  | .hostCommandSend endpoint msg => Sys2Proof.Machine.execHostCommandSend endpoint msg s
  | .flitReceive port seq crcOk w => Sys2Proof.Machine.execFlitReceive port seq crcOk w s
  | .flitAck port seq nak err => Sys2Proof.Machine.execFlitAck port seq nak err s
  | .laneLoss port lane => Sys2Proof.Machine.execLaneLoss port lane s
  | .portTestDone port errors => Sys2Proof.Machine.execPortTestDone port errors s
  | .portRejoin port => Sys2Proof.Machine.execPortRejoin port s
  | .linkLost c e => Sys2Proof.Machine.execLinkLost c e s
  | .capSet m tag body => Sys2Proof.Machine.execCapSet m tag body s
  | .capGet m tag body => Sys2Proof.Machine.execCapGet m tag body s
  | .claim m tag body => Sys2Proof.Machine.execClaim m tag body s
  | .renew m tag body => Sys2Proof.Machine.execRenew m tag body s
  | .release m tag body => Sys2Proof.Machine.execRelease m tag body s
  | .handover m tag body => Sys2Proof.Machine.execHandover m tag body s
  | .trustSet m tag body => Sys2Proof.Machine.execTrustSet m tag body s
  | .domainSet m tag body => Sys2Proof.Machine.execDomainSet m tag body s
  | .domainClear m tag body => Sys2Proof.Machine.execDomainClear m tag body s
  | .windowSet m tag body => Sys2Proof.Machine.execWindowSet m tag body s
  | .windowClear m tag body => Sys2Proof.Machine.execWindowClear m tag body s
  | .queueSet m tag body => Sys2Proof.Machine.execQueueSet m tag body s
  | .queueClear m tag body => Sys2Proof.Machine.execQueueClear m tag body s
  | .doorbell m tag body => Sys2Proof.Machine.execDoorbell m tag body s
  | .kill m tag body => Sys2Proof.Machine.execKill m tag body s
  | .keyLoad m tag body => Sys2Proof.Machine.execKeyLoad m tag body s
  | .keyClear m tag body => Sys2Proof.Machine.execKeyClear m tag body s
  | .fabricJoin m tag body => Sys2Proof.Machine.execFabricJoin m tag body s
  | .fabricLeave m tag body => Sys2Proof.Machine.execFabricLeave m tag body s
  | .fabricBind m tag body => Sys2Proof.Machine.execFabricBind m tag body s
  | .debugUnlock m tag body => Sys2Proof.Machine.execDebugUnlock m tag body s
  | .debugLock m tag body => Sys2Proof.Machine.execDebugLock m tag body s
  | .status m tag body => Sys2Proof.Machine.execStatus m tag body s
  | .memRead m tag body => Sys2Proof.Machine.execMemRead m tag body s
  | .dumpRead m tag body => Sys2Proof.Machine.execDumpRead m tag body s
  | .dumpClear m tag body => Sys2Proof.Machine.execDumpClear m tag body s
  | .healthRead m tag body => Sys2Proof.Machine.execHealthRead m tag body s
  | .reset m tag body => Sys2Proof.Machine.execReset m tag body s
  | .dbgHalt m tag body => Sys2Proof.Machine.execDbgHalt m tag body s
  | .dbgResume m tag body => Sys2Proof.Machine.execDbgResume m tag body s
  | .dbgStep m tag body => Sys2Proof.Machine.execDbgStep m tag body s
  | .dbgRead m tag body => Sys2Proof.Machine.execDbgRead m tag body s
  | .dbgWrite m tag body => Sys2Proof.Machine.execDbgWrite m tag body s
  | .tamperDetect kind time => Sys2Proof.Machine.execTamperDetect kind time s
  | .glitchRecovered time => Sys2Proof.Machine.execGlitchRecovered time s
  | .authLockoutExpiry endpoint time => Sys2Proof.Machine.execAuthLockoutExpiry endpoint time s
  | .fatalError kind time => Sys2Proof.Machine.execFatalError kind time s
  | .filzanWatchdogFail time => Sys2Proof.Machine.execFilzanWatchdogFail time s
  | .powerOnReset verified failedCores => Sys2Proof.Machine.execPowerOnReset verified failedCores s
  | .unsupportedOption path code => Sys2Proof.Machine.execUnsupportedOption path code s
  | .measurementRetrieval m => Sys2Proof.Machine.execMeasurementRetrieval m s

end Sys2Proof.Machine
end

