-- ==== Sys2Proof/Machine/Step.lean ====
section
/-! DEFINITION. One step of the device, and a program placed for its next step. -/

namespace Sys2Proof.Machine

/-- One step: the next occurrence, and with a fetch the bundle that issued. -/
def step (s : State) : Host.Outcome State Fault Refusal := stepWith exec s

/-- A state whose next step fetches and runs the instruction of a word: a literal bundle with that slot alone, in a core
whose launch runs (DESIGN CHOICE, log entry 3). -/
def State.withFetchWord (s : State) (nbits w : Nat) : State :=
  match tableBundle nbits w with
  | some b => s.withBundle b
  | none => s

end Sys2Proof.Machine
end

