-- ==== Sys2Proof/Laws/Codec.lean ====
section
/-! SUPPORT. Packing and unpacking the slot layouts (R50 to R53): each undoes the other, and the opcode stands on top. -/

namespace Sys2Proof

open Machine (field fieldN)

/-! ### Fields of an appended word -/

theorem field_append_low {n m : Nat} (x : BitVec n) (y : BitVec m) {lo w : Nat} (h : lo + w ≤ m) :
    field (x ++ y) lo w = field y lo w := by
  apply BitVec.eq_of_getLsbD_eq
  intro i hi
  simp only [field, BitVec.getLsbD_extractLsb', BitVec.getLsbD_append, hi, decide_true, Bool.true_and]
  rw [if_pos (by omega)]

theorem field_append_high {n m : Nat} (x : BitVec n) (y : BitVec m) {lo w : Nat} (h : m ≤ lo) :
    field (x ++ y) lo w = field x (lo - m) w := by
  apply BitVec.eq_of_getLsbD_eq
  intro i hi
  simp only [field, BitVec.getLsbD_extractLsb', BitVec.getLsbD_append, hi, decide_true, Bool.true_and]
  rw [if_neg (by omega)]
  congr 1
  omega

theorem field_whole {n : Nat} (x : BitVec n) : field x 0 n = x := by
  apply BitVec.eq_of_getLsbD_eq
  intro i hi
  simp [field, hi]

/-- The two halves of a word make it up. -/
theorem append_field {n m : Nat} (w : BitVec (n + m)) : field w m n ++ field w 0 m = w := by
  apply BitVec.eq_of_getLsbD_eq
  intro i hi
  simp only [field, BitVec.getLsbD_append, BitVec.getLsbD_extractLsb']
  by_cases h : i < m
  · simp [h]
  · rw [if_neg h]
    have : i - m < n := by omega
    simp only [this, decide_true, Bool.true_and]
    congr 1
    omega

/-- A field that is two adjoining fields. -/
theorem field_join {n : Nat} (x : BitVec n) (lo v w : Nat) : field x (lo + v) w ++ field x lo v = field x lo (w + v) := by
  apply BitVec.eq_of_getLsbD_eq
  intro i hi
  simp only [field, BitVec.getLsbD_append, BitVec.getLsbD_extractLsb', hi, decide_true, Bool.true_and]
  by_cases h : i < v
  · simp [h]
  · rw [if_neg h]
    have : i - v < w := by omega
    simp only [this, decide_true, Bool.true_and]
    congr 1
    omega

/-! ### RForm -/

@[simp] theorem RForm.unpack_pack (op : BitVec 8) (f : RForm) : RForm.unpack (f.pack op) = f := by
  cases f
  simp (disch := omega) only [RForm.unpack, RForm.pack, field_append_low, field_append_high, Nat.reduceSub, field_whole]

@[simp] theorem RForm.fieldOp_pack (op : BitVec 8) (f : RForm) : fieldOp (f.pack op) = op.toNat := by
  show (field (f.pack op) 40 8).toNat = _
  simp (disch := omega) only [RForm.pack, field_append_high, Nat.reduceSub, field_whole]

/-! ### IForm -/

@[simp] theorem IForm.unpack_pack (op : BitVec 8) (f : IForm) : IForm.unpack (f.pack op) = f := by
  cases f
  simp (disch := omega) only [IForm.unpack, IForm.pack, field_append_low, field_append_high, Nat.reduceSub, field_whole]

@[simp] theorem IForm.fieldOp_pack (op : BitVec 8) (f : IForm) : fieldOp (f.pack op) = op.toNat := by
  show (field (f.pack op) 40 8).toNat = _
  simp (disch := omega) only [IForm.pack, field_append_high, Nat.reduceSub, field_whole]

/-! ### LForm -/

@[simp] theorem LForm.unpack_pack (op : BitVec 8) (f : LForm) : LForm.unpack (f.pack op) = f := by
  cases f
  simp (disch := omega) only [LForm.unpack, LForm.pack, field_append_low, field_append_high, Nat.reduceSub, field_whole]

@[simp] theorem LForm.fieldOp_pack (op : BitVec 8) (f : LForm) : fieldOp (f.pack op) = op.toNat := by
  show (field (f.pack op) 40 8).toNat = _
  simp (disch := omega) only [LForm.pack, field_append_high, Nat.reduceSub, field_whole]

/-! ### MForm -/

@[simp] theorem MForm.unpack_pack (op : BitVec 8) (f : MForm) : MForm.unpack (f.pack op) = f := by
  cases f
  simp (disch := omega) only [MForm.unpack, MForm.pack, field_append_low, field_append_high, Nat.reduceSub, field_whole]

@[simp] theorem MForm.fieldOp_pack (op : BitVec 8) (f : MForm) : fieldOp (f.pack op) = op.toNat := by
  show (field (f.pack op) 56 8).toNat = _
  simp (disch := omega) only [MForm.pack, field_append_high, Nat.reduceSub, field_whole]

/-! ### FForm -/

@[simp] theorem FForm.unpack_pack (op : BitVec 8) (f : FForm) : FForm.unpack (f.pack op) = f := by
  cases f
  simp (disch := omega) only [FForm.unpack, FForm.pack, field_append_low, field_append_high, Nat.reduceSub, field_whole]

@[simp] theorem FForm.fieldOp_pack (op : BitVec 8) (f : FForm) : fieldOp (f.pack op) = op.toNat := by
  show (field (f.pack op) 56 8).toNat = _
  simp (disch := omega) only [FForm.pack, field_append_high, Nat.reduceSub, field_whole]

/-! ### CForm -/

@[simp] theorem CForm.unpack_pack (op : BitVec 8) (f : CForm) : CForm.unpack (f.pack op) = f := by
  cases f
  simp (disch := omega) only [CForm.unpack, CForm.pack, field_append_low, field_append_high, Nat.reduceSub, field_whole]

@[simp] theorem CForm.fieldOp_pack (op : BitVec 8) (f : CForm) : fieldOp (f.pack op) = op.toNat := by
  show (field (f.pack op) 120 8).toNat = _
  simp (disch := omega) only [CForm.pack, field_append_high, Nat.reduceSub, field_whole]

/-! ### Packing what was unpacked -/

theorem RForm.pack_unpack (w : BitVec 48) : (RForm.unpack w).pack (field w 40 8) = w := by
  show (field w 40 8 ++ field w 34 6 ++ field w 28 6 ++ field w 22 6 ++ field w 19 3 ++ field w 18 1 ++ field w 0 18 : BitVec (8 + 6 + 6 + 6 + 3 + 1 + 18)) = w
  rw [field_join w 34 6 (8),
    field_join w 28 6 (8 + 6),
    field_join w 22 6 (8 + 6 + 6),
    field_join w 19 3 (8 + 6 + 6 + 6),
    field_join w 18 1 (8 + 6 + 6 + 6 + 3),
    field_join w 0 18 (8 + 6 + 6 + 6 + 3 + 1)]
  exact field_whole w

theorem IForm.pack_unpack (w : BitVec 48) : (IForm.unpack w).pack (field w 40 8) = w := by
  show (field w 40 8 ++ field w 34 6 ++ field w 28 6 ++ field w 25 3 ++ field w 24 1 ++ field w 0 24 : BitVec (8 + 6 + 6 + 3 + 1 + 24)) = w
  rw [field_join w 34 6 (8),
    field_join w 28 6 (8 + 6),
    field_join w 25 3 (8 + 6 + 6),
    field_join w 24 1 (8 + 6 + 6 + 3),
    field_join w 0 24 (8 + 6 + 6 + 3 + 1)]
  exact field_whole w

theorem LForm.pack_unpack (w : BitVec 48) : (LForm.unpack w).pack (field w 40 8) = w := by
  show (field w 40 8 ++ field w 34 6 ++ field w 0 34 : BitVec (8 + 6 + 34)) = w
  rw [field_join w 34 6 (8),
    field_join w 0 34 (8 + 6)]
  exact field_whole w

theorem MForm.pack_unpack (w : BitVec 64) : (MForm.unpack w).pack (field w 56 8) = w := by
  show (field w 56 8 ++ field w 50 6 ++ field w 44 6 ++ field w 38 6 ++ field w 35 3 ++ field w 34 1 ++ field w 26 8 ++ field w 0 26 : BitVec (8 + 6 + 6 + 6 + 3 + 1 + 8 + 26)) = w
  rw [field_join w 50 6 (8),
    field_join w 44 6 (8 + 6),
    field_join w 38 6 (8 + 6 + 6),
    field_join w 35 3 (8 + 6 + 6 + 6),
    field_join w 34 1 (8 + 6 + 6 + 6 + 3),
    field_join w 26 8 (8 + 6 + 6 + 6 + 3 + 1),
    field_join w 0 26 (8 + 6 + 6 + 6 + 3 + 1 + 8)]
  exact field_whole w

theorem FForm.pack_unpack (w : BitVec 64) : (FForm.unpack w).pack (field w 56 8) = w := by
  show (field w 56 8 ++ field w 53 3 ++ field w 52 1 ++ field w 46 6 ++ field w 40 6 ++ field w 0 40 : BitVec (8 + 3 + 1 + 6 + 6 + 40)) = w
  rw [field_join w 53 3 (8),
    field_join w 52 1 (8 + 3),
    field_join w 46 6 (8 + 3 + 1),
    field_join w 40 6 (8 + 3 + 1 + 6),
    field_join w 0 40 (8 + 3 + 1 + 6 + 6)]
  exact field_whole w

theorem CForm.pack_unpack (w : BitVec 128) : (CForm.unpack w).pack (field w 120 8) = w := by
  show (field w 120 8 ++ field w 116 4 ++ field w 113 3 ++ field w 110 3 ++ field w 105 5 ++ field w 100 5 ++ field w 95 5 ++ field w 90 5 ++ field w 86 4 ++ field w 82 4 ++ field w 72 10 ++ field w 62 10 ++ field w 52 10 ++ field w 44 8 ++ field w 40 4 ++ field w 36 4 ++ field w 33 3 ++ field w 22 11 ++ field w 0 22 : BitVec (8 + 4 + 3 + 3 + 5 + 5 + 5 + 5 + 4 + 4 + 10 + 10 + 10 + 8 + 4 + 4 + 3 + 11 + 22)) = w
  rw [field_join w 116 4 (8),
    field_join w 113 3 (8 + 4),
    field_join w 110 3 (8 + 4 + 3),
    field_join w 105 5 (8 + 4 + 3 + 3),
    field_join w 100 5 (8 + 4 + 3 + 3 + 5),
    field_join w 95 5 (8 + 4 + 3 + 3 + 5 + 5),
    field_join w 90 5 (8 + 4 + 3 + 3 + 5 + 5 + 5),
    field_join w 86 4 (8 + 4 + 3 + 3 + 5 + 5 + 5 + 5),
    field_join w 82 4 (8 + 4 + 3 + 3 + 5 + 5 + 5 + 5 + 4),
    field_join w 72 10 (8 + 4 + 3 + 3 + 5 + 5 + 5 + 5 + 4 + 4),
    field_join w 62 10 (8 + 4 + 3 + 3 + 5 + 5 + 5 + 5 + 4 + 4 + 10),
    field_join w 52 10 (8 + 4 + 3 + 3 + 5 + 5 + 5 + 5 + 4 + 4 + 10 + 10),
    field_join w 44 8 (8 + 4 + 3 + 3 + 5 + 5 + 5 + 5 + 4 + 4 + 10 + 10 + 10),
    field_join w 40 4 (8 + 4 + 3 + 3 + 5 + 5 + 5 + 5 + 4 + 4 + 10 + 10 + 10 + 8),
    field_join w 36 4 (8 + 4 + 3 + 3 + 5 + 5 + 5 + 5 + 4 + 4 + 10 + 10 + 10 + 8 + 4),
    field_join w 33 3 (8 + 4 + 3 + 3 + 5 + 5 + 5 + 5 + 4 + 4 + 10 + 10 + 10 + 8 + 4 + 4),
    field_join w 22 11 (8 + 4 + 3 + 3 + 5 + 5 + 5 + 5 + 4 + 4 + 10 + 10 + 10 + 8 + 4 + 4 + 3),
    field_join w 0 22 (8 + 4 + 3 + 3 + 5 + 5 + 5 + 5 + 4 + 4 + 10 + 10 + 10 + 8 + 4 + 4 + 3 + 11)]
  exact field_whole w

end Sys2Proof
end

