-- ==== Sys2Proof/Laws/PerInstr.lean ====
section
/-! SUPPORT. The round trip of every instruction's encoding, one lemma for each constructor: a well-formed slot
instruction's word decodes to it; a step of the device has no word and is not well-formed (R49 to R58). -/

namespace Sys2Proof.Laws.Encoding

open Sys2Proof

/-- Decoding the word of a well-formed instruction gives it back. -/
def Statement (i : Instr) : Prop := WellFormed i = true → decodeSlot (encode i) = .ok i

theorem of_map {op : Nat} {m : Option Instr} {i : Instr} (hm : m = some i) (h : WellFormed i = true) :
    checked op m = .ok i := by
  subst hm
  exact if_pos h

theorem nop : Statement .nop := fun _ => rfl

theorem add (f : RForm) : Statement (.add f) := fun h => by
  refine of_map ?_ h
  unfold mapS
  rw [RForm.fieldOp_pack]
  exact congrArg (fun g => some (Instr.add g)) (RForm.unpack_pack 0x01 f)

theorem addi (f : IForm) : Statement (.addi f) := fun h => by
  refine of_map ?_ h
  unfold mapS
  rw [IForm.fieldOp_pack]
  exact congrArg (fun g => some (Instr.addi g)) (IForm.unpack_pack 0x02 f)

theorem sub (f : RForm) : Statement (.sub f) := fun h => by
  refine of_map ?_ h
  unfold mapS
  rw [RForm.fieldOp_pack]
  exact congrArg (fun g => some (Instr.sub g)) (RForm.unpack_pack 0x03 f)

theorem mul (f : RForm) : Statement (.mul f) := fun h => by
  refine of_map ?_ h
  unfold mapS
  rw [RForm.fieldOp_pack]
  exact congrArg (fun g => some (Instr.mul g)) (RForm.unpack_pack 0x04 f)

theorem mulh (f : RForm) : Statement (.mulh f) := fun h => by
  refine of_map ?_ h
  unfold mapS
  rw [RForm.fieldOp_pack]
  exact congrArg (fun g => some (Instr.mulh g)) (RForm.unpack_pack 0x05 f)

theorem mulhn (f : RForm) : Statement (.mulhn f) := fun h => by
  refine of_map ?_ h
  unfold mapS
  rw [RForm.fieldOp_pack]
  exact congrArg (fun g => some (Instr.mulhn g)) (RForm.unpack_pack 0x06 f)

theorem div (f : RForm) : Statement (.div f) := fun h => by
  refine of_map ?_ h
  unfold mapS
  rw [RForm.fieldOp_pack]
  exact congrArg (fun g => some (Instr.div g)) (RForm.unpack_pack 0x07 f)

theorem divn (f : RForm) : Statement (.divn f) := fun h => by
  refine of_map ?_ h
  unfold mapS
  rw [RForm.fieldOp_pack]
  exact congrArg (fun g => some (Instr.divn g)) (RForm.unpack_pack 0x08 f)

theorem rem (f : RForm) : Statement (.rem f) := fun h => by
  refine of_map ?_ h
  unfold mapS
  rw [RForm.fieldOp_pack]
  exact congrArg (fun g => some (Instr.rem g)) (RForm.unpack_pack 0x09 f)

theorem remn (f : RForm) : Statement (.remn f) := fun h => by
  refine of_map ?_ h
  unfold mapS
  rw [RForm.fieldOp_pack]
  exact congrArg (fun g => some (Instr.remn g)) (RForm.unpack_pack 0x0A f)

theorem and (f : RForm) : Statement (.and f) := fun h => by
  refine of_map ?_ h
  unfold mapS
  rw [RForm.fieldOp_pack]
  exact congrArg (fun g => some (Instr.and g)) (RForm.unpack_pack 0x10 f)

theorem andi (f : IForm) : Statement (.andi f) := fun h => by
  refine of_map ?_ h
  unfold mapS
  rw [IForm.fieldOp_pack]
  exact congrArg (fun g => some (Instr.andi g)) (IForm.unpack_pack 0x11 f)

theorem or (f : RForm) : Statement (.or f) := fun h => by
  refine of_map ?_ h
  unfold mapS
  rw [RForm.fieldOp_pack]
  exact congrArg (fun g => some (Instr.or g)) (RForm.unpack_pack 0x12 f)

theorem ori (f : IForm) : Statement (.ori f) := fun h => by
  refine of_map ?_ h
  unfold mapS
  rw [IForm.fieldOp_pack]
  exact congrArg (fun g => some (Instr.ori g)) (IForm.unpack_pack 0x13 f)

theorem xor (f : RForm) : Statement (.xor f) := fun h => by
  refine of_map ?_ h
  unfold mapS
  rw [RForm.fieldOp_pack]
  exact congrArg (fun g => some (Instr.xor g)) (RForm.unpack_pack 0x14 f)

theorem xori (f : IForm) : Statement (.xori f) := fun h => by
  refine of_map ?_ h
  unfold mapS
  rw [IForm.fieldOp_pack]
  exact congrArg (fun g => some (Instr.xori g)) (IForm.unpack_pack 0x15 f)

theorem shl (f : RForm) : Statement (.shl f) := fun h => by
  refine of_map ?_ h
  unfold mapS
  rw [RForm.fieldOp_pack]
  exact congrArg (fun g => some (Instr.shl g)) (RForm.unpack_pack 0x16 f)

theorem shli (f : IForm) : Statement (.shli f) := fun h => by
  refine of_map ?_ h
  unfold mapS
  rw [IForm.fieldOp_pack]
  exact congrArg (fun g => some (Instr.shli g)) (IForm.unpack_pack 0x17 f)

theorem shr (f : RForm) : Statement (.shr f) := fun h => by
  refine of_map ?_ h
  unfold mapS
  rw [RForm.fieldOp_pack]
  exact congrArg (fun g => some (Instr.shr g)) (RForm.unpack_pack 0x18 f)

theorem shri (f : IForm) : Statement (.shri f) := fun h => by
  refine of_map ?_ h
  unfold mapS
  rw [IForm.fieldOp_pack]
  exact congrArg (fun g => some (Instr.shri g)) (IForm.unpack_pack 0x19 f)

theorem shra (f : RForm) : Statement (.shra f) := fun h => by
  refine of_map ?_ h
  unfold mapS
  rw [RForm.fieldOp_pack]
  exact congrArg (fun g => some (Instr.shra g)) (RForm.unpack_pack 0x1A f)

theorem shrai (f : IForm) : Statement (.shrai f) := fun h => by
  refine of_map ?_ h
  unfold mapS
  rw [IForm.fieldOp_pack]
  exact congrArg (fun g => some (Instr.shrai g)) (IForm.unpack_pack 0x1B f)

theorem rotl (f : RForm) : Statement (.rotl f) := fun h => by
  refine of_map ?_ h
  unfold mapS
  rw [RForm.fieldOp_pack]
  exact congrArg (fun g => some (Instr.rotl g)) (RForm.unpack_pack 0x1C f)

theorem clz (f : RForm) : Statement (.clz f) := fun h => by
  refine of_map ?_ h
  unfold mapS
  rw [RForm.fieldOp_pack]
  exact congrArg (fun g => some (Instr.clz g)) (RForm.unpack_pack 0x20 f)

theorem popc (f : RForm) : Statement (.popc f) := fun h => by
  refine of_map ?_ h
  unfold mapS
  rw [RForm.fieldOp_pack]
  exact congrArg (fun g => some (Instr.popc g)) (RForm.unpack_pack 0x21 f)

theorem min (f : RForm) : Statement (.min f) := fun h => by
  refine of_map ?_ h
  unfold mapS
  rw [RForm.fieldOp_pack]
  exact congrArg (fun g => some (Instr.min g)) (RForm.unpack_pack 0x22 f)

theorem max (f : RForm) : Statement (.max f) := fun h => by
  refine of_map ?_ h
  unfold mapS
  rw [RForm.fieldOp_pack]
  exact congrArg (fun g => some (Instr.max g)) (RForm.unpack_pack 0x23 f)

theorem minn (f : RForm) : Statement (.minn f) := fun h => by
  refine of_map ?_ h
  unfold mapS
  rw [RForm.fieldOp_pack]
  exact congrArg (fun g => some (Instr.minn g)) (RForm.unpack_pack 0x24 f)

theorem maxn (f : RForm) : Statement (.maxn f) := fun h => by
  refine of_map ?_ h
  unfold mapS
  rw [RForm.fieldOp_pack]
  exact congrArg (fun g => some (Instr.maxn g)) (RForm.unpack_pack 0x25 f)

theorem cmp (f : RForm) : Statement (.cmp f) := fun h => by
  refine of_map ?_ h
  unfold mapS
  rw [RForm.fieldOp_pack]
  exact congrArg (fun g => some (Instr.cmp g)) (RForm.unpack_pack 0x28 f)

theorem sel (f : RForm) : Statement (.sel f) := fun h => by
  refine of_map ?_ h
  unfold mapS
  rw [RForm.fieldOp_pack]
  exact congrArg (fun g => some (Instr.sel g)) (RForm.unpack_pack 0x29 f)

theorem mov (f : RForm) : Statement (.mov f) := fun h => by
  refine of_map ?_ h
  unfold mapS
  rw [RForm.fieldOp_pack]
  exact congrArg (fun g => some (Instr.mov g)) (RForm.unpack_pack 0x2A f)

theorem li (f : LForm) : Statement (.li f) := fun h => by
  refine of_map ?_ h
  unfold mapS
  rw [LForm.fieldOp_pack]
  exact congrArg (fun g => some (Instr.li g)) (LForm.unpack_pack 0x2B f)

theorem lih (f : LForm) : Statement (.lih f) := fun h => by
  refine of_map ?_ h
  unfold mapS
  rw [LForm.fieldOp_pack]
  exact congrArg (fun g => some (Instr.lih g)) (LForm.unpack_pack 0x2C f)

theorem addr (f : RForm) : Statement (.addr f) := fun h => by
  refine of_map ?_ h
  unfold mapS
  rw [RForm.fieldOp_pack]
  exact congrArg (fun g => some (Instr.addr g)) (RForm.unpack_pack 0x30 f)

theorem extb (f : RForm) : Statement (.extb f) := fun h => by
  refine of_map ?_ h
  unfold mapS
  rw [RForm.fieldOp_pack]
  exact congrArg (fun g => some (Instr.extb g)) (RForm.unpack_pack 0x31 f)

theorem exth (f : RForm) : Statement (.exth f) := fun h => by
  refine of_map ?_ h
  unfold mapS
  rw [RForm.fieldOp_pack]
  exact congrArg (fun g => some (Instr.exth g)) (RForm.unpack_pack 0x32 f)

theorem extw (f : RForm) : Statement (.extw f) := fun h => by
  refine of_map ?_ h
  unfold mapS
  rw [RForm.fieldOp_pack]
  exact congrArg (fun g => some (Instr.extw g)) (RForm.unpack_pack 0x33 f)

theorem bfx (f : RForm) : Statement (.bfx f) := fun h => by
  refine of_map ?_ h
  unfold mapS
  rw [RForm.fieldOp_pack]
  exact congrArg (fun g => some (Instr.bfx g)) (RForm.unpack_pack 0x34 f)

theorem bfi (f : RForm) : Statement (.bfi f) := fun h => by
  refine of_map ?_ h
  unfold mapS
  rw [RForm.fieldOp_pack]
  exact congrArg (fun g => some (Instr.bfi g)) (RForm.unpack_pack 0x35 f)

theorem pand (f : RForm) : Statement (.pand f) := fun h => by
  refine of_map ?_ h
  unfold mapS
  rw [RForm.fieldOp_pack]
  exact congrArg (fun g => some (Instr.pand g)) (RForm.unpack_pack 0x38 f)

theorem por (f : RForm) : Statement (.por f) := fun h => by
  refine of_map ?_ h
  unfold mapS
  rw [RForm.fieldOp_pack]
  exact congrArg (fun g => some (Instr.por g)) (RForm.unpack_pack 0x39 f)

theorem pnot (f : RForm) : Statement (.pnot f) := fun h => by
  refine of_map ?_ h
  unfold mapS
  rw [RForm.fieldOp_pack]
  exact congrArg (fun g => some (Instr.pnot g)) (RForm.unpack_pack 0x3A f)

theorem fcvts (f : RForm) : Statement (.fcvts f) := fun h => by
  refine of_map ?_ h
  unfold mapS
  rw [RForm.fieldOp_pack]
  exact congrArg (fun g => some (Instr.fcvts g)) (RForm.unpack_pack 0x3C f)

theorem fcmps (f : RForm) : Statement (.fcmps f) := fun h => by
  refine of_map ?_ h
  unfold mapS
  rw [RForm.fieldOp_pack]
  exact congrArg (fun g => some (Instr.fcmps g)) (RForm.unpack_pack 0x3D f)

theorem lapset (f : RForm) : Statement (.lapset f) := fun h => by
  refine of_map ?_ h
  unfold mapS
  rw [RForm.fieldOp_pack]
  exact congrArg (fun g => some (Instr.lapset g)) (RForm.unpack_pack 0x40 f)

theorem lapadd (f : RForm) : Statement (.lapadd f) := fun h => by
  refine of_map ?_ h
  unfold mapS
  rw [RForm.fieldOp_pack]
  exact congrArg (fun g => some (Instr.lapadd g)) (RForm.unpack_pack 0x41 f)

theorem lapget (f : RForm) : Statement (.lapget f) := fun h => by
  refine of_map ?_ h
  unfold mapS
  rw [RForm.fieldOp_pack]
  exact congrArg (fun g => some (Instr.lapget g)) (RForm.unpack_pack 0x42 f)

theorem br (f : FForm) : Statement (.br f) := fun h => by
  refine of_map ?_ h
  unfold mapF
  rw [FForm.fieldOp_pack]
  exact congrArg (fun g => some (Instr.br g)) (FForm.unpack_pack 0x01 f)

theorem brc (f : FForm) : Statement (.brc f) := fun h => by
  refine of_map ?_ h
  unfold mapF
  rw [FForm.fieldOp_pack]
  exact congrArg (fun g => some (Instr.brc g)) (FForm.unpack_pack 0x02 f)

theorem jmp (f : FForm) : Statement (.jmp f) := fun h => by
  refine of_map ?_ h
  unfold mapF
  rw [FForm.fieldOp_pack]
  exact congrArg (fun g => some (Instr.jmp g)) (FForm.unpack_pack 0x03 f)

theorem call (f : FForm) : Statement (.call f) := fun h => by
  refine of_map ?_ h
  unfold mapF
  rw [FForm.fieldOp_pack]
  exact congrArg (fun g => some (Instr.call g)) (FForm.unpack_pack 0x04 f)

theorem ret (f : FForm) : Statement (.ret f) := fun h => by
  refine of_map ?_ h
  unfold mapF
  rw [FForm.fieldOp_pack]
  exact congrArg (fun g => some (Instr.ret g)) (FForm.unpack_pack 0x05 f)

theorem loop (f : FForm) : Statement (.loop f) := fun h => by
  refine of_map ?_ h
  unfold mapF
  rw [FForm.fieldOp_pack]
  exact congrArg (fun g => some (Instr.loop g)) (FForm.unpack_pack 0x08 f)

theorem loopi (f : FForm) : Statement (.loopi f) := fun h => by
  refine of_map ?_ h
  unfold mapF
  rw [FForm.fieldOp_pack]
  exact congrArg (fun g => some (Instr.loopi g)) (FForm.unpack_pack 0x09 f)

theorem breakl (f : FForm) : Statement (.breakl f) := fun h => by
  refine of_map ?_ h
  unfold mapF
  rw [FForm.fieldOp_pack]
  exact congrArg (fun g => some (Instr.breakl g)) (FForm.unpack_pack 0x0A f)

theorem waitb (f : FForm) : Statement (.waitb f) := fun h => by
  refine of_map ?_ h
  unfold mapF
  rw [FForm.fieldOp_pack]
  exact congrArg (fun g => some (Instr.waitb g)) (FForm.unpack_pack 0x10 f)

theorem waitt (f : FForm) : Statement (.waitt f) := fun h => by
  refine of_map ?_ h
  unfold mapF
  rw [FForm.fieldOp_pack]
  exact congrArg (fun g => some (Instr.waitt g)) (FForm.unpack_pack 0x11 f)

theorem waitf (f : FForm) : Statement (.waitf f) := fun h => by
  refine of_map ?_ h
  unfold mapF
  rw [FForm.fieldOp_pack]
  exact congrArg (fun g => some (Instr.waitf g)) (FForm.unpack_pack 0x12 f)

theorem advp (f : FForm) : Statement (.advp f) := fun h => by
  refine of_map ?_ h
  unfold mapF
  rw [FForm.fieldOp_pack]
  exact congrArg (fun g => some (Instr.advp g)) (FForm.unpack_pack 0x14 f)

theorem advc (f : FForm) : Statement (.advc f) := fun h => by
  refine of_map ?_ h
  unfold mapF
  rw [FForm.fieldOp_pack]
  exact congrArg (fun g => some (Instr.advc g)) (FForm.unpack_pack 0x15 f)

theorem yield (f : FForm) : Statement (.yield f) := fun h => by
  refine of_map ?_ h
  unfold mapF
  rw [FForm.fieldOp_pack]
  exact congrArg (fun g => some (Instr.yield g)) (FForm.unpack_pack 0x18 f)

theorem endOp (f : FForm) : Statement (.endOp f) := fun h => by
  refine of_map ?_ h
  unfold mapF
  rw [FForm.fieldOp_pack]
  exact congrArg (fun g => some (Instr.endOp g)) (FForm.unpack_pack 0x19 f)

theorem sleep (f : FForm) : Statement (.sleep f) := fun h => by
  refine of_map ?_ h
  unfold mapF
  rw [FForm.fieldOp_pack]
  exact congrArg (fun g => some (Instr.sleep g)) (FForm.unpack_pack 0x1A f)

theorem trap (f : FForm) : Statement (.trap f) := fun h => by
  refine of_map ?_ h
  unfold mapF
  rw [FForm.fieldOp_pack]
  exact congrArg (fun g => some (Instr.trap g)) (FForm.unpack_pack 0x1C f)

theorem rft (f : FForm) : Statement (.rft f) := fun h => by
  refine of_map ?_ h
  unfold mapF
  rw [FForm.fieldOp_pack]
  exact congrArg (fun g => some (Instr.rft g)) (FForm.unpack_pack 0x1D f)

theorem ldb (f : MForm) : Statement (.ldb f) := fun h => by
  refine of_map ?_ h
  unfold mapM
  rw [MForm.fieldOp_pack]
  exact congrArg (fun g => some (Instr.ldb g)) (MForm.unpack_pack 0x01 f)

theorem ldbn (f : MForm) : Statement (.ldbn f) := fun h => by
  refine of_map ?_ h
  unfold mapM
  rw [MForm.fieldOp_pack]
  exact congrArg (fun g => some (Instr.ldbn g)) (MForm.unpack_pack 0x02 f)

theorem ldh (f : MForm) : Statement (.ldh f) := fun h => by
  refine of_map ?_ h
  unfold mapM
  rw [MForm.fieldOp_pack]
  exact congrArg (fun g => some (Instr.ldh g)) (MForm.unpack_pack 0x03 f)

theorem ldhn (f : MForm) : Statement (.ldhn f) := fun h => by
  refine of_map ?_ h
  unfold mapM
  rw [MForm.fieldOp_pack]
  exact congrArg (fun g => some (Instr.ldhn g)) (MForm.unpack_pack 0x04 f)

theorem ldw (f : MForm) : Statement (.ldw f) := fun h => by
  refine of_map ?_ h
  unfold mapM
  rw [MForm.fieldOp_pack]
  exact congrArg (fun g => some (Instr.ldw g)) (MForm.unpack_pack 0x05 f)

theorem ldwn (f : MForm) : Statement (.ldwn f) := fun h => by
  refine of_map ?_ h
  unfold mapM
  rw [MForm.fieldOp_pack]
  exact congrArg (fun g => some (Instr.ldwn g)) (MForm.unpack_pack 0x06 f)

theorem ldd (f : MForm) : Statement (.ldd f) := fun h => by
  refine of_map ?_ h
  unfold mapM
  rw [MForm.fieldOp_pack]
  exact congrArg (fun g => some (Instr.ldd g)) (MForm.unpack_pack 0x07 f)

theorem stb (f : MForm) : Statement (.stb f) := fun h => by
  refine of_map ?_ h
  unfold mapM
  rw [MForm.fieldOp_pack]
  exact congrArg (fun g => some (Instr.stb g)) (MForm.unpack_pack 0x08 f)

theorem sth (f : MForm) : Statement (.sth f) := fun h => by
  refine of_map ?_ h
  unfold mapM
  rw [MForm.fieldOp_pack]
  exact congrArg (fun g => some (Instr.sth g)) (MForm.unpack_pack 0x09 f)

theorem stw (f : MForm) : Statement (.stw f) := fun h => by
  refine of_map ?_ h
  unfold mapM
  rw [MForm.fieldOp_pack]
  exact congrArg (fun g => some (Instr.stw g)) (MForm.unpack_pack 0x0A f)

theorem std (f : MForm) : Statement (.std f) := fun h => by
  refine of_map ?_ h
  unfold mapM
  rw [MForm.fieldOp_pack]
  exact congrArg (fun g => some (Instr.std g)) (MForm.unpack_pack 0x0B f)

theorem amoadd (f : MForm) : Statement (.amoadd f) := fun h => by
  refine of_map ?_ h
  unfold mapM
  rw [MForm.fieldOp_pack]
  exact congrArg (fun g => some (Instr.amoadd g)) (MForm.unpack_pack 0x10 f)

theorem amoand (f : MForm) : Statement (.amoand f) := fun h => by
  refine of_map ?_ h
  unfold mapM
  rw [MForm.fieldOp_pack]
  exact congrArg (fun g => some (Instr.amoand g)) (MForm.unpack_pack 0x11 f)

theorem amoor (f : MForm) : Statement (.amoor f) := fun h => by
  refine of_map ?_ h
  unfold mapM
  rw [MForm.fieldOp_pack]
  exact congrArg (fun g => some (Instr.amoor g)) (MForm.unpack_pack 0x12 f)

theorem amoxor (f : MForm) : Statement (.amoxor f) := fun h => by
  refine of_map ?_ h
  unfold mapM
  rw [MForm.fieldOp_pack]
  exact congrArg (fun g => some (Instr.amoxor g)) (MForm.unpack_pack 0x13 f)

theorem amomin (f : MForm) : Statement (.amomin f) := fun h => by
  refine of_map ?_ h
  unfold mapM
  rw [MForm.fieldOp_pack]
  exact congrArg (fun g => some (Instr.amomin g)) (MForm.unpack_pack 0x14 f)

theorem amomax (f : MForm) : Statement (.amomax f) := fun h => by
  refine of_map ?_ h
  unfold mapM
  rw [MForm.fieldOp_pack]
  exact congrArg (fun g => some (Instr.amomax g)) (MForm.unpack_pack 0x15 f)

theorem amominn (f : MForm) : Statement (.amominn f) := fun h => by
  refine of_map ?_ h
  unfold mapM
  rw [MForm.fieldOp_pack]
  exact congrArg (fun g => some (Instr.amominn g)) (MForm.unpack_pack 0x16 f)

theorem amomaxn (f : MForm) : Statement (.amomaxn f) := fun h => by
  refine of_map ?_ h
  unfold mapM
  rw [MForm.fieldOp_pack]
  exact congrArg (fun g => some (Instr.amomaxn g)) (MForm.unpack_pack 0x17 f)

theorem amoswp (f : MForm) : Statement (.amoswp f) := fun h => by
  refine of_map ?_ h
  unfold mapM
  rw [MForm.fieldOp_pack]
  exact congrArg (fun g => some (Instr.amoswp g)) (MForm.unpack_pack 0x18 f)

theorem amocas (f : MForm) : Statement (.amocas f) := fun h => by
  refine of_map ?_ h
  unfold mapM
  rw [MForm.fieldOp_pack]
  exact congrArg (fun g => some (Instr.amocas g)) (MForm.unpack_pack 0x19 f)

theorem fence (f : MForm) : Statement (.fence f) := fun h => by
  refine of_map ?_ h
  unfold mapM
  rw [MForm.fieldOp_pack]
  exact congrArg (fun g => some (Instr.fence g)) (MForm.unpack_pack 0x1C f)

theorem tlinc (f : MForm) : Statement (.tlinc f) := fun h => by
  refine of_map ?_ h
  unfold mapM
  rw [MForm.fieldOp_pack]
  exact congrArg (fun g => some (Instr.tlinc g)) (MForm.unpack_pack 0x20 f)

theorem tlread (f : MForm) : Statement (.tlread f) := fun h => by
  refine of_map ?_ h
  unfold mapM
  rw [MForm.fieldOp_pack]
  exact congrArg (fun g => some (Instr.tlread g)) (MForm.unpack_pack 0x21 f)

theorem cpgo (f : MForm) : Statement (.cpgo f) := fun h => by
  refine of_map ?_ h
  unfold mapM
  rw [MForm.fieldOp_pack]
  exact congrArg (fun g => some (Instr.cpgo g)) (MForm.unpack_pack 0x24 f)

theorem cpstep (f : MForm) : Statement (.cpstep f) := fun h => by
  refine of_map ?_ h
  unfold mapM
  rw [MForm.fieldOp_pack]
  exact congrArg (fun g => some (Instr.cpstep g)) (MForm.unpack_pack 0x25 f)

theorem cpstat (f : MForm) : Statement (.cpstat f) := fun h => by
  refine of_map ?_ h
  unfold mapM
  rw [MForm.fieldOp_pack]
  exact congrArg (fun g => some (Instr.cpstat g)) (MForm.unpack_pack 0x26 f)

theorem gidx (f : MForm) : Statement (.gidx f) := fun h => by
  refine of_map ?_ h
  unfold mapM
  rw [MForm.fieldOp_pack]
  exact congrArg (fun g => some (Instr.gidx g)) (MForm.unpack_pack 0x28 f)

theorem gcfg (f : MForm) : Statement (.gcfg f) := fun h => by
  refine of_map ?_ h
  unfold mapM
  rw [MForm.fieldOp_pack]
  exact congrArg (fun g => some (Instr.gcfg g)) (MForm.unpack_pack 0x29 f)

theorem bsend (f : MForm) : Statement (.bsend f) := fun h => by
  refine of_map ?_ h
  unfold mapM
  rw [MForm.fieldOp_pack]
  exact congrArg (fun g => some (Instr.bsend g)) (MForm.unpack_pack 0x2C f)

theorem prog (f : MForm) : Statement (.prog f) := fun h => by
  refine of_map ?_ h
  unfold mapM
  rw [MForm.fieldOp_pack]
  exact congrArg (fun g => some (Instr.prog g)) (MForm.unpack_pack 0x2D f)

theorem front (f : MForm) : Statement (.front f) := fun h => by
  refine of_map ?_ h
  unfold mapM
  rw [MForm.fieldOp_pack]
  exact congrArg (fun g => some (Instr.front g)) (MForm.unpack_pack 0x2E f)

theorem gcancel (f : MForm) : Statement (.gcancel f) := fun h => by
  refine of_map ?_ h
  unfold mapM
  rw [MForm.fieldOp_pack]
  exact congrArg (fun g => some (Instr.gcancel g)) (MForm.unpack_pack 0x2F f)

theorem xput (f : MForm) : Statement (.xput f) := fun h => by
  refine of_map ?_ h
  unfold mapM
  rw [MForm.fieldOp_pack]
  exact congrArg (fun g => some (Instr.xput g)) (MForm.unpack_pack 0x30 f)

theorem tdefer (f : MForm) : Statement (.tdefer f) := fun h => by
  refine of_map ?_ h
  unfold mapM
  rw [MForm.fieldOp_pack]
  exact congrArg (fun g => some (Instr.tdefer g)) (MForm.unpack_pack 0x34 f)

theorem tpwr (f : MForm) : Statement (.tpwr f) := fun h => by
  refine of_map ?_ h
  unfold mapM
  rw [MForm.fieldOp_pack]
  exact congrArg (fun g => some (Instr.tpwr g)) (MForm.unpack_pack 0x35 f)

theorem vpwr (f : MForm) : Statement (.vpwr f) := fun h => by
  refine of_map ?_ h
  unfold mapM
  rw [MForm.fieldOp_pack]
  exact congrArg (fun g => some (Instr.vpwr g)) (MForm.unpack_pack 0x36 f)

theorem sysr (f : MForm) : Statement (.sysr f) := fun h => by
  refine of_map ?_ h
  unfold mapM
  rw [MForm.fieldOp_pack]
  exact congrArg (fun g => some (Instr.sysr g)) (MForm.unpack_pack 0x38 f)

theorem sysw (f : MForm) : Statement (.sysw f) := fun h => by
  refine of_map ?_ h
  unfold mapM
  rw [MForm.fieldOp_pack]
  exact congrArg (fun g => some (Instr.sysw g)) (MForm.unpack_pack 0x39 f)

theorem tlbinv (f : MForm) : Statement (.tlbinv f) := fun h => by
  refine of_map ?_ h
  unfold mapM
  rw [MForm.fieldOp_pack]
  exact congrArg (fun g => some (Instr.tlbinv g)) (MForm.unpack_pack 0x3A f)

theorem tlbsync (f : MForm) : Statement (.tlbsync f) := fun h => by
  refine of_map ?_ h
  unfold mapM
  rw [MForm.fieldOp_pack]
  exact congrArg (fun g => some (Instr.tlbsync g)) (MForm.unpack_pack 0x3B f)

theorem evpop (f : MForm) : Statement (.evpop f) := fun h => by
  refine of_map ?_ h
  unfold mapM
  rw [MForm.fieldOp_pack]
  exact congrArg (fun g => some (Instr.evpop g)) (MForm.unpack_pack 0x3C f)

theorem watch (f : MForm) : Statement (.watch f) := fun h => by
  refine of_map ?_ h
  unfold mapM
  rw [MForm.fieldOp_pack]
  exact congrArg (fun g => some (Instr.watch g)) (MForm.unpack_pack 0x3D f)

theorem tld (f : CForm) : Statement (.tld f) := fun h => by
  refine of_map ?_ h
  unfold mapC
  rw [CForm.fieldOp_pack]
  exact congrArg (fun g => some (Instr.tld g)) (CForm.unpack_pack 0x01 f)

theorem tst (f : CForm) : Statement (.tst f) := fun h => by
  refine of_map ?_ h
  unfold mapC
  rw [CForm.fieldOp_pack]
  exact congrArg (fun g => some (Instr.tst g)) (CForm.unpack_pack 0x02 f)

theorem tldm (f : CForm) : Statement (.tldm f) := fun h => by
  refine of_map ?_ h
  unfold mapC
  rw [CForm.fieldOp_pack]
  exact congrArg (fun g => some (Instr.tldm g)) (CForm.unpack_pack 0x03 f)

theorem vadd (f : CForm) : Statement (.vadd f) := fun h => by
  refine of_map ?_ h
  unfold mapC
  rw [CForm.fieldOp_pack]
  exact congrArg (fun g => some (Instr.vadd g)) (CForm.unpack_pack 0x08 f)

theorem vsub (f : CForm) : Statement (.vsub f) := fun h => by
  refine of_map ?_ h
  unfold mapC
  rw [CForm.fieldOp_pack]
  exact congrArg (fun g => some (Instr.vsub g)) (CForm.unpack_pack 0x09 f)

theorem vmul (f : CForm) : Statement (.vmul f) := fun h => by
  refine of_map ?_ h
  unfold mapC
  rw [CForm.fieldOp_pack]
  exact congrArg (fun g => some (Instr.vmul g)) (CForm.unpack_pack 0x0A f)

theorem vfma (f : CForm) : Statement (.vfma f) := fun h => by
  refine of_map ?_ h
  unfold mapC
  rw [CForm.fieldOp_pack]
  exact congrArg (fun g => some (Instr.vfma g)) (CForm.unpack_pack 0x0B f)

theorem vfms (f : CForm) : Statement (.vfms f) := fun h => by
  refine of_map ?_ h
  unfold mapC
  rw [CForm.fieldOp_pack]
  exact congrArg (fun g => some (Instr.vfms g)) (CForm.unpack_pack 0x0C f)

theorem vfnma (f : CForm) : Statement (.vfnma f) := fun h => by
  refine of_map ?_ h
  unfold mapC
  rw [CForm.fieldOp_pack]
  exact congrArg (fun g => some (Instr.vfnma g)) (CForm.unpack_pack 0x0D f)

theorem vmin (f : CForm) : Statement (.vmin f) := fun h => by
  refine of_map ?_ h
  unfold mapC
  rw [CForm.fieldOp_pack]
  exact congrArg (fun g => some (Instr.vmin g)) (CForm.unpack_pack 0x0E f)

theorem vmax (f : CForm) : Statement (.vmax f) := fun h => by
  refine of_map ?_ h
  unfold mapC
  rw [CForm.fieldOp_pack]
  exact congrArg (fun g => some (Instr.vmax g)) (CForm.unpack_pack 0x0F f)

theorem vabs (f : CForm) : Statement (.vabs f) := fun h => by
  refine of_map ?_ h
  unfold mapC
  rw [CForm.fieldOp_pack]
  exact congrArg (fun g => some (Instr.vabs g)) (CForm.unpack_pack 0x10 f)

theorem vneg (f : CForm) : Statement (.vneg f) := fun h => by
  refine of_map ?_ h
  unfold mapC
  rw [CForm.fieldOp_pack]
  exact congrArg (fun g => some (Instr.vneg g)) (CForm.unpack_pack 0x11 f)

theorem vcps (f : CForm) : Statement (.vcps f) := fun h => by
  refine of_map ?_ h
  unfold mapC
  rw [CForm.fieldOp_pack]
  exact congrArg (fun g => some (Instr.vcps g)) (CForm.unpack_pack 0x12 f)

theorem vcmp (f : CForm) : Statement (.vcmp f) := fun h => by
  refine of_map ?_ h
  unfold mapC
  rw [CForm.fieldOp_pack]
  exact congrArg (fun g => some (Instr.vcmp g)) (CForm.unpack_pack 0x13 f)

theorem vsel (f : CForm) : Statement (.vsel f) := fun h => by
  refine of_map ?_ h
  unfold mapC
  rw [CForm.fieldOp_pack]
  exact congrArg (fun g => some (Instr.vsel g)) (CForm.unpack_pack 0x14 f)

theorem vrnd (f : CForm) : Statement (.vrnd f) := fun h => by
  refine of_map ?_ h
  unfold mapC
  rw [CForm.fieldOp_pack]
  exact congrArg (fun g => some (Instr.vrnd g)) (CForm.unpack_pack 0x18 f)

theorem vexf (f : CForm) : Statement (.vexf f) := fun h => by
  refine of_map ?_ h
  unfold mapC
  rw [CForm.fieldOp_pack]
  exact congrArg (fun g => some (Instr.vexf g)) (CForm.unpack_pack 0x19 f)

theorem vlgf (f : CForm) : Statement (.vlgf f) := fun h => by
  refine of_map ?_ h
  unfold mapC
  rw [CForm.fieldOp_pack]
  exact congrArg (fun g => some (Instr.vlgf g)) (CForm.unpack_pack 0x1A f)

theorem vrcpf (f : CForm) : Statement (.vrcpf f) := fun h => by
  refine of_map ?_ h
  unfold mapC
  rw [CForm.fieldOp_pack]
  exact congrArg (fun g => some (Instr.vrcpf g)) (CForm.unpack_pack 0x1B f)

theorem vrsqf (f : CForm) : Statement (.vrsqf f) := fun h => by
  refine of_map ?_ h
  unfold mapC
  rw [CForm.fieldOp_pack]
  exact congrArg (fun g => some (Instr.vrsqf g)) (CForm.unpack_pack 0x1C f)

theorem vscl (f : CForm) : Statement (.vscl f) := fun h => by
  refine of_map ?_ h
  unfold mapC
  rw [CForm.fieldOp_pack]
  exact congrArg (fun g => some (Instr.vscl g)) (CForm.unpack_pack 0x1D f)

theorem viadd (f : CForm) : Statement (.viadd f) := fun h => by
  refine of_map ?_ h
  unfold mapC
  rw [CForm.fieldOp_pack]
  exact congrArg (fun g => some (Instr.viadd g)) (CForm.unpack_pack 0x20 f)

theorem visub (f : CForm) : Statement (.visub f) := fun h => by
  refine of_map ?_ h
  unfold mapC
  rw [CForm.fieldOp_pack]
  exact congrArg (fun g => some (Instr.visub g)) (CForm.unpack_pack 0x21 f)

theorem vimul (f : CForm) : Statement (.vimul f) := fun h => by
  refine of_map ?_ h
  unfold mapC
  rw [CForm.fieldOp_pack]
  exact congrArg (fun g => some (Instr.vimul g)) (CForm.unpack_pack 0x22 f)

theorem vimad (f : CForm) : Statement (.vimad f) := fun h => by
  refine of_map ?_ h
  unfold mapC
  rw [CForm.fieldOp_pack]
  exact congrArg (fun g => some (Instr.vimad g)) (CForm.unpack_pack 0x23 f)

theorem vand (f : CForm) : Statement (.vand f) := fun h => by
  refine of_map ?_ h
  unfold mapC
  rw [CForm.fieldOp_pack]
  exact congrArg (fun g => some (Instr.vand g)) (CForm.unpack_pack 0x24 f)

theorem vor (f : CForm) : Statement (.vor f) := fun h => by
  refine of_map ?_ h
  unfold mapC
  rw [CForm.fieldOp_pack]
  exact congrArg (fun g => some (Instr.vor g)) (CForm.unpack_pack 0x25 f)

theorem vxor (f : CForm) : Statement (.vxor f) := fun h => by
  refine of_map ?_ h
  unfold mapC
  rw [CForm.fieldOp_pack]
  exact congrArg (fun g => some (Instr.vxor g)) (CForm.unpack_pack 0x26 f)

theorem vshl (f : CForm) : Statement (.vshl f) := fun h => by
  refine of_map ?_ h
  unfold mapC
  rw [CForm.fieldOp_pack]
  exact congrArg (fun g => some (Instr.vshl g)) (CForm.unpack_pack 0x27 f)

theorem vshr (f : CForm) : Statement (.vshr f) := fun h => by
  refine of_map ?_ h
  unfold mapC
  rw [CForm.fieldOp_pack]
  exact congrArg (fun g => some (Instr.vshr g)) (CForm.unpack_pack 0x28 f)

theorem vshra (f : CForm) : Statement (.vshra f) := fun h => by
  refine of_map ?_ h
  unfold mapC
  rw [CForm.fieldOp_pack]
  exact congrArg (fun g => some (Instr.vshra g)) (CForm.unpack_pack 0x29 f)

theorem vimin (f : CForm) : Statement (.vimin f) := fun h => by
  refine of_map ?_ h
  unfold mapC
  rw [CForm.fieldOp_pack]
  exact congrArg (fun g => some (Instr.vimin g)) (CForm.unpack_pack 0x2A f)

theorem vimax (f : CForm) : Statement (.vimax f) := fun h => by
  refine of_map ?_ h
  unfold mapC
  rw [CForm.fieldOp_pack]
  exact congrArg (fun g => some (Instr.vimax g)) (CForm.unpack_pack 0x2B f)

theorem vicmp (f : CForm) : Statement (.vicmp f) := fun h => by
  refine of_map ?_ h
  unfold mapC
  rw [CForm.fieldOp_pack]
  exact congrArg (fun g => some (Instr.vicmp g)) (CForm.unpack_pack 0x2C f)

theorem vcvt (f : CForm) : Statement (.vcvt f) := fun h => by
  refine of_map ?_ h
  unfold mapC
  rw [CForm.fieldOp_pack]
  exact congrArg (fun g => some (Instr.vcvt g)) (CForm.unpack_pack 0x30 f)

theorem vpack (f : CForm) : Statement (.vpack f) := fun h => by
  refine of_map ?_ h
  unfold mapC
  rw [CForm.fieldOp_pack]
  exact congrArg (fun g => some (Instr.vpack g)) (CForm.unpack_pack 0x31 f)

theorem vunpk (f : CForm) : Statement (.vunpk f) := fun h => by
  refine of_map ?_ h
  unfold mapC
  rw [CForm.fieldOp_pack]
  exact congrArg (fun g => some (Instr.vunpk g)) (CForm.unpack_pack 0x32 f)

theorem vperm (f : CForm) : Statement (.vperm f) := fun h => by
  refine of_map ?_ h
  unfold mapC
  rw [CForm.fieldOp_pack]
  exact congrArg (fun g => some (Instr.vperm g)) (CForm.unpack_pack 0x33 f)

theorem vbcast (f : CForm) : Statement (.vbcast f) := fun h => by
  refine of_map ?_ h
  unfold mapC
  rw [CForm.fieldOp_pack]
  exact congrArg (fun g => some (Instr.vbcast g)) (CForm.unpack_pack 0x34 f)

theorem vrsum (f : CForm) : Statement (.vrsum f) := fun h => by
  refine of_map ?_ h
  unfold mapC
  rw [CForm.fieldOp_pack]
  exact congrArg (fun g => some (Instr.vrsum g)) (CForm.unpack_pack 0x38 f)

theorem vrmax (f : CForm) : Statement (.vrmax f) := fun h => by
  refine of_map ?_ h
  unfold mapC
  rw [CForm.fieldOp_pack]
  exact congrArg (fun g => some (Instr.vrmax g)) (CForm.unpack_pack 0x39 f)

theorem vspar (f : CForm) : Statement (.vspar f) := fun h => by
  refine of_map ?_ h
  unfold mapC
  rw [CForm.fieldOp_pack]
  exact congrArg (fun g => some (Instr.vspar g)) (CForm.unpack_pack 0x3A f)

theorem kand (f : CForm) : Statement (.kand f) := fun h => by
  refine of_map ?_ h
  unfold mapC
  rw [CForm.fieldOp_pack]
  exact congrArg (fun g => some (Instr.kand g)) (CForm.unpack_pack 0x3C f)

theorem kor (f : CForm) : Statement (.kor f) := fun h => by
  refine of_map ?_ h
  unfold mapC
  rw [CForm.fieldOp_pack]
  exact congrArg (fun g => some (Instr.kor g)) (CForm.unpack_pack 0x3D f)

theorem knot (f : CForm) : Statement (.knot f) := fun h => by
  refine of_map ?_ h
  unfold mapC
  rw [CForm.fieldOp_pack]
  exact congrArg (fun g => some (Instr.knot g)) (CForm.unpack_pack 0x3E f)

theorem kmov (f : CForm) : Statement (.kmov f) := fun h => by
  refine of_map ?_ h
  unfold mapC
  rw [CForm.fieldOp_pack]
  exact congrArg (fun g => some (Instr.kmov g)) (CForm.unpack_pack 0x3F f)

theorem kpop (f : CForm) : Statement (.kpop f) := fun h => by
  refine of_map ?_ h
  unfold mapC
  rw [CForm.fieldOp_pack]
  exact congrArg (fun g => some (Instr.kpop g)) (CForm.unpack_pack 0x40 f)

theorem shn (f : CForm) : Statement (.shn f) := fun h => by
  refine of_map ?_ h
  unfold mapC
  rw [CForm.fieldOp_pack]
  exact congrArg (fun g => some (Instr.shn g)) (CForm.unpack_pack 0x44 f)

theorem she (f : CForm) : Statement (.she f) := fun h => by
  refine of_map ?_ h
  unfold mapC
  rw [CForm.fieldOp_pack]
  exact congrArg (fun g => some (Instr.she g)) (CForm.unpack_pack 0x45 f)

theorem shs (f : CForm) : Statement (.shs f) := fun h => by
  refine of_map ?_ h
  unfold mapC
  rw [CForm.fieldOp_pack]
  exact congrArg (fun g => some (Instr.shs g)) (CForm.unpack_pack 0x46 f)

theorem shw (f : CForm) : Statement (.shw f) := fun h => by
  refine of_map ?_ h
  unfold mapC
  rw [CForm.fieldOp_pack]
  exact congrArg (fun g => some (Instr.shw g)) (CForm.unpack_pack 0x47 f)

theorem xsnd (f : CForm) : Statement (.xsnd f) := fun h => by
  refine of_map ?_ h
  unfold mapC
  rw [CForm.fieldOp_pack]
  exact congrArg (fun g => some (Instr.xsnd g)) (CForm.unpack_pack 0x48 f)

theorem xrcv (f : CForm) : Statement (.xrcv f) := fun h => by
  refine of_map ?_ h
  unfold mapC
  rw [CForm.fieldOp_pack]
  exact congrArg (fun g => some (Instr.xrcv g)) (CForm.unpack_pack 0x49 f)

theorem mma (f : CForm) : Statement (.mma f) := fun h => by
  refine of_map ?_ h
  unfold mapC
  rw [CForm.fieldOp_pack]
  exact congrArg (fun g => some (Instr.mma g)) (CForm.unpack_pack 0x50 f)

theorem mzero (f : CForm) : Statement (.mzero f) := fun h => by
  refine of_map ?_ h
  unfold mapC
  rw [CForm.fieldOp_pack]
  exact congrArg (fun g => some (Instr.mzero g)) (CForm.unpack_pack 0x51 f)

theorem mdrain (f : CForm) : Statement (.mdrain f) := fun h => by
  refine of_map ?_ h
  unfold mapC
  rw [CForm.fieldOp_pack]
  exact congrArg (fun g => some (Instr.mdrain g)) (CForm.unpack_pack 0x52 f)

theorem mload (f : CForm) : Statement (.mload f) := fun h => by
  refine of_map ?_ h
  unfold mapC
  rw [CForm.fieldOp_pack]
  exact congrArg (fun g => some (Instr.mload g)) (CForm.unpack_pack 0x53 f)

theorem mread (f : CForm) : Statement (.mread f) := fun h => by
  refine of_map ?_ h
  unfold mapC
  rw [CForm.fieldOp_pack]
  exact congrArg (fun g => some (Instr.mread g)) (CForm.unpack_pack 0x54 f)

theorem patch (f : CForm) : Statement (.patch f) := fun h => by
  refine of_map ?_ h
  unfold mapC
  rw [CForm.fieldOp_pack]
  exact congrArg (fun g => some (Instr.patch g)) (CForm.unpack_pack 0x55 f)

theorem lqnear (f : CForm) : Statement (.lqnear f) := fun h => by
  refine of_map ?_ h
  unfold mapC
  rw [CForm.fieldOp_pack]
  exact congrArg (fun g => some (Instr.lqnear g)) (CForm.unpack_pack 0x58 f)

theorem lqdec (f : CForm) : Statement (.lqdec f) := fun h => by
  refine of_map ?_ h
  unfold mapC
  rw [CForm.fieldOp_pack]
  exact congrArg (fun g => some (Instr.lqdec g)) (CForm.unpack_pack 0x59 f)

theorem lqscale (f : CForm) : Statement (.lqscale f) := fun h => by
  refine of_map ?_ h
  unfold mapC
  rw [CForm.fieldOp_pack]
  exact congrArg (fun g => some (Instr.lqscale g)) (CForm.unpack_pack 0x5A f)

theorem lqmerge (f : CForm) : Statement (.lqmerge f) := fun h => by
  refine of_map ?_ h
  unfold mapC
  rw [CForm.fieldOp_pack]
  exact congrArg (fun g => some (Instr.lqmerge g)) (CForm.unpack_pack 0x5B f)

theorem bundleFetch (c : Nat) (k : Nat) : Statement (.bundleFetch c k) := fun h => nomatch h

theorem resultLanding (c : Nat) (k : Nat) : Statement (.resultLanding c k) := fun h => nomatch h

theorem cellResultLanding (c : Nat) (k : Nat) : Statement (.cellResultLanding c k) := fun h => nomatch h

theorem mmaStep (c : Nat) (k : Nat) (n : Nat) : Statement (.mmaStep c k n) := fun h => nomatch h

theorem streamRowRead (c : Nat) (k : Nat) (n : Nat) : Statement (.streamRowRead c k n) := fun h => nomatch h

theorem mloadPerform (c : Nat) (k : Nat) (n : Nat) : Statement (.mloadPerform c k n) := fun h => nomatch h

theorem fragmentArrival (c : Nat) (k : Nat) : Statement (.fragmentArrival c k) := fun h => nomatch h

theorem expressArrival (n : Nat) : Statement (.expressArrival n) := fun h => nomatch h

theorem handlePublish (c : Nat) (k : Nat) (h : Nat) : Statement (.handlePublish c k h) := fun h => nomatch h

theorem trapEntry (c : Nat) (k : Nat) : Statement (.trapEntry c k) := fun h => nomatch h

theorem layerWakeDone (c : Nat) (cell : Nat) (layer : Nat) : Statement (.layerWakeDone c cell layer) := fun h => nomatch h

theorem groupWakeDone (c : Nat) (cell : Nat) (group : Nat) : Statement (.groupWakeDone c cell group) := fun h => nomatch h

theorem layerPowerChange (c : Nat) : Statement (.layerPowerChange c) := fun h => nomatch h

theorem refresh (c : Nat) (tower : Nat) (group : Nat) : Statement (.refresh c tower group) := fun h => nomatch h

theorem tempReading (cluster : Nat) (celsius : Nat) (time : Nat) : Statement (.tempReading cluster celsius time) := fun h => nomatch h

theorem retentionGuard (c : Nat) (k : Nat) (time : Nat) : Statement (.retentionGuard c k time) := fun h => nomatch h

theorem deferralExpiry (c : Nat) (time : Nat) : Statement (.deferralExpiry c time) := fun h => nomatch h

theorem selfTest (e : TestEvent) (failed : Bool) (time : Nat) : Statement (.selfTest e failed time) := fun h => nomatch h

theorem copyOpStart (c : Nat) (e : Nat) : Statement (.copyOpStart c e) := fun h => nomatch h

theorem columnRowWrite (c : Nat) (e : Nat) : Statement (.columnRowWrite c e) := fun h => nomatch h

theorem copyOpComplete (c : Nat) (e : Nat) : Statement (.copyOpComplete c e) := fun h => nomatch h

theorem copyOpError (c : Nat) (e : Nat) : Statement (.copyOpError c e) := fun h => nomatch h

theorem gatherRowFill (c : Nat) : Statement (.gatherRowFill c) := fun h => nomatch h

theorem xputDelivery (n : Nat) : Statement (.xputDelivery n) := fun h => nomatch h

theorem batonDelivery (n : Nat) : Statement (.batonDelivery n) := fun h => nomatch h

theorem judgeApply (c : Nat) (k : Nat) : Statement (.judgeApply c k) := fun h => nomatch h

theorem graphCancel (l : Nat) : Statement (.graphCancel l) := fun h => nomatch h

theorem scbaseWrite (c : Nat) (k : Nat) (v : BitVec 64) : Statement (.scbaseWrite c k v) := fun h => nomatch h

theorem rgnWrite (c : Nat) (k : Nat) (n : Nat) (v : BitVec 64) : Statement (.rgnWrite c k n v) := fun h => nomatch h

theorem sqgeomWrite (c : Nat) (k : Nat) (v : BitVec 64) : Statement (.sqgeomWrite c k v) := fun h => nomatch h

theorem curstWrite (c : Nat) (k : Nat) (v : BitVec 64) : Statement (.curstWrite c k v) := fun h => nomatch h

theorem evstatWrite (c : Nat) (v : BitVec 64) : Statement (.evstatWrite c v) := fun h => nomatch h

theorem evflagsWrite (c : Nat) (k : Nat) (v : BitVec 64) : Statement (.evflagsWrite c k v) := fun h => nomatch h

theorem tsaveWrite (c : Nat) (k : Nat) (v : BitVec 64) : Statement (.tsaveWrite c k v) := fun h => nomatch h

theorem qbellWrite (c : Nat) (k : Nat) (v : BitVec 64) : Statement (.qbellWrite c k v) := fun h => nomatch h

theorem stcfgWrite (c : Nat) (k : Nat) (v : BitVec 64) : Statement (.stcfgWrite c k v) := fun h => nomatch h

theorem ewgrantWrite (c : Nat) (k : Nat) (v : BitVec 64) : Statement (.ewgrantWrite c k v) := fun h => nomatch h

theorem tcauseRead (c : Nat) (k : Nat) (d : BitVec 6) : Statement (.tcauseRead c k d) := fun h => nomatch h

theorem retriskRead (c : Nat) (k : Nat) (d : BitVec 6) : Statement (.retriskRead c k d) := fun h => nomatch h

theorem engfltRead (c : Nat) (k : Nat) (b : Bool) (d : BitVec 6) : Statement (.engfltRead c k b d) := fun h => nomatch h

theorem errlastRead (c : Nat) (k : Nat) (d : BitVec 6) : Statement (.errlastRead c k d) := fun h => nomatch h

theorem sliceBoundary (time : Nat) : Statement (.sliceBoundary time) := fun h => nomatch h

theorem goSignal (l : Nat) : Statement (.goSignal l) := fun h => nomatch h

theorem placementFail (l : Nat) (cause : Nat) : Statement (.placementFail l cause) := fun h => nomatch h

theorem drainDone (l : Nat) : Statement (.drainDone l) := fun h => nomatch h

theorem checkpointDone (l : Nat) : Statement (.checkpointDone l) := fun h => nomatch h

theorem killComplete (l : Nat) : Statement (.killComplete l) := fun h => nomatch h

theorem watchdogExpiry (l : Nat) (time : Nat) : Statement (.watchdogExpiry l time) := fun h => nomatch h

theorem watchdogKill (l : Nat) (time : Nat) : Statement (.watchdogKill l time) := fun h => nomatch h

theorem contextRetire (c : Nat) (k : Nat) : Statement (.contextRetire c k) := fun h => nomatch h

theorem launchRetire (l : Nat) : Statement (.launchRetire l) := fun h => nomatch h

theorem issueSlotTimeout (c : Nat) : Statement (.issueSlotTimeout c) := fun h => nomatch h

theorem governorStall (c : Nat) : Statement (.governorStall c) := fun h => nomatch h

theorem controlInterval (reqs : List PowerRequest) (watts : Nat) (time : Nat) : Statement (.controlInterval reqs watts time) := fun h => nomatch h

theorem railChangeEnd (cluster : Nat) : Statement (.railChangeEnd cluster) := fun h => nomatch h

theorem nocFreqStep (die : Nat) (want : Nat) : Statement (.nocFreqStep die want) := fun h => nomatch h

theorem leaseExpiry (time : Nat) : Statement (.leaseExpiry time) := fun h => nomatch h

theorem handoverTimeout (time : Nat) : Statement (.handoverTimeout time) := fun h => nomatch h

theorem spdmSession (endpoint : Nat) (passed : ChainProof) (time : Nat) : Statement (.spdmSession endpoint passed time) := fun h => nomatch h

theorem sessionEnd (m : Nat) : Statement (.sessionEnd m) := fun h => nomatch h

theorem rdmaWrite (m : Nat) (qp : Nat) (rkey : Nat) (offset : Nat) (data : List (BitVec 8)) : Statement (.rdmaWrite m qp rkey offset data) := fun h => nomatch h

theorem rdmaRead (q : QueuePair) (rkey : Nat) (offset : Nat) (len : Nat) : Statement (.rdmaRead q rkey offset len) := fun h => nomatch h

theorem hostCommandSend (q : QueuePair) (msg : List (BitVec 8)) : Statement (.hostCommandSend q msg) := fun h => nomatch h

theorem flitReceive (port : Nat) (seq : Nat) (crcOk : Bool) (w : Option RemoteOp) : Statement (.flitReceive port seq crcOk w) := fun h => nomatch h

theorem flitAck (port : Nat) (seq : Nat) (nak : Bool) (err : Nat) : Statement (.flitAck port seq nak err) := fun h => nomatch h

theorem laneLoss (port : Nat) (lane : Nat) : Statement (.laneLoss port lane) := fun h => nomatch h

theorem portTestDone (port : Nat) (errors : Bool) : Statement (.portTestDone port errors) := fun h => nomatch h

theorem portRejoin (port : Nat) : Statement (.portRejoin port) := fun h => nomatch h

theorem linkLost (c : Nat) (e : Nat) : Statement (.linkLost c e) := fun h => nomatch h

theorem capSet (m : Nat) (tag : BitVec 8) (body : List (BitVec 8)) : Statement (.capSet m tag body) := fun h => nomatch h

theorem capGet (m : Nat) (tag : BitVec 8) (body : List (BitVec 8)) : Statement (.capGet m tag body) := fun h => nomatch h

theorem claim (m : Nat) (tag : BitVec 8) (body : List (BitVec 8)) : Statement (.claim m tag body) := fun h => nomatch h

theorem renew (m : Nat) (tag : BitVec 8) (body : List (BitVec 8)) : Statement (.renew m tag body) := fun h => nomatch h

theorem release (m : Nat) (tag : BitVec 8) (body : List (BitVec 8)) : Statement (.release m tag body) := fun h => nomatch h

theorem handover (m : Nat) (tag : BitVec 8) (body : List (BitVec 8)) : Statement (.handover m tag body) := fun h => nomatch h

theorem trustSet (m : Nat) (tag : BitVec 8) (body : List (BitVec 8)) : Statement (.trustSet m tag body) := fun h => nomatch h

theorem domainSet (m : Nat) (tag : BitVec 8) (body : List (BitVec 8)) : Statement (.domainSet m tag body) := fun h => nomatch h

theorem domainClear (m : Nat) (tag : BitVec 8) (body : List (BitVec 8)) : Statement (.domainClear m tag body) := fun h => nomatch h

theorem windowSet (m : Nat) (tag : BitVec 8) (body : List (BitVec 8)) : Statement (.windowSet m tag body) := fun h => nomatch h

theorem windowClear (m : Nat) (tag : BitVec 8) (body : List (BitVec 8)) : Statement (.windowClear m tag body) := fun h => nomatch h

theorem queueSet (m : Nat) (tag : BitVec 8) (body : List (BitVec 8)) : Statement (.queueSet m tag body) := fun h => nomatch h

theorem queueClear (m : Nat) (tag : BitVec 8) (body : List (BitVec 8)) : Statement (.queueClear m tag body) := fun h => nomatch h

theorem doorbell (m : Nat) (tag : BitVec 8) (body : List (BitVec 8)) : Statement (.doorbell m tag body) := fun h => nomatch h

theorem kill (m : Nat) (tag : BitVec 8) (body : List (BitVec 8)) : Statement (.kill m tag body) := fun h => nomatch h

theorem keyLoad (m : Nat) (tag : BitVec 8) (body : List (BitVec 8)) : Statement (.keyLoad m tag body) := fun h => nomatch h

theorem keyClear (m : Nat) (tag : BitVec 8) (body : List (BitVec 8)) : Statement (.keyClear m tag body) := fun h => nomatch h

theorem fabricJoin (m : Nat) (tag : BitVec 8) (body : List (BitVec 8)) : Statement (.fabricJoin m tag body) := fun h => nomatch h

theorem fabricLeave (m : Nat) (tag : BitVec 8) (body : List (BitVec 8)) : Statement (.fabricLeave m tag body) := fun h => nomatch h

theorem fabricBind (m : Nat) (tag : BitVec 8) (body : List (BitVec 8)) : Statement (.fabricBind m tag body) := fun h => nomatch h

theorem debugUnlock (m : Nat) (tag : BitVec 8) (body : List (BitVec 8)) : Statement (.debugUnlock m tag body) := fun h => nomatch h

theorem debugLock (m : Nat) (tag : BitVec 8) (body : List (BitVec 8)) : Statement (.debugLock m tag body) := fun h => nomatch h

theorem status (m : Nat) (tag : BitVec 8) (body : List (BitVec 8)) : Statement (.status m tag body) := fun h => nomatch h

theorem memRead (m : Nat) (tag : BitVec 8) (body : List (BitVec 8)) : Statement (.memRead m tag body) := fun h => nomatch h

theorem dumpRead (m : Nat) (tag : BitVec 8) (body : List (BitVec 8)) : Statement (.dumpRead m tag body) := fun h => nomatch h

theorem dumpClear (m : Nat) (tag : BitVec 8) (body : List (BitVec 8)) : Statement (.dumpClear m tag body) := fun h => nomatch h

theorem healthRead (m : Nat) (tag : BitVec 8) (body : List (BitVec 8)) : Statement (.healthRead m tag body) := fun h => nomatch h

theorem reset (m : Nat) (tag : BitVec 8) (body : List (BitVec 8)) : Statement (.reset m tag body) := fun h => nomatch h

theorem dbgHalt (m : Nat) (tag : BitVec 8) (body : List (BitVec 8)) : Statement (.dbgHalt m tag body) := fun h => nomatch h

theorem dbgResume (m : Nat) (tag : BitVec 8) (body : List (BitVec 8)) : Statement (.dbgResume m tag body) := fun h => nomatch h

theorem dbgStep (m : Nat) (tag : BitVec 8) (body : List (BitVec 8)) : Statement (.dbgStep m tag body) := fun h => nomatch h

theorem dbgRead (m : Nat) (tag : BitVec 8) (body : List (BitVec 8)) : Statement (.dbgRead m tag body) := fun h => nomatch h

theorem dbgWrite (m : Nat) (tag : BitVec 8) (body : List (BitVec 8)) : Statement (.dbgWrite m tag body) := fun h => nomatch h

theorem tamperDetect (kind : TamperKind) (time : Nat) : Statement (.tamperDetect kind time) := fun h => nomatch h

theorem glitchRecovered (time : Nat) : Statement (.glitchRecovered time) := fun h => nomatch h

theorem authLockoutExpiry (endpoint : Nat) (time : Nat) : Statement (.authLockoutExpiry endpoint time) := fun h => nomatch h

theorem fatalError (kind : FatalKind) (time : Nat) : Statement (.fatalError kind time) := fun h => nomatch h

theorem filzanWatchdogFail (time : Nat) : Statement (.filzanWatchdogFail time) := fun h => nomatch h

theorem powerOnReset (verified : Bool) (failedCores : List Nat) : Statement (.powerOnReset verified failedCores) := fun h => nomatch h

theorem unsupportedOption (path : UnsupportedPath) (code : Nat) : Statement (.unsupportedOption path code) := fun h => nomatch h

theorem measurementRetrieval (m : Nat) : Statement (.measurementRetrieval m) := fun h => nomatch h

end Sys2Proof.Laws.Encoding
end

