-- ==== Sys2Proof/Safety.lean ====
section
/-! DEFINITION. What a safe run is: one that never stops at an occurrence naming a part the device does not have. -/

namespace Sys2Proof

/-- A run of `n` steps that neither faults nor is refused. -/
def runsSafely (s : Machine.State) (n : Nat) : Prop := ∃ t : Machine.State, Host.Core.run Sys2Proof.core n s = Host.Outcome.next t

end Sys2Proof
end

