-- ==== Sys2Proof/Certificates/Slice0/Obligations.lean ====
section
/-! DEFINITION. The statements: what the device does, by the numbered rules of the manual, over the model's `exec` and
`step`. Those about an instruction take it in its place in a bundle that has passed its check. -/

namespace Sys2Proof.Claims

open Sys2Proof.Machine

/-! ### A slot in its bundle -/

/-- A bundle that has passed its whole check is in issue, and no slot of it has faulted (R49, R412). -/
def InIssue (s : State) (i : Issue) : Prop := s.cx.issue = some i ∧ i.checked = true ∧ i.late = none

/-- The bundle in issue with the current slot complete. -/
def ticked (s : State) (i : Issue) : Issue := { i with done := setField i.done s.turn.slot 1 1 }

/-- The landing buffer with a result for register `n` of file `k` after `lat` cycles; one for g0 or p0 is discarded
(R68, R69). -/
def withLanding (x : Ctx) (k : LReg) (n : Nat) (v : Word) (lat : Nat) : List Landing :=
  if n = 0 ∧ k ≠ .lap then x.land else x.land ++ [⟨k, n, v, x.vt + lat⟩]

/-- The state after a slot that does nothing but land `v` on register `n` of file `k`. -/
def landed (s : State) (i : Issue) (k : LReg) (n : Nat) (v : Word) (lat : Nat) : State :=
  s.setCx { s.cx with land := withLanding s.cx k n v lat, issue := some (ticked s i) }

/-- The state after a slot that changes its context by `f` and is complete. -/
def changed (s : State) (i : Issue) (f : Ctx → Ctx) : State := s.setCx { f s.cx with issue := some (ticked s i) }

/-- A predicate's truth as the word that lands. -/
def truth (b : Bool) : Word := if b then 1 else 0

/-- g[n] of the context whose turn it is. -/
def gOf (s : State) (n : BitVec 6) : Word := s.cx.greg n.toNat

/-- p[n] of the context whose turn it is. -/
def pOf (s : State) (n : Nat) : Bool := s.cx.preg n

/-- The slot's predicate is true (R48). -/
def Taken (s : State) (pr : BitVec 3) (pn : BitVec 1) : Prop := s.cx.pred pr pn = true

end Sys2Proof.Claims

open Sys2Proof Sys2Proof.Machine Sys2Proof.Claims

/-- R73: sums, differences and products. -/
def Obligations.ArithmeticResults : Prop :=
  ∀ (s : State) (i : Issue) (f : RForm) (e : IForm), InIssue s i →
    (Taken s f.pr f.pn →
      exec (.add f) s = .next (landed s i .g f.d.toNat (BitVec.ofInt 64 ((gOf s f.a).toInt + (gOf s f.b).toInt)) 1) ∧
      exec (.sub f) s = .next (landed s i .g f.d.toNat (BitVec.ofInt 64 ((gOf s f.a).toInt - (gOf s f.b).toInt)) 1) ∧
      exec (.mul f) s = .next (landed s i .g f.d.toNat (BitVec.ofInt 64 ((gOf s f.a).toInt * (gOf s f.b).toInt)) 3) ∧
      exec (.mulh f) s = .next (landed s i .g f.d.toNat
        (BitVec.ofInt 64 ((gOf s f.a).toInt * (gOf s f.b).toInt / (2 : Int) ^ 64)) 3) ∧
      exec (.mulhn f) s = .next (landed s i .g f.d.toNat
        (BitVec.ofNat 64 ((gOf s f.a).toNat * (gOf s f.b).toNat / 2 ^ 64)) 3)) ∧
    (Taken s e.pr e.pn →
      exec (.addi e) s = .next (landed s i .g e.d.toNat (BitVec.ofInt 64 ((gOf s e.a).toInt + e.imm.toInt)) 1))

/-- R73 and R74: quotients and remainders, with their boundary cases. -/
def Obligations.DivisionResults : Prop :=
  ∀ (s : State) (i : Issue) (f : RForm), InIssue s i → Taken s f.pr f.pn →
    exec (.div f) s = .next (landed s i .g f.d.toNat
      (if gOf s f.b = 0 then 0xFFFFFFFFFFFFFFFF else BitVec.ofInt 64 ((gOf s f.a).toInt.tdiv (gOf s f.b).toInt)) 18) ∧
    exec (.divn f) s = .next (landed s i .g f.d.toNat
      (if gOf s f.b = 0 then 0xFFFFFFFFFFFFFFFF else BitVec.ofNat 64 ((gOf s f.a).toNat / (gOf s f.b).toNat)) 18) ∧
    exec (.rem f) s = .next (landed s i .g f.d.toNat
      (if gOf s f.b = 0 then gOf s f.a else BitVec.ofInt 64 ((gOf s f.a).toInt.tmod (gOf s f.b).toInt)) 18) ∧
    exec (.remn f) s = .next (landed s i .g f.d.toNat
      (if gOf s f.b = 0 then gOf s f.a else BitVec.ofNat 64 ((gOf s f.a).toNat % (gOf s f.b).toNat)) 18)

/-- R75: bitwise operations, shifts and the rotate, by the values they give. -/
def Obligations.LogicShiftResults : Prop :=
  ∀ (s : State) (i : Issue) (f : RForm) (e : IForm), InIssue s i →
    (Taken s f.pr f.pn →
      exec (.and f) s = .next (landed s i .g f.d.toNat (gOf s f.a &&& gOf s f.b) 1) ∧
      exec (.or f) s = .next (landed s i .g f.d.toNat (gOf s f.a ||| gOf s f.b) 1) ∧
      exec (.xor f) s = .next (landed s i .g f.d.toNat (gOf s f.a ^^^ gOf s f.b) 1) ∧
      exec (.shl f) s = .next (landed s i .g f.d.toNat
        (BitVec.ofNat 64 ((gOf s f.a).toNat * 2 ^ ((gOf s f.b).toNat % 64))) 1) ∧
      exec (.shr f) s = .next (landed s i .g f.d.toNat
        (BitVec.ofNat 64 ((gOf s f.a).toNat / 2 ^ ((gOf s f.b).toNat % 64))) 1) ∧
      exec (.shra f) s = .next (landed s i .g f.d.toNat
        (BitVec.ofInt 64 ((gOf s f.a).toInt / (2 : Int) ^ ((gOf s f.b).toNat % 64))) 1) ∧
      exec (.rotl f) s = .next (landed s i .g f.d.toNat
        (BitVec.ofNat 64 ((gOf s f.a).toNat * 2 ^ ((gOf s f.b).toNat % 64) +
          (gOf s f.a).toNat / 2 ^ (64 - (gOf s f.b).toNat % 64))) 1)) ∧
    (Taken s e.pr e.pn →
      exec (.andi e) s = .next (landed s i .g e.d.toNat (gOf s e.a &&& BitVec.ofInt 64 e.imm.toInt) 1) ∧
      exec (.ori e) s = .next (landed s i .g e.d.toNat (gOf s e.a ||| BitVec.ofInt 64 e.imm.toInt) 1) ∧
      exec (.xori e) s = .next (landed s i .g e.d.toNat (gOf s e.a ^^^ BitVec.ofInt 64 e.imm.toInt) 1) ∧
      exec (.shli e) s = .next (landed s i .g e.d.toNat (BitVec.ofNat 64 ((gOf s e.a).toNat * 2 ^ (e.imm.toNat % 64))) 1) ∧
      exec (.shri e) s = .next (landed s i .g e.d.toNat (BitVec.ofNat 64 ((gOf s e.a).toNat / 2 ^ (e.imm.toNat % 64))) 1) ∧
      exec (.shrai e) s = .next (landed s i .g e.d.toNat
        (BitVec.ofInt 64 ((gOf s e.a).toInt / (2 : Int) ^ (e.imm.toNat % 64))) 1))

/-- R76: leading zeros, one bits, and the signed and unsigned bounds. -/
def Obligations.CountBoundResults : Prop :=
  ∀ (s : State) (i : Issue) (f : RForm), InIssue s i → Taken s f.pr f.pn →
    (∃ n : Nat, n ≤ 64 ∧ (gOf s f.a).toNat < 2 ^ (64 - n) ∧ (n < 64 → 2 ^ (63 - n) ≤ (gOf s f.a).toNat) ∧
      exec (.clz f) s = .next (landed s i .g f.d.toNat (BitVec.ofNat 64 n) 1)) ∧
    exec (.popc f) s = .next (landed s i .g f.d.toNat
      (BitVec.ofNat 64 ((List.range 64).filter fun j => (gOf s f.a).getLsbD j).length) 1) ∧
    exec (.min f) s = .next (landed s i .g f.d.toNat
      (BitVec.ofInt 64 (min (gOf s f.a).toInt (gOf s f.b).toInt)) 1) ∧
    exec (.max f) s = .next (landed s i .g f.d.toNat
      (BitVec.ofInt 64 (max (gOf s f.a).toInt (gOf s f.b).toInt)) 1) ∧
    exec (.minn f) s = .next (landed s i .g f.d.toNat
      (BitVec.ofNat 64 (min (gOf s f.a).toNat (gOf s f.b).toNat)) 1) ∧
    exec (.maxn f) s = .next (landed s i .g f.d.toNat
      (BitVec.ofNat 64 (max (gOf s f.a).toNat (gOf s f.b).toNat)) 1)

/-- R77: comparisons to a predicate, selection, moves and constants. The condition is fn[17:15] and q is fn[14:12]; the
conditions are those of R55's codes 0 to 5. -/
def Obligations.CompareMoveResults : Prop :=
  ∀ (s : State) (i : Issue) (f : RForm) (e : LForm), InIssue s i →
    (Taken s f.pr f.pn →
      (∀ r : Bool, (r = true ↔ match f.fn.toNat / 2 ^ 15 with
          | 0 => gOf s f.a = gOf s f.b
          | 1 => gOf s f.a ≠ gOf s f.b
          | 2 => (gOf s f.a).toInt < (gOf s f.b).toInt
          | 3 => (gOf s f.a).toInt ≤ (gOf s f.b).toInt
          | 4 => (gOf s f.a).toNat < (gOf s f.b).toNat
          | _ => (gOf s f.a).toNat ≤ (gOf s f.b).toNat) →
        exec (.cmp f) s = .next (landed s i .p (f.fn.toNat / 2 ^ 12 % 8) (truth r) 1)) ∧
      exec (.sel f) s = .next (landed s i .g f.d.toNat
        (if pOf s (f.fn.toNat / 2 ^ 12 % 8) then gOf s f.a else gOf s f.b) 1) ∧
      exec (.mov f) s = .next (landed s i .g f.d.toNat (gOf s f.a) 1)) ∧
    exec (.li e) s = .next (landed s i .g e.d.toNat (BitVec.ofInt 64 e.imm.toInt) 1) ∧
    exec (.lih e) s = .next (landed s i .g e.d.toNat
      (BitVec.ofNat 64 (e.imm.toNat % 2 ^ 30 * 2 ^ 34 + (gOf s e.d).toNat % 2 ^ 34)) 1)

/-- R78: scaled addresses, extensions and bit fields (pos is fn[11:6], w is fn[5:0] + 1, and pos + w is at most 64). -/
def Obligations.BitFieldResults : Prop :=
  ∀ (s : State) (i : Issue) (f : RForm), InIssue s i → Taken s f.pr f.pn →
    exec (.addr f) s = .next (landed s i .g f.d.toNat
      (BitVec.ofNat 64 ((gOf s f.a).toNat + (gOf s f.b).toNat * 2 ^ (f.fn.toNat % 8))) 1) ∧
    exec (.extb f) s = .next (landed s i .g f.d.toNat
      (if f.fn.getLsbD 0 then BitVec.ofNat 64 ((gOf s f.a).toNat % 2 ^ 8)
        else BitVec.ofInt 64 ((gOf s f.a).toInt.bmod (2 ^ 8))) 1) ∧
    exec (.exth f) s = .next (landed s i .g f.d.toNat
      (if f.fn.getLsbD 0 then BitVec.ofNat 64 ((gOf s f.a).toNat % 2 ^ 16)
        else BitVec.ofInt 64 ((gOf s f.a).toInt.bmod (2 ^ 16))) 1) ∧
    exec (.extw f) s = .next (landed s i .g f.d.toNat
      (if f.fn.getLsbD 0 then BitVec.ofNat 64 ((gOf s f.a).toNat % 2 ^ 32)
        else BitVec.ofInt 64 ((gOf s f.a).toInt.bmod (2 ^ 32))) 1) ∧
    ∀ pos w : Nat, pos = f.fn.toNat / 2 ^ 6 % 64 → w = f.fn.toNat % 64 + 1 → pos + w ≤ 64 →
      exec (.bfx f) s = .next (landed s i .g f.d.toNat
        (if f.fn.getLsbD 12 then BitVec.ofInt 64 ((((gOf s f.a).toNat / 2 ^ pos : Nat) : Int).bmod (2 ^ w))
          else BitVec.ofNat 64 ((gOf s f.a).toNat / 2 ^ pos % 2 ^ w)) 1) ∧
      exec (.bfi f) s = .next (landed s i .g f.d.toNat
        (BitVec.ofNat 64 ((gOf s f.a).toNat / 2 ^ (pos + w) * 2 ^ (pos + w) +
          (gOf s f.b).toNat % 2 ^ w * 2 ^ pos + (gOf s f.a).toNat % 2 ^ pos)) 1)

/-- R79: and, or and not of predicate registers; a result for p0 is discarded. -/
def Obligations.PredicateResults : Prop :=
  ∀ (s : State) (i : Issue) (f : RForm), InIssue s i → Taken s f.pr f.pn →
    exec (.pand f) s = .next (landed s i .p f.d.toNat
      (truth ((pOf s f.a.toNat ^^ f.fn.getLsbD 1) && (pOf s f.b.toNat ^^ f.fn.getLsbD 0))) 1) ∧
    exec (.por f) s = .next (landed s i .p f.d.toNat
      (truth ((pOf s f.a.toNat ^^ f.fn.getLsbD 1) || (pOf s f.b.toNat ^^ f.fn.getLsbD 0))) 1) ∧
    exec (.pnot f) s = .next (landed s i .p f.d.toNat (truth (!pOf s f.a.toNat)) 1)

namespace Sys2Proof.Claims

/-- The state after a slot that lands a value and raises numeric events (R80, R121). -/
def landedRaising (s : State) (i : Issue) (k : LReg) (n : Nat) (v : Word) (lat : Nat) (evs : List CellEv) : State :=
  s.setCx { s.cx with
    land := withLanding s.cx k n v lat
    issue := some { ticked s i with raises := if evs = [] then i.raises else i.raises ++ [⟨s.turn.slot, evs⟩] } }

/-- The low bits of a word that a scalar value of format `g` is read from. -/
def scalarBits (g : Fmt) (a : Word) : Nat := a.toNat % 2 ^ g.width

/-- A slot instruction of the two S slots (R55). -/
def IsScalar : Instr → Prop
  | .add _ | .addi _ | .sub _ | .mul _ | .mulh _ | .mulhn _ | .div _ | .divn _ | .rem _ | .remn _ | .and _ | .andi _ | .or _
  | .ori _ | .xor _ | .xori _ | .shl _ | .shli _ | .shr _ | .shri _ | .shra _ | .shrai _ | .rotl _ | .clz _ | .popc _
  | .min _ | .max _ | .minn _ | .maxn _ | .cmp _ | .sel _ | .mov _ | .li _ | .lih _ | .addr _ | .extb _ | .exth _ | .extw _
  | .bfx _ | .bfi _ | .pand _ | .por _ | .pnot _ | .fcvts _ | .fcmps _ | .lapset _ | .lapadd _ | .lapget _ => True
  | _ => False

end Sys2Proof.Claims

namespace Sys2Proof.Claims

/-- The value of a bit pattern of each floating-point layout: mantissa bits, exponent bits, bias (R100, R101). -/
def DecodesAs : Prop :=
  ∀ (g : Fmt) (m eb bias : Nat) (neg : Bool) (E M x : Nat),
    (g, m, eb, bias) ∈ [(Fmt.fp32, 23, 8, 127), (.fp16, 10, 5, 15), (.bf16, 7, 8, 127), (.e4m3, 3, 4, 7), (.e5m2, 2, 5, 15)] →
    E < 2 ^ eb → M < 2 ^ m → x = (if neg then 2 ^ (eb + m) else 0) + E * 2 ^ m + M →
    (E = 0 → g.spec.decode x = .fin neg M (1 - (bias : Int) - m)) ∧
    (0 < E → (E < 2 ^ eb - 1 ∨ g = .e4m3 ∧ M < 7) → g.spec.decode x = .fin neg (2 ^ m + M) ((E : Int) - bias - m)) ∧
    (E = 2 ^ eb - 1 → g = .e4m3 → M = 7 → g.spec.decode x = .nan neg true 0 0) ∧
    (E = 2 ^ eb - 1 → g ≠ .e4m3 → g.spec.decode x =
      if M = 0 then .inf neg else .nan neg (decide (2 ^ (m - 1) ≤ M)) (M % 2 ^ (m - 1)) (m - 1))

/-- A finite value as a multiple of 2^c, for a c that its exponent is not below. -/
def scaledAt (neg : Bool) (m : Nat) (e c : Int) : Int := (if neg then -1 else 1) * ((m * 2 ^ (e - c).toNat : Nat) : Int)

/-- R81 and R148: what the relations are on decoded values, with the events they record. Equality and order are those of the
values, so that -0 equals +0; an infinity lies beyond every other value of its sign; with a NaN only NE and UN hold. -/
def ComparesAs : Prop :=
  (∀ a b : FVal, (a.isNan || b.isNan) = true →
    FRel.eq.eval a b = (false, noKind) ∧ FRel.ne.eval a b = (true, noKind) ∧ FRel.lt.eval a b = (false, kInvalid) ∧
    FRel.le.eval a b = (false, kInvalid) ∧ FRel.un.eval a b = (true, noKind)) ∧
  ∀ (a b : FVal) (less same : Bool), a.isNan = false → b.isNan = false →
    (match a, b with
      | .inf n, .inf n' => less = (n && !n') ∧ same = (n == n')
      | .inf n, _ => less = n ∧ same = false
      | _, .inf n => less = !n ∧ same = false
      | .fin n m e, .fin n' m' e' => ∃ c : Int, c ≤ e ∧ c ≤ e' ∧ less = decide (scaledAt n m e c < scaledAt n' m' e' c) ∧
          same = decide (scaledAt n m e c = scaledAt n' m' e' c)
      | _, _ => True) →
    FRel.eq.eval a b = (same, noKind) ∧ FRel.ne.eval a b = (!same, noKind) ∧ FRel.lt.eval a b = (less, noKind) ∧
    FRel.le.eval a b = (less || same, noKind) ∧ FRel.un.eval a b = (false, noKind)

/-- The multiple of a spacing to which a magnitude rounds, `lo` spacings being its lower neighbour: itself where it is a multiple;
else the nearer one, the even one on a tie, or the one towards zero, towards +∞ or towards -∞ (R108). -/
def neighbour (M : RMode) (neg : Bool) (X S lo : Nat) : Nat :=
  if X = lo * S then lo
  else match M with
    | .rne => if 2 * X < (2 * lo + 1) * S then lo else if (2 * lo + 1) * S < 2 * X then lo + 1 else lo + lo % 2
    | .rtz => lo
    | .rup => if neg then lo else lo + 1
    | .rdn => if neg then lo + 1 else lo

/-- R108 and R109: a magnitude m × 2^e with a sign, rounded into a layout. With 2^E at most the magnitude and 2^(E + 1) above it,
the spacing is 2^Q for Q = max(E, emin) - mantissa bits, and `k` spacings are the neighbour that the mode takes: the result
decodes to exactly that with the sign, unless it exceeds the largest finite value, which overflows. Underflow-inexact is
recorded where the magnitude is below 2^emin and the result differs from it. `X` and `S` are the magnitude and the spacing
as multiples of 2^b. -/
def RoundsAs : Prop :=
  (∀ (g : Fmt) (q : FloatSpec) (M : RMode) (neg : Bool) (e : Int), q = g.spec → q.round M neg 0 e = (q.signed neg 0, noKind)) ∧
  (∀ (g : Fmt) (q : FloatSpec) (M : RMode) (neg : Bool) (m X S lo k top : Nat) (e E Q b et : Int) (ev : Kinds), q = g.spec →
    0 < m → b ≤ e → b ≤ E → b ≤ Q → X = m * 2 ^ (e - b).toNat → 2 ^ (E - b).toNat ≤ X → X < 2 * 2 ^ (E - b).toNat →
    Q = max E (1 - (q.bias : Int)) - q.mbits → S = 2 ^ (Q - b).toNat → lo * S ≤ X → X < (lo + 1) * S →
    k = neighbour M neg X S lo → ev = (if E < 1 - (q.bias : Int) ∧ X ≠ k * S then kUnderflow else noKind) →
    q.decode q.maxCode = .fin false top et → ∀ c : Int, c ≤ et → c ≤ Q →
      (top * 2 ^ (et - c).toNat < k * 2 ^ (Q - c).toNat → q.round M neg m e = (q.overflow neg M, ev ||| kOverflow)) ∧
      (k * 2 ^ (Q - c).toNat ≤ top * 2 ^ (et - c).toNat → ∃ (code m' : Nat) (e' : Int), q.round M neg m e = (code, ev) ∧
        code < 2 ^ (q.mbits + q.ebits + 1) ∧ q.decode code = .fin neg m' e' ∧
        ∀ d : Int, d ≤ e' → d ≤ Q → m' * 2 ^ (e' - d).toNat = k * 2 ^ (Q - d).toNat)) ∧
  (∀ (g : Fmt) (inf top : Nat) (M : RMode) (neg : Bool),
    (g, inf, top) ∈ [(Fmt.fp32, 0x7F800000, 0x7F7FFFFF), (.fp16, 0x7C00, 0x7BFF), (.bf16, 0x7F80, 0x7F7F), (.e5m2, 0x7C, 0x7B)] →
    g.spec.maxCode = top ∧ g.spec.infCode = inf ∧
    g.spec.overflow neg M = (if neg then 2 ^ (g.width - 1) else 0) +
      if M = .rne ∨ M = .rup ∧ neg = false ∨ M = .rdn ∧ neg = true then inf else top) ∧
  ∀ (g : Fmt) (top : Nat) (M : RMode) (neg : Bool), (g, top) ∈ [(Fmt.e4m3, 0x7E), (.mxfp8, 0x7E), (.mxfp4, 7)] →
    g.spec.maxCode = top ∧ g.spec.overflow neg M = (if neg then 2 ^ (g.width - 1) else 0) + top

/-- R80, R103, R109, R113 and R157: a conversion into floating point rounds the value, keeps an infinity where the format has one
and overflows where not, and delivers a NaN quieted; one into an integer format rounds to an integer under the mode and
saturates, with invalid operation, and gives 0 for a NaN. -/
def ConvertsAs : Prop :=
  ∀ (src dst : Fmt) (M : RMode) (x : Nat) (v : FVal),
    v = (if src.isInt then .fin (decide (src.intValue x < 0)) (src.intValue x).natAbs 0 else src.spec.decode x) →
    (dst.isInt = false → ∀ q : FloatSpec, q = dst.spec →
      (∀ neg m e, v = .fin neg m e → convert src dst M x = q.round M neg m e) ∧
      (∀ neg, v = .inf neg → convert src dst M x =
        if dst = .e4m3 ∨ dst = .mxfp8 ∨ dst = .mxfp4 then (q.overflow neg M, kOverflow) else (q.signed neg q.infCode, noKind)) ∧
      ∀ neg quiet pay bits, v = .nan neg quiet pay bits →
        convert src dst M x = (q.nanResult neg pay bits, if quiet then noKind else kInvalid)) ∧
    (dst.isInt = true → ∀ (lo hi : Int) (put : Int → Nat),
      (dst, lo, hi) ∈ [(Fmt.i8, -128, 127), (.n8, 0, 255), (.i16, -32768, 32767), (.i32, -2147483648, 2147483647)] →
      put = (fun y => (y % (2 : Int) ^ dst.width).toNat) →
      (∀ neg quiet pay bits, v = .nan neg quiet pay bits → convert src dst M x = (0, kInvalid)) ∧
      (∀ neg, v = .inf neg → convert src dst M x = (put (if neg then lo else hi), kInvalid)) ∧
      ∀ neg m e (b : Int) (X S n : Nat) (y : Int), v = .fin neg m e → b ≤ e → b ≤ 0 → X = m * 2 ^ (e - b).toNat →
        S = 2 ^ (-b).toNat → n * S ≤ X → X < (n + 1) * S →
        y = (if neg then -1 else 1) * (neighbour M neg X S n : Int) →
        convert src dst M x = (put (max lo (min hi y)), if y < lo ∨ hi < y then kInvalid else noKind))

end Sys2Proof.Claims

/-- R80, R81, R100, R103, R108, R109: a conversion lands after two cycles, sign-extended for I32 and zero-extended otherwise; a
comparison is decided on the decoded values; what either records carries no cell and no lane. What bit patterns decode to,
how a value is rounded and overflows, what a conversion does beside rounding and what the relations are on values is stated
of the shared operations that every floating-point instruction uses. -/
def Obligations.ScalarFloatResults : Prop :=
  DecodesAs ∧ RoundsAs ∧ ConvertsAs ∧ ComparesAs ∧ ∀ (s : State) (i : Issue) (f : RForm), InIssue s i → Taken s f.pr f.pn →
    (∀ (src dst : Fmt) (v : Nat) (ev : Kinds), Fmt.ofCode (f.fn.toNat / 2 ^ 14 % 16) = some src →
      Fmt.ofCode (f.fn.toNat / 2 ^ 10 % 16) = some dst →
      convert src dst (RMode.ofCode (f.fn.toNat / 2 ^ 7 % 8)) (scalarBits src (gOf s f.a)) = (v, ev) →
      exec (.fcvts f) s = .next (landedRaising s i .g f.d.toNat
        (if dst = .i32 then (BitVec.ofNat 32 v).signExtend 64 else BitVec.ofNat 64 v) 2 (scalarEvs ev))) ∧
    (∀ (g : Fmt) (a b : FVal), Fmt.ofCode (f.fn.toNat / 2 ^ 8 % 16) = some g →
      a = g.spec.decode (scalarBits g (gOf s f.a)) → b = g.spec.decode (scalarBits g (gOf s f.b)) →
      ∀ q : Nat, q = f.fn.toNat / 2 ^ 12 % 8 →
        (f.fn.toNat / 2 ^ 15 = 3 → exec (.fcmps f) s = .next (landed s i .p q (truth (a.isNan || b.isNan)) 2)) ∧
        (a.isNan = false → b.isNan = false → f.fn.toNat / 2 ^ 15 < 3 →
          exec (.fcmps f) s = .next (landed s i .p q (truth (match f.fn.toNat / 2 ^ 15 with
            | 0 => (FRel.eq.eval a b).1
            | 1 => (FRel.lt.eval a b).1
            | _ => (FRel.le.eval a b).1)) 2)) ∧
        ((a.isNan || b.isNan) = true → f.fn.toNat / 2 ^ 15 = 0 → exec (.fcmps f) s = .next (landed s i .p q 0 2)) ∧
        ((a.isNan || b.isNan) = true → (f.fn.toNat / 2 ^ 15 = 1 ∨ f.fn.toNat / 2 ^ 15 = 2) →
          exec (.fcmps f) s = .next (landedRaising s i .p q 0 2 (scalarEvs kInvalid))))

/-- R276 and R277: lap registers are set, read, and advanced at one level with the deeper levels cleared. -/
def Obligations.LapResults : Prop :=
  ∀ (s : State) (i : Issue) (f : RForm), InIssue s i → Taken s f.pr f.pn →
    exec (.lapset f) s = .next (landed s i .lap f.d.toNat (gOf s f.a) 1) ∧
    exec (.lapget f) s = .next (landed s i .g f.d.toNat (s.cx.lapReg f.a.toNat) 1) ∧
    ∀ (l : Nat) (j c : Nat), l = (s.cx.lapReg f.a.toNat).toNat → j = f.fn.toNat % 4 →
      c = l / 2 ^ (48 - 16 * j) % 2 ^ 16 + (gOf s f.b).toNat → (gOf s f.b).toNat ≤ 0xFFFF → c ≤ 0xFFFF →
      exec (.lapadd f) s = .next (landed s i .lap f.d.toNat
        (BitVec.ofNat 64 (l / 2 ^ (64 - 16 * j) * 2 ^ (64 - 16 * j) + c * 2 ^ (48 - 16 * j))) 1)

/-- R7: g0 reads zero and p0 reads true whatever the register files hold, and a landing on either changes nothing. -/
def Obligations.ConstantRegisters : Prop :=
  ∀ (x : Ctx) (v : Word) (n : Nat),
    x.greg 0 = 0 ∧ x.preg 0 = true ∧ x.writeReg .g 0 v = x ∧ x.writeReg .p 0 v = x ∧
    (n ≠ 0 → (x.writeReg .g n v).greg n = v ∧ (x.writeReg .p n v).preg n = (v != 0)) ∧
    (x.writeReg .lap n v).lapReg n = v

/-- R68: in a cycle that passes, what is due lands and what is not due stays; with one entry due for a register of the g, p or
lap file, the register takes its value, a predicate whether that is not zero, and registers that no entry due names keep
theirs. -/
def Obligations.LandingsDue : Prop :=
  ∀ (s : State) (c k : Nat), c < 128 → k < 4 → s.passes c k = true →
    ∃ t, exec (.resultLanding c k) s = .next t ∧ t.mem = s.mem ∧
      (t.ctxAt c k).land = (s.ctxAt c k).land.filter (fun e => (s.ctxAt c k).vt < e.due) ∧
      ∀ (file : LReg) (n : Nat) (es : List Landing),
        es = (s.ctxAt c k).land.filter (fun e => decide (e.due ≤ (s.ctxAt c k).vt) && e.kind == file && e.idx == n) →
        match file with
        | .g => n ≠ 0 → (es = [] → (t.ctxAt c k).greg n = (s.ctxAt c k).greg n) ∧ ∀ e, es = [e] → (t.ctxAt c k).greg n = e.val
        | .p => n ≠ 0 → (es = [] → (t.ctxAt c k).preg n = (s.ctxAt c k).preg n) ∧
            ∀ e, es = [e] → (t.ctxAt c k).preg n = (e.val != 0)
        | .lap => (es = [] → (t.ctxAt c k).lapReg n = (s.ctxAt c k).lapReg n) ∧
            ∀ e, es = [e] → (t.ctxAt c k).lapReg n = e.val

/-- R68, R69, R71: a scalar instruction schedules its result and is complete; nothing else of the machine changes — no
register of any file, no special register, no byte of memory — until the result lands. -/
def Obligations.ScalarFrame : Prop :=
  ∀ (s t : State) (i : Issue) (x : Instr), InIssue s i → IsScalar x → exec x s = .next t →
    t = s.setCx { s.cx with land := t.cx.land, issue := t.cx.issue } ∧ ∀ a : Nat, readByte t.mem a = readByte s.mem a

/-- R71: a slot whose predicate is false takes no effect, makes no landing and is complete. That the slot counts as
complete is the reading of log entry 19. -/
def Obligations.FalsePredicate : Prop :=
  ∀ (s : State) (i : Issue) (x : Instr) (m : Meaning), InIssue s i → slotMeaning x s = some m → m.taken = false →
    exec x s = .next (changed s i id)

/-- R48: NOP has no effect; that its bit of CMASK stays 0 is the model's reading (log entry 19). R49: a slot run alone whose
check finds a cause takes no effect: its trap is taken with an empty completion mask. A slot outside a bundle is the
model's (log entry 47). -/
def Obligations.CheckedSlots : Prop :=
  ∀ (s : State),
    exec .nop s = .next s ∧
    ∀ (x : Instr) (m : Meaning) (z : Cause), s.cx.issue = none → slotMeaning x s = some m → s.slotCause m.check = some z →
      exec x s = .next ((s.noteRace s.turn.core s.turn.ctx z).takeTrap s.turn.core s.turn.ctx
        { cause := z.code, fslot := s.turn.slot, fpc := s.cx.pc, info := z.info, rpc := s.cx.pc })

namespace Sys2Proof.Claims

/-- The loop stack after a transfer to `w` that unwinds it: from the top, entries whose body does not hold the target are
dropped (R87). -/
def unwound (x : Ctx) (w : Word) : List LoopEntry :=
  (x.loops.reverse.dropWhile fun e => decide (w.toNat < e.start.toNat) || decide (e.fin.toNat < w.toNat)).reverse

/-- The state after a taken transfer to `w` that leaves the loop stack `loops`. -/
def jumped (s : State) (i : Issue) (w : Word) (loops : List LoopEntry) : State :=
  s.setCx { s.cx with loops := loops, issue := some { ticked s i with target := some w } }

/-- The target field of an F slot. -/
def targetOfF (f : FForm) : Word := BitVec.ofNat 64 (f.tgt.toNat % 2 ^ 16)

/-- The state after an F slot that sets what its context does after the bundle. -/
def ends (s : State) (i : Issue) (r : RunState) : State :=
  s.setCx { s.cx with issue := some { ticked s i with ending := r } }

end Sys2Proof.Claims

/-- R83, R87: branches and jumps set the bundle's target and unwind the loop stack; a conditional branch whose condition
is false only completes; CALL lands its link and, like RET, leaves the loop stack. -/
def Obligations.TransferResults : Prop :=
  ∀ (s : State) (i : Issue) (f : FForm), InIssue s i → Taken s f.pr f.pn →
    exec (.br f) s = .next (jumped s i (targetOfF f) (unwound s.cx (targetOfF f))) ∧
    (∀ r : Bool, (r = true ↔ match f.b.toNat / 8 with
        | 0 => gOf s f.a = 0
        | 1 => gOf s f.a ≠ 0
        | 2 => (gOf s f.a).toInt < 0
        | 3 => (gOf s f.a).toInt ≤ 0
        | 4 => 0 < (gOf s f.a).toInt
        | _ => 0 ≤ (gOf s f.a).toInt) →
      exec (.brc f) s = .next (if r then jumped s i (targetOfF f) (unwound s.cx (targetOfF f)) else changed s i id)) ∧
    exec (.jmp f) s = .next (jumped s i (gOf s f.a) (unwound s.cx (gOf s f.a))) ∧
    exec (.ret f) s = .next (jumped s i (gOf s f.a) s.cx.loops) ∧
    exec (.call f) s = .next ((jumped s i (targetOfF f) s.cx.loops).setCx
      { (jumped s i (targetOfF f) s.cx.loops).cx with land := withLanding s.cx .g f.a.toNat (i.next.setWidth 64) 1 })

/-- R84, R88: LOOP and LOOPI push an entry that starts at the next bundle; LOOP with a count of 0 goes past its body;
BREAKL pops the top entry and branches. What follows a LOOP with count 0 is the reading of log entry 41. -/
def Obligations.LoopResults : Prop :=
  ∀ (s : State) (i : Issue) (f : FForm), InIssue s i → Taken s f.pr f.pn →
    (0 < (gOf s f.a).toNat → (gOf s f.a).toNat ≤ 0xFFFFFFFF →
      exec (.loop f) s = .next (changed s i fun x => { x with
        loops := x.loops ++ [⟨i.next, BitVec.ofNat 17 (f.tgt.toNat % 2 ^ 16), BitVec.ofNat 32 (gOf s f.a).toNat⟩] })) ∧
    (gOf s f.a = 0 → exec (.loop f) s = .next (jumped s i
      (BitVec.ofNat 64 (s.cc.afterBundle (f.tgt.toNat % 2 ^ 16))) s.cx.loops)) ∧
    exec (.loopi f) s = .next (changed s i fun x => { x with
      loops := x.loops ++ [⟨i.next, BitVec.ofNat 17 (f.tgt.toNat % 2 ^ 16), BitVec.ofNat 32 (f.a.toNat * 64 + f.b.toNat)⟩] }) ∧
    (s.cx.loops ≠ [] → exec (.breakl f) s = .next (jumped s i (targetOfF f)
      (unwound { s.cx with loops := s.cx.loops.dropLast } (targetOfF f))))

namespace Sys2Proof.Claims

/-- The events that slot `n` of the bundle has raised. -/
def raisedBy (i : Issue) (n : Nat) : List CellEv := ((i.raises.filter fun r => r.slot == n).map fun r => r.evs).flatten

/-- The bundle of a slot has started no stream in the context's present cycle. -/
def NoOwnStream (x : Ctx) : Prop := ∀ st ∈ x.streams, ¬ (st.level = x.depth ∧ st.start = x.vt)

/-- The events of slot `n` that are settled with the bundle: the C slot's with those of the stream that it has started, if that
has ended (R121, R189). -/
def settledBy (x : Ctx) (i : Issue) (n : Nat) : List CellEv :=
  let own := x.streams.filter fun st => decide (st.level = x.depth ∧ st.start = (x.vt : Int))
  raisedBy i n ++ if n = 3 ∧ (∀ st ∈ own, st.left = 0) then (own.map fun st => st.evs).flatten else []

/-- The streams of the context's level, older than the bundle, that have taken their last step. -/
def endedStreams (x : Ctx) : List Stream :=
  x.streams.filter fun st => decide (st.level = x.depth ∧ st.left = 0 ∧ ¬ st.start = (x.vt : Int))

/-- The record of one kind of a slot's events (R122). -/
def recordOf (k : Nat) (pc : CodeAddr) (slot : Nat) (vt : Word) (evs : List CellEv) (kind : Nat) : Word × Word :=
  let hit := evs.filter fun e => e.item.kind == kind
  let count := min (hit.map fun e => e.item.count).sum (2 ^ 32 - 1)
  let squads := ((List.range 4).map fun q => if hit.any fun e => squadOf e.cell == q then 2 ^ q else 0).sum
  let lanes := (hit.map fun e => e.item.lanes).foldl (· ||| ·) 0
  (BitVec.ofNat 64 (pc.toNat % 2 ^ 16 * 2 ^ 48 + slot * 2 ^ 45 + kind * 2 ^ 40 + k * 2 ^ 34 + vt.toNat % 2 ^ 32),
    if slot < 2 then BitVec.ofNat 64 count
    else BitVec.ofNat 64 ((hit.map fun e => e.cell).min?.getD 0 * 2 ^ 56 + squads * 2 ^ 52 + lanes.toNat * 2 ^ 36 + count))

/-- The records of a slot: at most one for each kind, in the order of kinds (R121). -/
def recordsOf (k : Nat) (pc : CodeAddr) (slot : Nat) (vt : Word) (evs : List CellEv) : List (Word × Word) :=
  ((List.range 8).filter fun q => evs.any fun e => e.item.kind == q).map (recordOf k pc slot vt evs)

/-- What the end of a bundle appends to its core's event queue: the records of streams that have ended, then the bundle's in the
order of slots (R121). -/
def bundleRecords (k : Nat) (x : Ctx) (i : Issue) : List (Word × Word) :=
  ((endedStreams x).map fun st => recordsOf k st.pc 3 st.evVt st.evs).flatten ++
  ((List.range 5).map fun n => recordsOf k i.pc n (if x.depth = 0 then BitVec.ofNat 64 x.vt else x.recVt) (settledBy x i n)).flatten

/-- The events that those records are of. -/
def bundleEvents (x : Ctx) (i : Issue) : List CellEv :=
  ((endedStreams x).map fun st => st.evs).flatten ++ ((List.range 5).map fun n => settledBy x i n).flatten

/-- Slot `n` is the first, in the order of R49, that has raised a kind enabled for the bundle. -/
def FirstEnabled (i : Issue) (n : Nat) : Prop :=
  (∃ e ∈ raisedBy i n, e.item.kind < 8 ∧ i.evtrap.getLsbD e.item.kind = true) ∧
  ∀ m : Nat, m < n → ∀ e ∈ raisedBy i m, e.item.kind < 8 → i.evtrap.getLsbD e.item.kind = false

end Sys2Proof.Claims

/-- R82, R85, R86, R94, R98, R121 to R124, R412, R420, R426: the end of a bundle. The loop-end test runs
from the top of the stack: an entry that ends at the bundle and has more to do is counted down and its body repeats, one that is done is dropped and the next
one is tested, and any other entry ends the test. The next bundle is at the target of a transfer, else where the test
leads, else in sequence; a resumed bundle whose F slot was complete goes to its saved next address. The bundle's end sets
the pc, the skip count and what the context does next, lets USER_TRAP, WATCHPOINT and NUMERIC_EVENT wait for the
boundary, publishes the advances that are due and ends the virtual cycle. What the bundle's slots have raised is appended to the
core's event queue as records of R122, after those of streams that have ended; a record that finds the queue full is dropped,
sets OVF and counts in DROP, and SYS.EVFLAGS gains the bits of all their kinds. The bundle is one without a fault after issue;
NUMERIC_EVENT is stated of a bundle that has started no stream. Which slot a NUMERIC_EVENT names, and that records
are appended at the bundle's end, is the reading of log entry 13. -/
def Obligations.LoopEndTest : Prop :=
  (∀ (x : Ctx) (pc : CodeAddr) (rest : List LoopEntry) (e : LoopEntry), x.loops = rest ++ [e] →
    (e.fin ≠ pc → x.loopEndTest pc = (none, x)) ∧
    (e.fin = pc → e.count ≠ 1 →
      x.loopEndTest pc = (some e.start, { x with loops := rest ++ [{ e with count := e.count - 1 }] })) ∧
    (e.fin = pc → e.count = 1 → x.loopEndTest pc = { x with loops := rest }.loopEndTest pc)) ∧
  (∀ (x : Ctx) (i : Issue),
    (∀ a, x.resumeNpc = some a → x.chooseNext i = (a, .transfer i.pc (a.setWidth 64), x)) ∧
    (x.resumeNpc = none →
      (∀ w, i.target = some w → x.chooseNext i = (BitVec.ofNat 17 w.toNat, .transfer i.pc w, x)) ∧
      (i.target = none →
        (x.loops = [] → x.chooseNext i = (i.next, .fell i.pc, x)) ∧
        (∀ a y, x.loopEndTest i.pc = (some a, y) → x.chooseNext i = (a, .transfer i.pc (a.setWidth 64), y)) ∧
        ∀ y, x.loopEndTest i.pc = (none, y) → x.chooseNext i = (i.next, .fell i.pc, y)))) ∧
  ∀ (s t : State) (c k : Nat) (i : Issue) (x y : Ctx), x = s.ctxAt c k → x.issue = some i → i.late = none →
    t = s.finishBundle c k → y = t.ctxAt c k →
    t.mem = s.mem ∧ y.g = x.g ∧ y.p = x.p ∧ y.lap = x.lap ∧ y.land = x.land ∧ y.depth = x.depth ∧
    y.pc = (x.chooseNext i).1 ∧ y.via = (x.chooseNext i).2.1 ∧ y.loops = (x.chooseNext i).2.2.loops ∧
    y.skip = i.hdr.2.toNat ∧ y.resume = none ∧ y.run = i.ending ∧ y.vt = x.vt + 1 ∧
    (i.ending ≠ .returning → y.issue = none) ∧
    (∀ (room : Nat) (recs : List (Word × Word)), room = 64 - (s.core c).evq.length → recs = bundleRecords k x i →
      (t.core c).evq = (s.core c).evq ++ recs.take room ∧ (t.core c).evOvf = ((s.core c).evOvf || decide (room < recs.length)) ∧
      (t.core c).evDrop.toNat = min ((s.core c).evDrop.toNat + (recs.length - room)) (2 ^ 32 - 1)) ∧
    (∀ q : Nat, y.evflags.getLsbD q =
      (x.evflags.getLsbD q || (decide (q < 8) && (bundleEvents x i).any fun e => e.item.kind == q))) ∧
    (y.advances = x.advances.filter fun a => !(decide (x.depth < a.level) || (a.level == x.depth && decide (a.due ≤ x.vt)))) ∧
    (i.user = none → i.watch = none → i.raises = [] → NoOwnStream x → y.pend = x.pend) ∧
    (∀ code, i.user = some code → (∀ p ∈ x.pend, p.cause ≠ cUserTrap) →
      ∃ p ∈ y.pend, p.cause = cUserTrap ∧ p.slot = 4 ∧ p.fpc = some i.pc ∧ p.info.toNat = code.toNat) ∧
    (∀ n info, i.watch = some (n, info) → (∀ p ∈ x.pend, p.cause ≠ cWatchpoint) →
      ∃ p ∈ y.pend, p.cause = cWatchpoint ∧ p.slot = n ∧ p.fpc = some i.pc ∧ p.info = info) ∧
    ∀ n, NoOwnStream x → n < 5 → FirstEnabled i n → (∀ p ∈ x.pend, p.cause ≠ cNumericEvent) →
      ∃ p ∈ y.pend, p.cause = cNumericEvent ∧ p.slot = n ∧ p.fpc = some i.pc

/-- R90 to R92, R299: in a bundle that issues a wait is met and only completes; alone, a wait that is not met changes
nothing. A slot outside a bundle is the model's (log entry 47). -/
def Obligations.WaitResults : Prop :=
  ∀ (s : State) (f : FForm), Taken s f.pr f.pn →
    (∀ i : Issue, InIssue s i → exec (.waitb f) s = .next (changed s i id) ∧ exec (.waitt f) s = .next (changed s i id) ∧
      exec (.waitf f) s = .next (changed s i id)) ∧
    (s.cx.issue = none → s.cx.land.length ≤ 24 →
      (∀ h, legal (.waitb f) = true → s.cx.handle? (f.a.toNat % 16) = some h → f.tgt.toNat % 2 ^ 16 ≤ h.count →
        (if f.tgt.getLsbD 39 then h.count - h.filled < f.tgt.toNat % 2 ^ 16 else h.filled < f.tgt.toNat % 2 ^ 16) →
        exec (.waitb f) s = .next s) ∧
      (∀ e, legal (.waitt f) = true → s.cx.timeline? (f.a.toNat % 8) = some e →
        (s.counterOf s.turn.core e).toNat < ((gOf s f.b).toNat + f.tgt.toNat) % 2 ^ 64 → exec (.waitt f) s = .next s) ∧
      (∀ g, legal (.waitf f) = true → s.graphOf s.turn.core = some g → f.tgt.toNat % 2 ^ 8 < g.stations →
        (g.frontier (f.tgt.toNat % 2 ^ 8)).toNat ≤ (s.cx.lapReg (f.a.toNat % 4)).toNat → exec (.waitf f) s = .next s))

/-- R93, R94: ADVP moves the fill pointer of a handle and counts slots filled, ADVC moves the drain pointer and counts them
free; either advance is kept until it is published, and a count of 0 changes nothing. -/
def Obligations.AdvanceResults : Prop :=
  ∀ (s : State) (i : Issue) (f : FForm) (n : Nat) (h : Handle), InIssue s i → Taken s f.pr f.pn → n = f.tgt.toNat % 2 ^ 16 →
    s.cx.handle? (f.a.toNat % 16) = some h →
    (n = 0 → exec (.advp f) s = .next (changed s i id) ∧ exec (.advc f) s = .next (changed s i id)) ∧
    (0 < n → h.filled + n ≤ h.count →
      exec (.advp f) s = .next (changed s i fun x => { x with
        h := set 0 (f.a.toNat % 16) { h with fill := (h.fill + n) % h.count, filled := h.filled + n }.word x.h
        advances := x.advances ++ [⟨f.a.toNat % 16, true, n, (s.cc.publishAt s.cx h true).1, (s.cc.publishAt s.cx h true).2⟩] })) ∧
    (0 < n → n ≤ h.filled →
      exec (.advc f) s = .next (changed s i fun x => { x with
        h := set 0 (f.a.toNat % 16) { h with drain := (h.drain + n) % h.count, filled := h.filled - n }.word x.h
        advances := x.advances ++ [⟨f.a.toNat % 16, false, n, (s.cc.publishAt s.cx h false).1, (s.cc.publishAt s.cx h false).2⟩] }))

/-- R95 to R98, R359, R420: END, SLEEP and RFT have the context drain after the bundle, TRAP raises USER_TRAP with its code
at the bundle's end, and YIELD declares the next yield point; under a drain request the context stops after the bundle.
YIELD, END and SLEEP are progress of the launch. The drain of a context at its yield point is the reading of log
entry 41; the level of a yield point and the restart of the watchdog are that of log entry 42. -/
def Obligations.EndingResults : Prop :=
  ∀ (s : State) (i : Issue) (f : FForm), InIssue s i → Taken s f.pr f.pn →
    exec (.endOp f) s = .next (ends (s.progress s.turn.core) i .ending) ∧
    exec (.sleep f) s = .next (ends (s.progress s.turn.core) i .sleeping) ∧
    exec (.rft f) s = .next (ends s i .returning) ∧
    exec (.trap f) s = .next (s.setCx { s.cx with
      issue := some { ticked s i with user := some (BitVec.ofNat 16 (f.tgt.toNat % 2 ^ 16)) } }) ∧
    ∀ n : Nat, n = f.tgt.toNat % 2 ^ 32 →
      exec (.yield f) s = .next ((s.progress s.turn.core).setCx { s.cx with
        yieldPt := some (if n = 0xFFFFFFFF then none else some (s.cx.vt + n))
        yieldLevel := s.cx.depth
        yieldEnd := n == 0
        issue := some { ticked s i with ending := if s.cx.drainReq && s.cx.depth == 0 then .drained else i.ending } })

namespace Sys2Proof.Claims

/-- The effective address of a memory operand (R51). -/
def addrOf (s : State) (f : MForm) : Word := BitVec.ofInt 64 ((gOf s f.a).toNat + f.imm.toInt)

/-- The address space that an address names is the core's own CMEM, at an offset (R26). -/
def InCmem (ea : Word) (off : Nat) : Prop := off < 2 ^ 18 ∧ ea.toNat = 0xCE * 2 ^ 56 + off

/-- The address is one of global memory (R26). -/
def InGlobal (ea : Word) (va : Nat) : Prop := va < 2 ^ 56 ∧ ea.toNat = va

/-- The address is in the CMEM of the launch's core in a slot (R26). -/
def InSibling (ea : Word) (slot off : Nat) : Prop := slot < 128 ∧ off < 2 ^ 18 ∧ ea.toNat = 0xC8 * 2 ^ 56 + slot * 2 ^ 18 + off

/-- The accesses of the context whose turn it is: who makes them, and the identity they carry (R249, R262). -/
def me (s : State) : Client := s.ctxClient s.turn.core s.turn.ctx

/-- The context's access to a global address is performed in `u` with no watchpoint on it. -/
def Unwatched (u : State) (kind : AccKind) (va : Nat) : Prop := u.cc.watchGlobal kind va = 0

/-- The value of `n` loaded bytes: sign-extended or zero-extended (R308). -/
def loadedValue (signed : Bool) (n : Nat) (bs : List Byte) : Word :=
  if signed then BitVec.ofInt 64 ((leNat bs : Int).bmod (2 ^ (8 * n))) else BitVec.ofNat 64 (leNat bs)

/-- The loads: an instruction, its size, and whether it extends the sign (R308). -/
def IsLoad (x : Instr) (f : MForm) (n : Nat) (signed : Bool) : Prop :=
  (x = .ldb f ∧ n = 1 ∧ signed = true) ∨ (x = .ldbn f ∧ n = 1 ∧ signed = false) ∨
  (x = .ldh f ∧ n = 2 ∧ signed = true) ∨ (x = .ldhn f ∧ n = 2 ∧ signed = false) ∨
  (x = .ldw f ∧ n = 4 ∧ signed = true) ∨ (x = .ldwn f ∧ n = 4 ∧ signed = false) ∨ (x = .ldd f ∧ n = 8 ∧ signed = false)

/-- The stores: an instruction and its size (R309). -/
def IsStore (x : Instr) (f : MForm) (n : Nat) : Prop :=
  (x = .stb f ∧ n = 1) ∨ (x = .sth f ∧ n = 2) ∨ (x = .stw f ∧ n = 4) ∨ (x = .std f ∧ n = 8)

/-- SYS.RACEA, SYS.RACEB and SYS.RACEL of a context after a race at `va` (R264): the address; whether it was a write, the kind
of the race, of the identity recorded and the agent recorded, with the station of a stamp; the lap or number recorded. -/
def RaceNamed (t : State) (c k : Nat) (r : Race) (va : Nat) (isWrite : Bool) : Prop :=
  t.sysValue c k 0x031 = BitVec.ofNat 64 va ∧
  t.sysValue c k 0x032 = BitVec.ofNat 64 ((if isWrite then 2 ^ 63 else 0) + r.rkind * 2 ^ 60 +
    (match r.id with
      | .unstamped => 0
      | .stamp _ st _ => 2 ^ 58 + if r.rkind = 2 then 0 else st
      | .timeline .. => 2 * 2 ^ 58) +
    match r.agent with
      | some (.ctx core ctx) => core * 2 ^ 12 + ctx * 2 ^ 8
      | some (.engine core eng) => core * 2 ^ 12 + 2 ^ 11 + eng * 2 ^ 8
      | none => 0) ∧
  t.sysValue c k 0x033 = match r.id with
    | .unstamped => 0
    | .stamp _ _ lap => lap
    | .timeline _ _ _ _ n => n

/-- A slot that meets a race (R264): its context's three registers name it, the slot has faulted after issue with RACE, and no
byte of memory, no record and no landing has changed. -/
def Races (s t : State) (f : MForm) (r : Race) (va : Nat) (isWrite : Bool) : Prop :=
  RaceNamed t s.turn.core s.turn.ctx r va isWrite ∧ t.mem = s.mem ∧ t.lines = s.lines ∧ t.cx.land = s.cx.land ∧
  ∃ j, t.cx.issue = some j ∧ j.late = some (s.turn.slot, cRace, addrOf s f)

/-- The low `n` bytes of a register, least significant first. -/
def lowBytes (n : Nat) (v : Word) : List Byte := (List.range n).map fun j => BitVec.ofNat 8 (v.toNat / 256 ^ j)

/-- The atomics with the new value each computes at `w` bits from the old value, the operand and the compared value, and
whether its old value is zero-extended (R312). -/
def IsAtomic (x : Instr) (f : MForm) (w : Nat) (new : Nat → Nat → Nat → Nat) (zero : Bool) : Prop :=
  let sg (v : Nat) : Int := (v : Int).bmod (2 ^ w)
  (x = .amoadd f ∧ new = (fun m v _ => (m + v) % 2 ^ w) ∧ zero = false) ∨
  (x = .amoand f ∧ new = (fun m v _ => m &&& v) ∧ zero = false) ∨
  (x = .amoor f ∧ new = (fun m v _ => m ||| v) ∧ zero = false) ∨
  (x = .amoxor f ∧ new = (fun m v _ => m ^^^ v) ∧ zero = false) ∨
  (x = .amomin f ∧ new = (fun m v _ => if sg v < sg m then v else m) ∧ zero = false) ∨
  (x = .amomax f ∧ new = (fun m v _ => if sg m < sg v then v else m) ∧ zero = false) ∨
  (x = .amominn f ∧ new = (fun m v _ => min m v) ∧ zero = true) ∨
  (x = .amomaxn f ∧ new = (fun m v _ => max m v) ∧ zero = true) ∨
  (x = .amoswp f ∧ new = (fun _ v _ => v) ∧ zero = false) ∨
  (x = .amocas f ∧ new = (fun m v e => if m = e then v else m) ∧ zero = false)

/-- Bits of an atomic's operand by its attribute (R51). -/
def widthOf (f : MForm) : Nat := if f.attr.toNat / 2 % 4 = 2 then 32 else 64

/-- The launch of the current core. -/
def myLaunch (s : State) : Option (Nat × Launch) := s.launchOf s.turn.core

end Sys2Proof.Claims

/-- R264, R307, R308: a load from the core's own CMEM, from the CMEM of the launch's core in a slot and from global memory: the
bytes at the effective address, extended, land after 3, 8 and 12 cycles. A global access goes through translation, the
page's attributes and the record check of R305, whose outcome is the model's shared read; a load from CMEM is also
counted as in flight for R94. One that meets a race lands nothing and writes SYS.RACEA, SYS.RACEB and SYS.RACEL. That
an access is performed at its issue is the model's choice (log entry 5). -/
def Obligations.LoadResults : Prop :=
  ∀ (s : State) (i : Issue) (f : MForm) (x : Instr) (n : Nat) (signed : Bool), InIssue s i → Taken s f.pr f.pn →
    IsLoad x f n signed →
    (∀ off, InCmem (addrOf s f) off → s.cc.cmemBad off n = false →
      exec x s = .next (changed s i fun c => { c with
        land := withLanding c .g f.d.toNat (loadedValue signed n (readBytes s.cc.cmem off n)) 3
        loads := c.loads ++ [⟨c.depth, c.vt + 3, off, n⟩] })) ∧
    (∀ slot off l la, InSibling (addrOf s f) slot off → myLaunch s = some (l, la) → slot < la.cores.length →
      (s.core (nth 0 la.cores slot)).cmemBad off n = false →
      exec x s = .next (landed s i .g f.d.toNat
        (loadedValue signed n (readBytes (s.core (nth 0 la.cores slot)).cmem off n)) 8)) ∧
    (∀ va bs u, InGlobal (addrOf s f) va → s.readGlobal (me s) .read va n = (.ok bs, u) → Unwatched u .load va →
      exec x s = .next (landed u i .g f.d.toNat (loadedValue signed n bs) 12)) ∧
    (∀ va e u r, InGlobal (addrOf s f) va → s.readGlobal (me s) .read va n = (.error e, u) → e.race = some r →
      ∃ t, exec x s = .next t ∧ Races s t f r va false)

/-- R264, R309: a store writes the low bytes of g[b] at the effective address, in the core's own CMEM or in global memory, and
lands nothing. One that meets a race stores nothing and writes SYS.RACEA, SYS.RACEB and SYS.RACEL. That a store is
performed at its issue is the model's choice (log entry 5). -/
def Obligations.StoreResults : Prop :=
  ∀ (s : State) (i : Issue) (f : MForm) (x : Instr) (n : Nat), InIssue s i → Taken s f.pr f.pn → IsStore x f n →
    (∀ off, InCmem (addrOf s f) off →
      exec x s = .next (changed (s.setCore s.turn.core (s.cc.writeCmem off (lowBytes n (gOf s f.b)))) i id)) ∧
    (∀ va u v, InGlobal (addrOf s f) va → s.writeGlobal (me s) .write va (lowBytes n (gOf s f.b)) = (.ok u, v) →
      Unwatched u .store va → exec x s = .next (changed u i id)) ∧
    (∀ va e v r, InGlobal (addrOf s f) va → s.writeGlobal (me s) .write va (lowBytes n (gOf s f.b)) = (.error e, v) →
      e.race = some r → ∃ t, exec x s = .next t ∧ Races s t f r va true)

/-- R309, frame: where a store of `n` bytes goes to one physical place, computed as the store computes it, those bytes are
the stored ones and every other byte of memory is as before; a store to CMEM changes its own bytes of CMEM, no byte of
another core's and none of memory. That a store is performed at its issue is the model's choice (log entry 5). -/
def Obligations.StoreFrame : Prop :=
  ∀ (s t : State) (i : Issue) (f : MForm) (x : Instr) (n : Nat), InIssue s i → Taken s f.pr f.pn → IsStore x f n →
    exec x s = .next t →
    (∀ va, InGlobal (addrOf s f) va →
      (∀ pa pte v r, s.translateAll (me s).acc .write [(va, n)] = (.ok [(.mem pa, n, pte)], v) → va % n = 0 →
        v.recordAll (me s).tag true [(.mem pa, n, pte)] = .ok r →
        readBytes t.mem pa n = lowBytes n (gOf s f.b) ∧
        ∀ a : Nat, (a < pa ∨ pa + n ≤ a) → readByte t.mem a = readByte s.mem a) ∧
      ∀ c a : Nat, readByte (t.core c).cmem a = readByte (s.core c).cmem a) ∧
    (∀ off, InCmem (addrOf s f) off →
      t.mem = s.mem ∧ readBytes t.cc.cmem off n = lowBytes n (gOf s f.b) ∧
      (∀ a : Nat, (a < off ∨ off + n ≤ a) → readByte t.cc.cmem a = readByte s.cc.cmem a) ∧
      ∀ c : Nat, c ≠ s.turn.core → t.core c = s.core c)

/-- R307, R312: an atomic reads, computes and writes at once, and its old value lands, in CMEM after 4 cycles and in
global memory after 16. That an atomic is performed at its issue is the model's choice (log entry 5). -/
def Obligations.AtomicResults : Prop :=
  ∀ (s : State) (i : Issue) (f : MForm) (x : Instr) (w : Nat) (new : Nat → Nat → Nat → Nat) (zero : Bool), InIssue s i →
    Taken s f.pr f.pn → w = widthOf f → IsAtomic x f w new zero →
    ∀ v e : Nat, v = (gOf s f.b).toNat % 2 ^ w → e = (gOf s f.d).toNat % 2 ^ w →
    (∀ off m, InCmem (addrOf s f) off → s.cc.cmemBad off (w / 8) = false → m = leNat (readBytes s.cc.cmem off (w / 8)) →
      exec x s = .next (landed
        (s.setCore s.turn.core (s.cc.writeCmem off ((List.range (w / 8)).map fun j => BitVec.ofNat 8 (new m v e / 256 ^ j))))
        i .g f.d.toNat (if zero then BitVec.ofNat 64 m else BitVec.ofInt 64 ((m : Int).bmod (2 ^ w))) 4)) ∧
    (∀ va pa pte u m, InGlobal (addrOf s f) va →
      s.translateAll (s.ctxAccessor s.turn.core s.turn.ctx) .write [(va, w / 8)] = (.ok [(.mem pa, w / 8, pte)], u) →
      u.memBad pa (w / 8) = false → Unwatched u .atomic va → m = leNat (readBytes u.mem pa (w / 8)) →
      exec x s = .next (landed
        (u.writeMem pa ((List.range (w / 8)).map fun j => BitVec.ofNat 8 (new m v e / 256 ^ j)))
        i .g f.d.toNat (if zero then BitVec.ofNat 64 m else BitVec.ofInt 64 ((m : Int).bmod (2 ^ w))) 16))

/-- R309, R310 in one context: a doubleword that STD has stored in the core's own CMEM is what a later LDD of its context loads
from there, with that part of CMEM as the store left it; and stores of byte strings read back as written, keep every other
byte, and commute where they do not overlap. That a store is performed at its issue is the model's choice (log entry 5),
and the form of memory that the last clauses name is that of log entry 2. -/
def Obligations.StoreThenRead : Prop :=
  (∀ (s t u : State) (i j : Issue) (f g : MForm) (off : Nat), InIssue s i → Taken s f.pr f.pn → InCmem (addrOf s f) off →
    exec (.std f) s = .next t → InIssue u j → Taken u g.pr g.pn → InCmem (addrOf u g) off →
    (∀ a : Nat, off ≤ a → a < off + 8 → readByte u.cc.cmem a = readByte t.cc.cmem a ∧ (a ∈ u.cc.badCmem ↔ a ∈ t.cc.badCmem)) →
    exec (.ldd g) u = .next (changed u j fun c => { c with
      land := withLanding c .g g.d.toNat (gOf s f.b) 3, loads := c.loads ++ [⟨c.depth, c.vt + 3, off, 8⟩] })) ∧
  ∀ (m : Bytes) (a b : Nat) (bs cs : List Byte),
    readBytes (writeBytes m a bs) a bs.length = bs ∧
    (m.wf = true → (writeBytes m a bs).wf = true) ∧
    (∀ x : Nat, (x < a ∨ a + bs.length ≤ x) → readByte (writeBytes m a bs) x = readByte m x) ∧
    (m.wf = true → (a + bs.length ≤ b ∨ b + cs.length ≤ a) →
      writeBytes (writeBytes m a bs) b cs = writeBytes (writeBytes m b cs) a bs)

/-- R257, R268, R314 to R317, R326, R340: FENCE and TLBSYNC only complete; TLINC adds to the counter that its handle names,
saturating, with every other counter as before, and TLREAD reads it; CPSTEP raises the launch's released stage and never lowers it.
That a fence and a TLBSYNC have nothing to wait for is the model's choice (log entries 5 and 14). -/
def Obligations.OrderTimelineResults : Prop :=
  ∀ (s : State) (i : Issue) (f : MForm), InIssue s i → Taken s f.pr f.pn →
    exec (.fence f) s = .next (changed s i id) ∧
    exec (.tlbsync f) s = .next (changed s i id) ∧
    (∀ e l la, s.cx.timeline? (f.a.toNat % 8) = some e → myLaunch s = some (l, la) →
      exec (.tlread f) s = .next (landed s i .g f.d.toNat (la.counter s.cc.slot e) 12) ∧
      ∃ t, exec (.tlinc f) s = .next t ∧ t = changed { s with launches := t.launches } i id ∧
        (∃ cs, t.launch? l = some { la with counters := cs } ∧
          (get 0 cs (s.cc.slot * 8 + e)).toNat =
            min ((la.counter s.cc.slot e).toNat + ((gOf s f.b).toNat + f.imm.toNat) % 2 ^ 64) (2 ^ 64 - 1) ∧
          ∀ n : Nat, n ≠ s.cc.slot * 8 + e → get 0 cs n = get 0 la.counters n) ∧
        (∀ n, n ≠ l → t.launch? n = s.launch? n)) ∧
    (∀ l la, myLaunch s = some (l, la) →
      ∃ t, exec (.cpstep f) s = .next t ∧ t = changed { s with launches := t.launches } i id ∧
        t.launch? l = some { la with stage := max la.stage (f.imm.toNat % 2 ^ 12) } ∧
        (∀ n, n ≠ l → t.launch? n = s.launch? n))

/-- R318, R325, R327, R329 to R331: CPGO queues the operation whose descriptor it has read and lands its number; CPSTAT
lands the status word and clears a stop; GCFG keeps its configuration; GIDX queues an index; XPUT sends its data. -/
def Obligations.EngineResults : Prop :=
  ∀ (s : State) (i : Issue) (f : MForm), InIssue s i → Taken s f.pr f.pn →
    (∀ d u x, cpgoFetch f s = .ok d u → x = u.engine (f.imm.toNat % 8) →
      ∀ n : Word, n = BitVec.ofNat 64 (min (x.issued.toNat + copyInc d) (2 ^ 64 - 1)) →
      exec (.cpgo f) s = .next (landed
        (u.setEngine (f.imm.toNat % 8) { x with
          issued := n, queue := x.queue ++ [⟨d, n, none, copySkip d, s.turn.ctx, i.pc, s.cx.shownVt, 0⟩] })
        i .g f.d.toNat n 2)) ∧
    (∀ x, x = s.engine (f.imm.toNat % 8) →
      exec (.cpstat f) s = .next (landed (s.setEngine (f.imm.toNat % 8) { x with stopped := false }) i .g f.d.toNat
        (BitVec.ofNat 64 (x.stateCode * 2 ^ 62 + min x.queue.length 32 * 2 ^ 56 + x.err.toNat * 2 ^ 48 + x.done.toNat * 2 ^ 32 +
          x.position % 2 ^ 32)) 2)) ∧
    (∀ d u, gcfgFetch f s = .ok d u → exec (.gcfg f) s = .next (changed u i fun x => { x with gcfg := some d })) ∧
    (∀ d, s.cx.gcfg = some d →
      ∃ g : GatherIdx, g.ctx = s.turn.ctx ∧ g.cfg = d ∧ g.handle = f.imm.toNat % 16 ∧ g.index = gOf s f.a ∧
        exec (.gidx f) s = .next (changed (s.modCore fun k => { k with gather := k.gather ++ [g] }) i id)) ∧
    (∀ bs u l, xputFetch f s = .ok bs u → u.cc.launch = some l →
      exec (.xput f) s = .next (changed
        { u with xputs := u.xputs ++ [⟨l, u.cx.unit, (gOf s f.a).toNat % 2 ^ 9, f.imm.toNat % 16, bs⟩] } i id))

/-- R289, R295, R298, R300, R301, R303: BSEND and PROG put their operation in the context's judge queue, FRONT lands the
frontier that the judge has announced — of a graph whose judge is another package's, the one that the judge has answered
with, and of a cancelled one CLOSED — and GCANCEL asks the judge to cancel the graph it names. How a frontier of
another package's judge is asked for and answered is the reading of log entry 29. -/
def Obligations.GraphResults : Prop :=
  ∀ (s : State) (i : Issue) (f : MForm), InIssue s i → Taken s f.pr f.pn →
    (∀ d ps u, bsendFetch f s = .ok (d, ps) u →
      exec (.bsend f) s = .next (changed u i fun x => { x with
        judgeQ := x.judgeQ ++ [.bsend (f.imm.toNat % 2 ^ 8) (s.cx.lapReg (f.imm.toNat / 2 ^ 8 % 4)) d.unit d.handle d.handler
          (if d.fab then some d.pkg else none) ps] })) ∧
    (∀ ds u, progFetch f s = .ok ds u →
      exec (.prog f) s = .next (changed u i fun x => { x with judgeQ := x.judgeQ ++ [.prog ds] })) ∧
    (∀ g, s.graphOf s.turn.core = some g →
      ∀ v, (g.auth ≠ 3 ∧ v = g.frontier (f.imm.toNat % 2 ^ 8)) ∨
        (g.auth = 3 ∧ if g.state = 2 then v = closedLap else ∃ n, s.cx.frontGot = some (n, v)) →
      exec (.front f) s = .next (changed s i fun x => { x with
        frontAsk := none, frontGot := none, land := withLanding x .g f.d.toNat v 4 })) ∧
    (∀ l la g, myLaunch s = some (l, la) → la.graph = some g → (gOf s f.a).toNat = g.id → g.id < 2 ^ 16 → g.cancelReq = none →
      ∃ t, exec (.gcancel f) s = .next t ∧ t = changed { s with launches := t.launches } i id ∧
        t.launch? l = some { la with graph := some { g with cancelReq := some s.cx.unit } } ∧
        (∀ n, n ≠ l → t.launch? n = s.launch? n))

/-- R138, R238, R334, R335: the refresh and power instructions act on the towers and cells of their squads and only complete
otherwise; a TPWR waits, layer by layer, for the context's writes in flight; a VPWR sets the named register groups, and the
registers of a group that it gates become zero, while every other register, mask, accumulator, tower row and byte is as
before. The towers' and cells' own transitions are the model's shared operations. -/
def Obligations.PowerResults : Prop :=
  ∀ (s : State) (i : Issue) (f : MForm), InIssue s i → Taken s f.pr f.pn →
    exec (.tdefer f) s = .next (changed (s.modCore fun k => k.modTowers (mSquads f) fun _ t =>
      (maskList (field f.imm 4 8 : BitVec 8)).foldl
        (fun t l => t.deferLayer s.clock (min (gOf s f.a).toNat 1048576) l) t) i id) ∧
    exec (.tpwr f) s = .next (changed (s.modCore fun k => (maskList (field f.imm 4 8 : BitVec 8)).foldl (fun k l =>
      (cellsOf (mSquads f)).foldl
        (fun q n => q.powerLayer s.cx n l (k.layerDue s.cx l) (layerCode (f.imm.toNat / 2 ^ 12 % 4))) k) k) i id) ∧
    ∃ t, exec (.vpwr f) s = .next t ∧ t.cx = { s.cx with issue := some (ticked s i) } ∧ t.mem = s.mem ∧ t.cc.cmem = s.cc.cmem ∧
      (∀ c : Nat, c ≠ s.turn.core → t.core c = s.core c) ∧
      ∀ n : Nat, n < 256 →
        (∀ r : Nat, t.cc.towerRow n r = s.cc.towerRow n r) ∧
        (t.cc.cell n).m = (s.cc.cell n).m ∧ (t.cc.cell n).land = (s.cc.cell n).land ∧ (∀ a : Nat, (t.cc.cell n).acc a = (s.cc.cell n).acc a) ∧
        (∀ g : Nat, g < 4 → (t.cc.cell n).group g =
          if bit (mSquads f) (squadOf n) && f.imm.getLsbD (4 + g) then groupCode (f.imm.toNat / 2 ^ 8 % 4)
          else (s.cc.cell n).group g) ∧
        ∀ r : Nat, r < 32 → (t.cc.cell n).vreg r =
          if bit (mSquads f) (squadOf n) && f.imm.getLsbD (4 + r / 8) && decide (groupCode (f.imm.toNat / 2 ^ 8 % 4) = .gated) then 0
          else (s.cc.cell n).vreg r

/-- R336, R337: SYSR lands a register's value after one cycle, with the changes of a read; SYSW gives a register its
effect. -/
def Obligations.SystemRegisterResults : Prop :=
  ∀ (s : State) (i : Issue) (f : MForm) (n : Nat), InIssue s i → Taken s f.pr f.pn → n = f.imm.toNat % 2 ^ 12 →
    exec (.sysr f) s = .next (changed s i fun x => { x.sysRead n with
      land := withLanding x .g f.d.toNat (s.sysValue s.turn.core s.turn.ctx n) 1 }) ∧
    (n = 0x011 → exec (.sysw f) s = .next (changed s i fun x => { x with evflags := x.evflags &&& ~~~(gOf s f.b &&& 0xFE) })) ∧
    (n = 0x012 → exec (.sysw f) s = .next (changed s i fun x => { x with evtrap := gOf s f.b &&& 0xFE })) ∧
    (n = 0x030 → exec (.sysw f) s = .next (changed s i fun x => { x with curst := gOf s f.b &&& 0x80000000000003FF })) ∧
    (n = 0x204 → exec (.sysw f) s = .next (changed s i fun x => { x with tsave := gOf s f.b &&& 0x3FFC0 })) ∧
    (n = 0x2E4 → exec (.sysw f) s = .next (changed s i fun x => { x with
      portsel := BitVec.ofNat 64 (min ((gOf s f.b).toNat % 64) 47) })) ∧
    (∀ u, u = s.syswEffect s.turn.core s.turn.ctx n (gOf s f.b) → u.cx.issue = some i → u.turn = s.turn →
      exec (.sysw f) s = .next (changed u i id))

/-- R240, R328, R416, R438: reading SYS.RETRISK, SYS.ENGFLTA, SYS.ENGFLTB and SYS.ERRLAST clears them, reading SYS.TCAUSE
sets READ, and no other read changes its context. -/
def Obligations.ClearingReads : Prop :=
  ∀ x : Ctx,
    (x.sysRead 0x024).retrisk = 0 ∧ (x.sysRead 0x0B8).engflta = 0 ∧ (x.sysRead 0x0B9).engfltb = 0 ∧
    (x.sysRead 0x2E1).errlast = 0 ∧ (x.sysRead 0x2E1).errHeld = false ∧ (x.sysRead 0x200).tread = true ∧
    (x.sysRead 0x200).tcause = x.tcause ∧
    ∀ n : Nat, n ≠ 0x024 → n ≠ 0x0B8 → n ≠ 0x0B9 → n ≠ 0x200 → n ≠ 0x2E1 → x.sysRead n = x

/-- R116, R241, R336, R339, R340, R351, R376, R385: at a privilege level below what the register or instruction requires,
SYSW, TLBINV and TLBSYNC raise PRIVILEGE at issue and change nothing else; and over all slot instructions, none but a
doorbell's SYSW changes the privilege level or the domain of any launch or context, and none writes a general, predicate
or lap register of any context before its results land. A supervisor's TLBINV of a domain that is neither its own nor a child
of it raises PRIVILEGE too; that TLBINV of all domains requires firmware is the model's choice (log entry 67). A slot
outside a bundle is the model's (log entry 47). -/
def Obligations.PrivilegeTraps : Prop :=
  (∀ (s : State) (f : MForm) (n : Nat), s.cx.issue = none → s.cx.land.length ≤ 24 → Taken s f.pr f.pn → n = f.imm.toNat % 2 ^ 12 →
      (legal (.sysw f) = true →
        ((n = 0x018 ∨ n = 0x2C0) ∧ s.cx.pl = 0) ∨ ((n = 0x2D0 ∨ (0x0FF ≤ n ∧ n ≤ 0x1FF)) ∧ s.cx.pl < 2) →
        exec (.sysw f) s = .next (s.trapIssue ⟨cPrivilege, 0, none⟩)) ∧
      (legal (.tlbsync f) = true → s.cx.pl = 0 → exec (.tlbsync f) s = .next (s.trapIssue ⟨cPrivilege, 0, none⟩)) ∧
      (legal (.tlbinv f) = true → (f.imm.toNat % 4 = 1 → (gOf s f.a).toNat < 2 ^ 16) →
        (s.cx.pl = 0 ∨ (2 ≤ f.imm.toNat % 4 ∧ s.cx.pl < 2) ∨
          (f.imm.toNat % 4 = 1 ∧ s.cx.pl = 1 ∧ s.cx.priv.toNat % 2 ^ 16 ≠ (gOf s f.a).toNat ∧
            ∀ d, s.domain? (gOf s f.a).toNat = some d → d.parent ≠ s.cx.priv.toNat % 2 ^ 16)) →
        exec (.tlbinv f) s = .next (s.trapIssue ⟨cPrivilege, 0, none⟩))) ∧
  ∀ (s t : State) (i : Issue) (x : Instr), InIssue s i → (x = .nop ∨ slotMeaning x s ≠ none) →
    (∀ f, x = .sysw f → f.imm.toNat % 2 ^ 12 ≠ 0x2C0) → exec x s = .next t →
    (∀ c k : Nat, (t.ctxAt c k).priv = (s.ctxAt c k).priv ∧ (t.ctxAt c k).g = (s.ctxAt c k).g ∧
      (t.ctxAt c k).p = (s.ctxAt c k).p ∧ (t.ctxAt c k).lap = (s.ctxAt c k).lap) ∧
    ∀ l la, s.launch? l = some la → ∃ la', t.launch? l = some la' ∧ la'.priv = la.priv ∧ la'.dom = la.dom

/-- R339, R341, R342: TLBINV removes exactly the translations it names from every core's TLB and exactly the table entries of those translations from the walk caches; EVPOP pops the oldest event
record into two registers, zeros when there is none; WATCH sets a watchpoint. That a TLBINV acts at once is the
model's choice (log entry 14). -/
def Obligations.TlbEventResults : Prop :=
  ∀ (s : State) (i : Issue) (f : MForm), InIssue s i → Taken s f.pr f.pn →
    (∃ t, exec (.tlbinv f) s = .next t ∧ t.mem = s.mem ∧ t.cx.land = s.cx.land ∧
      ∀ c : Nat, (s.core c).tlb.filter (fun e => match f.imm.toNat % 4 with
          | 0 => !(e.dom == s.cx.priv.toNat % 2 ^ 16 && e.vpage == (gOf s f.a).toNat % 2 ^ 56 / 2 ^ e.bits)
          | 1 => e.dom != (gOf s f.a).toNat % 2 ^ 16
          | _ => false) = (t.core c).tlb) ∧
    (∃ t, exec (.tlbinv f) s = .next t ∧ ∀ d : Nat, get [] t.walks d = (get [] s.walks d).filter fun e => match f.imm.toNat % 4 with
        | 0 => !(e.dom == s.cx.priv.toNat % 2 ^ 16 && e.vpre == (gOf s f.a).toNat % 2 ^ 56 / 2 ^ levelShift e.lvl)
        | 1 => e.dom != (gOf s f.a).toNat % 2 ^ 16
        | _ => false) ∧
    (∀ a b, (s.cc.evq = [] ∧ a = 0 ∧ b = 0 ∨ ∃ rest, s.cc.evq = (a, b) :: rest) →
      exec (.evpop f) s = .next (changed (s.modCore fun k => { k with evq := k.evq.drop 1 }) i fun x => { x with
        land := withLanding { x with land := withLanding x .g f.d.toNat a 1 } .g (f.d.toNat + 1) b 1 })) ∧
    (∀ ws u, watchFetch f s = .ok ws u →
      exec (.watch f) s = .next (changed (u.modCore fun k => { k with watch := set [] (f.imm.toNat % 8) ws k.watch }) i id))

namespace Sys2Proof.Claims

/-- Cell `n` is selected by a C slot (R129). -/
def Sel (f : CForm) (n : Nat) : Prop := n < 256 ∧ bit f.sq (squadOf n) = true

/-- Nothing that the selected cells hold, in registers, latches or receive buffers, or that their towers store is beyond
correction (R433, R435, R438). -/
def Sound (s : State) (f : CForm) : Prop :=
  ∀ n : Nat, Sel f n → (s.cc.cell n).bad = [] ∧ (∀ r : Nat, (s.cc.tower n).uncorrectable r = false) ∧
    (∀ d : Nat, (get {} (s.cc.cell n).latch d).val.bad = []) ∧ ∀ e ∈ (s.cc.cell n).rx, e.val.bad = []

/-- Records of one cell that say the same: for every kind the same lanes and the same count (R121, R122). -/
def SameEvents (xs ys : List EvItem) : Prop :=
  (∀ e ∈ xs, e.kind < 8 ∧ e.lanes ≠ 0) ∧ ∀ q : Nat, q < 8 →
    ((xs.filter fun e => e.kind == q).map fun e => e.count).sum = ((ys.filter fun e => e.kind == q).map fun e => e.count).sum ∧
    ∀ l : Nat, l < 16 → (xs.any fun e => e.kind == q && e.lanes.getLsbD l) = ys.any fun e => e.kind == q && e.lanes.getLsbD l

/-- The records of elements: each with its lane and the kinds that it raises, one count for each kind. -/
def itemsOf (es : List (Nat × Kinds)) : List EvItem :=
  (es.map fun p => ((List.range 8).filter fun q => p.2.getLsbD q).map fun q => ⟨q, 1#16 <<< p.1, 1⟩).flatten

/-- No record in any cell. -/
def silent : Nat → List EvItem := fun _ => []

/-- The bundle in issue after a C slot that recorded `I n` in each selected cell `n`, and nothing elsewhere. -/
def Recorded (s : State) (i j : Issue) (f : CForm) (I : Nat → List EvItem) : Prop :=
  ∃ evs : List CellEv, j.raises = (if evs = [] then i.raises else i.raises ++ [⟨s.turn.slot, evs⟩]) ∧
    (∀ e ∈ evs, Sel f e.cell) ∧
    ∀ n : Nat, Sel f n → SameEvents ((evs.filter fun e => e.cell == n).map fun e => e.item) (I n)

/-- A cell instruction that ran: its slot is complete, it has recorded the numeric events `I`, nothing of its context but the
bundle in issue has changed, no byte of memory or CMEM and no tower row has changed, and the cells are as `P` says, but for the
read bookkeeping of their towers; the cells not selected are as before. -/
def GivesWith (s : State) (i : Issue) (f : CForm) (x : Instr) (P : Nat → Cell → Prop) (I : Nat → List EvItem)
    (Q : State → Prop) : Prop :=
  ∃ t, exec x s = .next t ∧ Q t ∧
    (∃ j, t.cx = { s.cx with issue := some j } ∧ j.done = setField i.done s.turn.slot 1 1 ∧ j.late = none ∧
      Recorded s i j f I) ∧
    t.mem = s.mem ∧ t.cc.cmem = s.cc.cmem ∧ (∀ n r : Nat, t.cc.towerRow n r = s.cc.towerRow n r) ∧
    ∀ n : Nat, n < 256 →
      if bit f.sq (squadOf n) then ∃ y, P n y ∧ t.cc.cell n = { y with tower := (t.cc.cell n).tower }
      else t.cc.cell n = s.cc.cell n

/-- A cell instruction that sends nothing over express. -/
def Gives (s : State) (i : Issue) (f : CForm) (x : Instr) (P : Nat → Cell → Prop) (I : Nat → List EvItem) : Prop :=
  GivesWith s i f x P I fun t => t.express = s.express

/-- The slot's lane mask in a cell (R127). -/
def maskIn (s : State) (f : CForm) (n : Nat) : BitVec 16 := (s.cc.cell n).mreg f.lm.toNat

/-- A result on its way to vector register `reg`: the elements of `w` bits that the lane mask selects take their values,
and no other bit is written (R126, R127, R133). -/
def ToV (s : State) (reg lat w : Nat) (m : BitVec 16) (val : Nat → Nat) (e : CellLanding) : Prop :=
  e.level = s.cx.depth ∧ e.due = s.cx.vt + lat ∧ e.isMask = false ∧ e.idx = reg ∧ e.await = false ∧
  ∀ j : Nat, j < 256 / w → if m.getLsbD (if w = 8 then j / 2 else j)
    then elemN e.bits w j = 2 ^ w - 1 ∧ elemN e.val w j = val j % 2 ^ w else elemN e.bits w j = 0

/-- The cell with one masked result on its way. -/
def OneV (s : State) (f : CForm) (lat w : Nat) (val : Nat → Nat → Nat) (n : Nat) (y : Cell) : Prop :=
  ∃ e, ToV s f.d.toNat lat w (maskIn s f n) (val n) e ∧ y = { s.cc.cell n with land := (s.cc.cell n).land ++ [e] }

/-- The lane of element `j` of `w` bits: 8-bit elements go by pairs (R126). -/
def laneAt (w j : Nat) : Nat := if w = 8 then j / 2 else j

/-- The elements of `w` bits that the lane mask selects in a cell (R127). -/
def picked (s : State) (f : CForm) (w n : Nat) : List Nat :=
  (List.range (256 / w)).filter fun j => (maskIn s f n).getLsbD (laneAt w j)

/-- The reads that elements `js` make of register `r` of a cell: where its group is gated each reads as zero and is recorded, by
its lane (R139). -/
def gatedBy (s : State) (w n r : Nat) (js : List Nat) : List (Nat × Kinds) :=
  if (s.cc.cell n).group (r / 8) = .gated then js.map fun j => (laneAt w j, kGated) else []

/-- The records of an element-wise instruction: for every selected element the kinds `K` in its lane, and its reads of the
registers `regs` where they are gated. That a read is counted for each operand is the model's choice (log entry 85). -/
def elementEvents (s : State) (f : CForm) (w : Nat) (regs : List Nat) (K : Nat → Nat → Kinds) (n : Nat) : List EvItem :=
  itemsOf ((picked s f w n).map (fun j => (laneAt w j, K n j)) ++
    (regs.map fun r => gatedBy s w n r (picked s f w n)).flatten)

/-- The registers among the first `k` operands: a and b where their selects are 0, and v[CC] (R130). -/
def regsOf (f : CForm) (k : Nat) : List Nat :=
  (if f.as_ = 0 then [f.a.toNat] else []) ++ (if 2 ≤ k ∧ f.bs = 0 then [f.b.toNat] else []) ++ (if k = 3 then [f.cc.toNat] else [])

/-- An element-wise instruction of `k` operands with one masked result; `val` gives each element with the kinds it raises. -/
def GivesV (s : State) (i : Issue) (f : CForm) (x : Instr) (lat w k : Nat) (val : Nat → Nat → Nat × Kinds) : Prop :=
  Gives s i f x (OneV s f lat w fun n j => (val n j).1) (elementEvents s f w (regsOf f k) fun n j => (val n j).2)

/-- The cell with results on their way. -/
def gaining (s : State) (n : Nat) (es : List CellLanding) : Cell := { s.cc.cell n with land := (s.cc.cell n).land ++ es }

/-- A whole-register result. -/
def whole (s : State) (reg lat : Nat) (v : Row) : CellLanding := s.cx.toV reg lat v (BitVec.allOnes 256)

/-- Element `j` of the operand that A's select names in cell `n` (R130), and of B's and of v[CC]. -/
def srcA (s : State) (f : CForm) (g : Fmt) (n j : Nat) : Nat :=
  elemN (s.cc.source n f.as_ f.a f.ta (immRow g f.im f.rm)) g.width j
def srcB (s : State) (f : CForm) (g : Fmt) (n j : Nat) : Nat :=
  elemN (s.cc.source n f.bs f.b f.tb (immRow g f.im f.rm)) g.width j
def srcC (s : State) (f : CForm) (g : Fmt) (n j : Nat) : Nat := elemN ((s.cc.cell n).vreg f.cc.toNat) g.width j

/-- The cell with a mask result on its way: bit `l` of m[D] for the lanes `sel`; one for m0 is discarded (R128). -/
def OneM (s : State) (f : CForm) (lat : Nat) (sel val : Nat → Nat → Bool) (n : Nat) (y : Cell) : Prop :=
  if f.d.toNat = 0 then y = s.cc.cell n
  else ∃ e : CellLanding, y = gaining s n [e] ∧ e.level = s.cx.depth ∧ e.due = s.cx.vt + lat ∧ e.isMask = true ∧
    e.idx = f.d.toNat ∧ e.await = false ∧
    ∀ l : Nat, l < 16 → e.bits.getLsbD l = sel n l ∧ (sel n l = true → e.val.getLsbD l = val n l)

/-- A comparison's lanes and bits: a lane of 8-bit elements holds a pair, and its bit is the AND of the two (R148). -/
def cmpLanes (s : State) (f : CForm) (g : Fmt) (n l : Nat) : Bool := decide (g.width = 32 → l < 8) && (maskIn s f n).getLsbD l
def cmpBit (s : State) (f : CForm) (g : Fmt) (rel : Nat → Nat → Bool) (n l : Nat) : Bool :=
  (List.range (256 / g.width)).all fun j =>
    decide ((if g.width = 8 then j / 2 else j) ≠ l) || rel (srcA s f g n j) (srcB s f g n j)

end Sys2Proof.Claims

namespace Sys2Proof.Claims

/-- R108, R112, R113, R145: a sum, a product or a fused form of finite values is its exact value rounded once; an exact zero of a
sum has the sign of R112; infinities give an infinity, or the default NaN with invalid operation where they oppose or
meet a zero in a product; and the first NaN operand is delivered quieted, with invalid operation where an operand signals. -/
def ComputesAs : Prop :=
  ∀ (q : FloatSpec) (M : RMode),
    (∀ n m e n' m' e' (c S : Int), c ≤ e → c ≤ e' → S = scaledAt n m e c + scaledAt n' m' e' c →
      (S = 0 → addRound q M (.fin n m e) (.fin n' m' e') = (q.signed (decide ((n = true ∧ n' = true ∧ m = 0 ∧ m' = 0) ∨
        (M = .rdn ∧ ¬ (n = false ∧ n' = false ∧ m = 0 ∧ m' = 0))))  0, noKind)) ∧
      (S ≠ 0 → ∃ (k : Nat) (d : Int), addRound q M (.fin n m e) (.fin n' m' e') = q.round M (decide (S < 0)) k d ∧
        ∀ b : Int, b ≤ d → b ≤ c → k * 2 ^ (d - b).toNat = S.natAbs * 2 ^ (c - b).toNat)) ∧
    (∀ n m e n' m' e', mulRound q M (.fin n m e) (.fin n' m' e') = q.round M (n != n') (m * m') (e + e') ∧
      ∀ n'' m'' e'', fmaRound q M (.fin n m e) (.fin n' m' e') (.fin n'' m'' e'') =
        addRound q M (.fin (n != n') (m * m') (e + e')) (.fin n'' m'' e'')) ∧
    (∀ n y, y.isNan = false → y ≠ .inf (!n) →
      addRound q M (.inf n) y = (q.signed n q.infCode, noKind) ∧ addRound q M y (.inf n) = (q.signed n q.infCode, noKind)) ∧
    (∀ n, addRound q M (.inf n) (.inf (!n)) = (q.defaultNan, kInvalid)) ∧
    (∀ n y r, y.isNan = false → r = (if y.isZero then (q.defaultNan, kInvalid) else (q.signed (n != y.isNeg) q.infCode, noKind)) →
      mulRound q M (.inf n) y = r ∧ mulRound q M y (.inf n) = r ∧
      ∀ z, z.isNan = false → (y.isZero = true → fmaRound q M (.inf n) y z = r ∧ fmaRound q M y (.inf n) z = r) ∧
        (y.isZero = false → z = .inf (!(n != y.isNeg)) → fmaRound q M (.inf n) y z = (q.defaultNan, kInvalid) ∧
          fmaRound q M y (.inf n) z = (q.defaultNan, kInvalid)) ∧
        (y.isZero = false → z ≠ .inf (!(n != y.isNeg)) → fmaRound q M (.inf n) y z = r ∧ fmaRound q M y (.inf n) z = r)) ∧
    ∀ n u p w y z k, k = (if u = false ∨ y.isSnan = true then kInvalid else noKind) →
      (∀ op ∈ [addRound, mulRound], op q M (.nan n u p w) y = (q.nanResult n p w, k) ∧
        (y.isNan = false → op q M y (.nan n u p w) = (q.nanResult n p w, k))) ∧
      ∀ k3, k3 = (if u = false ∨ y.isSnan = true ∨ z.isSnan = true then kInvalid else noKind) →
        fmaRound q M (.nan n u p w) y z = (q.nanResult n p w, k3) ∧
        (y.isNan = false → fmaRound q M y (.nan n u p w) z = (q.nanResult n p w, k3)) ∧
        (y.isNan = false → z.isNan = false → fmaRound q M y z (.nan n u p w) = (q.nanResult n p w, k3))

end Sys2Proof.Claims

/-- R108, R109, R121, R122, R139, R144 to R147, R150 to R152: the floating-point instructions compute in the resolved format,
element by element under the lane mask, land after their latency, and record the kinds that their elements raise, each in its
lane. Sums, products and fused forms are exact and rounded once, with the special cases of R112, R113 and R145; how a value is
rounded is stated with the scalar conversions, and the other special cases are the model's shared operations. Latencies are
R132's. The precision of VEXF and VLGF is the reading of log entry 8. -/
def Obligations.CellFloatResults : Prop :=
  ComputesAs ∧ ∀ (s : State) (i : Issue) (f : CForm) (g : Fmt), InIssue s i → Sound s f → s.fpFmt f = some g →
    ∀ (q : FloatSpec) (M : RMode), q = g.spec → M = RMode.ofCode f.rm.toNat →
    ∀ A B C : Nat → Nat → Nat, A = srcA s f g → B = srcB s f g → C = srcC s f g →
    let V (x : Nat) : FVal := q.decode x
    let R (x : Instr) (lat k : Nat) (val : Nat → Nat → Nat × Kinds) : Prop := GivesV s i f x lat g.width k val
    R (.vadd f) 4 2 (fun n j => addRound q M (V (A n j)) (V (B n j))) ∧
    R (.vsub f) 4 2 (fun n j => addRound q M (V (A n j)) (if (V (B n j)).isNan then V (B n j) else (V (B n j)).negate)) ∧
    R (.vmul f) 4 2 (fun n j => mulRound q M (V (A n j)) (V (B n j))) ∧
    R (.vfma f) 4 3 (fun n j => fmaRound q M (V (A n j)) (V (B n j)) (V (C n j))) ∧
    R (.vfms f) 4 3 (fun n j => fmaRound q M (V (A n j)) (V (B n j)) (V (C n j)).negate) ∧
    R (.vfnma f) 4 3 (fun n j => fmaRound q M (V (A n j)).negate (V (B n j)) (V (C n j))) ∧
    R (.vmin f) 2 2 (fun n j => minmax q false (A n j) (B n j)) ∧
    R (.vmax f) 2 2 (fun n j => minmax q true (A n j) (B n j)) ∧
    R (.vabs f) 2 1 (fun n j => (A n j % 2 ^ (g.width - 1), noKind)) ∧
    R (.vneg f) 2 1 (fun n j => (A n j + 2 ^ (g.width - 1), noKind)) ∧
    R (.vcps f) 2 2 (fun n j => (A n j % 2 ^ (g.width - 1) + B n j / 2 ^ (g.width - 1) * 2 ^ (g.width - 1), noKind)) ∧
    R (.vrnd f) 2 1 (fun n j => vrndElem q M (A n j)) ∧
    R (.vexf f) 6 1 (fun n j => vexfElem q M (A n j)) ∧
    R (.vlgf f) 6 1 (fun n j => vlgfElem q M (A n j)) ∧
    R (.vrcpf f) 6 1 (fun n j => vrcpfElem q M (A n j)) ∧
    R (.vrsqf f) 6 1 (fun n j => vrsqfElem q M (A n j)) ∧
    R (.vscl f) 3 2 (fun n j => vsclElem q M (A n j) (B n j))

/-- R139, R154, R155: the integer instructions compute modulo the element width and record no event but gated reads; bitwise, shift, minimum and maximum as the
rule says, a shift by the low bits of b's element. -/
def Obligations.CellIntegerResults : Prop :=
  ∀ (s : State) (i : Issue) (f : CForm) (g : Fmt), InIssue s i → Sound s f → s.plainFmt f = some g →
    ∀ A B C : Nat → Nat → Nat, A = srcA s f g → B = srcB s f g → C = srcC s f g →
    let sg (x : Nat) : Int := (x : Int).bmod (2 ^ g.width)
    let value (x : Nat) : Int := if g = .n8 then (x : Int) else sg x
    let R (x : Instr) (lat : Nat) (val : Nat → Nat → Int) : Prop :=
      GivesV s i f x lat g.width (if x = .vimad f then 3 else 2) fun n j => ((val n j % (2 : Int) ^ g.width).toNat, noKind)
    g.isInt = true →
    R (.viadd f) 2 (fun n j => A n j + B n j) ∧
    R (.visub f) 2 (fun n j => (A n j : Int) - B n j) ∧
    R (.vimul f) 4 (fun n j => A n j * B n j) ∧
    R (.vimad f) 4 (fun n j => A n j * B n j + C n j) ∧
    R (.vand f) 2 (fun n j => (A n j &&& B n j : Nat)) ∧
    R (.vor f) 2 (fun n j => (A n j ||| B n j : Nat)) ∧
    R (.vxor f) 2 (fun n j => (A n j ^^^ B n j : Nat)) ∧
    R (.vshl f) 2 (fun n j => A n j * 2 ^ (B n j % g.width)) ∧
    R (.vshr f) 2 (fun n j => (A n j / 2 ^ (B n j % g.width) : Nat)) ∧
    R (.vshra f) 2 (fun n j => sg (A n j) / 2 ^ (B n j % g.width)) ∧
    R (.vimin f) 2 (fun n j => min (value (A n j)) (value (B n j))) ∧
    R (.vimax f) 2 (fun n j => max (value (A n j)) (value (B n j)))

/-- R139, R148, R149, R156: comparisons write one bit of m[D] for each selected lane; VSEL takes a where the lane's bit of m[CC]
is 1 and b elsewhere. A floating-point comparison records the kinds of its elements. -/
def Obligations.CellCompareResults : Prop :=
  ∀ (s : State) (i : Issue) (f : CForm), InIssue s i → Sound s f →
    (∀ (g : Fmt) (r : FRel), s.fpFmt f = some g →
      (match f.co.toNat with | 0 => r = .eq | 1 => r = .ne | 2 => r = .lt | 3 => r = .le | _ => r = .un) →
      Gives s i f (.vcmp f) (OneM s f 2 (cmpLanes s f g)
        (cmpBit s f g fun a b => (r.eval (g.spec.decode a) (g.spec.decode b)).1))
        (elementEvents s f g.width (regsOf f 2) fun n j =>
          (r.eval (g.spec.decode (srcA s f g n j)) (g.spec.decode (srcB s f g n j))).2)) ∧
    (∀ g : Fmt, s.plainFmt f = some g → g.isInt = true →
      let value (x : Nat) : Int := if g = .n8 then (x : Int) else (x : Int).bmod (2 ^ g.width)
      Gives s i f (.vicmp f) (OneM s f 2 (cmpLanes s f g) (cmpBit s f g fun a b =>
        match f.co.toNat with
        | 0 => decide (a = b)
        | 1 => decide (a ≠ b)
        | 2 => decide (value a < value b)
        | 3 => decide (value a ≤ value b)
        | 4 => decide (a < b)
        | _ => decide (a ≤ b))) (elementEvents s f g.width (regsOf f 2) fun _ _ => noKind)) ∧
    (∀ g : Fmt, s.plainFmt f = some g →
      GivesV s i f (.vsel f) 2 g.width 2 fun n j =>
        (if ((s.cc.cell n).mreg f.cc.toNat).getLsbD (laneAt g.width j) then srcA s f g n j else srcB s f g n j, noKind))

/-- R121, R139, R157 to R160: conversions at one width, to narrower elements from consecutive registers or rows, and to wider elements
in consecutive registers; MX elements are read under their block's scale, and what the conversions raise is recorded by
lane. The conversion is the model's shared
operation. -/
def Obligations.CellConversionResults : Prop :=
  ∀ (s : State) (i : Issue) (f : CForm), InIssue s i → Sound s f →
    ∀ (src dst : Fmt), Fmt.ofCode f.fp2.toNat = some dst → dst.width ≠ 4 →
    (vcvtFmt f s = some src → src.width = dst.width → GivesV s i f (.vcvt f) 3 dst.width 1 fun n j =>
      convert src dst (RMode.ofCode f.rm.toNat) (srcA s f src n j)) ∧
    (Fmt.ofCode f.fp1.toNat = some src → dst.width * 2 = src.width ∨ (dst.width * 4 = src.width ∧ f.as_ ≠ 8) →
      let e := 256 / src.width
      let out (n j : Nat) : Nat × Kinds :=
        let r := if f.as_ = 8 then s.cc.towerRow n (f.ta.toNat + j / e) else (s.cc.cell n).vreg (f.a.toNat + j / e)
        convert src dst (RMode.ofCode f.rm.toNat) (elemN r src.width (j % e))
      Gives s i f (.vpack f) (OneV s f 3 dst.width fun n j => (out n j).1) fun n =>
        itemsOf ((picked s f dst.width n).map fun j => (laneAt dst.width j, (out n j).2)) ++
        if f.as_ = 0 then
          itemsOf ((picked s f dst.width n).map fun j => gatedBy s dst.width n (f.a.toNat + j / e) [j]).flatten
        else []) ∧
    (vunpkFmt f s = some src → (f.fp1 = 12 ∨ Fmt.ofCode f.fp1.toNat = some src) →
      let out (n q j : Nat) : Nat × Kinds :=
        vunpkElem s.cc n f.ta.toNat src dst (RMode.ofCode f.rm.toNat) (s.cc.source n f.as_ f.a f.ta 0) (q * (256 / dst.width) + j)
      Gives s i f (.vunpk f) (fun n y => ∃ es : List CellLanding, y = gaining s n es ∧ es.length = unpackRatio src dst ∧
        ∀ (q : Nat) (e : CellLanding), es[q]? = some e →
          ToV s (f.d.toNat + q) 3 dst.width (maskIn s f n) (fun j => (out n q j).1) e) fun n =>
        ((List.range (unpackRatio src dst)).map fun q => elementEvents s f dst.width (regsOf f 1) (fun n j => (out n q j).2) n).flatten)

/-- R121, R139, R161 to R166: permutation, broadcast, the reductions — element 0 takes the result and the rest of v[D] zero — and the
two kept of every four, with their indices, and the rest of both registers zero. A reduction records what its nodes raise in lane
0. The tree sums and the ranking are the model's shared operations. -/
def Obligations.CellMovementResults : Prop :=
  ∀ (s : State) (i : Issue) (f : CForm), InIssue s i → Sound s f →
    ∀ w : Nat, w = plainWidth f.fp1.toNat → w = 8 ∨ w = 16 ∨ w = 32 →
    let a (n j : Nat) : Nat := elemN ((s.cc.cell n).vreg f.a.toNat) w j
    let b (n j : Nat) : Nat := elemN ((s.cc.cell n).vreg f.b.toNat) w j
    let reads (regs : List Nat) : Nat → List EvItem := elementEvents s f w regs fun _ _ => noKind
    Gives s i f (.vperm f) (OneV s f 2 w fun n j => a n (b n j % (256 / w))) (reads [f.a.toNat, f.b.toNat]) ∧
    (∀ lw : Nat, lw = (if w = 32 then 32 else 16) → Gives s i f (.vbcast f) (fun n y =>
      ∃ e : CellLanding, y = gaining s n [e] ∧ ToV s f.d.toNat 2 w (maskIn s f n) (fun j =>
        elemN ((s.cc.cell n).vreg f.a.toNat) lw f.im.toNat / 2 ^ (w * j % lw)) e) (reads [f.a.toNat])) ∧
    ∀ g : Fmt, Fmt.ofCode f.fp1.toNat = some g → g.width = w →
      let xs (n : Nat) : List (Option Nat) :=
        (List.range (256 / w)).map fun j => if (maskIn s f n).getLsbD (if w = 8 then j / 2 else j) then some (a n j) else none
      let R (x : Instr) (lat : Nat) (out : Nat → Nat × List Kinds) : Prop :=
        Gives s i f x (fun n y => y = gaining s n [whole s f.d.toNat lat (BitVec.ofNat 256 (out n).1)])
          fun n => itemsOf ((out n).2.map fun e => (0, e)) ++ reads [f.a.toNat] n
      R (.vrsum f) 6 (fun n => vrsumRow g (RMode.ofCode f.rm.toNat) (xs n)) ∧
      R (.vrmax f) 4 (fun n => vrmaxRow g (xs n)) ∧
      Gives s i f (.vspar f) (fun n y => ∃ kept idx : Row,
        y = gaining s n [whole s f.d.toNat 3 kept, whole s (f.d.toNat + 1) 3 idx] ∧
        (∀ p : Nat, p < 256 / w / 4 → ∀ z : List Nat, z = (List.range 4).map (fun k => ((xs n).getD (4 * p + k) none).getD 0) →
          elemN kept w (2 * p) = z.getD (sparKeep g z).1 0 ∧ elemN kept w (2 * p + 1) = z.getD (sparKeep g z).2 0 ∧
          elemN idx 4 p = (sparKeep g z).1 + 4 * (sparKeep g z).2) ∧
        (∀ j : Nat, 2 * (256 / w / 4) ≤ j → j < 256 / w → elemN kept w j = 0) ∧
        ∀ p : Nat, 256 / w / 4 ≤ p → p < 64 → elemN idx 4 p = 0) (reads [f.a.toNat])

/-- R128, R167, R168: mask registers are combined and copied after one cycle — m0 reads all ones, a result for it is
discarded — and KPOP counts the ones of a mask into element 0 of a register. -/
def Obligations.MaskResults : Prop :=
  ∀ (s : State) (i : Issue) (f : CForm), InIssue s i → Sound s f →
    let A (n l : Nat) : Bool := decide (f.a.toNat = 0) || ((s.cc.cell n).mreg f.a.toNat).getLsbD l
    let B (n l : Nat) : Bool := decide (f.b.toNat = 0) || ((s.cc.cell n).mreg f.b.toNat).getLsbD l
    let R (x : Instr) (val : Nat → Nat → Bool) : Prop := Gives s i f x (OneM s f 1 (fun _ _ => true) val) silent
    R (.kand f) (fun n l => A n l && B n l) ∧
    R (.kor f) (fun n l => A n l || B n l) ∧
    R (.knot f) (fun n l => !A n l) ∧
    R (.kmov f) A ∧
    Gives s i f (.kpop f) (fun n y => y = gaining s n
      [whole s f.d.toNat 2 (BitVec.ofNat 256 ((List.range 16).filter fun l => A n l).length)]) silent

/-- R139, R141, R142: TLD reads a tower row into a register after three cycles; TST writes the selected 16-bit parts of a
register to a row after two. -/
def Obligations.TowerAccessResults : Prop :=
  ∀ (s : State) (i : Issue) (f : CForm), InIssue s i → Sound s f →
    Gives s i f (.tld f) (OneV s f 3 16 fun n j => elemN (s.cc.towerRow n f.ta.toNat) 16 j) silent ∧
    Gives s i f (.tst f) (fun n y => ∃ w : TowerWrite,
      y = { s.cc.cell n with writes := (s.cc.cell n).writes ++ [w] } ∧ w.level = s.cx.depth ∧ w.due = s.cx.vt + 2 ∧
      w.row = f.td.toNat ∧ w.scales = [] ∧ w.await = false ∧ w.val = (s.cc.cell n).vreg f.a.toNat ∧
      ∀ j : Nat, j < 16 → elemN w.bits 16 j = if (maskIn s f n).getLsbD j then 0xFFFF else 0)
      (elementEvents s f 16 [f.a.toNat] fun _ _ => noKind)

/-- R143, R179, R190, R194, R212: TLDM, MMA, MLOAD and the tower forms of LQNEAR and LQSCALE start a stream whose first
step is performed in the issue cycle; with no squad selected they only complete. -/
def Obligations.StreamStarts : Prop :=
  ∀ (s : State) (i : Issue) (f : CForm), InIssue s i → Sound s f →
    let starts (x : Instr) (kind : StreamKind) (steps : Nat) : Prop :=
      ∃ t j, ∃ st : Stream, exec x s = .next t ∧ t.cx.issue = some j ∧ j.done = setField i.done s.turn.slot 1 1 ∧ j.late = none ∧
        j.raises = i.raises ∧ t.mem = s.mem ∧ t.cx.streams = s.cx.streams ++ [st] ∧ st.kind = kind ∧ st.form = f ∧ st.level = s.cx.depth ∧
        st.start = (s.cx.vt : Int) ∧ st.done = 1 ∧ st.left = steps - 1
    let units : Nat → Nat := fun code => if code = 0 then 8 else 4
    (f.sq = 0 → ∀ x ∈ [Instr.tldm f, .mma f, .mload f, .lqnear f, .lqscale f], exec x s = .next (changed s i id)) ∧
    (f.sq ≠ 0 →
      starts (.tldm f) .tldm ((f.cn.toNat + 1) / 2) ∧
      starts (.mma f) .mma f.cn.toNat ∧
      (∀ g, Fmt.ofCode f.fp1.toNat = some g → starts (.mload f) .mload ((drainRows g f.cn.toNat + 1) / 2)) ∧
      ∀ code, f.as_ = 1 → s.lqCode f = some code → code ≤ 2 →
        starts (.lqnear f) .lattice (units code / 2) ∧ starts (.lqscale f) .lattice (units code / 2))

namespace Sys2Proof.Claims

/-- Element `e` of an integer fragment (R173). -/
def fragInt (g : Fmt) (v : FragVal) (e : Nat) : Int :=
  if g = .n8 then (elemN v.bits 8 e : Int) else (elemN v.bits 8 e : Int).bmod (2 ^ 8)

/-- Element `e` of a floating-point fragment (R105, R106, R111, R173, R207): under its block's scale where its format has
blocks, eight to a codeword in LQ8, and a zero of its sign for a BF16 subnormal. -/
def fragAt (g : Fmt) (v : FragVal) (e : Nat) : FVal :=
  match g with
  | .lq8 => lqValue (v.scales.getD (e / 64) 0) ((lqDecode (elem v.bits 16 (e / 8))).getD (e % 8) 0)
  | .mxfp8 => mxValue .mxfp8 (v.scales.getD (e / 32) 0) (elemN v.bits 8 e)
  | .mxfp4 => mxValue .mxfp4 (v.scales.getD (e / 32) 0) (elemN v.bits 4 e)
  | .bf16 => if elemN v.bits 16 e / 2 ^ 7 % 2 ^ 8 = 0 then .fin (decide (2 ^ 15 ≤ elemN v.bits 16 e)) 0 0
    else Fmt.bf16.spec.decode (elemN v.bits 16 e)
  | _ => g.spec.decode (elemN v.bits g.width e)

end Sys2Proof.Claims

/-- R172, R173, R175 to R177: one element of a matrix step. In integers it is the accumulator plus the exact sum of products or of
absolute differences modulo 2^32, or the greater of it and the sum. In floating point it is the first NaN of x and the
operands; else the default NaN, invalid, for a term that has no value or for infinities of opposite sign; else an
infinity; else, of the exact terms, one rounding of their sum with x, or under CO = 2 that of the terms alone where it is
greater than x. A step whose positions are all masked changes nothing. In a step of a pair of formats element (i, j) of the
accumulator takes positions l of the A fragment's row i and the B fragment's column j, those below the K extent; its events
count in the lane of its column. That under CO = 2 the comparison decides where x
alone is infinite is the reading of log entry 25. -/
def Obligations.MatrixElement : Prop :=
  ∀ (x : BitVec 32),
    (∀ ps : List (Int × Int), ps ≠ [] →
      (intStep 0 x ps).1 = BitVec.ofInt 32 (x.toInt + (ps.map fun p => p.1 * p.2).sum) ∧
      (intStep 1 x ps).1 = BitVec.ofInt 32 (x.toInt + (ps.map fun p => ((p.1 - p.2).natAbs : Int)).sum) ∧
      (intStep 2 x ps).1 = (if x.toInt < (ps.map fun p => p.1 * p.2).sum
        then BitVec.ofInt 32 (ps.map fun p => p.1 * p.2).sum else x)) ∧
    (∀ co, intStep co x [] = (x, noKind) ∧ fpStep co x [] = (x, noKind)) ∧
    (∀ (co : Nat) (ps : List (FVal × FVal)) (q : FloatSpec) (v : FVal) (ops : List FVal), ps ≠ [] → q = Fmt.fp32.spec →
      v = q.decode x.toNat → ops = v :: (ps.map fun p => [p.1, p.2]).flatten →
      (∀ pre post neg quiet pay bits, ops = pre ++ .nan neg quiet pay bits :: post → (∀ w ∈ pre, w.isNan = false) →
        fpStep co x ps =
          (BitVec.ofNat 32 (q.nanResult neg pay bits), if ops.any FVal.isSnan then kInvalid else noKind)) ∧
      ((∀ w ∈ ops, w.isNan = false) → ∀ terms : List (Option FVal),
        terms = ps.map (fun p => if co = 1 then p.1.absDiff p.2 else p.1.times p.2) →
        (none ∈ terms → fpStep co x ps = (0x7FC00000, kInvalid)) ∧
        ∀ ts : List FVal, terms = ts.map some →
          (.inf true ∈ v :: ts → .inf false ∈ v :: ts → fpStep co x ps = (0x7FC00000, kInvalid)) ∧
          (¬ (.inf true ∈ v :: ts ∧ .inf false ∈ v :: ts) →
            (co ≠ 2 →
              (∀ neg, .inf neg ∈ v :: ts → fpStep co x ps = (BitVec.ofNat 32 (q.signed neg q.infCode), noKind)) ∧
              ∀ y, y = sumRound q .rne (v :: ts) → fpStep co x ps = (BitVec.ofNat 32 y.1, y.2)) ∧
            (co = 2 → ∀ y, y = sumRound q .rne ts → (q.decode y.1).isNan = false →
              fpStep co x ps = (if v.below (q.decode y.1) then BitVec.ofNat 32 y.1 else x, y.2))))) ∧
    (∀ (ga gb : Fmt) (p : MmaPair) (co lim : Nat) (a b : FragVal) (old : Acc), mmaPair ga gb = some p →
      stepAcc p ga gb co 0 a b old = (old, []) ∧
      (0 < lim → lim ≤ p.k →
        let at_ (n : Nat) : BitVec 32 × Kinds :=
          if p.int then intStep co (old.at_ n)
            ((List.range lim).map fun l => (fragInt ga a (n / 32 * p.k + l), fragInt gb b (l * 32 + n % 32)))
          else fpStep co (old.at_ n)
            ((List.range lim).map fun l => (fragAt ga a (n / 32 * p.k + l), fragAt gb b (l * 32 + n % 32)))
        ∀ r, r = stepAcc p ga gb co lim a b old → r.1.tag = (if p.int then .int else .fp) ∧
          (∀ n : Nat, n < 512 → r.1.at_ n = (at_ n).1) ∧
          SameEvents r.2 (itemsOf ((List.range 512).map fun n => (n % 32 % 16, (at_ n).2))))) ∧
    ∀ (st : Stream) (num l : Nat), (l < st.limit num ↔ l < st.pair.k ∧ num * st.pair.k + l < st.kx) ∧
      st.kx = (if st.form.im.toNat % 2048 = 0 then st.form.cn.toNat * st.pair.k else st.form.im.toNat % 2048) ∧
      ∀ ga gb p, Fmt.ofCode st.fa = some ga → Fmt.ofCode st.fb = some gb → mmaPair ga gb = some p → st.pair = p

/-- R122, R139, R191, R192, R195, R196: MZERO empties an accumulator, MREAD lands sixteen of its elements in two registers, PATCH
changes elements of one row, and MDRAIN schedules the rows that the model's shared drain computes, row q after 2 + q
cycles. PATCH records what its elements raise by column, columns j and j + 16 in one lane, and MDRAIN what the drain's
conversions raise. -/
def Obligations.AccumulatorResults : Prop :=
  ∀ (s : State) (i : Issue) (f : CForm), InIssue s i → Sound s f →
    ∀ k : Nat, (k = 0 ∨ k = 1) →
    (f.d.toNat % 2 = k → Gives s i f (.mzero f) (fun _ y => y.acc k = {}) silent) ∧
    (f.a.toNat % 2 = k → Gives s i f (.mread f) (fun n y => ∃ e0 e1, y = gaining s n [e0, e1] ∧
      let at0 := 32 * (f.im.toNat % 16) + 16 * (f.im.toNat / 16 % 2)
      let v := (s.cc.cell n).accView k s.cx.depth s.cx.vt
      ToV s f.d.toNat 3 32 (maskIn s f n) (fun j => (v.at_ (at0 + j)).toNat) e0 ∧
      ToV s (f.d.toNat + 1) 3 32 (maskIn s f n) (fun j => (v.at_ (at0 + 8 + j)).toNat) e1) silent) ∧
    (f.d.toNat % 2 = k → let at0 := 32 * (f.im.toNat / 32 % 16) + f.im.toNat % 32
      Gives s i f (.patch f) (fun n y =>
      let old := (s.cc.cell n).acc k
      (y.acc k).tag = (if old.tag = .empty then .fp else old.tag) ∧ y.land = (s.cc.cell n).land ∧ y.v = (s.cc.cell n).v ∧
      ∀ j : Nat, j < 512 → (y.acc k).at_ j =
        if at0 ≤ j ∧ j < at0 + f.cn.toNat ∧ (maskIn s f n).getLsbD (j - at0) = true
        then (patchElem f.co.toNat (y.acc k).tag (old.at_ j) (elem ((s.cc.cell n).vreg f.b.toNat) 32 (j - at0))).1
        else old.at_ j) fun n => itemsOf (((List.range f.cn.toNat).filter fun e => (maskIn s f n).getLsbD e).map fun e =>
          ((at0 + e) % 32 % 16, (patchElem f.co.toNat ((s.cc.cell n).acc k).tag (((s.cc.cell n).acc k).at_ (at0 + e))
            (elem ((s.cc.cell n).vreg f.b.toNat) 32 e)).2 |||
            if (s.cc.cell n).group (f.b.toNat / 8) = .gated then kGated else noKind))) ∧
    (∀ g : Fmt, f.a.toNat % 2 = k → s.drainFmt f = some g →
      let out (n : Nat) : List DrainRow × List EvItem :=
        drainAll ((s.cc.cell n).accView k s.cx.depth s.cx.vt) g (RMode.ofCode f.rm.toNat) f.cn.toNat (maskIn s f n)
      Gives s i f (.mdrain f) (fun n y =>
        y = { s.cc.cell n with writes := (s.cc.cell n).writes ++ ((out n).1.map
          fun d => s.cx.toRow (f.td.toNat + d.q) (2 + d.q) d.val d.bits (d.scales.filterMap fun h =>
            ((s.cc.cell n).scalePlace (f.td.toNat + d.q) h.1).map fun (p : Nat × Nat) => (p.1, p.2, h.2))) })
        fun n => (out n).2)

/-- R139, R181, R197 to R199: a shift lands the sender's register in its receiver, under the receiver's mask, and its bits in the
receiver's latch that faces the sender; XSND sends registers over a channel of the express network; XRCV lands the oldest
entry of a channel and takes it from the buffer. Receivers and latencies are the model's reading of R182 and R183 (log entry 24). -/
def Obligations.CellMoveResults : Prop :=
  ∀ (s : State) (i : Issue) (f : CForm), InIssue s i → Sound s f →
    let sent (regs : List Nat) (n : Nat) : List EvItem :=
      itemsOf (regs.map fun r => gatedBy s 16 n r (List.range 16)).flatten
    let shift (x : Instr) (d : Side) (face : Nat) : Prop :=
      let lat := shiftLatency s.cx.sqgeom f d
      Gives s i f x (fun n y =>
        match (shiftMoves s.cx.sqgeom f d).find? fun m => m.2 == n with
        | none => y = s.cc.cell n
        | some m => ∃ (e : CellLanding) (r : FragMove),
            y = { s.cc.cell n with land := (s.cc.cell n).land ++ [e], frags := (s.cc.cell n).frags ++ [r] } ∧
            ToV s f.d.toNat lat 16 (maskIn s f n) (fun j => elemN ((s.cc.cell m.1).vreg f.a.toNat) 16 j) e ∧
            r.level = s.cx.depth ∧ r.due = s.cx.vt + lat ∧ r.side = face ∧
            r.val.bits = ((s.cc.cell m.1).vreg f.a.toNat).setWidth 512 ∧ r.val.fmt = f.fp1.toNat) (sent [f.a.toNat])
    shift (.shn f) .n 2 ∧ shift (.she f) .e 3 ∧ shift (.shs f) .s 0 ∧ shift (.shw f) .w 1 ∧
    (∀ l ch, ch = f.rt.toNat % 16 → s.cc.launch = some l →
      (∀ n : Nat, Sel f n → s.channelTo s.turn.core (s.cx.xchan ch) n ≠ none) →
      GivesWith s i f (.xsnd f) (fun n y => y = s.cc.cell n)
        (sent (if bit f.rt 7 then [f.a.toNat, f.a.toNat + 1] else [f.a.toNat])) fun t =>
        ∃ ms : List ExpressMsg, t.express = s.express ++ ms ∧
          ms.map (fun m => m.fromCell) = (List.range 256).filter (fun n => bit f.sq (squadOf n)) ∧
          ∀ m ∈ ms, s.channelTo s.turn.core (s.cx.xchan ch) m.fromCell = some (m.core, m.cell) ∧ m.launch = l ∧
            m.val.chan = ch ∧ m.val.forwarded = false ∧
            elem m.val.val.bits 256 0 = (s.cc.cell m.fromCell).vreg f.a.toNat ∧
            (bit f.rt 7 = true → elem m.val.val.bits 256 1 = (s.cc.cell m.fromCell).vreg (f.a.toNat + 1))) ∧
    ((∀ n : Nat, Sel f n → takeChannel (f.rt.toNat % 16) (s.cc.cell n).rx ≠ none) →
      Gives s i f (.xrcv f) (fun n y => ∃ (e : Express) (rest : List Express) (es : List CellLanding),
        takeChannel (f.rt.toNat % 16) (s.cc.cell n).rx = some (e, rest) ∧
        y = { gaining s n es with rx := rest } ∧ es.length = (if bit f.rt 7 then 2 else 1) ∧
        ∀ q r, es[q]? = some r →
          ToV s (f.d.toNat + q) 2 16 (maskIn s f n) (fun j => elemN (elem e.val.bits 256 q) 16 j) r) silent)

/-- R139, R210, R213 to R216: LQNEAR writes a block's codewords and its scale, and LQSCALE lands a block's scale, after six cycles; LQDEC
lands the half-units of a block's codewords as 8-bit integers in four registers; LQMERGE writes merged codewords, and where one of a block's meets a
NaN or an infinite value writes 0xFF to the scale byte of that block of row TD, which otherwise stays. Records name codewords. Their
register forms are stated here; the scale search, the nearest lattice point and the merge are the model's shared
operations of R202 to R211. -/
def Obligations.LatticeResults : Prop :=
  ∀ (s : State) (i : Issue) (f : CForm), InIssue s i → Sound s f →
    (∀ g : Fmt, f.as_ ≠ 1 → f.sq ≠ 0 → Fmt.ofCode f.fp1.toNat = some g →
      (∀ n : Nat, Sel f n → (∀ e ∈ (s.cc.cell n).land, e.await = false) ∧ ∀ e ∈ (s.cc.cell n).writes, e.await = false) →
      let xs (n : Nat) : List LqElem := lqElems g
        ((List.range (if f.fp1.toNat = 0 then 8 else 4)).map fun q => (s.cc.cell n).vreg (f.a.toNat + q)) (maskIn s f n)
      let reads (n : Nat) : List EvItem := if f.as_ ≠ 0 then [] else
        itemsOf ((List.range (if f.fp1.toNat = 0 then 8 else 4)).map fun q => gatedBy s g.width n (f.a.toNat + q)
          ((List.range (256 / g.width)).filter fun j => (maskIn s f n).getLsbD ((q * (256 / g.width) + j) / 8))).flatten
      Gives s i f (.lqscale f) (fun n y => y = gaining s n [whole s f.d.toNat 6 (BitVec.ofNat 256 (lqScale (xs n)))]) reads ∧
      Gives s i f (.lqnear f) (fun n y =>
        if (maskIn s f n).toNat % 256 = 0 then
          y = { s.cc.cell n with writes := (s.cc.cell n).writes ++ [s.cx.toRow f.td.toNat 6 0 0 []] }
        else ∃ (half sc : Nat) (v bits : Row), half = f.d.toNat % 2 ∧ sc = lqScale (xs n) ∧
          y = { s.cc.cell n with writes := (s.cc.cell n).writes ++ [s.cx.toRow f.td.toNat 6 v bits
            (match (s.cc.cell n).scalePlace f.td.toNat half with | some p => [(p.1, p.2, BitVec.ofNat 8 sc)] | none => [])] } ∧
          ∀ c : Nat, c < 16 →
            elemN bits 16 c = (if c / 8 = half then 0xFFFF else 0) ∧
            (c / 8 = half → elemN v 16 c = (nth 0 (lqEncodeBlock sc (xs n)).1 (c % 8)).toNat))
        fun n => (if (maskIn s f n).toNat % 256 = 0 then [] else (lqEncodeBlock (lqScale (xs n)) (xs n)).2) ++ reads n) ∧
    Gives s i f (.lqdec f) (fun n y => ∃ es : List CellLanding, y = gaining s n es ∧ es.length = 4 ∧
      ∀ q e, es[q]? = some e → ToV s (f.d.toNat + q) 3 8 (maskIn s f n) (fun j =>
        let h := nth 0 (lqDecode (elem (s.cc.source n f.as_ f.a f.ta 0) 16 ((32 * q + j) / 8))) ((32 * q + j) % 8)
        (h % 256).toNat) e) (fun n => if f.as_ = 0 ∧ (s.cc.cell n).group (f.a.toNat / 8) = .gated then
          itemsOf (((List.range 128).filter fun e => (maskIn s f n).getLsbD (e % 32 / 2)).map fun e => (e % 32 / 2, kGated)) else []) ∧
    let word (n c : Nat) : BitVec 16 × Bool × Nat :=
      lqMergeWord (s.cc.scaleByte n f.ta.toNat (c / 8)) (s.cc.scaleByte n f.td.toNat (c / 8))
        (elem (s.cc.towerRow n f.ta.toNat) 16 c) f.im.toNat f.cn.toNat
        ((List.range 8).map fun k => Fmt.fp32.spec.decode (elemN ((s.cc.cell n).vreg f.a.toNat) 32 k))
    let marked (n : Nat) : List Nat := (List.range 16).filter fun c => (maskIn s f n).getLsbD c
    let nan (n h : Nat) : Bool := (marked n).any fun c => c / 8 == h && (word n c).2.1
    (∀ (sa sd : Nat) (old : BitVec 16) (at0 k : Nat) (vals xs : List FVal), vals.length = 8 →
      xs = (List.range 8).map (fun i => if at0 ≤ i ∧ i < at0 + k then vals.getD i (.fin false 0 0)
        else lqValue sa ((lqDecode old).getD i 0)) →
      ((lqMergeWord sa sd old at0 k vals).2.1 = true ↔ sd = 255 ∨ ∃ x ∈ xs, x.unblockable = true) ∧
      (sd = 255 ∨ (∃ x ∈ xs, x.unblockable = true) →
        lqMergeWord sa sd old at0 k vals = (0, true, (xs.filter FVal.unblockable).length))) ∧
    Gives s i f (.lqmerge f) (fun n y => ∃ w : TowerWrite,
      y = { s.cc.cell n with writes := (s.cc.cell n).writes ++ [w] } ∧ w.level = s.cx.depth ∧ w.due = s.cx.vt + 4 ∧
      w.row = f.td.toNat ∧ w.await = false ∧
      (∀ c : Nat, c < 16 → if (maskIn s f n).getLsbD c then elemN w.bits 16 c = 0xFFFF ∧ elem w.val 16 c = (word n c).1
        else elemN w.bits 16 c = 0) ∧
      w.scales = ([0, 1].filter fun h => nan n h).filterMap fun h =>
        ((s.cc.cell n).scalePlace f.td.toNat h).map fun p => (p.1, p.2, 0xFF))
      fun n => (marked n).filterMap (fun c => if (word n c).2.1 then some ⟨5, 1#16 <<< c, (word n c).2.2⟩
          else if (word n c).2.2 = 0 then none else some ⟨6, 1#16 <<< c, (word n c).2.2⟩) ++
        if (s.cc.cell n).group (f.a.toNat / 8) = .gated ∧ f.cn ≠ 0 then (marked n).map fun c => ⟨7, 1#16 <<< c, f.cn.toNat⟩ else []

namespace Sys2Proof.Claims

/-- The core and the context exist. -/
def IsCtx (c k : Nat) : Prop := c < 128 ∧ k < 4

/-- The result of a step that changes neither memory nor CMEM, and no general register of a context. -/
def Quiet (s t : State) : Prop :=
  t.mem = s.mem ∧ ∀ c k : Nat, (t.core c).cmem = (s.core c).cmem ∧ (t.ctxAt c k).g = (s.ctxAt c k).g

/-- What is due in a context's cells in its present cycle. -/
def dueIn (x : Ctx) (level due : Nat) : Bool := level == x.depth && decide (due ≤ x.vt)

/-- The bits of `new` where `bits` has ones, and of `old` elsewhere. -/
def merged {n : Nat} (old new bits : BitVec n) : BitVec n := (old &&& ~~~bits) ||| (new &&& bits)

/-- What the landings of a context's present cycle make of cell `n` of its core: what is due leaves its queue; a result
that is alone for its register takes the bits it brings, and a register that none names keeps its own. -/
def CellLanded (x : Ctx) (old new : Cell) : Prop :=
  new.land = old.land.filter (fun e => !dueIn x e.level e.due) ∧
  new.writes = old.writes.filter (fun e => !dueIn x e.level e.due) ∧
  new.power = old.power.filter (fun e => !dueIn x e.level e.due) ∧
  (∀ (r : Nat) (es : List CellLanding),
    es = old.land.filter (fun e => dueIn x e.level e.due && !e.isMask && e.idx == r) →
    (es = [] → new.vreg r = old.vreg r) ∧ ∀ e, es = [e] → new.vreg r = merged (old.vreg r) e.val e.bits) ∧
  ∀ (r : Nat) (es : List CellLanding), r ≠ 0 →
    es = old.land.filter (fun e => dueIn x e.level e.due && e.isMask && e.idx == r) →
    (es = [] → new.mreg r = old.mreg r) ∧
    ∀ e, es = [e] → new.mreg r = merged (old.mreg r) (e.val.setWidth 16) (e.bits.setWidth 16)

/-- What they make of the tower of cell `n`, where no spare serves a cell and the tower has no error: without a change of
power that is due, a row takes the bits of the one write due for it and a row that none names keeps its contents; and a
layer that is not waking takes the state that the one change due for it names. -/
def TowerLanded (x : Ctx) (n : Nat) (old new : Core) : Prop :=
  let o := old.cell n
  let due (w : TowerWrite) : Bool := dueIn x w.level w.due
  (o.power.filter (fun e => dueIn x e.level e.due) = [] → (∀ w ∈ o.writes, due w = true → w.scales = []) →
    ∀ (r : Nat) (ws : List TowerWrite), ws = o.writes.filter (fun w => due w && w.row == r) →
      (ws = [] → new.towerRow n r = old.towerRow n r) ∧
      ∀ w, ws = [w] → (old.tower n).layer (rowLayer r) ≠ .off →
        new.towerRow n r = merged (old.towerRow n r) w.val w.bits) ∧
  ∀ (l : Nat) (ps : List PowerChange), (old.tower n).waking l = false →
    ps = o.power.filter (fun e => dueIn x e.level e.due && e.layer == l) →
    (ps = [] → (new.tower n).layer l = (old.tower n).layer l) ∧ ∀ p, ps = [p] → (new.tower n).layer l = p.target

/-- The landings of a cycle in the cells and towers of a context's squads. -/
def Landed (s t : State) (c : Nat) (x : Ctx) : Prop :=
  t.mem = s.mem ∧ ∀ n : Nat, n < 256 → bit x.sqm (squadOf n) = true →
    CellLanded x ((s.core c).cell n) ((t.core c).cell n) ∧
    ((∀ q : Nat, (s.core c).usesSpare q = false) → ((s.core c).tower n).bad = [] → TowerLanded x n (s.core c) (t.core c))

end Sys2Proof.Claims

/-- R94, R133, R143, R175, R179, R181, R194, R334: the parts of a virtual cycle. In a cycle that passes, cell results, mask
results, tower writes, fragments and power changes that are due leave their queues and take effect as they say, and a
fragment fills its latch; a stream's step that is due is performed and counted, and a step of an MMA gives each cell that
has both fragments the sum of R175 and R177, whose events the stream keeps; an MLOAD's update replaces the accumulator, once; and advances whose last cycle is
over are published. That the parts of a cycle are also steps of their own is the table's; the order is that of log
entry 4. -/
def Obligations.CycleEvents : Prop :=
  ∀ (s : State) (c k : Nat) (x : Ctx), IsCtx c k → x = s.ctxAt c k →
    (s.passes c k = true →
      (∃ t, exec (.cellResultLanding c k) s = .next t ∧ Landed s t c x) ∧
      ((∀ q : Nat, q < 4 → q ≠ k → s.passes c q = false) →
        ∃ t, exec (.layerPowerChange c) s = .next t ∧ Landed s t c x) ∧
      (∃ t, exec (.fragmentArrival c k) s = .next t ∧ Quiet s t ∧ ∀ n : Nat, n < 256 → bit x.sqm (squadOf n) = true →
        ((t.core c).cell n).frags = ((s.core c).cell n).frags.filter (fun e => !dueIn x e.level e.due) ∧
        ∀ (d : Nat) (e : FragMove),
          ((s.core c).cell n).frags.filter (fun e => dueIn x e.level e.due && e.side == d) = [e] →
          get {} ((t.core c).cell n).latch d = ⟨e.val, true⟩)) ∧
    ((∀ q : Nat, q < 4 → s.passes c q = false) → exec (.layerPowerChange c) s = .next s) ∧
    (∀ (n : Nat) (st : Stream), x.streams[n]? = some st → st.level = x.depth → 0 < st.left → st.start + st.done ≤ x.vt →
      s.passes c k = true →
      ∃ t st', exec (if st.kind = .mma then .mmaStep c k n else .streamRowRead c k n) s = .next t ∧
        (t.ctxAt c k).streams[n]? = some st' ∧ st'.kind = st.kind ∧ st'.form = st.form ∧ st'.start = st.start ∧
        st'.done = st.done + 1 ∧ st'.left = st.left - 1 ∧
        ∀ (u : State) (ga gb : Fmt), exec (.resultLanding c k) s = .next u → st.kind = .mma → Fmt.ofCode st.fa = some ga →
          Fmt.ofCode st.fb = some gb → ∀ v, exec (.cellResultLanding c k) u = .next v → u.passes c k = true →
          ∃ evs, st'.evs = st.evs ++ evs ∧ ∀ q : Nat, q < 256 → bit st.form.sq (squadOf q) = true →
            let met := (evs.filter fun e => e.cell == q).map fun e => e.item
            let old := ((v.core c).cell q).acc (st.form.d.toNat % 2)
            let new := ((t.core c).cell q).acc (st.form.d.toNat % 2)
            (st.takeBoth (v.core c) st.done q = none → new = old ∧ met = []) ∧
            ∀ a b r, st.takeBoth (v.core c) st.done q = some (a, b) →
              r = stepAcc st.pair ga gb st.form.co.toNat (st.limit a.num) a b old →
              new = (if st.limit a.num = 0 then old else r.1) ∧ SameEvents met r.2) ∧
    (∀ (n : Nat) (st : Stream) (g : Fmt), x.streams[n]? = some st → st.kind = .mload → st.level = x.depth → st.left = 0 → st.loaded = false →
      st.start + st.done + 1 = x.vt → s.passes c k = true → Fmt.ofCode st.form.fp1.toNat = some g →
      ∃ t, exec (.mloadPerform c k n) s = .next t ∧ (t.ctxAt c k).streams[n]? = some { st with loaded := true } ∧ ∀ q : Nat, q < 256 → bit st.form.sq (squadOf q) = true →
        let old := ((s.core c).cell q).acc (st.form.d.toNat % 2)
        let new := ((t.core c).cell q).acc (st.form.d.toNat % 2)
        let per := 256 / g.width
        new.tag = (if g = .i32 then .int else .fp) ∧ ∀ j : Nat, j < 512 → new.at_ j =
          if j < 32 * st.form.cn.toNat then
            BitVec.ofNat 32 (mloadElem g (elemN (get 0 st.rows (q * 64 + j / per)) g.width (j % per))).1
          else old.at_ j) ∧
    ∀ h : Nat, exec (.handlePublish c k h) s = .next (s.setCtxAt c k
      { x with advances := x.advances.filter fun a => !(a.handle == h &&
        (decide (x.depth < a.level) || (a.level == x.depth && decide (a.due < x.vt)))) })

/-- R139, R187, R232, R234 to R236, R238 to R240, R362, R375 to R383, R439, R440: what clock time does: express arrivals, ends
of wakes, refresh, temperature, the guard, the end of deferrals, errors and the self-test, the control interval, rail
changes, the network's steps, and turns of the issue slot. The readings of log entries 36 to 38, 43 and 45 are the
model's, and the clock of log entry 4. -/
def Obligations.ClockEvents : Prop :=
  ∀ (s : State) (c time : Nat), c < 128 →
    (∀ n m, s.express[n]? = some m → (s.core m.core).launch = some m.launch → s.unitsRun m.core = true →
      ((s.core m.core).cell m.cell).rx.length < 4 →
      (∀ e ∈ s.express.take n, ¬ (e.core = m.core ∧ e.cell = m.cell ∧ e.fromCore = m.fromCore ∧ e.fromCell = m.fromCell ∧
        e.val.chan = m.val.chan)) →
      ∃ t, exec (.expressArrival n) s = .next t ∧ t.express = s.express.eraseIdx n ∧ Quiet s t ∧
        ((t.core m.core).cell m.cell).rx = ((s.core m.core).cell m.cell).rx ++ [m.val]) ∧
    (∀ cell layer, cell < 256 → layer < 8 → ∃ t, exec (.layerWakeDone c cell layer) s = .next t ∧ Quiet s t ∧
      ((t.core c).tower cell).layer layer =
        match ((s.core c).tower cell).wakes.find? fun w => w.layer == layer with
        | some w => w.restore.getD .on
        | none => ((s.core c).tower cell).layer layer) ∧
    (∀ cell g, cell < 256 → g < 4 → ∃ t, exec (.groupWakeDone c cell g) s = .next t ∧ Quiet s t ∧
      ((t.core c).cell cell).group g =
        if ((s.core c).cell cell).groupWakes.contains g then .on else ((s.core c).cell cell).group g) ∧
    (∀ cell g, cell < 256 → g < 72 → ∃ t, exec (.refresh c cell g) s = .next t ∧ Quiet s t ∧
      (∀ r : Nat, (t.core c).towerRow cell r = (s.core c).towerRow cell r) ∧
      ((s.cluster (clusterOf c)).switching = false → ((s.core c).tower cell).layer (g / 9) ≠ .off →
        get 0 ((s.core c).tower cell).defer (g / 9) ≤ s.clock →
        retention (s.cluster (clusterOf c)).temp * cyclesPerMs ≤
          2 * (s.clock - get 0 ((s.core c).tower cell).touch g + cyclesPerMs) →
        get 0 ((t.core c).tower cell).touch g = s.clock) ∧
      ((s.cluster (clusterOf c)).switching = true ∨ ((s.core c).tower cell).layer (g / 9) = .off ∨
        s.clock < get 0 ((s.core c).tower cell).defer (g / 9) → t = s)) ∧
    (∀ cl celsius, cl < 32 → ∃ t, exec (.tempReading cl celsius time) s = .next t ∧ t.clock = max s.clock time ∧ Quiet s t ∧
      t.cluster cl = { s.cluster cl with temp := celsius } ∧ ∀ d, d ≠ cl → t.cluster d = s.cluster d) ∧
    (∀ k risk, k < 4 → risk = (s.core c).atRisk (s.ctxAt c k) (max s.clock time) (retention (s.cluster (clusterOf c)).temp) →
      ∃ t, exec (.retentionGuard c k time) s = .next t ∧ t.clock = max s.clock time ∧
        (risk = [] → t = s.tick time) ∧ (∀ r ∈ risk, get 0 ((t.core c).tower r.1).touch r.2.1 = t.clock) ∧
        (∀ old new : Word, old = (s.ctxAt c k).retrisk → new = (t.ctxAt c k).retrisk → risk ≠ [] →
          new.toNat / 2 ^ 48 = 0 ∧
          (∀ l : Nat, l < 8 → new.getLsbD (40 + l) = (old.getLsbD (40 + l) || risk.any fun r => r.2.1 / 9 == l)) ∧
          (∀ q : Nat, q < 4 → new.getLsbD (36 + q) = (old.getLsbD (36 + q) || risk.any fun r => squadOf r.1 == q)) ∧
          new.toNat / 2 ^ 28 % 2 ^ 8 = min 255 (s.cluster (clusterOf c)).temp ∧
          new.toNat / 2 ^ 16 % 2 ^ 12 = (risk.map fun r => min 4095 (r.2.2 / cyclesPerMs)).foldl max (old.toNat / 2 ^ 16 % 2 ^ 12) ∧
          new.toNat % 2 ^ 16 = min (old.toNat % 2 ^ 16 + risk.length) 0xFFFF) ∧
        (risk ≠ [] → (∃ p ∈ (t.ctxAt c k).pend, p.cause = cRetentionLimit) ∧
          ∀ n : Nat, n < 256 → bit (s.ctxAt c k).sqm (squadOf n) = true → ((t.core c).tower n).defer = [])) ∧
    (∃ t, exec (.deferralExpiry c time) s = .next t ∧ t.clock = max s.clock time ∧ Quiet s t ∧ ∀ n : Nat,
      ((t.core c).tower n).defer = ((s.core c).tower n).defer.filter fun p => decide (max s.clock time < p.2)) ∧
    (∀ cell layer bank failed k, unitExists (.towerBank c cell layer bank) = true → k = s.core c →
      (k.tower cell).layer layer ≠ .off →
      ∃ t, exec (.selfTest (.corrected (.towerBank c cell layer bank)) failed time) s = .next t ∧ t.clock = max s.clock time ∧ Quiet s t ∧
        fieldN (t.core c).errcnt 48 16 = min (fieldN k.errcnt 48 16 + 1) 0xFFFF ∧
        get 0 ((t.core c).tower cell).touch (layer * 9 + bank) = t.clock ∧ .towerBank 0 cell layer bank ∈ (t.core c).tests) ∧
    (∀ cell r failed, cell < 256 → r < 1024 → ((s.core c).tower cell).layer (rowLayer r) ≠ .off →
      ∃ t, exec (.selfTest (.upset (.towerRow c cell r)) failed time) s = .next t ∧ t.clock = max s.clock time ∧ Quiet s t ∧
        ((t.core c).tower cell).isBad r = true ∧ ∀ q : Nat, q ≠ r → ((t.core c).tower cell).isBad q = ((s.core c).tower cell).isBad q) ∧
    (∀ u v failed k, unitExists u = true → unitCore u = some c → v = unitAt 0 u → k = s.core c →
      (v ∉ k.tests → exec (.selfTest (.verdict u) failed time) s = .next (s.tick time)) ∧
      (isCellUnit u = true → k.launch ≠ none → exec (.selfTest (.verdict u) failed time) s = .next (s.tick time)) ∧
      (v ∈ k.tests → v ∉ k.lasting → k.withdrawn = false → (isCellUnit u = true → k.launch = none) → ∃ t, exec (.selfTest (.verdict u) failed time) s = .next t ∧
        t.clock = max s.clock time ∧ t.mgmt.healthNext = s.mgmt.healthNext + 1 ∧
        ∀ met : Nat, met = (k.errs.filter fun p => p.1 == v && decide (t.clock < p.2 + dayCycles)).length →
        ((failed = true ∨ k.testFinds v = true ∨ 3 ≤ met) → t.mgmt.lasting.toNat = min (s.mgmt.lasting.toNat + 1) 0xFFFF ∧
          t.mgmt.transient = s.mgmt.transient ∧ (k.launch ≠ none → (t.core c).lasting = k.lasting ++ [v])) ∧
        (failed = false → k.testFinds v = false → met < 3 → t.mgmt.transient.toNat = min (s.mgmt.transient.toNat + 1) 0xFFFF ∧
          t.mgmt.lasting = s.mgmt.lasting))) ∧
    (∀ r watts, r.cluster < 32 → s.mgmt.fatal = false → ∀ xs, xs = limitsOf r (s.cluster r.cluster).temp →
      ∃ t, exec (.controlInterval [r] watts time) s = .next t ∧ t.clock = max s.clock time ∧ t.mgmt.meanW = watts ∧
        (t.cluster r.cluster).stopped = decide (∃ x ∈ xs, x.rail = .stop) ∧
        ((s.cluster r.cluster).switching = false →
          ((∃ x ∈ xs, x.rail = .stop) → (t.cluster r.cluster).switching = false) ∧
          (¬ (∃ x ∈ xs, x.rail = .stop) → ∀ want, want = !decide (∃ x ∈ xs, x.rail = .low) →
            (t.cluster r.cluster).switching = (want != (s.cluster r.cluster).rail) ∧
            ((t.cluster r.cluster).switching = true → (t.cluster r.cluster).toRail = want))) ∧
        (∀ n : Nat, n < 32 → n ≠ r.cluster → (t.cluster n).stopped = decide (110 < (s.cluster n).temp)) ∧
        ∀ n : Nat, n < 4 → (t.core (4 * r.cluster + n)).ewgrant = grantOf xs n) ∧
    (∀ cl x, cl < 32 → x = s.cluster cl → ∃ t, exec (.railChangeEnd cl) s = .next t ∧ Quiet s t ∧
      t.cluster cl = if x.switching then { x with switching := false, rail := x.toRail, changes := x.changes + 1 } else x) ∧
    (∀ die want, die < 3 → ∃ t, exec (.nocFreqStep die want) s = .next t ∧ Quiet s t ∧ get 0 t.noc die =
      if get 0 s.noc die < min want 4 then get 0 s.noc die + 1
      else if min want 4 < get 0 s.noc die then get 0 s.noc die - 1 else get 0 s.noc die) ∧
    (exec (.governorStall c) s = .next (if s.governed c then s.stall c else s)) ∧
    exec (.issueSlotTimeout c) s = .next (if s.coreRuns c ∧ 4096 ≤ (s.core c).held ∧
        ((s.ctxAt c (s.core c).holder).run ≠ .running ∨ (s.ctxAt c (s.core c).holder).skip = 0) ∧ s.otherReady c = true
      then s.passSlot c else s) ∧
    (∀ k, k = ((s.core c).holder + 1) % 4 → (s.tryTurn c k).2 ≠ none →
      s.passSlot c = s.setCore c { s.core c with holder := k, held := 0 }) ∧
    ((s.passSlot c).core c).held = 0 ∧
    ∀ t n, s.mayCharge c n = true → ∀ u ∈ [s.settleTurn c (.passed t n), s.settleTurn c (.stopped t n)],
      (u.core c).held = if s.otherReady c then (t.core c).held + 1 else 0

/-- R411 to R423: taking an exception. With a vector, the record is written at SYS.TSAVE, its first words holding the cause,
the slot, the addresses, INFO and the virtual time; SYS.TCAUSE, SYS.TADDR, SYS.TREC and SYS.DEPTH are set, and the handler
starts at SYS.TVEC with an empty loop stack and landing buffer. Nested or without a vector the launch ends with the cause,
or the context halts where its domain is unlocked; a nested trap sets SYS.NCAUSE and SYS.NADDR and leaves the registers and
the record of the level. RFT restores the resume point and the level below. A cause that waits is
taken at the boundary at depth 0. The readings of log entries 21 and 44 are the model's, and so is the completion
mask of RESUME_INVALID (log entry 77). -/
def Obligations.TrapResults : Prop :=
  ∀ (s : State) (c k : Nat) (z : Trap) (x : Ctx), x = s.ctxAt c k →
    (x.tvec.getLsbD 16 = true → x.depth ≠ 15 → (x.depth = 0 ∨ x.tseen = true) →
      ∀ (t : State) (y : Ctx) (off : Nat), t = s.takeTrap c k z → y = t.ctxAt c k → off = x.tsave.toNat % 2 ^ 18 →
      y.depth = x.depth + 1 ∧ y.pc.toNat = x.tvec.toNat % 2 ^ 16 ∧ y.vt = 0 ∧ y.recVt = BitVec.ofNat 64 x.vt ∧ y.loops = [] ∧
      y.land = [] ∧ y.skip = 0 ∧ y.issue = none ∧ y.run = .running ∧ y.tread = false ∧ y.tseen = false ∧
      y.tcause = BitVec.ofNat 64 (z.fslot * 2 ^ 37 + z.cmask.toNat * 2 ^ 32 + z.cause.toNat) ∧
      y.taddr = BitVec.ofNat 64 (z.rpc.toNat / 2 ^ 16 * 2 ^ 32 + z.rpc.toNat % 2 ^ 16 * 2 ^ 16 + z.fpc.toNat % 2 ^ 16) ∧
      y.trec.toNat = off ∧ y.g = x.g ∧ y.p = x.p ∧ y.lap = x.lap ∧ y.h = x.h ∧ t.mem = s.mem ∧
      (∀ i : Nat, i < 128 → leNat (readBytes (t.core c).cmem (off + 8 * i) 8) =
        ((recordWords z (s.cluster (clusterOf c)).rail x (s.core c).engines).getD i 0) % 2 ^ 64) ∧
      (leNat (readBytes (t.core c).cmem off 8) =
        (z.cause.toNat * 2 ^ 48 + z.fslot * 2 ^ 45 + z.cmask.toNat * 2 ^ 40 + z.skipl * 2 ^ 37 +
          (if (s.cluster (clusterOf c)).rail then 1 else 0) * 2 ^ 36 + (if z.npc.isSome then 1 else 0) * 2 ^ 35 +
          (if z.wskip then 1 else 0) * 2 ^ 34 + z.rpc.toNat / 2 ^ 16 * 2 ^ 33 + z.fpc.toNat % 2 ^ 16 * 2 ^ 16 +
          z.rpc.toNat % 2 ^ 16) % 2 ^ 64) ∧
      leNat (readBytes (t.core c).cmem (off + 8) 8) = z.info.toNat ∧
      leNat (readBytes (t.core c).cmem (off + 16) 8) = x.vt % 2 ^ 64 ∧
      ∀ a : Nat, (a < off ∨ off + 1024 ≤ a) → readByte (t.core c).cmem a = readByte (s.core c).cmem a) ∧
    (∀ l la, s.launchOf c = some (l, la) → la.phase = .running →
      let stops (cause : BitVec 16) (t : State) : Prop :=
        if la.dom ∈ s.mgmt.unlocked then (t.ctxAt c k).halted = true ∧ (t.ctxAt c k).pc = z.rpc
        else (t.launch? l).map (fun y => y.phase) = some (.killing 6 cause) ∧ t.mgmt.dumpSeq = s.mgmt.dumpSeq + 1
      (x.tvec.getLsbD 16 = false → stops (if z.cause = cUserTrap then cNoVector else z.cause) (s.takeTrap c k z)) ∧
      (x.tvec.getLsbD 16 = true → (x.depth = 15 ∨ (x.depth ≠ 0 ∧ x.tseen = false)) →
        ∀ (t : State) (y : Ctx), t = s.takeTrap c k z → y = t.ctxAt c k → stops cNestedFault t ∧
          t.sysValue c k 0x206 = BitVec.ofNat 64 z.cause.toNat ∧ t.sysValue c k 0x207 = BitVec.ofNat 64 (z.fpc.toNat % 2 ^ 16) ∧
          y.tcause = x.tcause ∧ y.taddr = x.taddr ∧ y.trec = x.trec ∧ (t.core c).cmem = (s.core c).cmem)) ∧
    (∀ words, words = recordRead (s.core c).cmem (x.trec.toNat % 2 ^ 18) →
      (s.core c).cmemBad (x.trec.toNat % 2 ^ 18) 1024 = false →
      (∀ r l ls y, restoreRecord words = some r → x.levels = l :: ls → y = (s.doRft c k).ctxAt c k →
        y.depth = x.depth - 1 ∧ y.pc = r.rpc ∧ y.vt = r.vt ∧ y.loops = r.loops ∧ y.land = r.land ∧ y.skip = r.skipl ∧
        y.run = l.run ∧ y.tcause = l.tcause ∧ y.taddr = l.taddr ∧ y.trec = l.trec ∧ y.tseen = l.read ∧ y.tread = x.tread ∧ y.levels = ls ∧
        y.g = x.g ∧ y.p = x.p ∧ y.lap = x.lap ∧ y.h = x.h) ∧
      (∀ i, restoreRecord words = none → x.issue = some i →
        s.doRft c k = (s.setCtxAt c k { x with run := .running }).takeTrap c k
          { cause := cResumeInvalid, fslot := 4, fpc := i.pc, rpc := i.pc, cmask := i.done &&& 0x0F })) ∧
    (IsCtx c k → x.active = true → s.coreRuns c = true →
      (x.depth ≠ 0 → exec (.trapEntry c k) s = .next s) ∧
      (x.depth = 0 → (s.landAll c k).stepsCause c k false = none →
        (x.pend = [] → exec (.trapEntry c k) s = .next s) ∧
        ∀ p, x.pend = [p] → exec (.trapEntry c k) s = .next (s.deliver c k p)))

/-- R243, R244, R247, R269, R287 to R303, R318 to R333: an engine context takes its next operation, its columns deliver
rows, and it completes with its increment or stops with its error; the gather unit, XPUT data and batons fill the next slot
of their handle; the judge applies the oldest operation of a context and cancels a graph. The readings of log entries
29, 32 and 45 are the model's. -/
def Obligations.CopyDeliveryEvents : Prop :=
  ∀ (s : State) (c e k : Nat), c < 128 → e < 8 → k < 4 →
    (∀ op rest l la, s.copyReady c e = some (op, rest) → s.launchOf c = some (l, la) →
      ∃ t r, exec (.copyOpStart c e) s = .next t ∧ ((t.core c).engine e).queue = rest ∧
        ((t.core c).engine e).run = some r ∧ r.op = op) ∧
    (∀ r, ((s.core c).engine e).run = some r → s.unitsRun c = true →
      (∀ q rest k', r.rows = q :: rest → k' = q.cells.foldl (fun k n => k.wakeLayer n q.row) (s.core c) →
        (∀ n ∈ q.cells, (k'.tower n).layer (rowLayer q.row) ≠ .off ∧ (k'.tower n).uncorrectable q.row = false) →
        ∃ t, exec (.columnRowWrite c e) s = .next t ∧ t.mem = s.mem ∧
          (((t.core c).engine e).run).map (fun r' => (r'.rows, r'.op)) = some (rest, r.op) ∧
          ∀ n ∈ q.cells, (t.core c).towerRow n q.row = merged (k'.towerRow n q.row) q.val q.bits) ∧
      (r.rows = [] → r.packets = [] → r.sent = [] →
        (r.err = none → ∀ l la, s.launchOf c = some (l, la) →
          ∃ t, exec (.copyOpComplete c e) s = .next t ∧ t.mem = s.mem ∧ ((t.core c).engine e).run = none ∧
            ((t.core c).engine e).done = ((s.core c).engine e).done + 1 ∧
            t.launch? l = some (la.addCounter (s.core c).slot e (copyInc r.op.desc))) ∧
        (∀ err, r.err = some err →
          ∃ t, exec (.copyOpError c e) s = .next t ∧ t.mem = s.mem ∧ ((t.core c).engine e).run = none ∧
            ((t.core c).engine e).done = ((s.core c).engine e).done + 1 ∧
            ((t.core c).engine e).stopped = true ∧ ((t.core c).engine e).err = BitVec.ofNat 8 err.1 ∧
            ((t.core c).engine e).pos = r.pos ∧
            ∀ l la, s.launchOf c = some (l, la) → ∃ la', t.launch? l = some la' ∧ ∀ a b : Nat, la'.counter a b = la.counter a b)) ∧
      (r.packets ≠ [] ∨ r.sent ≠ [] → max r.since (s.mgmt.group r.via).delivered + 100 * cyclesPerMs ≤ s.clock →
        exec (.linkLost c e) s = .next (s.setCore c ((s.core c).setEngine e { (s.core c).engine e with
          run := some { r with packets := [], sent := [], err := some (8, 0) } }))) ∧
      (s.clock < max r.since (s.mgmt.group r.via).delivered + 100 * cyclesPerMs → exec (.linkLost c e) s = .next s)) ∧
    (∀ g rest h bs t u, (s.core c).gather = g :: rest → s.unitsRun c = true → (s.ctxAt c g.ctx).hasStopped = false →
      g.index.toNat < fieldN (nth 0 g.cfg 1) 32 32 → (s.ctxAt c g.ctx).producerView g.handle = some h → h.filled < h.count →
      s.readGlobal (s.gatherClient c g) .read (fieldN (nth 0 g.cfg 0) 0 56 + g.index.toNat * (nth 0 g.cfg 2).toNat)
        (Machine.gatherRow g.cfg) = (.ok bs, t) → t.fillSlot c g.ctx g.handle bs = .done u →
      exec (.gatherRowFill c) s = .next (u.setCore c { u.core c with gather := rest })) ∧
    (∀ n x c' k' t, s.xputs[n]? = some x → overtakesXput (s.xputs.take n) x = false → s.unitCtx x.launch x.unit = some (c', k') →
      (s.ctxAt c' k').hasStopped = false → { s with xputs := s.xputs.eraseIdx n }.fillSlot c' k' x.handle x.data = .done t →
      exec (.xputDelivery n) s = .next t) ∧
    (∀ n x c' k', s.xputs[n]? = some x → overtakesXput (s.xputs.take n) x = false → s.unitCtx x.launch x.unit = some (c', k') →
      (s.ctxAt c' k').hasStopped = false → { s with xputs := s.xputs.eraseIdx n }.fillSlot c' k' x.handle x.data = .refused →
      exec (.xputDelivery n) s = .next ({ s with xputs := s.xputs.eraseIdx n }.senderStopped x.launch x.sender 7)) ∧
    (∀ n b t, s.batons[n]? = some b → overtakesBaton (s.batons.take n) b = false →
      { s with batons := s.batons.eraseIdx n }.dropBaton b = some t →
      (∀ c' k', s.unitCtx b.launch b.unit = some (c', k') →
        ((s.ctxAt c' k').hasStopped = true → exec (.batonDelivery n) s = .next t) ∧
        ((s.ctxAt c' k').hasStopped = false →
          { s with batons := s.batons.eraseIdx n }.fillSlot c' k' b.handle (b.header ++ b.payload) = .refused →
          exec (.batonDelivery n) s = .next (t.reportBaton b))) ∧
      (s.unitCtx b.launch b.unit = none → ∀ x, s.launch? b.launch = some x → x.coreN * x.ctxs ≤ b.unit →
        exec (.batonDelivery n) s = .next t)) ∧
    (∀ b : Baton, (b.source = none → s.reportBaton b = s.senderStopped b.launch b.sender 7) ∧
      ∀ pkg la g, b.source = some pkg → s.launch? b.launch = some la → la.graph = some g →
        s.reportBaton b = s.post (.stopped pkg (s.crossName la.dom g) b.sender 7)) ∧
    (∀ l u err la c' y, s.launch? l = some la → la.cores[u / la.ctxs]? = some c' → y = s.ctxAt c' (u % la.ctxs) → u % la.ctxs < 4 →
      y.hasStopped = false → y.engfltb = 0 → ∃ z, z = (s.senderStopped l u err).ctxAt c' (u % la.ctxs) ∧ z.engflta = 0 ∧
        z.engfltb = BitVec.ofNat 64 (err * 2 ^ 56) ∧ ∃ p ∈ z.pend, p.cause = cEngineFault) ∧
    (∀ n b c' k' t, s.batons[n]? = some b → overtakesBaton (s.batons.take n) b = false →
      s.unitCtx b.launch b.unit = some (c', k') → (s.ctxAt c' k').hasStopped = false →
      { s with batons := s.batons.eraseIdx n }.fillSlot c' k' b.handle (b.header ++ b.payload) = .done t →
      exec (.batonDelivery n) s = .next (t.modCtxAt c' k' fun y => if b.handler = 0xFFFF then y
        else { y with wakes := y.wakes ++ [⟨b.handle, b.handler.setWidth 17, BitVec.ofNat 8 b.station, b.lap⟩] })) ∧
    (∀ l la o os g, s.launchOf c = some (l, la) → (s.ctxAt c k).judgeQ = o :: os → la.graph = some g → s.mgmt.fatal = false →
      (s.ctxAt c k).judgeSent = false →
      (g.state = 2 → exec (.judgeApply c k) s =
        .next ((s.countLost l o.gone.1 o.gone.2).modCtxAt c k Ctx.dequeueJudge)) ∧
      (g.state ≠ 2 → g.auth = 3 → exec (.judgeApply c k) s =
        .next ((s.forwardDeltas la.dom g (s.ctxAt c k).unit (o.gone.1 == 0) o.deltas).modCtxAt c k fun x => { x with judgeSent := true })) ∧
      (g.state ≠ 2 → g.auth ≠ 3 →
        (s.applyDeltas l o.deltas = none → exec (.judgeApply c k) s = .next s) ∧
        ∀ t h, s.applyDeltas l o.deltas = some t → ((t.launch? l).bind fun x => x.graph) = some h →
          (h.state ≠ 2 → exec (.judgeApply c k) s =
            .next ((t.releaseBaton l (s.ctxAt c k).unit o).modCtxAt c k Ctx.dequeueJudge)) ∧
          (h.state = 2 → exec (.judgeApply c k) s = .next (t.modCtxAt c k Ctx.dequeueJudge)))) ∧
    ∀ l la g unit, s.launch? l = some la → la.graph = some g → s.mgmt.fatal = false → g.cancelReq = some unit →
      (g.auth ≠ 3 → exec (.graphCancel l) s = .next (s.cancelGraph l 0 unit)) ∧
      (g.auth = 3 → exec (.graphCancel l) s =
        .next ((s.modGraph l fun g => { g with cancelReq := none }).post (.cancel g.homePackage (s.crossName la.dom g) unit)))

namespace Sys2Proof.Claims

/-- What a register step's checks ask for: the context exists and may issue between bundles (R66). -/
def MayStep (s : State) (c k : Nat) : Prop := IsCtx c k ∧ s.mayIssue c k = true

/-- The state in which a register step's instruction runs: in its context's M slot. -/
def inM (s : State) (c k : Nat) : State := { s with turn := ⟨c, k, 2⟩ }

/-- A result can enter the landing buffer in the next cycle: there is room, and none of its register is due then. -/
def CanLand (x : Ctx) (d : BitVec 6) : Prop :=
  x.land.length < 24 ∧ ∀ e ∈ x.land, ¬ (e.kind = .g ∧ e.idx = d.toNat ∧ e.due = x.vt + 1)

/-- A context changed. -/
def withCtx (s : State) (c k : Nat) (f : Ctx → Ctx) : State := s.setCtxAt c k (f (s.ctxAt c k))

/-- A launch changed. -/
def withLaunch (s : State) (l : Nat) (f : Launch → Launch) : State :=
  { s with launches := s.launches.map fun p => if p.1 = l then (l, f p.2) else p }

/-- The STATUS of a launch's record written in its domain (R28): state and cause in the doubleword at 0x48. -/
def withStatus (s : State) (x : Launch) (state : Nat) (cause : BitVec 16) : Option State :=
  s.deviceWrite x.dom (x.va.toNat + 0x48) (lowBytes 8 (BitVec.ofNat 64 (state * 2 ^ 56 + cause.toNat)))

/-- Cores that hold no launch, and none of whose contexts is at work or has anything in flight. -/
def Freed (t : State) (cs : List Nat) : Prop :=
  ∀ c ∈ cs, (t.core c).launch = none ∧ ∀ k : Nat, (t.ctxAt c k).run = .idle ∧ (t.ctxAt c k).land = [] ∧
    (t.ctxAt c k).streams = [] ∧ (t.ctxAt c k).pend = [] ∧ (t.ctxAt c k).issue = none ∧ (t.ctxAt c k).judgeQ = []

/-- Cores whose launch is being killed: contexts are stopped with nothing in flight, engines and gather unit are empty
(R360). -/
def Halted (t : State) (cs : List Nat) : Prop :=
  ∀ c ∈ cs, (t.core c).gather = [] ∧ (∀ e : Nat, ((t.core c).engine e).run = none ∧ ((t.core c).engine e).queue = []) ∧
    ∀ k : Nat, (t.ctxAt c k).run = .idle ∨
      ((t.ctxAt c k).run = .stopped ∧ (t.ctxAt c k).land = [] ∧ (t.ctxAt c k).streams = [] ∧ (t.ctxAt c k).pend = [])

end Sys2Proof.Claims

/-- R116, R118, R123, R182, R240, R262, R328, R336, R351, R353, R376, R416, R438: a write of one of the system registers by a
context that may issue, and a read of one of those that a read changes; below the privilege that the register requires
the write traps and the register stays. That these are steps of a context between bundles, EVSTAT's by the lowest, is
the model's choice (log entry 39). -/
def Obligations.RegisterEvents : Prop :=
  ∀ (s : State) (c k : Nat) (v : BitVec 64) (x : Ctx), MayStep s c k → x = s.ctxAt c k → x.land.length ≤ 24 →
    (x.pl ≠ 0 → ∀ l la, (s.core c).launch = some l → s.launch? l = some la →
      ∃ t, exec (.scbaseWrite c k v) s = .next t ∧ t.mem = s.mem ∧
        t.launch? l = some { la with scbase := v &&& 0x00FFFFFFFFFFFFF0 }) ∧
    (x.pl = 0 → exec (.scbaseWrite c k v) s = .next { (inM s c k).trapIssue ⟨cPrivilege, 0, none⟩ with turn := s.turn }) ∧
    (∀ n : Nat, n < 16 → rgnOk v = true → ∃ t, exec (.rgnWrite c k n v) s = .next t ∧ t.mem = s.mem ∧ ∀ q : Nat, q < 256 →
      get 0 ((t.core c).cell q).rgn n =
        if bit x.sqm (squadOf q) then v &&& rgnMask else get 0 ((s.core c).cell q).rgn n) ∧
    (∀ n : Nat, n < 16 → rgnOk v = false → exec (.rgnWrite c k n v) s =
      .next { (inM s c k).trapIssue ⟨cRegionInvalid, 0, none⟩ with turn := s.turn }) ∧
    (s.geomWaits x c k (.sysw (sysForm 0x020 0)) = false → exec (.sqgeomWrite c k v) s = .next (withCtx s c k fun y =>
      { y with sqgeom := merged y.sqgeom v (geomMask y.sqm) })) ∧
    exec (.curstWrite c k v) s = .next (withCtx s c k fun y => { y with curst := v &&& 0x80000000000003FF }) ∧
    ((∀ q : Nat, q < k → s.mayIssue c q = false) → exec (.evstatWrite c v) s = .next (s.setCore c { s.core c with
      evOvf := (s.core c).evOvf && !v.getLsbD 31
      evDrop := if v.getLsbD 31 then 0 else (s.core c).evDrop
      evEng := (s.core c).evEng &&& ~~~(v.extractLsb' 8 7) })) ∧
    exec (.evflagsWrite c k v) s = .next (withCtx s c k fun y => { y with evflags := y.evflags &&& ~~~(v &&& 0xFE) }) ∧
    (∀ off : Nat, off = v.toNat / 64 % 4096 * 64 → off + 1024 ≤ 0x40000 → 2 * (s.core c).streamN ≤ off →
      exec (.tsaveWrite c k v) s = .next (withCtx s c k fun y => { y with tsave := v &&& 0x3FFC0 })) ∧
    (x.pl ≠ 0 → ∀ u, u = (inM s c k).doorbell (v.toNat % 64) → u.cx.issue = none → u.turn = (inM s c k).turn →
      exec (.qbellWrite c k v) s = .next { u with turn := s.turn }) ∧
    exec (.stcfgWrite c k v) s = .next (if x.pl = 2 then { s with starter := { s.starter with stcfg := v &&& 0xFFFF } } else s) ∧
    (2 ≤ x.pl → exec (.ewgrantWrite c k v) s = .next (s.setCore c { s.core c with ewgrant := v &&& 0x1FFF1FFF })) ∧
    (x.pl < 2 → exec (.ewgrantWrite c k v) s =
      .next { (inM s c k).trapIssue ⟨cPrivilege, 0, none⟩ with turn := s.turn }) ∧
    ∀ d : BitVec 6, CanLand x d →
      exec (.tcauseRead c k d) s = .next (withCtx s c k fun y =>
        { y with tread := true, tseen := true, land := withLanding y .g d.toNat (s.sysValue c k 0x200) 1 }) ∧
      exec (.retriskRead c k d) s = .next (withCtx s c k fun y =>
        { y with retrisk := 0, land := withLanding y .g d.toNat x.retrisk 1 }) ∧
      exec (.engfltRead c k false d) s = .next (withCtx s c k fun y =>
        { y with engflta := 0, land := withLanding y .g d.toNat x.engflta 1 }) ∧
      exec (.engfltRead c k true d) s = .next (withCtx s c k fun y =>
        { y with engfltb := 0, land := withLanding y .g d.toNat x.engfltb 1 }) ∧
      exec (.errlastRead c k d) s = .next (withCtx s c k fun y =>
        { y with errlast := 0, errHeld := false, land := withLanding y .g d.toNat x.errlast 1 })

/-- R28, R36, R37, R96, R353, R354, R360, R364, R365, R371, R424: the starter's events: a slice boundary arbitrates with the
next slice's length; a go starts a placed launch; a failed placement is reported and frees what it had; a drain or a
checkpoint, once every context stands still, saves the launch, frees its cores and queues it again; the watchdog's first
expiry asks for a drain or, without room to save, kills, and the second kills: contexts and engines of the launch stop, and
when the kill completes its STATUS is written and its cores are free; contexts and launches retire, a launch with
state 3 in its STATUS; contexts of freed cores are idle, and writes held for regions that none owns any more are applied. Each waits for its condition and otherwise changes nothing.
The readings of log entries 28 and 42 are the model's. -/
def Obligations.LaunchEvents : Prop :=
  ∀ (s : State) (l time : Nat), s.mgmt.fatal = false →
    (let n := s.tick time
     (n.clock < n.starter.sliceEnd → exec (.sliceBoundary time) s = .next n) ∧
     (n.starter.sliceEnd ≤ n.clock → exec (.sliceBoundary time) s = .next ({ n with starter := { n.starter with
        sliceAt := n.starter.sliceEnd, slice := max 8 (n.starter.stcfg.toNat % 2 ^ 16) } }.arbitrate true))) ∧
    ∀ x, s.launch? l = some x →
      (x.phase = .placed → (∀ g, x.graph = some g → g.state ≠ 2) → ∃ t, exec (.goSignal l) s = .next t ∧
        ∀ u y, withStatus s x 2 0 = some u → u.launch? l = some y → t.mem = u.mem ∧
          (∀ c k : Nat, t.ctxAt c k = u.ctxAt c k) ∧
          t.launch? l = some { y with phase := .running, runAt := u.clock, wdogAt := u.clock }) ∧
      (x.phase = .placed → exec (.goSignal l) s = .next (s.go l x)) ∧
      (x.phase ≠ .placed → exec (.goSignal l) s = .next s) ∧
      (∀ st z, x.phase = .failing st z → ∃ t, exec (.placementFail l z.toNat) s = .next t ∧
        t = ((((s.killGraph l).freeCores x.cores).setStatus l st z).forget l).openRegions x.dom ∧ t.launch? l = none ∧
        Freed t x.cores ∧ (x.graph = none → (∀ w ∈ s.ingress, w.dom ≠ x.dom) → ∀ u, withStatus (s.freeCores x.cores) x st z = some u → t.mem = u.mem)) ∧
      (∀ tail, x.phase = .draining tail →
        ((∀ q ∈ s.ctxsOf x, s.ctxDrained q.1 q.2 = true) → ∃ t, exec (.drainDone l) s = .next t.arbitratePoint ∧
          t = s.saveLaunch l tail ∧ Freed t x.cores ∧
          ∃ y, t.launch? l = some y ∧ y.phase = .queued ∧ y.cores = [] ∧ y.saved ≠ none) ∧
        ((∃ q ∈ s.ctxsOf x, s.ctxDrained q.1 q.2 = false) → exec (.drainDone l) s = .next s)) ∧
      (x.phase = .checkpointing →
        (s.settledLaunch x = true → ∃ t, exec (.checkpointDone l) s = .next t.arbitratePoint ∧ t = s.saveLaunch l false ∧
          Freed t x.cores ∧ ∃ y, t.launch? l = some y ∧ y.phase = .queued ∧ y.cores = [] ∧ y.saved ≠ none) ∧
        (s.settledLaunch x = false → exec (.checkpointDone l) s = .next s)) ∧
      (∀ st z, x.phase = .killing st z → ∃ t, exec (.killComplete l) s = .next t.arbitratePoint ∧
        t = (((((s.killGraph l).freeCores x.cores).setStatus l st z).forget l).releaseEvent).openRegions x.dom ∧
        t.launch? l = none ∧ Freed t x.cores ∧ (x.graph = none → (∀ w ∈ s.ingress, w.dom ≠ x.dom) → ∀ u, withStatus (s.freeCores x.cores) x st z = some u → t.mem = u.mem)) ∧
      (∀ y n, n = s.tick time → n.launch? l = some y → n.wdogRuns y = true → y.wdogAt + n.wdogPeriod y ≤ n.clock →
        (y.wdogSecond = false → ∃ t, exec (.watchdogExpiry l time) s = .next t ∧
          (y.phase ≠ .running → t = n.modLaunch l fun v => { v with wdogSecond := true, wdogAt := n.clock }) ∧
          (y.phase = .running → n.roomToSave y = true →
            (∀ q ∈ n.ctxsOf y, (t.ctxAt q.1 q.2).drainReq = true) ∧ t.mem = n.mem ∧
            ∃ v, t.launch? l = some v ∧ v.phase = .draining true ∧ v.wdogSecond = true ∧ v.wdogAt = n.clock) ∧
          (y.phase = .running → n.roomToSave y = false →
            (t.launch? l).map (fun v => v.phase) = some (.killing 4 cWatchdog) ∧ Halted t y.cores)) ∧
        (y.wdogSecond = true → ∃ t, exec (.watchdogKill l time) s = .next t ∧
          (t.launch? l).map (fun v => v.phase) = some (.killing 4 cWatchdog) ∧ Halted t y.cores)) ∧
      (x.phase = .running ∨ x.phase = .checkpointing ∨ (∃ tail, x.phase = .draining tail) →
        (s.retires l x = true → exec (.launchRetire l) s = .next (s.retire l x) ∧
          (x.engineFault = false → (∀ g, x.graph = some g → if g.auth = 3 then ∀ st, st < g.stations → g.frontier st = closedLap
              else g.counts = []) → ∃ t, s.retire l x = t.arbitratePoint ∧
            t.launch? l = none ∧ Freed t x.cores ∧
            ((∀ w ∈ s.ingress, w.dom ≠ x.dom) → ∀ u, withStatus s x 3 0 = some u → t.mem = u.mem))) ∧
        (s.retires l x = false → exec (.launchRetire l) s = .next s)) ∧
      ∀ c k : Nat, IsCtx c k → s.unitsRun c = true → (s.ctxAt c k).run = .stopped → (s.core c).enginesDone k = true →
        (∀ g ∈ (s.core c).gather, g.ctx ≠ k) → (s.ctxAt c k).judgeQ = [] →
        exec (.contextRetire c k) s = .next (withCtx s c k fun y => { y with run := .retired })

namespace Sys2Proof.Claims

/-- Filzan listens to master `m`: it serves, and the master has a session that is not locked out (R394, R405, R408);
and no lease or handover is over. -/
def Heard (s : State) (m : Nat) : Prop :=
  m < 64 ∧ s.hears m = true ∧ (s.mgmt.own = .owned ∨ s.mgmt.own = .handover → s.clock < s.mgmt.leaseEnd)

/-- Master `m` owns the device. -/
def Owns (s : State) (m : Nat) : Prop := Heard s m ∧ s.mgmt.own = .owned ∧ s.mgmt.owner = m

/-- The state after the answer to a command (R398, R400): its code with bit 7 set, the tag, the status, the body. -/
def answered (s : State) (m code : Nat) (tag : Byte) (status : Nat) (body : List Byte) : State :=
  { s with answers := answerOf m (BitVec.ofNat 8 code ||| 0x80) tag (BitVec.ofNat 8 status) body :: s.answers }

/-- Bytes of a body as a number, least significant first. -/
def argN (body : List Byte) (lo n : Nat) : Nat := leNat ((body.drop lo).take n)

/-- The management state changed. -/
def withMgmt (s : State) (f : Mgmt → Mgmt) : State := { s with mgmt := f s.mgmt }

/-- The instruction of a command code, as the table of R400 gives it. -/
def IsCommand (m code : Nat) (tag : Byte) (body : List Byte) (i : Instr) : Prop :=
  (code, i) ∈ [(0x01, Instr.capSet m tag body), (0x02, .capGet m tag body), (0x10, .claim m tag body),
    (0x11, .renew m tag body), (0x12, .release m tag body), (0x13, .handover m tag body), (0x18, .trustSet m tag body),
    (0x20, .domainSet m tag body), (0x21, .domainClear m tag body), (0x22, .windowSet m tag body),
    (0x23, .windowClear m tag body), (0x30, .queueSet m tag body), (0x31, .queueClear m tag body),
    (0x32, .doorbell m tag body), (0x33, .kill m tag body), (0x40, .keyLoad m tag body), (0x41, .keyClear m tag body),
    (0x50, .fabricJoin m tag body), (0x51, .fabricLeave m tag body), (0x52, .fabricBind m tag body),
    (0x60, .debugUnlock m tag body), (0x61, .debugLock m tag body), (0x62, .dbgHalt m tag body),
    (0x63, .dbgResume m tag body), (0x64, .dbgStep m tag body), (0x65, .dbgRead m tag body), (0x66, .dbgWrite m tag body),
    (0x70, .status m tag body), (0x71, .memRead m tag body), (0x72, .dumpRead m tag body), (0x73, .dumpClear m tag body),
    (0x74, .healthRead m tag body), (0x7E, .reset m tag body)]

/-- No command has the code (R398). -/
def Unassigned (code : Nat) : Prop := ∀ i, ¬ IsCommand 0 code 0 [] i

/-- The write that a queue pair has to send again before anything else (R402). -/
def owing (s : State) (qp : Nat) (w : Option (Nat × Nat × List Byte)) : State :=
  withMgmt s fun g => { g with retries := set none qp w g.retries }

/-- Cycles of the reference clock in a second. -/
def second : Nat := 1000 * cyclesPerMs

end Sys2Proof.Claims

/-- R15, R381, R387, R394 to R396, R398, R400, R401, R405: power caps, ownership, sessions and trust: each command of
a master that may send it has its effect and is answered; a command of the owner's from another master is answered
NOT_OWNER and changes nothing else. A session is given to an endpoint whose chain ends at a trusted root and that
passes; any other attempt counts as a failure. What an interface does not support is refused. The order of checks and
what HANDOVER leaves are the readings of log entries 33 and 34; that a session's outcome is given and the answer to a
measurement retrieval are the choices of log entry 10, the trusted roots that of log entry 55, queue pairs that of
log entry 62. -/
def Obligations.OwnershipCommands : Prop :=
  ∀ (s : State) (m : Nat) (tag : Byte) (body : List Byte) (time : Nat), Heard s m →
    (∀ v : Nat, v = argN body 0 2 → (s.mgmt.own = .owned ∧ s.mgmt.owner = m ∨ m = 0) → body.length = 2 →
      (v = 0 ∨ 400 ≤ v ∧ v ≤ 3200) → exec (.capSet m tag body) s =
        .next (answered (withMgmt s fun g => { g with capW := if v = 0 then 3200 else v }) m 0x01 tag 0 [])) ∧
    (exec (.capGet m tag []) s = .next (answered s m 0x02 tag 0
      (leBytes 2 s.mgmt.capW ++ leBytes 2 s.mgmt.meanW ++ leBytes 4 s.mgmt.capLimits.toNat))) ∧
    (exec (.status m tag []) s = .next (answered s m 0x70 tag 0 s.report)) ∧
    (∀ p : Nat, p = argN body 0 2 → body.length = 2 → 1 ≤ p → p ≤ 600 →
      (s.mgmt.own = .unowned ∨ s.mgmt.own = .handover ∧ s.mgmt.heir = m) →
      exec (.claim m tag body) s = .next (answered (withMgmt s fun g => { g with
        own := .owned, owner := m, heir := 0xFF, leaseSec := p, leaseEnd := s.clock + p * second }) m 0x10 tag 0 [])) ∧
    (s.mgmt.own = .owned → exec (.claim m tag body) s = .next (answered s m 0x10 tag 1 [])) ∧
    (Owns s m →
      exec (.renew m tag []) s = .next (answered (withMgmt s fun g => { g with
        own := .owned, owner := m, heir := 0xFF, leaseEnd := s.clock + s.mgmt.leaseSec * second }) m 0x11 tag 0 []) ∧
      exec (.release m tag []) s = .next (answered s.unown m 0x12 tag 0 []) ∧
      (∀ h : Nat, h = argN body 0 1 → body.length = 1 → h < 64 → exec (.handover m tag body) s =
        .next (answered (withMgmt s.unown fun g => { g with own := .handover, heir := h, leaseEnd := s.clock + 10 * second })
          m 0x13 tag 0 [])) ∧
      (argN body 0 1 = 0xFF → body.length = 1 → exec (.handover m tag body) s = .next (answered s.unown m 0x13 tag 0 []))) ∧
    (¬ (s.mgmt.own = .owned ∧ s.mgmt.owner = m) → ∀ b : List Byte,
      exec (.renew m tag b) s = .next (answered s m 0x11 tag 1 []) ∧
      exec (.release m tag b) s = .next (answered s m 0x12 tag 1 []) ∧
      exec (.handover m tag b) s = .next (answered s m 0x13 tag 1 []) ∧
      exec (.domainSet m tag b) s = .next (answered s m 0x20 tag 1 []) ∧
      exec (.kill m tag b) s = .next (answered s m 0x33 tag 1 []) ∧
      exec (.keyLoad m tag b) s = .next (answered s m 0x40 tag 1 [])) ∧
    (s.mgmt.own = .owned ∧ s.mgmt.owner = m ∨ m = 0 ∧ s.mgmt.own = .unowned → ∀ slot : Nat, slot = argN body 0 1 →
      body.length = 49 → slot < 8 → exec (.trustSet m tag body) s =
        .next (answered (withMgmt s fun g => { g with trust := set [] slot (body.drop 1) g.trust }) m 0x18 tag 0 [])) ∧
    (let n := s.tick time
     (exec (.leaseExpiry time) s = .next (if n.mgmt.own = .owned ∧ n.mgmt.leaseEnd ≤ n.clock then n.unown else n)) ∧
     (exec (.handoverTimeout time) s = .next (if n.mgmt.own = .handover ∧ n.mgmt.leaseEnd ≤ n.clock then n.unown else n)) ∧
     ∀ ep root, n.lockedOut ep = false →
       (∀ q, n.mgmt.trusts root = true → n.masterFor ep = some q → exec (.spdmSession ep ⟨root, true⟩ time) s =
         .next (withMgmt n fun g => g.startSession q ep)) ∧
       (n.mgmt.trusts root = false → exec (.spdmSession ep ⟨root, true⟩ time) s = .next (n.authFailure ep)) ∧
       exec (.spdmSession ep ⟨root, false⟩ time) s = .next (n.authFailure ep)) ∧
    (∀ n, n = withMgmt s (fun g => g.endSession m) →
      exec (.sessionEnd m) s = .next (if s.mgmt.own = .owned ∧ s.mgmt.owner = m then n.unown else n)) ∧
    exec (.measurementRetrieval m) s = .next { s with answers := .measurement m :: s.answers } ∧
    (∀ overHost code, exec (.unsupportedOption (.option overHost) code) s =
      .next { s with answers := .refusal overHost :: s.answers }) ∧
    (∀ q qp code : Nat, q < 64 → qp < 1024 → (∀ p, get none s.mgmt.pairs qp = some p → p = .master q) →
      get none s.mgmt.retries qp = none → exec (.unsupportedOption (.request q qp) code) s =
      .next { s with answers := .rdmaInvalid q qp :: s.answers }) ∧
    ∀ code t : Byte, m = 0 → Unassigned code.toNat →
      exec (.unsupportedOption (.command t) code.toNat) s = .next (answered s 0 code.toNat t 5 [])

/-- R271, R350, R351, R360, R387, R388, R400, R402 to R407, R427 to R431, R447: the owner's other commands, each with
its effect and its answer: domains, windows, queues and doorbells, kills, keys, the fabric, unlocking, reading memory,
dumps and the health log, and the debugger's five. Byte layouts and the order of checks are the model's choices and
readings (log entries 30, 31, 33, 34, 35, 43 and 44); the key of a window and what FABRIC_JOIN draws are free values
(log entry 11). -/
def Obligations.OwnerCommands : Prop :=
  ∀ (s : State) (m : Nat) (tag : Byte) (body : List Byte), Owns s m →
    (∀ d, d = domainOf (bytesToWords body) → body.length = 160 → s.domainOk (bytesToWords body) = true →
      exec (.domainSet m tag body) s = .next (if s.coversSaved d then answered s m 0x20 tag 3 []
        else answered (withMgmt s fun g => { g with domains := g.domains ++ [d] }) m 0x20 tag 0 [])) ∧
    (∀ dom, dom = argN body 0 2 → body.length = 2 → (s.domain? dom).isSome = true →
      exec (.domainClear m tag body) s = .next (if s.domainBusy dom then answered s m 0x21 tag 3 []
        else answered (withMgmt (s.invalidate (fun e => e.dom == dom) fun e => e.dom == dom) fun g => { g with
          domains := g.domains.filter fun d => d.id != dom
          bindings := g.bindings.filter fun b => b.1 != dom
          unlocked := g.unlocked.filter fun d => d != dom }) m 0x21 tag 0 []) ∧
      (∀ d, s.domain? dom = some d → d.dbg = true → exec (.debugUnlock m tag body) s = .next (answered (withMgmt s fun g =>
        { g with unlocked := if g.unlocked.contains dom then g.unlocked else dom :: g.unlocked }) m 0x60 tag 0 [])) ∧
      exec (.debugLock m tag body) s = .next (answered (s.lockDomains fun d => d == dom) m 0x61 tag 0 [])) ∧
    (body.length = 32 → s.windowOk body = true → ∃ key : BitVec 32, key = s.newKey ∧
      exec (.windowSet m tag body) s = .next (answered { withMgmt s fun g => { g with
        windows := g.windows ++ [⟨key, argN body 0 2, argN body 8 8, argN body 16 8, argN body 2 1 == 1,
          BitVec.ofNat 64 (argN body 24 8), 0⟩]
        usedKeys := key :: g.usedKeys } with freeCtr := s.freeCtr + 1 } m 0x22 tag 0 (leBytes 4 key.toNat))) ∧
    (∀ key, key = argN body 0 4 → body.length = 4 → (∃ w ∈ s.mgmt.windows, w.rkey.toNat = key) →
      exec (.windowClear m tag body) s = .next (answered (withMgmt s fun g => { g with
        windows := g.windows.filter fun w => w.rkey.toNat != key }) m 0x23 tag 0 [])) ∧
    (∀ q dom va bs, q = argN body 0 1 → dom = argN body 2 2 → va = argN body 8 8 → body.length = 16 → q < 64 →
      bodyZero body 1 1 = true → bodyZero body 4 4 = true → va % 64 = 0 → va < 2 ^ 56 → s.deviceRead dom va 64 = .ok bs →
      queueDescOk (bytesToWords bs) dom = true →
      exec (.queueSet m tag body) s = .next (answered (s.setQueue q { s.queue q with
        enabled := true, dom := dom, va := BitVec.ofNat 64 va, desc := (bytesToWords bs).take 3
        head := BitVec.ofNat 32 (nth 0 (bytesToWords bs) 3).toNat }) m 0x30 tag 0 [])) ∧
    (∀ q, q = argN body 0 1 → body.length = 1 → q < 64 →
      exec (.queueClear m tag body) s = .next (answered (s.setQueue q { s.queue q with enabled := false }) m 0x31 tag 0 []) ∧
      exec (.doorbell m tag body) s = .next (answered (s.doorbell q) m 0x32 tag 0 [])) ∧
    (∀ l, s.launchAt (argN body 0 2) (argN body 8 8) = some l → body.length = 16 → bodyZero body 2 6 = true →
      argN body 0 2 ≠ 0 → exec (.kill m tag body) s =
        .next (answered ((s.killAny l 4 cKilled).openRegions (argN body 0 2)) m 0x33 tag 0 [])) ∧
    (∀ slot, slot = argN body 0 1 → slot < 8 →
      (body.length = 97 → exec (.keyLoad m tag body) s =
        .next (answered (withMgmt s fun g => { g with keys := set [] slot (body.drop 1) g.keys }) m 0x40 tag 0 [])) ∧
      (body.length = 1 → exec (.keyClear m tag body) s =
        .next (answered (withMgmt s fun g => { g with keys := drop slot g.keys }) m 0x41 tag 0 []))) ∧
    (∀ ports, ports = maskList (BitVec.ofNat 48 (argN body 8 6)) → body.length = 48 → argN body 4 2 ≤ 1023 →
      bodyZero body 6 2 = true → bodyZero body 14 2 = true → ports.length ∈ [1, 2, 4] →
      exec (.fabricJoin m tag body) s =
        .next (answered (s.join (BitVec.ofNat 32 (argN body 0 4)) (argN body 4 2) ((body.drop 16).take 32) ports) m
          0x50 tag 0 [])) ∧
    (body.length = 6 → exec (.fabricLeave m tag body) s =
      .next (answered (s.portsDown (maskList (BitVec.ofNat 48 (argN body 0 6)))) m 0x51 tag 0 [])) ∧
    (∀ dom grp, dom = argN body 0 2 → grp = argN body 2 2 → body.length = 4 → (s.domain? dom).isSome = true →
      ((∀ b ∈ s.mgmt.bindings, b.1 = dom ↔ b.2 = grp) → ∀ bs : List (Nat × Nat),
        bs = (if s.mgmt.bindings.contains (dom, grp) then s.mgmt.bindings else s.mgmt.bindings ++ [(dom, grp)]) →
        exec (.fabricBind m tag body) s = .next (answered (withMgmt s fun g => { g with bindings := bs }) m 0x52 tag 0 [])) ∧
      ((∃ b ∈ s.mgmt.bindings, ¬ (b.1 = dom ↔ b.2 = grp)) →
        exec (.fabricBind m tag body) s = .next (answered s m 0x52 tag 2 []))) ∧
    (∀ w off n bs, s.window? (argN body 0 4) = some w → off = argN body 8 8 → n = argN body 16 2 → body.length = 18 →
      bodyZero body 4 4 = true → 1 ≤ n → n ≤ 4096 → off + n ≤ w.len → s.readWindow w off n = .ok bs →
      exec (.memRead m tag body) s = .next (answered s m 0x71 tag 0 bs)) ∧
    (∀ slot off n, slot = argN body 0 1 → off = argN body 8 8 → n = argN body 16 2 → body.length = 18 → slot < 3 →
      bodyZero body 1 7 = true → 1 ≤ n → n ≤ 4096 → off + n ≤ (if slot = 0 then 0x60000000 else 0x30000000) →
      exec (.dumpRead m tag body) s = .next (answered s m 0x72 tag 0
        ((List.range n).map fun i => s.slotByte (get {} s.mgmt.dumps slot) (off + i)))) ∧
    (∀ slot, slot = argN body 0 1 → body.length = 1 → slot < 3 → exec (.dumpClear m tag body) s =
      .next (answered (withMgmt s fun g => { g with dumps := set {} slot { get {} g.dumps slot with valid := false } g.dumps })
        m 0x73 tag 0 [])) ∧
    (∀ from_ n oldest es, from_ = argN body 0 2 → n = argN body 2 2 → body.length = 4 → 1 ≤ n → n ≤ 255 →
      oldest = s.mgmt.healthNext - s.mgmt.health.length → es = (s.mgmt.health.drop (from_ - oldest)).take n →
      exec (.healthRead m tag body) s =
        .next (answered s m 0x74 tag 0 (leBytes 8 es.length ++ (es.map HealthEntry.bytes).flatten))) ∧
    (∀ c k, body.length = 2 → c < 128 → k < 4 → argN body 0 2 = k * 128 + c → s.unlockedCore c = true →
      (s.ctxAt c k).run ≠ .idle →
      (((s.cluster (c / 4)).switching = false → (s.ctxAt c k).nextPending = none ∧ s.stepsCause c k false = none) →
        ((s.cluster (c / 4)).switching = true → (s.ctxAt c k).active = false) →
        exec (.dbgHalt m tag body) s = .next (answered (s.halt c k) m 0x62 tag 0 [])) ∧
      ((s.cluster (c / 4)).switching = true → (s.ctxAt c k).active = true → exec (.dbgHalt m tag body) s =
        .next (withMgmt (s.pendCause c k ⟨cHalt, 0, none, 0, false, false⟩) fun g =>
          { g with halts := g.halts ++ [(c, k, m, tag)] })) ∧
      ((s.ctxAt c k).halted = false →
        exec (.dbgResume m tag body) s = .next (answered s m 0x63 tag 9 []) ∧
        exec (.dbgStep m tag body) s = .next (answered s m 0x64 tag 9 [])) ∧
      ((s.ctxAt c k).halted = true → ∀ t, s.dbgResume c k = some t →
        exec (.dbgResume m tag body) s = .next (answered t m 0x63 tag 0 []) ∧
        exec (.dbgStep m tag body) s = .next (answered (withCtx t c k fun x => { x with stepReq := true }) m 0x64 tag 0 []))) ∧
    ∀ t n, t = targetOf (BitVec.ofNat 64 (argN body 0 8)) → s.unlockedCore t.core = true → t.bytes = some n →
      s.targetHalted t = true →
      (body.length = 8 → s.targetStatus t true = 0 →
        exec (.dbgRead m tag body) s = .next (answered (s.targetTouch t) m 0x65 tag 0 (s.targetRead t))) ∧
      (body.length = 8 + n → s.targetStatus t false = 0 → s.targetTakes t (body.drop 8) = true →
        exec (.dbgWrite m tag body) s = .next (answered
          ((s.setCore t.core ((s.core t.core).wakeGroup t)).targetWrite t (body.drop 8)) m 0x66 tag 0 []))

/-- R272, R398, R401, R402, R405, R408, R442 to R445, R447: the host's commands and RDMA, Relay's flits, lanes and
ports, and alarms, fatal errors and reset. A SEND of a master completes as its command does, whatever the command; one
that the layout or the code table refuses is answered, and one of an endpoint without a session counts as a failure.
The readings of log entries 33, 35, 36, 43 and 52 are the model's; that the outcome of a port's test is given is the
choice of log entry 10, queue pairs that of log entry 62. -/
def Obligations.AttachmentEvents : Prop :=
  ∀ (s : State) (m port time : Nat),
    (∀ ep qp msg, qp < 1024 → (∃ p, get none s.mgmt.pairs qp = some p ∧ p ≠ s.peerOf ep) →
      exec (.hostCommandSend ⟨ep, qp⟩ msg) s = .next s) ∧
    (∀ ep qp msg, qp < 1024 → get none s.mgmt.pairs qp = none → get none s.mgmt.retries qp = none →
      (s.masterOf ep ≠ none → 4 ≤ msg.length → argN msg 2 2 = msg.length - 4 → ¬ Unassigned (argN msg 0 1)) →
      exec (.hostCommandSend ⟨ep, qp⟩ msg) s = exec (.hostCommandSend ⟨ep, qp⟩ msg)
        (withMgmt s fun g => { g with pairs := set none qp (some (s.peerOf ep)) g.pairs })) ∧
    (∀ ep qp msg, qp < 1024 → (∀ p, get none s.mgmt.pairs qp = some p → p = s.peerOf ep) → get none s.mgmt.retries qp = none →
      s.masterOf ep = some m → Heard s m → 4 ≤ msg.length → argN msg 2 2 = msg.length - 4 → Unassigned (argN msg 0 1) →
      exec (.hostCommandSend ⟨ep, qp⟩ msg) s = .next (answered s m (argN msg 0 1) (msg.getD 1 0) 5 [])) ∧
    (∀ ep qp msg code tag, qp < 1024 → get none s.mgmt.pairs qp = some (s.peerOf ep) → get none s.mgmt.retries qp = none →
      code = argN msg 0 1 → tag = msg.getD 1 0 →
      (s.masterOf ep = some m → m < 64 → 4 ≤ msg.length → argN msg 2 2 = msg.length - 4 →
        ∀ i, IsCommand m code tag (msg.drop 4) i →
          ∃ t, exec (.hostCommandSend ⟨ep, qp⟩ msg) s = .next t ∧ exec i s = .next t) ∧
      (s.masterOf ep = some m → Heard s m →
        (msg.length < 4 ∨ argN msg 2 2 ≠ msg.length - 4) →
          exec (.hostCommandSend ⟨ep, qp⟩ msg) s = .next (answered s m code tag 2 [])) ∧
      (s.masterOf ep = none → s.mgmt.bootFail = true → exec (.hostCommandSend ⟨ep, qp⟩ msg) s =
        .next (if code ≠ 0x70 then s
          else if msg.length = 4 ∧ argN msg 2 2 = 0 then answered s 0xFF code tag 0 bootReport else answered s 0xFF code tag 2 [])) ∧
      (s.masterOf ep = none → s.mgmt.bootFail = false → s.mgmt.fatal = false →
        (s.mgmt.alarmLevel < 2 →
          exec (.hostCommandSend ⟨ep, qp⟩ msg) s = .next ((answered s 0xFF code tag 4 []).authFailure ep)) ∧
        (s.mgmt.alarmLevel = 2 → exec (.hostCommandSend ⟨ep, qp⟩ msg) s = .next (if code = 0x70 then
          (if msg.length = 4 ∧ argN msg 2 2 = 0 then answered s 0xFF code tag 0 s.report else answered s 0xFF code tag 2 [])
          else if code = 0x10 then answered s 0xFF code tag 6 [] else s)))) ∧
    (∀ tag body, m < 64 → s.mgmt.bootFail = true → exec (.status m tag body) s =
      .next (if body = [] then answered s m 0x70 tag 0 bootReport else answered s m 0x70 tag 2 [])) ∧
    (Owns s m → ∀ w off data, w ∈ s.mgmt.windows → s.window? w.rkey.toNat = some w →
      ∀ qp, qp < 1024 → get none s.mgmt.pairs qp = some (.master m) →
      (s.mgmt.outOfOrder qp (some (w.rkey.toNat, off, data)) = false →
        (w.write = true → off + data.length ≤ w.len → s.windowPasses w .hostWrite off data.length = true →
          (s.ingressBytes + data.length ≤ 4194304 → ∀ t, t = (owing s qp none).queueWrite w off data →
            exec (.rdmaWrite m qp w.rkey.toNat off data) s = .next { t with answers := .rdmaAck m qp :: t.answers }) ∧
          (4194304 < s.ingressBytes + data.length → exec (.rdmaWrite m qp w.rkey.toNat off data) s =
            .next { owing s qp (some (w.rkey.toNat, off, data)) with answers := .rdmaRnr m qp :: s.answers })) ∧
        (w.len < off + data.length → exec (.rdmaWrite m qp w.rkey.toNat off data) s =
          .next { owing s qp none with answers := .rdmaNak m :: s.answers })) ∧
      (∀ r, get none s.mgmt.retries qp = some r →
        (r ≠ (w.rkey.toNat, off, data) → exec (.rdmaWrite m qp w.rkey.toNat off data) s = .next s) ∧
        (∀ n, exec (.rdmaRead ⟨m, qp⟩ w.rkey.toNat off n) s = .next s) ∧
        ∀ ep msg, s.masterOf ep = some m → exec (.hostCommandSend ⟨ep, qp⟩ msg) s = .next s) ∧
      ∀ n bs, get none s.mgmt.retries qp = none → off + n ≤ w.len → s.readWindow w off n = .ok bs →
        exec (.rdmaRead ⟨m, qp⟩ w.rkey.toNat off n) s = .next { s with answers := .rdmaData m bs :: s.answers }) ∧
    (∀ (p : Port) (g : Group), port < 48 → p = s.mgmt.port port → g = s.mgmt.group p.group → s.mgmt.fatal = false →
      (p.state = .inGroup →
        (∀ w t parts, (w = none ∧ t = s ∧ parts = g.parts ∨ w = some .part ∧ t = s ∧ parts = g.parts + 1 ∨
            (∃ op, w = some op ∧ op ≠ .part ∧ parts = 0 ∧
              if g.parts + 1 = flitsOf op then s.remoteOp port op = some t else t = s)) →
          ∃ u, exec (.flitReceive port g.recvSeq true w) s = .next u ∧ u.mem = t.mem ∧
            u.answers = .relayAck port ((g.recvSeq + 1) % 2 ^ 24) :: t.answers ∧
            (u.mgmt.group p.group).recvSeq = (g.recvSeq + 1) % 2 ^ 24 ∧ (u.mgmt.group p.group).parts = parts) ∧
        (∀ op, op ≠ .part → g.parts + 1 = flitsOf op → s.remoteOp port op = none →
          exec (.flitReceive port g.recvSeq true (some op)) s = .next { s with answers := .relayNak port g.recvSeq :: s.answers }) ∧
        (∀ seq w, seq ≠ g.recvSeq → exec (.flitReceive port seq true w) s =
          .next { s with answers := .relayNak port g.recvSeq :: s.answers }) ∧
        (∀ seq w recent, recent = s.clock :: p.crcTimes.filter (fun t => decide (s.clock ≤ t + cyclesPerMs)) →
          ∀ t, t = withMgmt s (fun x => x.setPort port
            { p with crcErr := BitVec.ofNat 16 (min (p.crcErr.toNat + 1) 0xFFFF), crcTimes := recent }) →
          (recent.length < 16 → exec (.flitReceive port seq false w) s =
            .next { t with answers := .relayNak port g.recvSeq :: s.answers }) ∧
          (16 ≤ recent.length → ∃ u, exec (.flitReceive port seq false w) s = .next u ∧ u.mem = s.mem ∧
            (u.mgmt.port port).state = .testing)) ∧
        (∀ seq, (∀ o ∈ g.owner, ∀ f ∈ g.unacked, o.1 ≠ f.1) → exec (.flitAck port seq false 0) s =
          .next (withMgmt s fun x => x.setGroup p.group { g with
            unacked := g.unacked.drop (g.covered seq)
            delivered := if g.covered seq = 0 then g.delivered else s.clock }).sendAll) ∧
        (∀ seq, g.covered seq = 0 → exec (.flitAck port seq true 0) s =
          .next ((withMgmt s fun x => x.setGroup p.group g).resend p.group).sendAll) ∧
        (∀ lane, lane < 4 → ∃ t, exec (.laneLoss port lane) s = .next t ∧ t.mem = s.mem ∧ (t.mgmt.port port).state = .testing ∧
          (t.mgmt.port port).lanes.getLsbD lane = false)) ∧
      (p.state = .testing →
        ((∀ q ∈ s.mgmt.laneTests, q.1 ≠ port) → exec (.portTestDone port false) s =
          .next (withMgmt s fun x => x.setPort port { p with passed := p.passed + 1, lanes := 0xF })) ∧
        (∀ lane met, s.mgmt.laneTests.filter (fun q => q.1 == port) = [(port, lane)] →
          met = (s.mgmt.laneErrs.filter fun q => q.1 == (port, lane) && decide (s.clock < q.2 + dayCycles)).length →
          ∃ t, exec (.portTestDone port false) s = .next t ∧ t.mem = s.mem ∧ t.mgmt.healthNext = s.mgmt.healthNext + 1 ∧
            if 3 ≤ met then t.mgmt.port port = { p with state := .lasting, lanes := 0, passed := 0 } ∧
              t.mgmt.lasting.toNat = min (s.mgmt.lasting.toNat + 1) 0xFFFF
            else t.mgmt.port port = { p with passed := p.passed + 1, lanes := 0xF } ∧
              t.mgmt.transient.toNat = min (s.mgmt.transient.toNat + 1) 0xFFFF) ∧
        (∃ t, exec (.portTestDone port true) s = .next t ∧ t.mem = s.mem ∧ t.cores = s.cores ∧
          t.mgmt.port port = { p with state := .lasting, lanes := 0, passed := 0 } ∧
          t.mgmt.lasting.toNat = min (s.mgmt.lasting.toNat + 1) 0xFFFF ∧ t.mgmt.healthNext = s.mgmt.healthNext + 1) ∧
        (2 ≤ p.passed → g.unacked = [] → g.resend = false → exec (.portRejoin port) s = .next (withMgmt s fun x =>
          (x.setPort port { p with state := .inGroup, passed := 0, lanes := 0xF }).widen p.group).sendAll) ∧
        (g.active ≠ [] → (p.passed < 2 ∨ g.unacked ≠ []) → exec (.portRejoin port) s = .next s))) ∧
    (∀ (g n : Nat) (op : RemoteOp) (y : Group), n = flitsOf op → y = s.mgmt.group g →
      opBytes op ≤ 256 * n ∧ (n = 1 ∨ 256 * (n - 1) < opBytes op) ∧
      (2 ^ 20 < y.unacked.length + n → s.sendFlit g op none = none) ∧
      (y.ports ≠ [] → y.width ≠ 0 → y.unacked.length + n ≤ 2 ^ 20 → ∃ t fs, s.sendFlit g op none = some ((y.sendSeq + (n - 1)) % 2 ^ 24, t) ∧
        fs.length = n ∧ (t.mgmt.group g).unacked = y.unacked ++ fs ∧ (t.mgmt.group g).sendSeq = (y.sendSeq + n) % 2 ^ 24 ∧
        t.answers = (fs.reverse.map fun f => Answer.relayFlit g f.1 f.2) ++ s.answers ∧
        ∀ i : Nat, i < n → fs[i]? = some ((y.sendSeq + i) % 2 ^ 24, if i + 1 = n then op else .part))) ∧
    (∀ g : Nat, (s.mgmt.group g).unacked ≠ [] → (s.mgmt.group g).width ≠ 0 →
      ((s.replay g).mgmt.group g).resend = false ∧ (s.replay g).answers =
        ((s.mgmt.group g).unacked.reverse.map fun f => Answer.relayFlit g f.1 f.2) ++ s.answers ∧
      (s.resend g).answers = (s.replay g).answers ∧ (s.resend g).mgmt.ports = s.mgmt.ports) ∧
    (∀ kind, ∃ t, exec (.tamperDetect kind time) s = .next t ∧ t.mgmt.own = .locked ∧ t.ingress = [] ∧
      (s.launches = [] → t.mem = s.mem ∧ t.mgmt.alarmLevel = max s.mgmt.alarmLevel 2 ∧ t.mgmt.keys = [] ∧
        t.mgmt.sessions = [] ∧ ∀ p : Nat, p < 48 → (t.mgmt.port p).state = .down)) ∧
    (s.mgmt.alarmTimes = [] → ∃ t, exec (.glitchRecovered time) s = .next t ∧ t.mem = s.mem ∧
      t.mgmt.alarmLevel = max s.mgmt.alarmLevel 1 ∧ t.mgmt.alarmCause.getLsbD 1 = true ∧ t.mgmt.alarmTimes = [t.clock]) ∧
    (∀ ep, get 0 s.mgmt.lockout ep ≤ max s.clock time → ∃ t, exec (.authLockoutExpiry ep time) s = .next t ∧ Quiet s t ∧
      t.lockedOut ep = false) ∧
    (∀ kind, ∃ t, exec (.fatalError kind time) s = .next t ∧ t.mgmt.fatal = true ∧
      ∀ p : Nat, p < 48 → (t.mgmt.port p).state = .down) ∧
    (∃ t, exec (.filzanWatchdogFail time) s = .next t ∧ t.mgmt.fatal = true ∧
      ∀ p : Nat, p < 48 → (t.mgmt.port p).state = .down) ∧
    (∀ ok fails, ∃ t, exec (.powerOnReset ok fails) s = .next t ∧ t.mem = s.mem ∧ t.launches = [] ∧ t.clock = 0 ∧
      t.mgmt.own = .unowned ∧ t.mgmt.trust = s.mgmt.trust ∧ t.mgmt.keys = [] ∧ t.mgmt.bootFail = !ok ∧
      ∀ c : Nat, t.core c = if c < 128 ∧ (s.core c).withdrawn = true ∧ c ∈ fails then { withdrawn := true } else {}) ∧
    ∀ tag, Owns s m → ∃ t, exec (.reset m tag []) s = .next t ∧ t.mem = s.mem ∧ t.launches = [] ∧ t.mgmt.own = .unowned ∧
      t.mgmt.trust = s.mgmt.trust ∧ t.mgmt.keys = [] ∧
      t.answers = answerOf m 0xFE tag 0 [] :: s.answers

namespace Sys2Proof.Claims

/-- The state in which the instruction of slot `n` acts. -/
def atSlot (s : State) (n : Nat) : State := { s with turn := { s.turn with slot := n } }

/-- The bundle of a decoded 384-bit word in issue at `pc`, with SYS.EVTRAP as it stands. -/
def fresh (ev : Word) (pc next : CodeAddr) (h : Header) (s0 s1 m c f : Instr) : Issue :=
  { pc := pc, next := next, hdr := (h.ew, h.skip), s0 := s0, s1 := s1, m := m, c := c, f := f, checked := true, done := 0
    target := none, raises := [], watch := none, late := none, user := none, ending := .running, evtrap := ev }

/-- What an occurrence leaves, unless it takes the clock past the next moment at which a tower calls for a refresh or the
guard: then the clock goes to that moment alone. -/
def unlessDue (s t : State) : State :=
  match s.nextKeep with
  | some d => if s.clock < t.clock ∧ d ≤ t.clock then s.tick d else t
  | none => t

/-- Forms with every field zero. -/
def rPlain : RForm := ⟨0, 0, 0, 0, 0, 0⟩

/-- An F slot with every field zero. -/
def fPlain : FForm := ⟨0, 0, 0, 0, 0⟩

/-- An M slot with every field zero. -/
def mPlain : MForm := ⟨0, 0, 0, 0, 0, 0, 0⟩

/-- A C slot with every field zero. -/
def cPlain : CForm := ⟨0, 0, 0, 0, 0, 0, 0, 0, 0, 0, 0, 0, 0, 0, 0, 0, 0, 0⟩

end Sys2Proof.Claims

/-- R43, R46, R49, R66, R362, R375, R398, and log entry 6: the turn of a context is taken by the holder of its core's
issue slot in a core that runs; in a quiet cycle it fetches the bundle at the pc; a bundle whose five slots decode and
pass every check is put in issue; and a step then carries out exec of each decoded slot in turn, S0, S1, C, M and F,
ends the bundle, and passes the turn to the next core. An F instruction that ends a bundle's work is not carried out
where a slot must be repeated. A guard or a refresh
that is due comes before all else, and an occurrence that would take the clock past the next one waits for it. Of commands
that arrive together the lowest master's is taken first. The agenda and its order are those of log entry 4, what
comes before it that of log entry 56, an F slot that must be repeated that of log entry 21, the order of slots that
of log entry 22, the passing of a turn that of log entry 37. -/
def Obligations.StepRunsBundle : Prop :=
  ∀ (s : State) (c k : Nat), IsCtx c k → ∀ x, x = s.ctxAt c k →
    ((s.core c).holder ≠ k → exec (.bundleFetch c k) s = .next s) ∧
    (s.coreRuns c = false → (s.core c).holder = k →
      exec (.bundleFetch c k) s = .next (s.setCore c { (s.core c).charge 0 with held := 0 })) ∧
    (s.coreRuns c = true → (s.core c).holder = k →
      (x.active = false → exec (.bundleFetch c k) s = .next ((s.setCore c ((s.core c).charge 0)).passSlot c)) ∧
      ∀ v, v = withCtx s c k Ctx.wakeUp → x.active = true →
        exec (.bundleFetch c k) s = .next (v.settleTurn c (v.turnOf c k))) ∧
    (∀ u, u = withCtx ((s.landAll c k).stepAll c k) c k (fun y => { y with owed := 0 }) → x.depth = 0 → x.nextPending = none → x.haltReq = false →
      (s.landAll c k).stepsCause c k false = none → (s.core c).landNeeds x = [] → x.dueStreams = [] →
      (u.ctxAt c k).run = .running → (u.ctxAt c k).skip = 0 →
      s.turnOf c k = s.issueNext u c k (x.owed + (s.core c).landCharge x)) ∧
    (∀ (old : State) (charge : Nat) (next : CodeAddr) (w : BitVec 384) (h : Header) (s0 s1 m cell f : Instr),
      x.resumeMask = 0 → s.fetchNext c k = .ok next w → h = Header.unpack (bundleH w) → h.ok = true →
      decodeS (bundleS0 w) = .ok s0 → decodeS (bundleS1 w) = .ok s1 → decodeM (bundleM w) = .ok m →
      decodeC (bundleC w) = .ok cell → decodeF (bundleF w) = .ok f → ∀ t u, t = (s.setCore c ((s.core c).mendFetch
        x.pc)).loadBundle c k next w [(0, .ok s0), (1, .ok s1), (2, .ok m), (3, .ok cell), (4, .ok f)] →
      u = (if h.hw then t.windowWrites c k else t) →
      t.turn = ⟨c, k, 0⟩ ∧ t.cx.issue = some (fresh x.evtrap x.pc next h s0 s1 m cell f) ∧
      ∀ ms, ms = [(0, u.slotIn 0 s0), (1, u.slotIn 1 s1), (2, u.slotIn 2 m), (3, u.slotIn 3 cell), (4, u.slotIn 4 f)] →
        (∀ q ∈ ms, q.2.check.illegal = false ∧ (q.2.taken = true → q.2.ready = true ∧ q.2.early false = none)) →
        old.geomWaits x c k m = false → firstCause x ms = none → ∃ n, old.issueNext s c k charge = .passed u n) ∧
    (s.keepNext exec = none → s.agenda = [] → s.turn.core = c → (s.core c).holder = k → s.ownEvent exec = s.turnEvent →
      ∀ u, exec (.bundleFetch c k) s = .next u →
        (u.cx.issue = none → step s = .next u.rotate) ∧
        ∀ i, u.cx.issue = some i → u.cx.run = .running → u.turn = ⟨c, k, 0⟩ → ∀ a b d e : State,
          exec i.s0 (atSlot u 0) = .next a → exec i.s1 (atSlot a 1) = .next b → exec i.c (atSlot b 3) = .next d →
          exec i.m (atSlot d 2) = .next e → ∀ j, e.cx.issue = some j →
            ((j.late = none ∨ isLast j.f = false) → ∀ z, exec j.f (atSlot e 4) = .next z →
              step s = .next (State.rotate { z.finishBundle c k with turn := ⟨c, k, 0⟩ })) ∧
            (j.late ≠ none → isLast j.f = true →
              step s = .next (State.rotate { e.finishBundle c k with turn := ⟨c, k, 0⟩ }))) ∧
    (∀ i t, s.keepNext exec = some i → exec i s = .next t → t.cx.issue = none → step s = .next t) ∧
    (∀ i is t, s.keepNext exec = none → s.agenda = i :: is → s.together ≤ 1 →
      exec i { s with agenda := is, together := s.together - 1 } = .next t → t.cx.issue = none → step s = .next (unlessDue s t)) ∧
    ∀ n i m t, s.keepNext exec = none → n < s.together → s.agenda[n]? = some i → s.commander i = some m →
      (s.agenda.head?.bind s.commander).isSome = true →
      (∀ (j : Nat) a q, j < s.together → s.agenda[j]? = some a → s.commander a = some q → m ≤ q ∧ (j < n → m < q)) →
      exec i { s with agenda := s.agenda.eraseIdx n, together := s.together - 1 } = .next t → t.cx.issue = none →
        step s = .next (unlessDue s t)

/-- R49 to R58: for every well-formed instruction of a slot, with every operand at every value that its encoding
admits, the word that the encoder gives decodes to that instruction. -/
def Obligations.DecodeEncode : Prop := ∀ i : Instr, WellFormed i = true → decodeSlot (encode i) = .ok i

/-- R81, R83, R99, R149, R190, R218, R240, R277, R295, R313, R328, R359: words written out from the encodings, and from
R299, R314 and R431, decode to the instructions they stand for, one or more for each slot. -/
def Obligations.DecodeWords : Prop :=
  decodeSlot (.s 0x280041423000) = .ok (.cmp { rPlain with a := 4, b := 5, fn := 4 <<< 15 ||| 3 <<< 12 }) ∧
  decodeSlot (.s 0x410401800001) = .ok (.lapadd { rPlain with d := 1, b := 6, fn := 1 }) ∧
  decodeSlot (.f 0x0252500000000040) = .ok (.brc { fPlain with pr := 2, pn := 1, a := 9, b := 2 <<< 3, tgt := 0x40 }) ∧
  decodeSlot (.f 0x0900030000000001) = .ok (.loopi { fPlain with b := 3, tgt := 1 }) ∧
  decodeSlot (.f 0x1100000000000001) = .ok (.waitt { fPlain with tgt := 1 }) ∧
  decodeSlot (.f 0x1200800000000002) = .ok (.waitf { fPlain with a := 2, tgt := 2 }) ∧
  decodeSlot (.f 0x1800000000001000) = .ok (.yield { fPlain with tgt := 4096 }) ∧
  decodeSlot (.m 0x1214600138000008) = .ok (.amoor { mPlain with d := 5, a := 6, attr := 0x4E, imm := 8 }) ∧
  decodeSlot (.m 0x1C000000F8000000) = .ok (.fence { mPlain with attr := 0x3E }) ∧
  decodeSlot (.m 0x2430D00000000002) = .ok (.cpgo { mPlain with d := 12, a := 13, imm := 2 }) ∧
  decodeSlot (.m 0x2C00A2C000000101) = .ok (.bsend { mPlain with a := 10, b := 11, imm := 0x101 }) ∧
  decodeSlot (.m 0x34009000000000C1) = .ok (.tdefer { mPlain with a := 9, imm := 0xC1 }) ∧
  decodeSlot (.c 0x0B3408031C4135000000000200000000) =
    .ok (.vfma { cPlain with sq := 3, lm := 2, d := 4, b := 6, cc := 7, as_ := 1, ta := 0x135, rm := 1 }) ∧
  decodeSlot (.c 0x5010020002040020000003B001800018) =
    .ok (.mma { cPlain with sq := 1, d := 1, as_ := 8, bs := 1, tb := 128, fp1 := 3, fp2 := 11, cn := 6, im := 24 }) ∧
  decodeSlot (.c 0x58160280000000003000000000000000) = .ok (.lqnear { cPlain with sq := 1, lm := 3, d := 1, a := 8, td := 0x300 }) ∧
  decodeSlot (.c 0x55104001000000000000000000400000) = .ok (.patch { cPlain with sq := 1, co := 1, b := 2, cn := 1 }) ∧
  decodeSlot (.c 0x55100001800000000000000000400001) = .ok (.patch { cPlain with sq := 1, b := 3, cn := 1, im := 1 }) ∧
  decodeSlot (.c 0x54102800000000000000000000000003) = .ok (.mread { cPlain with sq := 1, d := 20, im := 3 })

/-- The canonical form is the model's choice of log entry 2 for the memory that R26 addresses: whatever the device
does next, memory's bytes stay in it, addresses strictly rising and no zero byte listed. -/
def Obligations.MemoryCanonicalStep : Prop := ∀ s t : State, s.mem.wf = true → step s = .next t → t.mem.wf = true

/-- The canonical form is the model's choice of log entry 2 for the memory that R26 addresses: the memory after reset
is in it. -/
def Obligations.MemoryCanonicalReset : Prop := State.reset.mem.wf = true

/-- R45, R117, R121, R123, R170, R181, R186, R240, R241, R246, R262, R315: what reset leaves, by these rules and by R228,
R264, R284, R328, R353, R376, R377, R382, R386, R397, R408, R416, R438, R439, R441 and R444: each system register with a stated reset value has it, as a SYSR of any
context reads it; accumulators are EMPTY, latches are zero and not valid, no image is resident, queues are disabled,
the event queues and the express buffers are empty, and layers are ON. That layers are ON before a placement, and
what else the manual gives no reset value, is the choice of log entry 1. -/
def Obligations.ResetState : Prop :=
  let s := State.reset
  (∀ c k : Nat, IsCtx c k →
    (∀ n ∈ [0x001, 0x002, 0x010, 0x011, 0x012, 0x018, 0x020, 0x024, 0x030, 0x031, 0x032, 0x033, 0x034, 0x0B8, 0x0B9, 0x0FF,
        0x200, 0x201, 0x202, 0x205, 0x206, 0x207, 0x280, 0x282, 0x2C0, 0x2D2, 0x2E0, 0x2E1, 0x2E4, 0x2E5] ++
        ((List.range 16).map fun i => 0x060 + i) ++ ((List.range 16).map fun i => 0x080 + i) ++
        ((List.range 8).map fun i => 0x0A0 + i) ++ ((List.range 16).map fun i => 0x040 + i) ++
        ((List.range 256).map fun i => 0x100 + i),
      s.sysValue c k n = 0) ∧
    s.sysValue c k 0x281 = 0x0000FFFF00000000 ∧ s.sysValue c k 0x2C1 = 208 ∧ s.sysValue c k 0x2D0 = 0x1FFF1FFF ∧
    s.sysValue c k 0x2D1 = 0x40000000 ∧ (s.sysValue c k 0x2E2).extractLsb' 0 10 = 128 ∧ (s.core c).image = none ∧
    (s.core c).evq = [] ∧ ∀ n : Nat, n < 256 →
      let x := (s.core c).cell n
      x.a0.tag = .empty ∧ x.a1.tag = .empty ∧ x.rx = [] ∧ (∀ d : Nat, get {} x.latch d = {}) ∧
        ∀ l : Nat, l < 8 → x.tower.layer l = .on) ∧
  (∀ q : Nat, q < 64 → (s.queue q).enabled = false) ∧ s.mgmt.own = .unowned ∧ s.mgmt.alarmLevel = 0 ∧ s.mgmt.keys = [] ∧
    s.mgmt.sessions = [] ∧ ∀ p : Nat, p < 48 → (s.mgmt.port p).state = .down
end

