-- ==== Sys2Proof/Laws/Sparse.lean ====
section
/-! SUPPORT. The laws of sparse stores: a read after a write, and the canonical form. -/

namespace Sys2Proof.Machine

variable {β : Type}

/-! ### Reading what was written -/

theorem get_drop_same (d : β) (n : Nat) (m : SMap β) : get d (drop n m) n = d := by
  induction m with
  | nil => rfl
  | cons p r ih =>
    obtain ⟨k, v⟩ := p
    by_cases h : k = n <;> simp [drop, get, h, ih]

theorem get_drop_other (d : β) {n a : Nat} (h : a ≠ n) (m : SMap β) : get d (drop n m) a = get d m a := by
  induction m with
  | nil => rfl
  | cons p r ih =>
    obtain ⟨k, v⟩ := p
    by_cases hk : k = n
    · subst hk
      have : ¬ k = a := fun e => h e.symm
      simp [drop, get, this, ih]
    · simp only [drop, hk, if_false, get, ih]

theorem get_put_same (d : β) (n : Nat) (v : β) (m : SMap β) : get d (put n v (drop n m)) n = v := by
  induction m with
  | nil => simp [drop, put, get]
  | cons p r ih =>
    obtain ⟨k, w⟩ := p
    by_cases hk : k = n
    · simp [drop, hk, ih]
    · by_cases hl : n < k <;> simp [drop, put, get, hk, hl, ih]

theorem get_put_other (d : β) {n a : Nat} (h : a ≠ n) (v : β) (m : SMap β) : get d (put n v m) a = get d m a := by
  induction m with
  | nil => simp [put, get, Ne.symm h]
  | cons p r ih =>
    obtain ⟨k, w⟩ := p
    by_cases hl : n < k
    · simp [put, get, hl, Ne.symm h]
    · simp only [put, hl, if_false, get, ih]

/-- What was written reads back. -/
@[simp] theorem get_set_same [DecidableEq β] (d : β) (n : Nat) (v : β) (m : SMap β) : get d (set d n v m) n = v := by
  by_cases h : v = d
  · simp [set, h, get_drop_same]
  · simp [set, h, get_put_same]

/-- A write leaves every other index alone. -/
theorem get_set_other [DecidableEq β] (d : β) {n a : Nat} (h : a ≠ n) (v : β) (m : SMap β) :
    get d (set d n v m) a = get d m a := by
  by_cases hv : v = d
  · simp [set, hv, get_drop_other d h]
  · simp [set, hv, get_put_other d h, get_drop_other d h]

theorem get_set [DecidableEq β] (d : β) (n a : Nat) (v : β) (m : SMap β) :
    get d (set d n v m) a = if a = n then v else get d m a := by
  by_cases h : a = n
  · subst h; simp
  · simp [h, get_set_other d h]

/-! ### The canonical form -/

theorem above_mono {a b : Nat} (h : a ≤ b) {m : SMap β} (hm : above b m = true) : above a m = true := by
  simp only [above, List.all_eq_true, decide_eq_true_eq] at *
  intro p hp
  have := hm p hp
  omega

theorem above_drop {a n : Nat} {m : SMap β} (hm : above a m = true) : above a (drop n m) = true := by
  induction m with
  | nil => rfl
  | cons p r ih =>
    obtain ⟨k, v⟩ := p
    simp only [above, List.all_cons, Bool.and_eq_true, decide_eq_true_eq] at hm
    by_cases hk : k = n
    · simpa [drop, hk] using ih hm.2
    · simp only [drop, hk, if_false, above, List.all_cons, Bool.and_eq_true, decide_eq_true_eq]
      exact ⟨hm.1, ih hm.2⟩

theorem above_put {a n : Nat} (h : a < n) (v : β) {m : SMap β} (hm : above a m = true) : above a (put n v m) = true := by
  induction m with
  | nil => simp [put, above, h]
  | cons p r ih =>
    obtain ⟨k, w⟩ := p
    simp only [above, List.all_cons, Bool.and_eq_true, decide_eq_true_eq] at hm
    by_cases hl : n < k
    · simp only [put, hl, if_true, above, List.all_cons, Bool.and_eq_true, decide_eq_true_eq]
      exact ⟨h, hm.1, hm.2⟩
    · simp only [put, hl, if_false, above, List.all_cons, Bool.and_eq_true, decide_eq_true_eq]
      exact ⟨hm.1, ih hm.2⟩

theorem canonical_drop [DecidableEq β] (d : β) (n : Nat) {m : SMap β} (h : canonical d m = true) :
    canonical d (drop n m) = true := by
  induction m with
  | nil => rfl
  | cons p r ih =>
    obtain ⟨k, v⟩ := p
    simp only [canonical, Bool.and_eq_true, decide_eq_true_eq] at h
    by_cases hk : k = n
    · simpa [drop, hk] using ih h.2
    · simp only [drop, hk, if_false, canonical, Bool.and_eq_true, decide_eq_true_eq]
      exact ⟨⟨h.1.1, above_drop h.1.2⟩, ih h.2⟩

theorem canonical_put [DecidableEq β] (d : β) (n : Nat) {v : β} (hv : v ≠ d) {m : SMap β} (h : canonical d m = true) :
    canonical d (put n v (drop n m)) = true := by
  induction m with
  | nil => simp [drop, put, canonical, above, hv]
  | cons p r ih =>
    obtain ⟨k, w⟩ := p
    simp only [canonical, Bool.and_eq_true, decide_eq_true_eq] at h
    by_cases hk : k = n
    · simpa [drop, hk] using ih h.2
    · simp only [drop, hk, if_false]
      by_cases hl : n < k
      · simp only [put, hl, if_true, canonical, Bool.and_eq_true, decide_eq_true_eq]
        refine ⟨⟨hv, ?_⟩, ⟨h.1.1, above_drop h.1.2⟩, canonical_drop d n h.2⟩
        simp only [above, List.all_cons, Bool.and_eq_true, decide_eq_true_eq]
        exact ⟨hl, above_mono (Nat.le_of_lt hl) (above_drop h.1.2)⟩
      · simp only [put, hl, if_false, canonical, Bool.and_eq_true, decide_eq_true_eq]
        exact ⟨⟨h.1.1, above_put (by omega) v (above_drop h.1.2)⟩, ih h.2⟩

/-- A write keeps the canonical form. -/
theorem canonical_set [DecidableEq β] (d : β) (n : Nat) (v : β) {m : SMap β} (h : canonical d m = true) :
    canonical d (set d n v m) = true := by
  by_cases hv : v = d
  · simpa [set, hv] using canonical_drop d n h
  · simpa [set, hv] using canonical_put d n hv h

theorem get_of_above [DecidableEq β] (d : β) {n : Nat} {m : SMap β} (h : above n m = true) {a : Nat} (ha : a ≤ n) :
    get d m a = d := by
  induction m with
  | nil => rfl
  | cons p r ih =>
    obtain ⟨k, v⟩ := p
    simp only [above, List.all_cons, Bool.and_eq_true, decide_eq_true_eq] at h
    have : ¬ k = a := by omega
    simpa [get, this] using ih h.2

/-- Two canonical stores that read alike are the same store. -/
theorem canonical_ext [DecidableEq β] (d : β) {m m' : SMap β} (h : canonical d m = true) (h' : canonical d m' = true)
    (e : ∀ a, get d m a = get d m' a) : m = m' := by
  induction m generalizing m' with
  | nil =>
    cases m' with
    | nil => rfl
    | cons p r =>
      obtain ⟨k, v⟩ := p
      simp only [canonical, Bool.and_eq_true, decide_eq_true_eq] at h'
      exact absurd (by simpa [get] using (e k).symm) h'.1.1
  | cons p r ih =>
    obtain ⟨k, v⟩ := p
    simp only [canonical, Bool.and_eq_true, decide_eq_true_eq] at h
    cases m' with
    | nil => exact absurd (by simpa [get] using e k) h.1.1
    | cons p' r' =>
      obtain ⟨k', v'⟩ := p'
      simp only [canonical, Bool.and_eq_true, decide_eq_true_eq] at h'
      have hk : k = k' := by
        rcases Nat.lt_trichotomy k k' with hl | rfl | hl
        · have := e k
          simp only [get, if_true] at this
          rw [if_neg (by omega), get_of_above d h'.1.2 (by omega)] at this
          exact absurd this h.1.1
        · rfl
        · have := e k'
          simp only [get, if_true] at this
          rw [if_neg (by omega), get_of_above d h.1.2 (by omega)] at this
          exact absurd this.symm h'.1.1
      subst hk
      have hv : v = v' := by simpa [get] using e k
      subst hv
      rw [ih h.2 h'.2]
      intro a
      by_cases ha : k = a
      · subst ha
        rw [get_of_above d h.1.2 (Nat.le_refl _), get_of_above d h'.1.2 (Nat.le_refl _)]
      · simpa [get, ha] using e a

/-! ### Bytes -/

@[simp] theorem readByte_writeByte_same (m : Bytes) (a : Nat) (b : Byte) : readByte (writeByte m a b) a = b := by
  simp [readByte, writeByte]

theorem readByte_writeByte (m : Bytes) (n a : Nat) (b : Byte) :
    readByte (writeByte m n b) a = if a = n then b else readByte m a := by
  simp [readByte, writeByte, get_set]

/-- A byte write keeps the canonical form. -/
theorem writeByte_wf {m : Bytes} (h : m.wf = true) (a : Nat) (b : Byte) : (writeByte m a b).wf = true :=
  canonical_set 0 a b h

/-- Writing bytes keeps the canonical form. -/
theorem writeBytes_wf {m : Bytes} (h : m.wf = true) (a : Nat) (bs : List Byte) : (writeBytes m a bs).wf = true := by
  induction bs generalizing m a with
  | nil => exact h
  | cons b bs ih => exact ih (writeByte_wf h a b) (a + 1)

/-- Every byte outside what was written reads as before. -/
theorem readByte_writeBytes_outside (m : Bytes) (a : Nat) (bs : List Byte) {x : Nat} (h : x < a ∨ a + bs.length ≤ x) :
    readByte (writeBytes m a bs) x = readByte m x := by
  induction bs generalizing m a with
  | nil => rfl
  | cons b bs ih =>
    simp only [List.length_cons] at h
    have hx : x ≠ a := by omega
    rw [writeBytes, ih _ _ (by omega), readByte_writeByte, if_neg hx]

/-- What was written reads back. -/
@[simp] theorem readBytes_writeBytes (m : Bytes) (a : Nat) (bs : List Byte) :
    readBytes (writeBytes m a bs) a bs.length = bs := by
  induction bs generalizing m a with
  | nil => rfl
  | cons b bs ih =>
    simp only [writeBytes, List.length_cons, readBytes]
    rw [ih, readByte_writeBytes_outside _ _ _ (by omega)]
    simp

/-- Reading away from what was written. -/
theorem readBytes_writeBytes_outside (m : Bytes) (a x n : Nat) (bs : List Byte)
    (h : x + n ≤ a ∨ a + bs.length ≤ x) : readBytes (writeBytes m a bs) x n = readBytes m x n := by
  induction n generalizing x with
  | zero => rfl
  | succ n ih =>
    simp only [readBytes]
    rw [ih (x + 1) (by omega), readByte_writeBytes_outside _ _ _ (by omega)]

end Sys2Proof.Machine
end

