-- ==== Sys2Proof/Laws/State.lean ====
section
/-! SUPPORT. The small laws of the state: what each update leaves of every field, and what a part reads after its own
update or another's. Nothing later needs to unfold a record update. -/

namespace Sys2Proof.Machine

variable (s : State)

/-! ### setCore -/

@[simp] theorem State.setCore_cores (c : Nat) (x : Core) : (s.setCore c x).cores = set {} c x s.cores := rfl
@[simp] theorem State.setCore_walks (c : Nat) (x : Core) : (s.setCore c x).walks = s.walks := rfl
@[simp] theorem State.setCore_mem (c : Nat) (x : Core) : (s.setCore c x).mem = s.mem := rfl
@[simp] theorem State.setCore_badMem (c : Nat) (x : Core) : (s.setCore c x).badMem = s.badMem := rfl
@[simp] theorem State.setCore_lines (c : Nat) (x : Core) : (s.setCore c x).lines = s.lines := rfl
@[simp] theorem State.setCore_launches (c : Nat) (x : Core) : (s.setCore c x).launches = s.launches := rfl
@[simp] theorem State.setCore_starter (c : Nat) (x : Core) : (s.setCore c x).starter = s.starter := rfl
@[simp] theorem State.setCore_xputs (c : Nat) (x : Core) : (s.setCore c x).xputs = s.xputs := rfl
@[simp] theorem State.setCore_batons (c : Nat) (x : Core) : (s.setCore c x).batons = s.batons := rfl
@[simp] theorem State.setCore_express (c : Nat) (x : Core) : (s.setCore c x).express = s.express := rfl
@[simp] theorem State.setCore_ingress (c : Nat) (x : Core) : (s.setCore c x).ingress = s.ingress := rfl
@[simp] theorem State.setCore_clusters (c : Nat) (x : Core) : (s.setCore c x).clusters = s.clusters := rfl
@[simp] theorem State.setCore_noc (c : Nat) (x : Core) : (s.setCore c x).noc = s.noc := rfl
@[simp] theorem State.setCore_mgmt (c : Nat) (x : Core) : (s.setCore c x).mgmt = s.mgmt := rfl
@[simp] theorem State.setCore_clock (c : Nat) (x : Core) : (s.setCore c x).clock = s.clock := rfl
@[simp] theorem State.setCore_turn (c : Nat) (x : Core) : (s.setCore c x).turn = s.turn := rfl
@[simp] theorem State.setCore_agenda (c : Nat) (x : Core) : (s.setCore c x).agenda = s.agenda := rfl
@[simp] theorem State.setCore_together (c : Nat) (x : Core) : (s.setCore c x).together = s.together := rfl
@[simp] theorem State.setCore_answers (c : Nat) (x : Core) : (s.setCore c x).answers = s.answers := rfl
@[simp] theorem State.setCore_freeCtr (c : Nat) (x : Core) : (s.setCore c x).freeCtr = s.freeCtr := rfl

/-! ### setCtxAt -/

@[simp] theorem State.setCtxAt_cores (c k : Nat) (y : Ctx) : (s.setCtxAt c k y).cores = set {} c ((s.core c).setCtx k y) s.cores := rfl
@[simp] theorem State.setCtxAt_walks (c k : Nat) (y : Ctx) : (s.setCtxAt c k y).walks = s.walks := rfl
@[simp] theorem State.setCtxAt_mem (c k : Nat) (y : Ctx) : (s.setCtxAt c k y).mem = s.mem := rfl
@[simp] theorem State.setCtxAt_badMem (c k : Nat) (y : Ctx) : (s.setCtxAt c k y).badMem = s.badMem := rfl
@[simp] theorem State.setCtxAt_lines (c k : Nat) (y : Ctx) : (s.setCtxAt c k y).lines = s.lines := rfl
@[simp] theorem State.setCtxAt_launches (c k : Nat) (y : Ctx) : (s.setCtxAt c k y).launches = s.launches := rfl
@[simp] theorem State.setCtxAt_starter (c k : Nat) (y : Ctx) : (s.setCtxAt c k y).starter = s.starter := rfl
@[simp] theorem State.setCtxAt_xputs (c k : Nat) (y : Ctx) : (s.setCtxAt c k y).xputs = s.xputs := rfl
@[simp] theorem State.setCtxAt_batons (c k : Nat) (y : Ctx) : (s.setCtxAt c k y).batons = s.batons := rfl
@[simp] theorem State.setCtxAt_express (c k : Nat) (y : Ctx) : (s.setCtxAt c k y).express = s.express := rfl
@[simp] theorem State.setCtxAt_ingress (c k : Nat) (y : Ctx) : (s.setCtxAt c k y).ingress = s.ingress := rfl
@[simp] theorem State.setCtxAt_clusters (c k : Nat) (y : Ctx) : (s.setCtxAt c k y).clusters = s.clusters := rfl
@[simp] theorem State.setCtxAt_noc (c k : Nat) (y : Ctx) : (s.setCtxAt c k y).noc = s.noc := rfl
@[simp] theorem State.setCtxAt_mgmt (c k : Nat) (y : Ctx) : (s.setCtxAt c k y).mgmt = s.mgmt := rfl
@[simp] theorem State.setCtxAt_clock (c k : Nat) (y : Ctx) : (s.setCtxAt c k y).clock = s.clock := rfl
@[simp] theorem State.setCtxAt_turn (c k : Nat) (y : Ctx) : (s.setCtxAt c k y).turn = s.turn := rfl
@[simp] theorem State.setCtxAt_agenda (c k : Nat) (y : Ctx) : (s.setCtxAt c k y).agenda = s.agenda := rfl
@[simp] theorem State.setCtxAt_together (c k : Nat) (y : Ctx) : (s.setCtxAt c k y).together = s.together := rfl
@[simp] theorem State.setCtxAt_answers (c k : Nat) (y : Ctx) : (s.setCtxAt c k y).answers = s.answers := rfl
@[simp] theorem State.setCtxAt_freeCtr (c k : Nat) (y : Ctx) : (s.setCtxAt c k y).freeCtr = s.freeCtr := rfl

/-! ### modCtxAt -/

@[simp] theorem State.modCtxAt_cores (c k : Nat) (f : Ctx → Ctx) : (s.modCtxAt c k f).cores = set {} c ((s.core c).setCtx k (f (s.ctxAt c k))) s.cores := rfl
@[simp] theorem State.modCtxAt_walks (c k : Nat) (f : Ctx → Ctx) : (s.modCtxAt c k f).walks = s.walks := rfl
@[simp] theorem State.modCtxAt_mem (c k : Nat) (f : Ctx → Ctx) : (s.modCtxAt c k f).mem = s.mem := rfl
@[simp] theorem State.modCtxAt_badMem (c k : Nat) (f : Ctx → Ctx) : (s.modCtxAt c k f).badMem = s.badMem := rfl
@[simp] theorem State.modCtxAt_lines (c k : Nat) (f : Ctx → Ctx) : (s.modCtxAt c k f).lines = s.lines := rfl
@[simp] theorem State.modCtxAt_launches (c k : Nat) (f : Ctx → Ctx) : (s.modCtxAt c k f).launches = s.launches := rfl
@[simp] theorem State.modCtxAt_starter (c k : Nat) (f : Ctx → Ctx) : (s.modCtxAt c k f).starter = s.starter := rfl
@[simp] theorem State.modCtxAt_xputs (c k : Nat) (f : Ctx → Ctx) : (s.modCtxAt c k f).xputs = s.xputs := rfl
@[simp] theorem State.modCtxAt_batons (c k : Nat) (f : Ctx → Ctx) : (s.modCtxAt c k f).batons = s.batons := rfl
@[simp] theorem State.modCtxAt_express (c k : Nat) (f : Ctx → Ctx) : (s.modCtxAt c k f).express = s.express := rfl
@[simp] theorem State.modCtxAt_ingress (c k : Nat) (f : Ctx → Ctx) : (s.modCtxAt c k f).ingress = s.ingress := rfl
@[simp] theorem State.modCtxAt_clusters (c k : Nat) (f : Ctx → Ctx) : (s.modCtxAt c k f).clusters = s.clusters := rfl
@[simp] theorem State.modCtxAt_noc (c k : Nat) (f : Ctx → Ctx) : (s.modCtxAt c k f).noc = s.noc := rfl
@[simp] theorem State.modCtxAt_mgmt (c k : Nat) (f : Ctx → Ctx) : (s.modCtxAt c k f).mgmt = s.mgmt := rfl
@[simp] theorem State.modCtxAt_clock (c k : Nat) (f : Ctx → Ctx) : (s.modCtxAt c k f).clock = s.clock := rfl
@[simp] theorem State.modCtxAt_turn (c k : Nat) (f : Ctx → Ctx) : (s.modCtxAt c k f).turn = s.turn := rfl
@[simp] theorem State.modCtxAt_agenda (c k : Nat) (f : Ctx → Ctx) : (s.modCtxAt c k f).agenda = s.agenda := rfl
@[simp] theorem State.modCtxAt_together (c k : Nat) (f : Ctx → Ctx) : (s.modCtxAt c k f).together = s.together := rfl
@[simp] theorem State.modCtxAt_answers (c k : Nat) (f : Ctx → Ctx) : (s.modCtxAt c k f).answers = s.answers := rfl
@[simp] theorem State.modCtxAt_freeCtr (c k : Nat) (f : Ctx → Ctx) : (s.modCtxAt c k f).freeCtr = s.freeCtr := rfl

/-! ### setCx -/

@[simp] theorem State.setCx_cores (y : Ctx) : (s.setCx y).cores = set {} s.turn.core ((s.core s.turn.core).setCtx s.turn.ctx y) s.cores := rfl
@[simp] theorem State.setCx_walks (y : Ctx) : (s.setCx y).walks = s.walks := rfl
@[simp] theorem State.setCx_mem (y : Ctx) : (s.setCx y).mem = s.mem := rfl
@[simp] theorem State.setCx_badMem (y : Ctx) : (s.setCx y).badMem = s.badMem := rfl
@[simp] theorem State.setCx_lines (y : Ctx) : (s.setCx y).lines = s.lines := rfl
@[simp] theorem State.setCx_launches (y : Ctx) : (s.setCx y).launches = s.launches := rfl
@[simp] theorem State.setCx_starter (y : Ctx) : (s.setCx y).starter = s.starter := rfl
@[simp] theorem State.setCx_xputs (y : Ctx) : (s.setCx y).xputs = s.xputs := rfl
@[simp] theorem State.setCx_batons (y : Ctx) : (s.setCx y).batons = s.batons := rfl
@[simp] theorem State.setCx_express (y : Ctx) : (s.setCx y).express = s.express := rfl
@[simp] theorem State.setCx_ingress (y : Ctx) : (s.setCx y).ingress = s.ingress := rfl
@[simp] theorem State.setCx_clusters (y : Ctx) : (s.setCx y).clusters = s.clusters := rfl
@[simp] theorem State.setCx_noc (y : Ctx) : (s.setCx y).noc = s.noc := rfl
@[simp] theorem State.setCx_mgmt (y : Ctx) : (s.setCx y).mgmt = s.mgmt := rfl
@[simp] theorem State.setCx_clock (y : Ctx) : (s.setCx y).clock = s.clock := rfl
@[simp] theorem State.setCx_turn (y : Ctx) : (s.setCx y).turn = s.turn := rfl
@[simp] theorem State.setCx_agenda (y : Ctx) : (s.setCx y).agenda = s.agenda := rfl
@[simp] theorem State.setCx_together (y : Ctx) : (s.setCx y).together = s.together := rfl
@[simp] theorem State.setCx_answers (y : Ctx) : (s.setCx y).answers = s.answers := rfl
@[simp] theorem State.setCx_freeCtr (y : Ctx) : (s.setCx y).freeCtr = s.freeCtr := rfl

/-! ### modCx -/

@[simp] theorem State.modCx_cores (f : Ctx → Ctx) : (s.modCx f).cores = set {} s.turn.core ((s.core s.turn.core).setCtx s.turn.ctx (f s.cx)) s.cores := rfl
@[simp] theorem State.modCx_walks (f : Ctx → Ctx) : (s.modCx f).walks = s.walks := rfl
@[simp] theorem State.modCx_mem (f : Ctx → Ctx) : (s.modCx f).mem = s.mem := rfl
@[simp] theorem State.modCx_badMem (f : Ctx → Ctx) : (s.modCx f).badMem = s.badMem := rfl
@[simp] theorem State.modCx_lines (f : Ctx → Ctx) : (s.modCx f).lines = s.lines := rfl
@[simp] theorem State.modCx_launches (f : Ctx → Ctx) : (s.modCx f).launches = s.launches := rfl
@[simp] theorem State.modCx_starter (f : Ctx → Ctx) : (s.modCx f).starter = s.starter := rfl
@[simp] theorem State.modCx_xputs (f : Ctx → Ctx) : (s.modCx f).xputs = s.xputs := rfl
@[simp] theorem State.modCx_batons (f : Ctx → Ctx) : (s.modCx f).batons = s.batons := rfl
@[simp] theorem State.modCx_express (f : Ctx → Ctx) : (s.modCx f).express = s.express := rfl
@[simp] theorem State.modCx_ingress (f : Ctx → Ctx) : (s.modCx f).ingress = s.ingress := rfl
@[simp] theorem State.modCx_clusters (f : Ctx → Ctx) : (s.modCx f).clusters = s.clusters := rfl
@[simp] theorem State.modCx_noc (f : Ctx → Ctx) : (s.modCx f).noc = s.noc := rfl
@[simp] theorem State.modCx_mgmt (f : Ctx → Ctx) : (s.modCx f).mgmt = s.mgmt := rfl
@[simp] theorem State.modCx_clock (f : Ctx → Ctx) : (s.modCx f).clock = s.clock := rfl
@[simp] theorem State.modCx_turn (f : Ctx → Ctx) : (s.modCx f).turn = s.turn := rfl
@[simp] theorem State.modCx_agenda (f : Ctx → Ctx) : (s.modCx f).agenda = s.agenda := rfl
@[simp] theorem State.modCx_together (f : Ctx → Ctx) : (s.modCx f).together = s.together := rfl
@[simp] theorem State.modCx_answers (f : Ctx → Ctx) : (s.modCx f).answers = s.answers := rfl
@[simp] theorem State.modCx_freeCtr (f : Ctx → Ctx) : (s.modCx f).freeCtr = s.freeCtr := rfl

/-! ### modCore -/

@[simp] theorem State.modCore_cores (f : Core → Core) : (s.modCore f).cores = set {} s.turn.core (f s.cc) s.cores := rfl
@[simp] theorem State.modCore_walks (f : Core → Core) : (s.modCore f).walks = s.walks := rfl
@[simp] theorem State.modCore_mem (f : Core → Core) : (s.modCore f).mem = s.mem := rfl
@[simp] theorem State.modCore_badMem (f : Core → Core) : (s.modCore f).badMem = s.badMem := rfl
@[simp] theorem State.modCore_lines (f : Core → Core) : (s.modCore f).lines = s.lines := rfl
@[simp] theorem State.modCore_launches (f : Core → Core) : (s.modCore f).launches = s.launches := rfl
@[simp] theorem State.modCore_starter (f : Core → Core) : (s.modCore f).starter = s.starter := rfl
@[simp] theorem State.modCore_xputs (f : Core → Core) : (s.modCore f).xputs = s.xputs := rfl
@[simp] theorem State.modCore_batons (f : Core → Core) : (s.modCore f).batons = s.batons := rfl
@[simp] theorem State.modCore_express (f : Core → Core) : (s.modCore f).express = s.express := rfl
@[simp] theorem State.modCore_ingress (f : Core → Core) : (s.modCore f).ingress = s.ingress := rfl
@[simp] theorem State.modCore_clusters (f : Core → Core) : (s.modCore f).clusters = s.clusters := rfl
@[simp] theorem State.modCore_noc (f : Core → Core) : (s.modCore f).noc = s.noc := rfl
@[simp] theorem State.modCore_mgmt (f : Core → Core) : (s.modCore f).mgmt = s.mgmt := rfl
@[simp] theorem State.modCore_clock (f : Core → Core) : (s.modCore f).clock = s.clock := rfl
@[simp] theorem State.modCore_turn (f : Core → Core) : (s.modCore f).turn = s.turn := rfl
@[simp] theorem State.modCore_agenda (f : Core → Core) : (s.modCore f).agenda = s.agenda := rfl
@[simp] theorem State.modCore_together (f : Core → Core) : (s.modCore f).together = s.together := rfl
@[simp] theorem State.modCore_answers (f : Core → Core) : (s.modCore f).answers = s.answers := rfl
@[simp] theorem State.modCore_freeCtr (f : Core → Core) : (s.modCore f).freeCtr = s.freeCtr := rfl

/-! ### setLaunch -/

@[simp] theorem State.setLaunch_cores (l : Nat) (x : Launch) : (s.setLaunch l x).cores = s.cores := rfl
@[simp] theorem State.setLaunch_walks (l : Nat) (x : Launch) : (s.setLaunch l x).walks = s.walks := rfl
@[simp] theorem State.setLaunch_mem (l : Nat) (x : Launch) : (s.setLaunch l x).mem = s.mem := rfl
@[simp] theorem State.setLaunch_badMem (l : Nat) (x : Launch) : (s.setLaunch l x).badMem = s.badMem := rfl
@[simp] theorem State.setLaunch_lines (l : Nat) (x : Launch) : (s.setLaunch l x).lines = s.lines := rfl
@[simp] theorem State.setLaunch_launches (l : Nat) (x : Launch) : (s.setLaunch l x).launches = s.launches.map fun p => if p.1 = l then (l, x) else p := rfl
@[simp] theorem State.setLaunch_starter (l : Nat) (x : Launch) : (s.setLaunch l x).starter = s.starter := rfl
@[simp] theorem State.setLaunch_xputs (l : Nat) (x : Launch) : (s.setLaunch l x).xputs = s.xputs := rfl
@[simp] theorem State.setLaunch_batons (l : Nat) (x : Launch) : (s.setLaunch l x).batons = s.batons := rfl
@[simp] theorem State.setLaunch_express (l : Nat) (x : Launch) : (s.setLaunch l x).express = s.express := rfl
@[simp] theorem State.setLaunch_ingress (l : Nat) (x : Launch) : (s.setLaunch l x).ingress = s.ingress := rfl
@[simp] theorem State.setLaunch_clusters (l : Nat) (x : Launch) : (s.setLaunch l x).clusters = s.clusters := rfl
@[simp] theorem State.setLaunch_noc (l : Nat) (x : Launch) : (s.setLaunch l x).noc = s.noc := rfl
@[simp] theorem State.setLaunch_mgmt (l : Nat) (x : Launch) : (s.setLaunch l x).mgmt = s.mgmt := rfl
@[simp] theorem State.setLaunch_clock (l : Nat) (x : Launch) : (s.setLaunch l x).clock = s.clock := rfl
@[simp] theorem State.setLaunch_turn (l : Nat) (x : Launch) : (s.setLaunch l x).turn = s.turn := rfl
@[simp] theorem State.setLaunch_agenda (l : Nat) (x : Launch) : (s.setLaunch l x).agenda = s.agenda := rfl
@[simp] theorem State.setLaunch_together (l : Nat) (x : Launch) : (s.setLaunch l x).together = s.together := rfl
@[simp] theorem State.setLaunch_answers (l : Nat) (x : Launch) : (s.setLaunch l x).answers = s.answers := rfl
@[simp] theorem State.setLaunch_freeCtr (l : Nat) (x : Launch) : (s.setLaunch l x).freeCtr = s.freeCtr := rfl

/-! ### setCluster -/

@[simp] theorem State.setCluster_cores (n : Nat) (x : Cluster) : (s.setCluster n x).cores = s.cores := rfl
@[simp] theorem State.setCluster_walks (n : Nat) (x : Cluster) : (s.setCluster n x).walks = s.walks := rfl
@[simp] theorem State.setCluster_mem (n : Nat) (x : Cluster) : (s.setCluster n x).mem = s.mem := rfl
@[simp] theorem State.setCluster_badMem (n : Nat) (x : Cluster) : (s.setCluster n x).badMem = s.badMem := rfl
@[simp] theorem State.setCluster_lines (n : Nat) (x : Cluster) : (s.setCluster n x).lines = s.lines := rfl
@[simp] theorem State.setCluster_launches (n : Nat) (x : Cluster) : (s.setCluster n x).launches = s.launches := rfl
@[simp] theorem State.setCluster_starter (n : Nat) (x : Cluster) : (s.setCluster n x).starter = s.starter := rfl
@[simp] theorem State.setCluster_xputs (n : Nat) (x : Cluster) : (s.setCluster n x).xputs = s.xputs := rfl
@[simp] theorem State.setCluster_batons (n : Nat) (x : Cluster) : (s.setCluster n x).batons = s.batons := rfl
@[simp] theorem State.setCluster_express (n : Nat) (x : Cluster) : (s.setCluster n x).express = s.express := rfl
@[simp] theorem State.setCluster_ingress (n : Nat) (x : Cluster) : (s.setCluster n x).ingress = s.ingress := rfl
@[simp] theorem State.setCluster_clusters (n : Nat) (x : Cluster) : (s.setCluster n x).clusters = set {} n x s.clusters := rfl
@[simp] theorem State.setCluster_noc (n : Nat) (x : Cluster) : (s.setCluster n x).noc = s.noc := rfl
@[simp] theorem State.setCluster_mgmt (n : Nat) (x : Cluster) : (s.setCluster n x).mgmt = s.mgmt := rfl
@[simp] theorem State.setCluster_clock (n : Nat) (x : Cluster) : (s.setCluster n x).clock = s.clock := rfl
@[simp] theorem State.setCluster_turn (n : Nat) (x : Cluster) : (s.setCluster n x).turn = s.turn := rfl
@[simp] theorem State.setCluster_agenda (n : Nat) (x : Cluster) : (s.setCluster n x).agenda = s.agenda := rfl
@[simp] theorem State.setCluster_together (n : Nat) (x : Cluster) : (s.setCluster n x).together = s.together := rfl
@[simp] theorem State.setCluster_answers (n : Nat) (x : Cluster) : (s.setCluster n x).answers = s.answers := rfl
@[simp] theorem State.setCluster_freeCtr (n : Nat) (x : Cluster) : (s.setCluster n x).freeCtr = s.freeCtr := rfl

/-! ### modMgmt -/

@[simp] theorem State.modMgmt_cores (f : Mgmt → Mgmt) : (s.modMgmt f).cores = s.cores := rfl
@[simp] theorem State.modMgmt_walks (f : Mgmt → Mgmt) : (s.modMgmt f).walks = s.walks := rfl
@[simp] theorem State.modMgmt_mem (f : Mgmt → Mgmt) : (s.modMgmt f).mem = s.mem := rfl
@[simp] theorem State.modMgmt_badMem (f : Mgmt → Mgmt) : (s.modMgmt f).badMem = s.badMem := rfl
@[simp] theorem State.modMgmt_lines (f : Mgmt → Mgmt) : (s.modMgmt f).lines = s.lines := rfl
@[simp] theorem State.modMgmt_launches (f : Mgmt → Mgmt) : (s.modMgmt f).launches = s.launches := rfl
@[simp] theorem State.modMgmt_starter (f : Mgmt → Mgmt) : (s.modMgmt f).starter = s.starter := rfl
@[simp] theorem State.modMgmt_xputs (f : Mgmt → Mgmt) : (s.modMgmt f).xputs = s.xputs := rfl
@[simp] theorem State.modMgmt_batons (f : Mgmt → Mgmt) : (s.modMgmt f).batons = s.batons := rfl
@[simp] theorem State.modMgmt_express (f : Mgmt → Mgmt) : (s.modMgmt f).express = s.express := rfl
@[simp] theorem State.modMgmt_ingress (f : Mgmt → Mgmt) : (s.modMgmt f).ingress = s.ingress := rfl
@[simp] theorem State.modMgmt_clusters (f : Mgmt → Mgmt) : (s.modMgmt f).clusters = s.clusters := rfl
@[simp] theorem State.modMgmt_noc (f : Mgmt → Mgmt) : (s.modMgmt f).noc = s.noc := rfl
@[simp] theorem State.modMgmt_mgmt (f : Mgmt → Mgmt) : (s.modMgmt f).mgmt = f s.mgmt := rfl
@[simp] theorem State.modMgmt_clock (f : Mgmt → Mgmt) : (s.modMgmt f).clock = s.clock := rfl
@[simp] theorem State.modMgmt_turn (f : Mgmt → Mgmt) : (s.modMgmt f).turn = s.turn := rfl
@[simp] theorem State.modMgmt_agenda (f : Mgmt → Mgmt) : (s.modMgmt f).agenda = s.agenda := rfl
@[simp] theorem State.modMgmt_together (f : Mgmt → Mgmt) : (s.modMgmt f).together = s.together := rfl
@[simp] theorem State.modMgmt_answers (f : Mgmt → Mgmt) : (s.modMgmt f).answers = s.answers := rfl
@[simp] theorem State.modMgmt_freeCtr (f : Mgmt → Mgmt) : (s.modMgmt f).freeCtr = s.freeCtr := rfl

/-! ### modLaunch and modIssue -/

@[simp] theorem State.modLaunch_cores (l : Nat) (f : Launch → Launch) : (s.modLaunch l f).cores = s.cores := by
  unfold State.modLaunch; split <;> rfl
@[simp] theorem State.modLaunch_walks (l : Nat) (f : Launch → Launch) : (s.modLaunch l f).walks = s.walks := by
  unfold State.modLaunch; split <;> rfl
@[simp] theorem State.modLaunch_mem (l : Nat) (f : Launch → Launch) : (s.modLaunch l f).mem = s.mem := by
  unfold State.modLaunch; split <;> rfl
@[simp] theorem State.modLaunch_badMem (l : Nat) (f : Launch → Launch) : (s.modLaunch l f).badMem = s.badMem := by
  unfold State.modLaunch; split <;> rfl
@[simp] theorem State.modLaunch_lines (l : Nat) (f : Launch → Launch) : (s.modLaunch l f).lines = s.lines := by
  unfold State.modLaunch; split <;> rfl
@[simp] theorem State.modLaunch_starter (l : Nat) (f : Launch → Launch) : (s.modLaunch l f).starter = s.starter := by
  unfold State.modLaunch; split <;> rfl
@[simp] theorem State.modLaunch_xputs (l : Nat) (f : Launch → Launch) : (s.modLaunch l f).xputs = s.xputs := by
  unfold State.modLaunch; split <;> rfl
@[simp] theorem State.modLaunch_batons (l : Nat) (f : Launch → Launch) : (s.modLaunch l f).batons = s.batons := by
  unfold State.modLaunch; split <;> rfl
@[simp] theorem State.modLaunch_express (l : Nat) (f : Launch → Launch) : (s.modLaunch l f).express = s.express := by
  unfold State.modLaunch; split <;> rfl
@[simp] theorem State.modLaunch_ingress (l : Nat) (f : Launch → Launch) : (s.modLaunch l f).ingress = s.ingress := by
  unfold State.modLaunch; split <;> rfl
@[simp] theorem State.modLaunch_clusters (l : Nat) (f : Launch → Launch) : (s.modLaunch l f).clusters = s.clusters := by
  unfold State.modLaunch; split <;> rfl
@[simp] theorem State.modLaunch_noc (l : Nat) (f : Launch → Launch) : (s.modLaunch l f).noc = s.noc := by
  unfold State.modLaunch; split <;> rfl
@[simp] theorem State.modLaunch_mgmt (l : Nat) (f : Launch → Launch) : (s.modLaunch l f).mgmt = s.mgmt := by
  unfold State.modLaunch; split <;> rfl
@[simp] theorem State.modLaunch_clock (l : Nat) (f : Launch → Launch) : (s.modLaunch l f).clock = s.clock := by
  unfold State.modLaunch; split <;> rfl
@[simp] theorem State.modLaunch_turn (l : Nat) (f : Launch → Launch) : (s.modLaunch l f).turn = s.turn := by
  unfold State.modLaunch; split <;> rfl
@[simp] theorem State.modLaunch_agenda (l : Nat) (f : Launch → Launch) : (s.modLaunch l f).agenda = s.agenda := by
  unfold State.modLaunch; split <;> rfl
@[simp] theorem State.modLaunch_together (l : Nat) (f : Launch → Launch) : (s.modLaunch l f).together = s.together := by
  unfold State.modLaunch; split <;> rfl
@[simp] theorem State.modLaunch_answers (l : Nat) (f : Launch → Launch) : (s.modLaunch l f).answers = s.answers := by
  unfold State.modLaunch; split <;> rfl
@[simp] theorem State.modLaunch_freeCtr (l : Nat) (f : Launch → Launch) : (s.modLaunch l f).freeCtr = s.freeCtr := by
  unfold State.modLaunch; split <;> rfl

/-! ### Parts read back -/

@[simp] theorem State.core_setCore_same (c : Nat) (x : Core) : (s.setCore c x).core c = x := by simp [State.core]

theorem State.core_setCore_other {a c : Nat} (h : a ≠ c) (x : Core) : (s.setCore c x).core a = s.core a := by
  simp [State.core, get_set_other _ h]

@[simp] theorem Core.ctx_setCtx_same (x : Core) (k : Nat) (y : Ctx) : (x.setCtx k y).ctx k = y := by
  simp [Core.ctx, Core.setCtx]

theorem Core.ctx_setCtx_other (x : Core) {a k : Nat} (h : a ≠ k) (y : Ctx) : (x.setCtx k y).ctx a = x.ctx a := by
  simp [Core.ctx, Core.setCtx, get_set_other _ h]

@[simp] theorem Core.cell_setCtx (x : Core) (k n : Nat) (y : Ctx) : (x.setCtx k y).cell n = x.cell n := rfl

@[simp] theorem Core.cell_setCell_same (x : Core) (n : Nat) (y : Cell) : (x.setCell n y).cell n = y := by
  simp [Core.cell, Core.setCell]

theorem Core.cell_setCell_other (x : Core) {a n : Nat} (h : a ≠ n) (y : Cell) : (x.setCell n y).cell a = x.cell a := by
  simp [Core.cell, Core.setCell, get_set_other _ h]

@[simp] theorem Core.ctx_setCell (x : Core) (n k : Nat) (y : Cell) : (x.setCell n y).ctx k = x.ctx k := rfl

@[simp] theorem State.ctxAt_setCtxAt_same (c k : Nat) (y : Ctx) : (s.setCtxAt c k y).ctxAt c k = y := by
  simp [State.ctxAt, State.setCtxAt]

@[simp] theorem State.ctxAt_modCtxAt_same (c k : Nat) (f : Ctx → Ctx) :
    (s.modCtxAt c k f).ctxAt c k = f (s.ctxAt c k) := by simp [State.modCtxAt]

theorem State.ctxAt_setCtxAt_other {c k a b : Nat} (h : ¬ (a = c ∧ b = k)) (y : Ctx) :
    (s.setCtxAt c k y).ctxAt a b = s.ctxAt a b := by
  by_cases hc : a = c
  · subst hc
    have hb : b ≠ k := fun e => h ⟨rfl, e⟩
    simp [State.ctxAt, State.setCtxAt, Core.ctx_setCtx_other _ hb]
  · simp [State.ctxAt, State.setCtxAt, State.core_setCore_other _ hc]

@[simp] theorem State.cx_setCx (y : Ctx) : (s.setCx y).cx = y := by
  simp [State.cx, State.setCx]

@[simp] theorem State.cx_modCx (f : Ctx → Ctx) : (s.modCx f).cx = f s.cx := by simp [State.modCx]

@[simp] theorem State.cc_modCore (f : Core → Core) : (s.modCore f).cc = f s.cc := by
  simp [State.cc, State.modCore]

@[simp] theorem State.cx_modCore (f : Core → Core) : (s.modCore f).cx = (f s.cc).ctx s.turn.ctx := by
  simp [State.cx, State.ctxAt, State.modCore, State.cc]

theorem State.core_modCx_other {a : Nat} (h : a ≠ s.turn.core) (f : Ctx → Ctx) : (s.modCx f).core a = s.core a := by
  simp [State.modCx, State.setCx, State.setCtxAt, State.core_setCore_other _ h]

@[simp] theorem State.cell_modCx (f : Ctx → Ctx) (n : Nat) : (s.modCx f).cc.cell n = s.cc.cell n := by
  simp [State.modCx, State.setCx, State.setCtxAt, State.cc]

@[simp] theorem State.cmem_modCx (f : Ctx → Ctx) (c : Nat) : ((s.modCx f).core c).cmem = (s.core c).cmem := by
  by_cases h : c = s.turn.core
  · subst h; simp [State.modCx, State.setCx, State.setCtxAt, Core.setCtx]
  · rw [State.core_modCx_other _ h]

theorem set_set_same {β : Type} [DecidableEq β] (d : β) (n : Nat) (v w : β) (m : SMap β) :
    set d n w (set d n v m) = set d n w m := by
  have hd : drop n (set d n v m) = drop n m := by
    unfold set
    split
    · exact drop_drop n m
    · exact drop_put n v m
  simp only [set]
  split <;> simp_all [set]
where
  drop_drop {β : Type} (n : Nat) (m : SMap β) : drop n (drop n m) = drop n m := by
    induction m with
    | nil => rfl
    | cons p r ih =>
      obtain ⟨k, v⟩ := p
      by_cases h : k = n <;> simp [drop, h, ih]
  drop_put {β : Type} (n : Nat) (v : β) (m : SMap β) : drop n (put n v (drop n m)) = drop n m := by
    induction m with
    | nil => simp [drop, put]
    | cons p r ih =>
      obtain ⟨k, w⟩ := p
      by_cases h : k = n
      · simp [drop, h, ih]
      · by_cases hl : n < k
        · simp [drop, put, h, hl, drop_drop]
        · simp [drop, put, h, hl, ih]

@[simp] theorem Core.setCtx_setCtx (x : Core) (k : Nat) (y z : Ctx) : (x.setCtx k y).setCtx k z = x.setCtx k z := by
  simp [Core.setCtx, set_set_same]

@[simp] theorem State.setCore_setCore (c : Nat) (x y : Core) : (s.setCore c x).setCore c y = s.setCore c y := by
  simp [State.setCore, set_set_same]

@[simp] theorem State.setCx_setCx (y z : Ctx) : (s.setCx y).setCx z = s.setCx z := by
  simp [State.setCx, State.setCtxAt]

/-- Two changes of the current context in turn are one. -/
@[simp] theorem State.modCx_modCx (f g : Ctx → Ctx) : (s.modCx f).modCx g = s.modCx fun x => g (f x) := by
  simp [State.modCx]

/-! ### Registers (R7) -/

@[simp] theorem Ctx.greg_zero (x : Ctx) : x.greg 0 = 0 := rfl
@[simp] theorem Ctx.preg_zero (x : Ctx) : x.preg 0 = true := rfl

/-- A register reads what landed on it; g0 keeps reading zero. -/
theorem Ctx.greg_writeReg (x : Ctx) (n : Nat) (v : Word) (m : Nat) :
    (x.writeReg .g n v).greg m = if m = 0 then 0 else if m = n then v else x.greg m := by
  by_cases hm : m = 0
  · simp [Ctx.greg, hm]
  · by_cases hn : n = 0
    · subst hn; simp [Ctx.greg, Ctx.writeReg, hm]
    · simp [Ctx.greg, Ctx.writeReg, hm, hn, get_set]

theorem Ctx.preg_writeReg (x : Ctx) (n : Nat) (v : Word) (m : Nat) :
    (x.writeReg .p n v).preg m = if m = 0 then true else if m = n then v != 0 else x.preg m := by
  by_cases hm : m = 0
  · simp [Ctx.preg, hm]
  · by_cases hn : n = 0
    · subst hn; simp [Ctx.preg, Ctx.writeReg, hm]
    · simp [Ctx.preg, Ctx.writeReg, hm, hn, get_set]

theorem Ctx.lapReg_writeReg (x : Ctx) (n : Nat) (v : Word) (m : Nat) :
    (x.writeReg .lap n v).lapReg m = if m = n then v else x.lapReg m := by
  simp [Ctx.lapReg, Ctx.writeReg, get_set]

/-- All that a landing on one register file does: the other files and everything else stay. -/
theorem Ctx.writeReg_frame (x : Ctx) (k : LReg) (n : Nat) (v : Word) :
    ∃ g p lap, x.writeReg k n v = { x with g := g, p := p, lap := lap } ∧
      (k ≠ .g → g = x.g) ∧ (k ≠ .p → p = x.p) ∧ (k ≠ .lap → lap = x.lap) := by
  cases k <;> simp only [Ctx.writeReg]
  · split
    · exact ⟨x.g, x.p, x.lap, rfl, by simp⟩
    · exact ⟨_, x.p, x.lap, rfl, by simp⟩
  · split
    · exact ⟨x.g, x.p, x.lap, rfl, by simp⟩
    · exact ⟨x.g, _, x.lap, rfl, by simp⟩
  · exact ⟨x.g, x.p, _, rfl, by simp⟩

/-- Scheduling a result touches the landing buffer alone. -/
theorem Ctx.landAt_eq (x : Ctx) (k : LReg) (n : Nat) (v : Word) (lat : Nat) :
    x.landAt k n v lat =
      { x with land := if discarded k n then x.land else x.land ++ [⟨k, n, v, x.vt + lat⟩] } := by
  unfold Ctx.landAt; split <;> rfl

@[simp] theorem Ctx.landAt_land (x : Ctx) (k : LReg) (n : Nat) (v : Word) (lat : Nat) :
    (x.landAt k n v lat).land = if discarded k n then x.land else x.land ++ [⟨k, n, v, x.vt + lat⟩] := by
  rw [Ctx.landAt_eq]

@[simp] theorem Ctx.landAt_issue (x : Ctx) (k : LReg) (n : Nat) (v : Word) (lat : Nat) :
    (x.landAt k n v lat).issue = x.issue := by rw [Ctx.landAt_eq]

end Sys2Proof.Machine
end

