-- ==== Sys2Proof/Laws/Slots.lean ====
section
/-! SUPPORT. What running a slot in a checked bundle does, said once (R49, R68 to R71, R412). -/

namespace Sys2Proof.Machine

variable {s : State} {i : Issue} {m : Meaning}

/-- A slot of a checked bundle acts where its predicate is true, and is complete without effect where it is false. -/
theorem State.run_checked (hi : s.cx.issue = some i) (hc : i.checked = true) :
    s.run m = .next (if m.taken then s.act m else s.complete) := by
  simp [State.run, State.checkPassed, hi, hc]

/-- A slot that is complete. -/
theorem State.complete_of (hi : s.cx.issue = some i) :
    s.complete = s.setCx { s.cx with issue := some { i with done := setField i.done s.turn.slot 1 1 } } := by
  simp [State.complete, hi, State.modCx]

/-- A slot whose effect changes the context alone, and leaves the bundle in issue as it is. -/
theorem State.act_modCx {f : Ctx → Ctx} (hi : (f s.cx).issue = some i) (hl : i.late = none) (he : m.effect s = s.modCx f) :
    s.act m = s.setCx { f s.cx with issue := some { i with done := setField i.done s.turn.slot 1 1 } } := by
  simp [State.act, he, State.completeUnless, hi, hl, State.complete, State.modCx]

/-- A slot whose effect is over without a fault is complete. -/
theorem State.act_of {t : State} (he : m.effect s = t) (hi : t.cx.issue = some i) (hl : i.late = none) :
    s.act m = t.setCx { t.cx with issue := some { i with done := setField i.done t.turn.slot 1 1 } } := by
  simp [State.act, he, State.completeUnless, hi, hl, State.complete, State.modCx]

/-- A slot that changes nothing but its completion. -/
theorem State.act_id (hi : s.cx.issue = some i) (hl : i.late = none) (he : m.effect s = s) : s.act m = s.complete := by
  simp [State.act, he, State.completeUnless, hi, hl]

/-- Every slot instruction but NOP, which does nothing, is run by its meaning. -/
theorem exec_slot {x : Instr} (h : slotMeaning x s = some m) : exec x s = s.run m := by
  cases x <;> simp only [slotMeaning, Option.some.injEq, reduceCtorEq] at h <;> subst h <;> rfl

end Sys2Proof.Machine
end

