-- ==== Sys2Proof/Laws/Cells.lean ====
section
/-! SUPPORT. What a cell instruction of a checked bundle does, said once (R129 to R142): its results enter the queues of
the selected cells, and nothing else changes but the towers' bookkeeping and the bundle in issue. -/

namespace Sys2Proof.Machine

/-- Two cores that differ in nothing that a cell instruction reads: their cells but for the towers, the rows, CMEM. -/
structure Core.Like (k k0 : Core) : Prop where
  cell : ∀ n, k.cell n = { k0.cell n with tower := (k.cell n).tower }
  row : ∀ n r, k.towerRow n r = k0.towerRow n r
  cmem : k.cmem = k0.cmem
  remap : k.remap = k0.remap

theorem Core.Like.refl (k : Core) : k.Like k := ⟨fun _ => rfl, fun _ _ => rfl, rfl, rfl⟩

theorem Core.Like.trans {a b c : Core} (h : a.Like b) (h' : b.Like c) : a.Like c where
  cell n := by rw [h.cell n, h'.cell n]
  row n r := (h.row n r).trans (h'.row n r)
  cmem := h.cmem.trans h'.cmem
  remap := h.remap.trans h'.remap

@[simp] theorem Tower.touchAll_rows (t : Tower) (clk : Nat) (gs : List Nat) : (t.touchAll clk gs).rows = t.rows := rfl

@[simp] theorem Tower.serve_rows (t : Tower) (clk r : Nat) : (t.serve clk r).rows = t.rows := by
  unfold Tower.serve Tower.touchAll; split <;> rfl

theorem Core.cell_setCell (k : Core) (n m : Nat) (y : Cell) : (k.setCell n y).cell m = if m = n then y else k.cell m := by
  simp [Core.setCell, Core.cell, get_set]

/-- Putting back a tower with the same rows keeps all that is read. -/
theorem Core.like_setTower {k : Core} {n : Nat} {t : Tower} (h : t.rows = (k.tower n).rows) : (k.setTower n t).Like k := by
  unfold Core.setTower
  by_cases hs : k.usesSpare n = true
  · simp only [hs, if_true]
    simp only [Core.tower, hs, if_true, Core.spare] at h
    refine ⟨fun _ => rfl, fun m r => ?_, rfl, rfl⟩
    have hu : Core.usesSpare { k with spares := set .offSpare (n / 16) t k.spares } m = k.usesSpare m := rfl
    simp only [Core.towerRow, Core.tower, hu, Core.spare, get_set, Tower.row]
    by_cases hm : k.usesSpare m = true
    · by_cases e : m / 16 = n / 16
      · simp [hm, e, h]
      · simp [hm, e]
    · simp [hm, Core.cell]
  · rw [if_neg hs]
    simp only [Core.tower, hs] at h
    refine ⟨fun m => ?_, fun m r => ?_, rfl, rfl⟩
    · rw [Core.cell_setCell]
      split
      · rename_i e; subst e; rfl
      · rfl
    · have hu : (k.setCell n { k.cell n with tower := t }).usesSpare m = k.usesSpare m := rfl
      show ((Core.setCell _ _ _).tower m).row r = (k.tower m).row r
      simp only [Core.tower, hu, Core.cell_setCell]
      by_cases hm : k.usesSpare m = true
      · simp [hm, Core.setCell, Core.spare]
      · by_cases e : m = n
        · subst e; simp only [hm, if_true, Tower.row]; simp at h; simp [h]
        · simp [hm, e]

/-- Counting a corrected error changes the core's error records only. -/
theorem Core.countCorr_eq (k : Core) (u : ErrUnit) (clk : Nat) :
    ∃ w es ts, k.countCorr u clk = { k with errcnt := w, errs := es, tests := ts } := by
  unfold Core.countCorr; split <;> exact ⟨_, _, _, rfl⟩

theorem Core.like_countCorr (k : Core) (u : ErrUnit) (clk : Nat) : (k.countCorr u clk).Like k := by
  obtain ⟨w, es, ts, h⟩ := k.countCorr_eq u clk
  rw [h]; exact ⟨fun _ => rfl, fun _ _ => rfl, rfl, rfl⟩

@[simp] theorem Core.ctxs_countCorr (k : Core) (u : ErrUnit) (clk : Nat) : (k.countCorr u clk).ctxs = k.ctxs := by
  obtain ⟨w, es, ts, h⟩ := k.countCorr_eq u clk
  rw [h]

@[simp] theorem Core.cell_countCorr (k : Core) (u : ErrUnit) (clk n : Nat) : (k.countCorr u clk).cell n = k.cell n := by
  obtain ⟨w, es, ts, h⟩ := k.countCorr_eq u clk
  rw [h]; rfl

theorem Core.like_serveRow (k : Core) (clk c r : Nat) : (k.serveRow clk c r).Like k := by
  have h : (k.setTower c ((k.tower c).serve clk r)).Like k := Core.like_setTower (by simp)
  unfold Core.serveRow
  simp only
  split
  · exact (Core.like_countCorr _ _ _).trans h
  · exact h

theorem Core.like_serveRows (clk c : Nat) (rs : List RowRead) :
    ∀ (k : Core) (seen : List Nat), (k.serveRows clk c seen rs).Like k := by
  induction rs with
  | nil => exact fun k _ => Core.Like.refl k
  | cons r rs ih =>
    intro k seen
    have h := Core.like_serveRow k clk c r.row
    simp only [Core.serveRows]
    repeat' split
    · exact ((ih _ _).trans (Core.like_setTower (by simp))).trans h
    · exact (ih _ _).trans h
    · exact (ih _ _).trans h

theorem Core.ctxs_setTower (k : Core) (n : Nat) (t : Tower) : (k.setTower n t).ctxs = k.ctxs := by
  unfold Core.setTower; split <;> rfl

theorem Core.ctxs_serveRow (k : Core) (clk c r : Nat) : (k.serveRow clk c r).ctxs = k.ctxs := by
  unfold Core.serveRow; simp only; split <;> simp [Core.ctxs_setTower]

theorem Core.ctxs_serveRows (clk c : Nat) (rs : List RowRead) :
    ∀ (k : Core) (seen : List Nat), (k.serveRows clk c seen rs).ctxs = k.ctxs := by
  induction rs with
  | nil => exact fun k _ => rfl
  | cons r rs ih =>
    intro k seen
    simp only [Core.serveRows]
    repeat' split
    all_goals simp [ih, Core.ctxs_setTower, Core.ctxs_serveRow]

/-- Serving cell after cell. -/
theorem Core.like_serveFold (clk : Nat) (seen : Core → Nat → List Nat) (rd : Nat → List RowRead) (cs : List Nat) (k : Core) :
    (cs.foldl (fun k c => k.serveRows clk c (seen k c) (rd c)) k).Like k := by
  induction cs generalizing k with
  | nil => exact Core.Like.refl k
  | cons c cs ih => exact (ih _).trans (Core.like_serveRows clk c (rd c) k (seen k c))

theorem Core.ctxs_serveFold (clk : Nat) (seen : Core → Nat → List Nat) (rd : Nat → List RowRead) (cs : List Nat) (k : Core) :
    (cs.foldl (fun k c => k.serveRows clk c (seen k c) (rd c)) k).ctxs = k.ctxs := by
  induction cs generalizing k with
  | nil => rfl
  | cons c cs ih => exact (ih _).trans (Core.ctxs_serveRows clk c (rd c) k (seen k c))

theorem Core.cell_setTower_ne {k : Core} {n m : Nat} (h : m ≠ n) (t : Tower) : (k.setTower n t).cell m = k.cell m := by
  unfold Core.setTower
  split
  · rfl
  · simp [Core.cell_setCell, h]

theorem Core.cell_serveRow_ne {k : Core} {c m : Nat} (h : m ≠ c) (clk r : Nat) : (k.serveRow clk c r).cell m = k.cell m := by
  unfold Core.serveRow
  simp only
  split
  · rw [Core.cell_countCorr]; exact Core.cell_setTower_ne h _
  · exact Core.cell_setTower_ne h _

theorem Core.cell_serveRows_ne {c m : Nat} (h : m ≠ c) (clk : Nat) (rs : List RowRead) :
    ∀ (k : Core) (seen : List Nat), (k.serveRows clk c seen rs).cell m = k.cell m := by
  induction rs with
  | nil => exact fun _ _ => rfl
  | cons r rs ih =>
    intro k seen
    simp only [Core.serveRows]
    repeat' split
    · rw [ih, Core.cell_setTower_ne h, Core.cell_serveRow_ne h]
    · rw [ih, Core.cell_serveRow_ne h]
    · rw [ih, Core.cell_serveRow_ne h]

/-- A cell that is not served is untouched. -/
theorem Core.cell_serveFold_ne (clk : Nat) (seen : Core → Nat → List Nat) (rd : Nat → List RowRead) {m : Nat} (cs : List Nat)
    (h : m ∉ cs) (k : Core) :
    (cs.foldl (fun k c => k.serveRows clk c (seen k c) (rd c)) k).cell m = k.cell m := by
  induction cs generalizing k with
  | nil => rfl
  | cons c cs ih =>
    simp only [List.mem_cons, not_or] at h
    simp only [List.foldl_cons]
    rw [ih h.2, Core.cell_serveRows_ne h.1]

/-- Giving cells their results one by one. -/
theorem Core.cell_acceptAll (out : Nat → CellOut) {m : Nat} (cs : List Nat) (hn : cs.Nodup) (k : Core) :
    ((cs.map fun c => (c, out c)).foldl (fun (k : Core) r => k.setCell r.1 ((k.cell r.1).accept r.2)) k).cell m =
      if m ∈ cs then (k.cell m).accept (out m) else k.cell m := by
  induction cs generalizing k with
  | nil => simp
  | cons c cs ih =>
    have hc := List.nodup_cons.1 hn
    simp only [List.map_cons, List.foldl_cons]
    rw [ih hc.2, Core.cell_setCell]
    by_cases e : m = c
    · subst e; simp [hc.1]
    · simp [e]

theorem Core.keeps_acceptAll (out : Nat → CellOut) (hnow : ∀ c y, ((out c).now y).tower = y.tower) (cs : List Nat) (k : Core) :
    let k' := (cs.map fun c => (c, out c)).foldl (fun (k : Core) r => k.setCell r.1 ((k.cell r.1).accept r.2)) k
    k'.ctxs = k.ctxs ∧ k'.cmem = k.cmem ∧ ∀ n r, k'.towerRow n r = k.towerRow n r := by
  induction cs generalizing k with
  | nil => exact ⟨rfl, rfl, fun _ _ => rfl⟩
  | cons c cs ih =>
    obtain ⟨h1, h2, h3⟩ := ih (k.setCell c ((k.cell c).accept (out c)))
    refine ⟨h1, h2, fun n r => (h3 n r).trans ?_⟩
    simp only [Core.towerRow, Core.tower, Core.cell_setCell]
    have hu : (k.setCell c ((k.cell c).accept (out c))).usesSpare n = k.usesSpare n := rfl
    rw [hu]
    split
    · rfl
    · split
      · rename_i e; subst e; simp [Cell.accept, hnow]
      · rfl

theorem cellsOf_nodup (sq : BitVec 4) : (cellsOf sq).Nodup := List.Nodup.filter _ List.nodup_range

theorem mem_cellsOf {sq : BitVec 4} {n : Nat} : n ∈ cellsOf sq ↔ n < 256 ∧ bit sq (squadOf n) = true := by
  simp [cellsOf]

theorem State.cc_modCx (s : State) (f : Ctx → Ctx) :
    (s.modCx f).cc = { s.cc with ctxs := set {} s.turn.ctx (f s.cx) s.cc.ctxs } := by
  simp [State.modCx, State.setCx, State.setCtxAt, State.cc, State.core, State.setCore, Core.setCtx]

/-- How a slot may change its bundle while it acts: more numeric events, a watchpoint noted. -/
def Issue.Noted (i j : Issue) : Prop := ∃ r w, j = { i with raises := r, watch := w }

/-- What stays while a cell instruction acts, but for the cells it changes. -/
structure State.NotedFrom (t s : State) (i : Issue) : Prop where
  cx : ∃ j, i.Noted j ∧ t.cx = { s.cx with issue := some j }
  mem : t.mem = s.mem
  express : t.express = s.express
  turn : t.turn = s.turn
  cmem : t.cc.cmem = s.cc.cmem
  row : ∀ n r, t.cc.towerRow n r = s.cc.towerRow n r

theorem State.noted_refl {s : State} {i : Issue} (hi : s.cx.issue = some i) : s.NotedFrom s i :=
  ⟨⟨i, ⟨i.raises, i.watch, rfl⟩, by rw [← hi]⟩, rfl, rfl, rfl, rfl, fun _ _ => rfl⟩

/-- Another note in the bundle. -/
theorem State.NotedFrom.note {s t : State} {i : Issue} (h : t.NotedFrom s i) {f : Ctx → Ctx}
    (hf : ∀ j, t.cx.issue = some j → ∃ j', j.Noted j' ∧ f t.cx = { t.cx with issue := some j' }) :
    (t.modCx f).NotedFrom s i ∧ (t.modCx f).cc.Like t.cc := by
  obtain ⟨j, ⟨r, w, rfl⟩, hj⟩ := h.cx
  obtain ⟨j', ⟨r', w', rfl⟩, hf⟩ := hf _ (by rw [hj])
  have hl : (t.modCx f).cc.Like t.cc := by
    rw [State.cc_modCx]; exact ⟨fun _ => rfl, fun _ _ => rfl, rfl, rfl⟩
  refine ⟨⟨⟨_, ⟨r', w', rfl⟩, ?_⟩, h.mem, h.express, h.turn, hl.cmem.trans h.cmem, fun n r => (hl.row n r).trans (h.row n r)⟩, hl⟩
  rw [State.cx_modCx, hf, hj]

theorem Ctx.noteWatch_noted (n : Nat) (w : Word) (x : Ctx) (i : Issue) (hi : x.issue = some i) :
    ∃ j, i.Noted j ∧ x.noteWatch n w = { x with issue := some j } := by
  unfold Ctx.noteWatch
  rw [hi]
  exact ⟨_, ⟨i.raises, _, rfl⟩, rfl⟩

theorem State.NotedFrom.watchCells {s t : State} {i : Issue} (h : t.NotedFrom s i) (kind : Nat) (acc : List (Nat × Nat)) :
    (t.watchCells kind acc).NotedFrom s i ∧ (t.watchCells kind acc).cc.Like t.cc ∧
      ∀ n, (t.watchCells kind acc).cc.cell n = t.cc.cell n := by
  unfold State.watchCells
  split
  · rename_i w _
    have := h.note (f := fun x => x.noteWatch 3 w) fun j => Ctx.noteWatch_noted 3 w t.cx j
    exact ⟨this.1, this.2, fun n => by rw [State.cc_modCx]; rfl⟩
  · exact ⟨h, Core.Like.refl _, fun _ => rfl⟩

theorem State.NotedFrom.raise {s t : State} {i : Issue} (h : t.NotedFrom s i) (evs : List CellEv) :
    (t.raise evs).NotedFrom s i ∧ (t.raise evs).cc.Like t.cc ∧ ∀ n, (t.raise evs).cc.cell n = t.cc.cell n := by
  unfold State.raise
  split
  · exact ⟨h, Core.Like.refl _, fun _ => rfl⟩
  · obtain ⟨j, ⟨r, w, rfl⟩, hj⟩ := h.cx
    have hi : t.cx.issue = some { i with raises := r, watch := w } := by rw [hj]
    rw [hi]
    have := h.note (f := fun x => { x with issue := some { i with raises := r ++ [⟨t.turn.slot, evs⟩], watch := w } }) ?_
    · exact ⟨this.1, this.2, fun n => by rw [State.cc_modCx]; rfl⟩
    · intro j e
      rw [hi] at e
      obtain rfl := (Option.some.inj e).symm
      exact ⟨_, ⟨_, w, rfl⟩, rfl⟩

theorem State.NotedFrom.modCore {s t : State} {i : Issue} (h : t.NotedFrom s i) {f : Core → Core}
    (hx : (f t.cc).ctxs = t.cc.ctxs) (hm : (f t.cc).cmem = t.cc.cmem)
    (hr : ∀ n r, (f t.cc).towerRow n r = t.cc.towerRow n r) : (t.modCore f).NotedFrom s i := by
  have hcx : (t.modCore f).cx = t.cx := by
    rw [State.cx_modCore]; simp only [Core.ctx, hx]; rfl
  refine ⟨by rw [hcx]; exact h.cx, h.mem, h.express, h.turn, ?_, ?_⟩
  · rw [State.cc_modCore, hm]; exact h.cmem
  · intro n r; rw [State.cc_modCore, hr]; exact h.row n r

theorem State.NotedFrom.setCore {s t : State} {i : Issue} (h : t.NotedFrom s i) {k : Core} (hx : k.ctxs = t.cc.ctxs)
    (hm : k.cmem = t.cc.cmem) (hr : ∀ n r, k.towerRow n r = t.cc.towerRow n r) :
    (t.setCore t.turn.core k).NotedFrom s i ∧ (t.setCore t.turn.core k).cc = k :=
  ⟨h.modCore (f := fun _ => k) hx hm hr, State.cc_modCore (s := t) fun _ => k⟩

/-- Serving an instruction's reads. -/
theorem State.NotedFrom.serveUse {s t : State} {i : Issue} (h : t.NotedFrom s i) (u : CellUse) :
    (t.serveUse u).NotedFrom s i ∧ (t.serveUse u).cc.Like t.cc ∧
      ∀ n, n ∉ u.cells → (t.serveUse u).cc.cell n = t.cc.cell n := by
  let seen (_ : Core) (c : Nat) : List Nat := (t.cx.streamRows c t.cx.vt).map rowBank
  let rd (c : Nat) : List RowRead := ((u.reads c).filter fun r => r.1 == 0).map fun r => r.2
  have l := Core.like_serveFold t.clock seen rd u.cells t.cc
  have hx := Core.ctxs_serveFold t.clock seen rd u.cells t.cc
  have hn := fun n (hn : n ∉ u.cells) => Core.cell_serveFold_ne t.clock seen rd u.cells hn t.cc
  have e : t.serveUse u = t.modCore fun k => u.cells.foldl (fun k c => k.serveRows t.clock c (seen k c) (rd c)) k := rfl
  rw [e]
  refine ⟨h.modCore hx l.cmem l.row, ?_, ?_⟩
  · rw [State.cc_modCore]; exact l
  · intro n h'
    rw [State.cc_modCore]; exact hn n h'

/-- Giving the selected cells their results. -/
theorem State.NotedFrom.cellsDo {s t : State} {i : Issue} (h : t.NotedFrom s i) (sq : BitVec 4) {out : Core → Nat → CellOut}
    (hnow : ∀ k c y, ((out k c).now y).tower = y.tower) :
    (t.cellsDo (cellsOf sq) out).NotedFrom s i ∧
      ∀ n, (t.cellsDo (cellsOf sq) out).cc.cell n =
        if n ∈ cellsOf sq then (t.cc.cell n).accept (out t.cc n) else t.cc.cell n := by
  have hk := Core.keeps_acceptAll (out t.cc) (hnow t.cc) (cellsOf sq) t.cc
  have hc := fun n => Core.cell_acceptAll (m := n) (out t.cc) (cellsOf sq) (cellsOf_nodup sq) t.cc
  unfold State.cellsDo State.modCore
  simp only
  generalize (((cellsOf sq).map fun c => (c, out t.cc c)).map fun r => cellEvents r.1 r.2.evs).flatten = evs
  generalize ((cellsOf sq).map fun c => (c, out t.cc c)).foldl
    (fun (k : Core) r => k.setCell r.1 ((k.cell r.1).accept r.2)) t.cc = k' at hk hc ⊢
  obtain ⟨h4, e⟩ := h.setCore hk.1 hk.2.1 hk.2.2
  obtain ⟨h5, -, h6⟩ := h4.raise evs
  refine ⟨h5, fun n => ?_⟩
  rw [h6, e]
  exact hc n

/-- The slot is complete after such an effect. -/
theorem State.NotedFrom.completes {s t : State} {i : Issue} (h : t.NotedFrom s i) (hl : i.late = none) :
    (∃ j, t.completeUnless.cx = { s.cx with issue := some j } ∧ j.done = setField i.done s.turn.slot 1 1 ∧ j.late = none) ∧
    t.completeUnless.mem = s.mem ∧ t.completeUnless.express = s.express ∧ t.completeUnless.cc.cmem = s.cc.cmem ∧
    (∀ n r, t.completeUnless.cc.towerRow n r = s.cc.towerRow n r) ∧
    ∀ n, t.completeUnless.cc.cell n = t.cc.cell n := by
  obtain ⟨j, hN, hj⟩ := h.cx
  have hi : t.cx.issue = some j := by rw [hj]
  have hd : j.late = none ∧ j.done = i.done := by obtain ⟨r, w, rfl⟩ := hN; exact ⟨hl, rfl⟩
  have he : t.completeUnless = t.modCx fun _ => { t.cx with issue := some { j with done := setField j.done t.turn.slot 1 1 } } :=
    (show t.completeUnless = t.complete by simp [State.completeUnless, hi, hd.1]).trans (State.complete_of hi)
  rw [he]
  have hdone : setField j.done t.turn.slot 1 1 = setField i.done s.turn.slot 1 1 := by rw [hd.2, h.turn]
  refine ⟨⟨{ j with done := setField j.done t.turn.slot 1 1 }, ?_, hdone, hd.1⟩, h.mem, h.express, ?_, ?_, ?_⟩
  · rw [State.cx_modCx, hj]
  · rw [State.cc_modCx]; exact h.cmem
  · intro n r; rw [State.cc_modCx]; exact h.row n r
  · intro n; rw [State.cc_modCx]; rfl

/-- The outcome of a cell instruction whose reads are made at issue. -/
theorem State.run_plain {s : State} {i : Issue} (hi : s.cx.issue = some i) (hc : i.checked = true) (hl : i.late = none)
    {x : Instr} {u : CellUse} (hu : u.consumed s.cc = none) {out : Core → Nat → CellOut}
    (hnow : ∀ k c y, ((out k c).now y).tower = y.tower) :
    ∃ t k, s.run (plainSlot x u (fun s => s.cellsDo u.cells out) s) = .next t ∧ Core.Like k s.cc ∧
      ((∃ j, t.cx = { s.cx with issue := some j } ∧ j.done = setField i.done s.turn.slot 1 1 ∧ j.late = none) ∧
      t.mem = s.mem ∧ t.express = s.express ∧ t.cc.cmem = s.cc.cmem ∧ ∀ n r, t.cc.towerRow n r = s.cc.towerRow n r) ∧
      ∀ n, t.cc.cell n = if n ∈ u.cells then (k.cell n).accept (out k n) else s.cc.cell n := by
  rw [State.run_checked hi hc]
  simp only [plainSlot, cellSlot, if_true, State.act, hu]
  obtain ⟨n1, l1, c1⟩ := (State.noted_refl hi).watchCells watchRd
    (u.accesses fun c => (u.reads c).map fun r => r.2.row)
  obtain ⟨n2, l2, c2⟩ := n1.watchCells watchWr (u.accesses fun c => (u.writes c).map fun w => w.2)
  obtain ⟨n3, l3, c3⟩ := n2.serveUse u
  obtain ⟨n4, c4⟩ := n3.cellsDo u.form.sq hnow
  obtain ⟨h1, h2, h3, h4, h5, h6⟩ := n4.completes hl
  refine ⟨_, _, rfl, (l3.trans l2).trans l1, ⟨h1, h2, h3, h4, h5⟩, fun n => ?_⟩
  refine (h6 n).trans ((c4 n).trans ?_)
  by_cases hn : n ∈ cellsOf u.form.sq
  · rw [if_pos hn]; exact (if_pos hn).symm
  · rw [if_neg hn, c3 n hn, c2, c1]; exact (if_neg hn).symm

end Sys2Proof.Machine
end

