-- ==== Sys2Proof/Laws/KeepOps.lean ====
section
/-! SUPPORT. What the shared operations leave of memory: untouched, or in its canonical form. -/

namespace Sys2Proof.Machine

/-- What every step of a fold keeps, the fold keeps. -/
theorem foldl_inv {α β : Type} (P : β → Prop) (f : β → α → β) (h : ∀ b x, P b → P (f b x)) (xs : List α) (b : β)
    (hb : P b) : P (xs.foldl f b) := by
  induction xs generalizing b with
  | nil => exact hb
  | cons x xs ih => exact ih (f b x) (h b x hb)


/-- Steps that leave memory alone leave it alone in turn. -/
@[simp] theorem foldl_mem {α : Type} (f : State → α → State) (h : ∀ s x, (f s x).mem = s.mem) (xs : List α) (s : State) :
    (xs.foldl f s).mem = s.mem := by
  induction xs generalizing s with
  | nil => rfl
  | cons x xs ih => simp [ih, h]

/-- Steps that keep memory canonical keep it so in turn. -/
@[simp] theorem foldl_ok {α : Type} (f : State → α → State) (h : ∀ s x, s.mem.wf = true → (f s x).mem.wf = true) (xs : List α) (s : State)
    (hs : s.mem.wf = true) : (xs.foldl f s).mem.wf = true := by
  induction xs generalizing s with
  | nil => exact hs
  | cons x xs ih => exact ih (f s x) (h s x hs)

@[simp] theorem State.events_mem (s : State) (c : Nat) (k : Nat) (pc : CodeAddr) (slot : Nat) (vt : Word) (evs : List CellEv) : (State.events s c k pc slot vt evs).mem = s.mem := by
  unfold State.events
  rfl

@[simp] theorem State.raise_mem (s : State) (evs : List CellEv) : (State.raise s evs).mem = s.mem := by
  unfold State.raise
  (repeat' split) <;> simp

@[simp] theorem State.beginKill_mem (s : State) (l : Nat) (state : Nat) (cause : BitVec 16) : (State.beginKill s l state cause).mem = s.mem := by
  unfold State.beginKill
  split
  · rfl
  · split
    · rfl
    · rfl
    · simp only [State.modLaunch_mem]
      exact foldl_mem _ (fun s x => by simp) _ _

@[simp] theorem flushStream_mem (c : Nat) (k : Nat) (s : State) (st : Stream) : (flushStream c k s st).mem = s.mem := by
  unfold flushStream
  split <;> simp

@[simp] theorem State.flushStreams_mem (s : State) (c : Nat) (k : Nat) : (State.flushStreams s c k).mem = s.mem := by
  unfold State.flushStreams
  simp

@[simp] theorem State.launchDump_mem (s : State) (c : Nat) (l : Nat) (la : Launch) (cause : BitVec 16) : (State.launchDump s c l la cause).mem = s.mem := by
  unfold State.launchDump
  rfl

@[simp] theorem State.halt_mem (s : State) (c k : Nat) : (State.halt s c k).mem = s.mem := by
  simp [State.halt]

@[simp] theorem State.wedge_mem (s : State) (c : Nat) (k : Nat) (t : Trap) (cause : BitVec 16) : (State.wedge s c k t cause).mem = s.mem := by
  unfold State.wedge
  dsimp only
  (repeat' split) <;> simp

@[simp] theorem State.takeTrap_mem (s : State) (c : Nat) (k : Nat) (t : Trap) : (State.takeTrap s c k t).mem = s.mem := by
  unfold State.takeTrap
  dsimp only
  (repeat' split) <;> simp

@[simp] theorem State.pendCause_mem (s : State) (c : Nat) (k : Nat) (p : Pending) : (State.pendCause s c k p).mem = s.mem := by
  unfold State.pendCause
  rfl

@[simp] theorem State.noteBadOf_mem (s : State) (home c k : Nat) (b : BadAt) : (State.noteBadOf s home c k b).mem = s.mem := by
  simp [State.noteBadOf]

@[simp] theorem State.noteBad_mem (s : State) (c : Nat) (k : Nat) (b : BadAt) : (State.noteBad s c k b).mem = s.mem :=
  State.noteBadOf_mem s c c k b

@[simp] theorem State.rftFault_mem (s : State) (c : Nat) (k : Nat) (cause : BitVec 16) : (State.rftFault s c k cause).mem = s.mem := by
  unfold State.rftFault
  (repeat' split) <;> simp

@[simp] theorem State.doRft_mem (s : State) (c : Nat) (k : Nat) : (State.doRft s c k).mem = s.mem := by
  unfold State.doRft
  dsimp only
  (repeat' split) <;> simp

@[simp] theorem State.noteRace_mem (s : State) (c : Nat) (k : Nat) (cz : Cause) : (State.noteRace s c k cz).mem = s.mem := by
  unfold State.noteRace
  (repeat' split) <;> simp

@[simp] theorem State.trapIssue_mem (s : State) (cz : Cause) : (State.trapIssue s cz).mem = s.mem := by
  unfold State.trapIssue
  simp

@[simp] theorem State.complete_mem (s : State) : (State.complete s).mem = s.mem := by
  unfold State.complete
  (repeat' split) <;> simp

@[simp] theorem State.installTlb_mem (s : State) (c : Nat) (dom : Nat) (va : Nat) (x : Xlat) (path : List (Nat × Nat × Word)) : (State.installTlb s c dom va x path).mem = s.mem := by
  unfold State.installTlb
  rfl

@[simp] theorem State.drawFree_mem (s : State) : (State.drawFree s).2.mem = s.mem := by
  unfold State.drawFree
  rfl

theorem State.drawFree_pair {s : State} {t1 r1} (e1 : State.drawFree s = (r1, t1)) : t1.mem = s.mem := by
  have h := State.drawFree_mem s
  rwa [e1] at h

@[simp] theorem State.pickTables_mem (s : State) (die : Nat) (dom : Nat) (va : Nat) : (State.pickTables s die dom va).2.mem = s.mem := by
  unfold State.pickTables
  dsimp only
  split <;> simp

@[simp] theorem State.translate_mem (s : State) (a : Accessor) (va : Nat) : (State.translate s a va).2.mem = s.mem := by
  unfold State.translate
  dsimp only
  (repeat' split) <;> simp

theorem State.translate_pair {s : State} {a : Accessor} {va : Nat} {t1 r1} (e1 : State.translate s a va = (r1, t1)) : t1.mem = s.mem := by
  have h := State.translate_mem s a va
  rwa [e1] at h

@[simp] theorem State.writeMem_ok (s : State) (pa : Nat) (bs : List Byte) (hm : s.mem.wf = true) : (State.writeMem s pa bs).mem.wf = true := by
  exact writeBytes_wf hm pa bs

@[simp] theorem State.writeLoc_ok (s : State) (l : Loc) (bs : List Byte) (hm : s.mem.wf = true) : (State.writeLoc s l bs).mem.wf = true := by
  unfold State.writeLoc
  split
  · exact State.writeMem_ok s _ bs hm
  · exact hm

theorem State.recordLine_mem (s : State) (line : Nat) (isWrite : Bool) (r : LineRec) : ∀ t, (State.recordLine s line isWrite r) = .ok t → t.mem = s.mem := by
  intro t h
  unfold State.recordLine at h
  (repeat' split at h) <;> first | (cases h; rfl) | cases h

@[simp] theorem State.dropRecords_mem (s : State) (l : Nat) : (State.dropRecords s l).mem = s.mem := by
  unfold State.dropRecords
  rfl

@[simp] theorem State.translateAll_mem (s : State) (a : Accessor) (need : Need) (ps : List (Nat × Nat)) : (State.translateAll s a need ps).2.mem = s.mem := by
  unfold State.translateAll
  dsimp only
  split
  all_goals
    rename_i e
    have h := (congrArg (fun p => p.2.mem) e).symm.trans
      (foldl_inv (fun acc : Except AccErr (List (Loc × Nat × Word)) × State => acc.2.mem = s.mem) _ (by
        intro acc p h
        split
        · exact h
        · split
          · exact (State.translate_pair (by assumption)).trans h
          · exact (State.translate_pair (by assumption)).trans h) ps _ rfl)
  · exact h
  · split <;> exact h

theorem State.translateAll_pair {s : State} {a : Accessor} {need : Need} {ps : List (Nat × Nat)} {t1 r1} (e1 : State.translateAll s a need ps = (r1, t1)) : t1.mem = s.mem := by
  have h := State.translateAll_mem s a need ps
  rwa [e1] at h

theorem State.recordAll_mem (s : State) (r : Option LineRec) (isWrite : Bool) (xs : List (Loc × Nat × Word)) : ∀ t, (State.recordAll s r isWrite xs) = .ok t → t.mem = s.mem := by
  unfold State.recordAll
  split
  · intro t h
    cases h
    rfl
  · exact foldl_inv (fun acc : Except AccErr State => ∀ t, acc = .ok t → t.mem = s.mem) _ (by
      intro acc x h t e
      split at e
      · split at e
        · split at e
          · rename_i h1
            cases e
            exact (State.recordLine_mem _ _ _ _ _ h1).trans (h _ rfl)
          · cases e
        · cases e
          exact h _ rfl
      · exact h t e) xs (.ok s) (fun t e => by cases e; rfl)

@[simp] theorem State.readGlobal_mem (s : State) (w : Client) (need : Need) (va : Nat) (n : Nat) : (State.readGlobal s w need va n).2.mem = s.mem := by
  unfold State.readGlobal
  split
  · exact State.translateAll_pair (by assumption)
  · rename_i e
    have h := State.translateAll_pair e
    split
    · exact h
    · rename_i e2
      have h2 := State.recordAll_mem _ _ _ _ _ e2
      split <;> simp [h, h2]

theorem State.readGlobal_pair {s : State} {w : Client} {need : Need} {va : Nat} {n : Nat} {t1 r1} (e1 : State.readGlobal s w need va n = (r1, t1)) : t1.mem = s.mem := by
  have h := State.readGlobal_mem s w need va n
  rwa [e1] at h

theorem State.writeGlobal_ok (s : State) (w : Client) (need : Need) (va : Nat) (bs : List Byte) (hm : s.mem.wf = true) : (∀ t, (State.writeGlobal s w need va bs).1 = .ok t → t.mem.wf = true) ∧ (State.writeGlobal s w need va bs).2.mem.wf = true := by
  have key : ∀ (xs : List (Loc × Nat × Word)) (acc : State × List Byte), acc.1.mem.wf = true →
      (xs.foldl (fun (acc : State × List Byte) x =>
        (acc.1.writeLoc x.1 (acc.2.take x.2.1), acc.2.drop x.2.1)) acc).1.mem.wf = true := by
    intro xs
    induction xs with
    | nil => exact fun _ h => h
    | cons x xs ih => exact fun acc h => ih _ (State.writeLoc_ok _ _ _ h)
  unfold State.writeGlobal
  split
  · rename_i e
    have h := State.translateAll_pair e
    exact ⟨nofun, by simpa [h] using hm⟩
  · rename_i e
    have h := State.translateAll_pair e
    split
    · exact ⟨nofun, by simpa [h] using hm⟩
    · rename_i e2
      have h2 := State.recordAll_mem _ _ _ _ _ e2
      refine ⟨fun t ht => ?_, by simpa [h] using hm⟩
      cases ht
      exact key _ _ (by simpa [h, h2] using hm)

theorem State.writeGlobal_pair {s : State} {w : Client} {need : Need} {va : Nat} {bs : List Byte} {t1 r1} (e1 : State.writeGlobal s w need va bs = (r1, t1)) (hm : s.mem.wf = true) : t1.mem.wf = true := by
  have h := (State.writeGlobal_ok s w need va bs hm).2
  rwa [e1] at h

theorem State.writeGlobal_done {s : State} {w : Client} {need : Need} {va : Nat} {bs : List Byte} {t1 r1} (e1 : State.writeGlobal s w need va bs = (.ok r1, t1)) (hm : s.mem.wf = true) : r1.mem.wf = true := by
  have h := (State.writeGlobal_ok s w need va bs hm).1 r1
  rw [e1] at h
  exact h rfl

@[simp] theorem State.ctxAccErr_mem (s : State) (c : Nat) (k : Nat) (ea : Word) (isWrite : Bool) (e : AccErr) : (State.ctxAccErr s c k ea isWrite e).2.mem = s.mem := by
  unfold State.ctxAccErr
  dsimp only
  split
  · rfl
  · split
    · simp
    · rfl

theorem State.ctxAccErr_pair {s : State} {c : Nat} {k : Nat} {ea : Word} {isWrite : Bool} {e : AccErr} {t1 r1} (e1 : State.ctxAccErr s c k ea isWrite e = (r1, t1)) : t1.mem = s.mem := by
  have h := State.ctxAccErr_mem s c k ea isWrite e
  rwa [e1] at h

@[simp] theorem State.ctxRead_mem (s : State) (c : Nat) (w : Client) (ea : Word) (n : Nat) : (State.ctxRead s c w ea n).2.mem = s.mem := by
  unfold State.ctxRead
  (repeat' split) <;> simp

theorem State.ctxRead_pair {s : State} {c : Nat} {w : Client} {ea : Word} {n : Nat} {t1 r1} (e1 : State.ctxRead s c w ea n = (r1, t1)) : t1.mem = s.mem := by
  have h := State.ctxRead_mem s c w ea n
  rwa [e1] at h

theorem State.ctxWrite_ok (s : State) (c : Nat) (w : Client) (ea : Word) (bs : List Byte) (hm : s.mem.wf = true) : (∀ t, (State.ctxWrite s c w ea bs).1 = .ok t → t.mem.wf = true) ∧ (State.ctxWrite s c w ea bs).2.mem.wf = true := by
  unfold State.ctxWrite
  split
  · exact State.writeGlobal_ok _ _ _ _ _ hm
  · exact ⟨fun t ht => by cases ht; simpa using hm, hm⟩
  · exact ⟨nofun, hm⟩

theorem State.ctxWrite_pair {s : State} {c : Nat} {w : Client} {ea : Word} {bs : List Byte} {t1 r1} (e1 : State.ctxWrite s c w ea bs = (r1, t1)) (hm : s.mem.wf = true) : t1.mem.wf = true := by
  have h := (State.ctxWrite_ok s c w ea bs hm).2
  rwa [e1] at h

theorem State.ctxWrite_done {s : State} {c : Nat} {w : Client} {ea : Word} {bs : List Byte} {t1 r1} (e1 : State.ctxWrite s c w ea bs = (.ok r1, t1)) (hm : s.mem.wf = true) : r1.mem.wf = true := by
  have h := (State.ctxWrite_ok s c w ea bs hm).1 r1
  rw [e1] at h
  exact h rfl

@[simp] theorem State.operandRead_mem (s : State) (c : Nat) (k : Nat) (ea : Word) (n : Nat) : (State.operandRead s c k ea n).2.mem = s.mem := by
  unfold State.operandRead
  split
  · rfl
  · split
    · rfl
    · split
      · exact State.ctxRead_pair (by assumption)
      · rename_i e
        have h := State.ctxRead_pair e
        dsimp only
        rw [State.ctxAccErr_mem, h]

theorem State.operandRead_pair {s : State} {c : Nat} {k : Nat} {ea : Word} {n : Nat} {t1 r1} (e1 : State.operandRead s c k ea n = (r1, t1)) : t1.mem = s.mem := by
  have h := State.operandRead_mem s c k ea n
  rwa [e1] at h

@[simp] theorem State.modIssue_mem (s : State) (f : Issue → Issue) : (State.modIssue s f).mem = s.mem := by
  unfold State.modIssue
  (repeat' split) <;> simp

@[simp] theorem State.faultAfter_mem (s : State) (cz : Cause) : (State.faultAfter s cz).mem = s.mem := by
  unfold State.faultAfter
  dsimp only
  (repeat' split) <;> simp

@[simp] theorem State.completeUnless_mem (s : State) : (State.completeUnless s).mem = s.mem := by
  unfold State.completeUnless
  (repeat' split) <;> simp

@[simp] theorem State.boundaryTrap_mem (s : State) (c : Nat) (k : Nat) (cause : BitVec 16) (fslot : Nat) (fpc : CodeAddr) (info : Word) (wskip : Bool) : (State.boundaryTrap s c k cause fslot fpc info wskip).mem = s.mem := by
  unfold State.boundaryTrap
  simp

@[simp] theorem State.noteStep_mem (s : State) (c : Nat) (k : Nat) (z : StepCause) : (State.noteStep s c k z).mem = s.mem := by
  unfold State.noteStep
  split <;> simp

@[simp] theorem State.stepTrap_mem (s : State) (c : Nat) (k : Nat) (pc : CodeAddr) (z : StepCause) : (State.stepTrap s c k pc z).mem = s.mem := by
  simp [State.stepTrap]

theorem State.act_ok (s : State) (m : Meaning) (he : ∀ t, t.mem.wf = true → (m.effect t).mem.wf = true) (hm : s.mem.wf = true) :
    (s.act m).mem.wf = true := by
  unfold State.act
  simpa using he s hm

/-- A meaning whose parts keep memory canonical. -/
structure Meaning.Keeps (m : Meaning) : Prop where
  effect : ∀ t, t.mem.wf = true → (m.effect t).mem.wf = true
  prepare : ∀ t, t.mem.wf = true → (m.prepare t).mem.wf = true

theorem State.run_ok (s : State) (m : Meaning) (k : m.Keeps) (hm : s.mem.wf = true) : ∀ t, s.run m = .next t → t.mem.wf = true := by
  intro t h
  unfold State.run at h
  split at h
  · cases h
    split
    · exact State.act_ok s m k.effect hm
    · simpa using hm
  · split at h
    · cases h
      simpa using hm
    · split at h
      · cases h
        simpa using hm
      · split at h
        · cases h
          simpa using hm
        · cases h
          split
          · exact State.act_ok s m k.effect hm
          · exact k.prepare s hm

end Sys2Proof.Machine
end

