-- ==== Sys2Proof/Laws/KeepCells.lean ====
section
/-! SUPPORT. What the shared operations of the cells leave of memory. -/

namespace Sys2Proof.Machine

@[simp] theorem State.consume_mem (s : State) (b : BadAt) : (State.consume s b).mem = s.mem := by
  unfold State.consume
  simp

@[simp] theorem State.watchCells_mem (s : State) (kind : Nat) (acc : List (Nat × Nat)) : (State.watchCells s kind acc).mem = s.mem := by
  unfold State.watchCells
  (repeat' split) <;> simp

@[simp] theorem State.serveUse_mem (s : State) (u : CellUse) : (State.serveUse s u).mem = s.mem := by
  unfold State.serveUse
  rfl

@[simp] theorem State.cellsDo_mem (s : State) (cells : List Nat) (out : Core → Nat → CellOut) : (State.cellsDo s cells out).mem = s.mem := by
  unfold State.cellsDo
  simp

@[simp] theorem State.sendExpress_mem (s : State) (c : Nat) (w : Word) (cell : Nat) (e : Express) : (State.sendExpress s c w cell e).mem = s.mem := by
  unfold State.sendExpress
  (repeat' split) <;> simp

@[simp] theorem State.pendNumeric_mem (s : State) (c : Nat) (k : Nat) (st : Stream) (evs : List CellEv) : (State.pendNumeric s c k st evs).mem = s.mem := by
  unfold State.pendNumeric
  dsimp only
  (repeat' split) <;> simp

@[simp] theorem State.performStep_mem (s : State) (c : Nat) (st : Stream) (before : List Stream) (step : Core → Stream → StepOut) : (State.performStep s c st before step).1.mem = s.mem := by
  unfold State.performStep
  dsimp only
  rw [foldl_mem _ (fun s x => by simp)]
  simp

@[simp] theorem State.laterStep_mem (s : State) (c : Nat) (k : Nat) (st : Stream) (before : List Stream) (step : Core → Stream → StepOut) : (State.laterStep s c k st before step).1.mem = s.mem := by
  unfold State.laterStep
  simp

@[simp] theorem State.startStream_mem (s : State) (st : Stream) (step : Core → Stream → StepOut) : (State.startStream s st step).mem = s.mem := by
  unfold State.startStream
  dsimp only
  (repeat' split) <;> simp

@[simp] theorem State.flushDone_mem (s : State) (c : Nat) (k : Nat) (own : Stream → Bool) : (State.flushDone s c k own).mem = s.mem := by
  unfold State.flushDone
  dsimp only
  simp

end Sys2Proof.Machine
end

