-- ==== Sys2Proof/Tests/Slice0.lean ====
section
/-! SUPPORT. Tests of the model: instructions refused as ill-formed, words written out from the field tables of the manual
and what they decode to, worked examples of the manual, and for every statement that has hypotheses states and operands that
meet them. -/

namespace Sys2Proof.Tests

open Sys2Proof.Machine Sys2Proof.Claims

-- One theorem after another: checked side by side they take more memory and no less time.
set_option Elab.async false

/-! ### Forms with every field zero -/

def iPlain : IForm := ⟨0, 0, 0, 0, 0⟩
def lPlain : LForm := ⟨0, 0⟩

/-! ### Decoding: a word for each opcode -/

/-- The decoder reads the word as the instruction. -/
def reads (p : SlotWord × Instr) : Bool :=
  match decodeSlot p.1 with
  | .ok j => decide (j = p.2)
  | .error _ => false

/-! S words of R50 and R55, one for each opcode. -/

def scalarWords1 : List (SlotWord × Instr) :=
  [(.s 0x01FC182C0000, .add { rPlain with d := 63, a := 1, b := 32, pr := 5, pn := 1 }),
   (.s 0x020BD7FFFFFD, .addi { iPlain with d := 2, a := 61, pr := 3, pn := 1, imm := -3 }),
   (.s 0x03FC182C0000, .sub { rPlain with d := 63, a := 1, b := 32, pr := 5, pn := 1 }),
   (.s 0x04FC182C0000, .mul { rPlain with d := 63, a := 1, b := 32, pr := 5, pn := 1 }),
   (.s 0x05FC182C0000, .mulh { rPlain with d := 63, a := 1, b := 32, pr := 5, pn := 1 }),
   (.s 0x06FC182C0000, .mulhn { rPlain with d := 63, a := 1, b := 32, pr := 5, pn := 1 }),
   (.s 0x07FC182C0000, .div { rPlain with d := 63, a := 1, b := 32, pr := 5, pn := 1 }),
   (.s 0x08FC182C0000, .divn { rPlain with d := 63, a := 1, b := 32, pr := 5, pn := 1 }),
   (.s 0x09FC182C0000, .rem { rPlain with d := 63, a := 1, b := 32, pr := 5, pn := 1 }),
   (.s 0x0AFC182C0000, .remn { rPlain with d := 63, a := 1, b := 32, pr := 5, pn := 1 }),
   (.s 0x10FC182C0000, .and { rPlain with d := 63, a := 1, b := 32, pr := 5, pn := 1 }),
   (.s 0x110BD7FFFFFD, .andi { iPlain with d := 2, a := 61, pr := 3, pn := 1, imm := -3 }),
   (.s 0x12FC182C0000, .or { rPlain with d := 63, a := 1, b := 32, pr := 5, pn := 1 }),
   (.s 0x130BD7FFFFFD, .ori { iPlain with d := 2, a := 61, pr := 3, pn := 1, imm := -3 }),
   (.s 0x14FC182C0000, .xor { rPlain with d := 63, a := 1, b := 32, pr := 5, pn := 1 }),
   (.s 0x150BD7FFFFFD, .xori { iPlain with d := 2, a := 61, pr := 3, pn := 1, imm := -3 }),
   (.s 0x16FC182C0000, .shl { rPlain with d := 63, a := 1, b := 32, pr := 5, pn := 1 }),
   (.s 0x170BD700003F, .shli { iPlain with d := 2, a := 61, pr := 3, pn := 1, imm := 63 }),
   (.s 0x18FC182C0000, .shr { rPlain with d := 63, a := 1, b := 32, pr := 5, pn := 1 }),
   (.s 0x190BD700003F, .shri { iPlain with d := 2, a := 61, pr := 3, pn := 1, imm := 63 }),
   (.s 0x1AFC182C0000, .shra { rPlain with d := 63, a := 1, b := 32, pr := 5, pn := 1 }),
   (.s 0x1B0BD700003F, .shrai { iPlain with d := 2, a := 61, pr := 3, pn := 1, imm := 63 }),
   (.s 0x1CFC182C0000, .rotl { rPlain with d := 63, a := 1, b := 32, pr := 5, pn := 1 }),
   (.s 0x2087E0080000, .clz { rPlain with d := 33, a := 62, pr := 1 })]

def scalarWords2 : List (SlotWord × Instr) :=
  [(.s 0x2187E0080000, .popc { rPlain with d := 33, a := 62, pr := 1 }),
   (.s 0x22FC182C0000, .min { rPlain with d := 63, a := 1, b := 32, pr := 5, pn := 1 }),
   (.s 0x23FC182C0000, .max { rPlain with d := 63, a := 1, b := 32, pr := 5, pn := 1 }),
   (.s 0x24FC182C0000, .minn { rPlain with d := 63, a := 1, b := 32, pr := 5, pn := 1 }),
   (.s 0x25FC182C0000, .maxn { rPlain with d := 63, a := 1, b := 32, pr := 5, pn := 1 }),
   (.s 0x280092B2F000, .cmp { rPlain with a := 9, b := 10, pr := 6, fn := 0x2F000 }),
   (.s 0x29FC182C6000, .sel { rPlain with d := 63, a := 1, b := 32, pr := 5, pn := 1, fn := 0x6000 }),
   (.s 0x2A87E0080000, .mov { rPlain with d := 33, a := 62, pr := 1 }),
   (.s 0x2BB3FFFFFFFE, .li { lPlain with d := 44, imm := -2 }),
   (.s 0x2CB43FFFFFFF, .lih { lPlain with d := 45, imm := 0x3FFFFFFF }),
   (.s 0x30FC182C0006, .addr { rPlain with d := 63, a := 1, b := 32, pr := 5, pn := 1, fn := 6 }),
   (.s 0x3187E0080001, .extb { rPlain with d := 33, a := 62, pr := 1, fn := 1 }),
   (.s 0x3287E0080001, .exth { rPlain with d := 33, a := 62, pr := 1, fn := 1 }),
   (.s 0x3387E0080001, .extw { rPlain with d := 33, a := 62, pr := 1, fn := 1 }),
   (.s 0x3487E0081A17, .bfx { rPlain with d := 33, a := 62, pr := 1, fn := 0x1A17 }),
   (.s 0x35FC182C007E, .bfi { rPlain with d := 63, a := 1, b := 32, pr := 5, pn := 1, fn := 126 }),
   (.s 0x381C11140002, .pand { rPlain with d := 7, a := 1, b := 4, pr := 2, pn := 1, fn := 2 }),
   (.s 0x391C11140001, .por { rPlain with d := 7, a := 1, b := 4, pr := 2, pn := 1, fn := 1 }),
   (.s 0x3A1830000000, .pnot { rPlain with d := 6, a := 3 }),
   (.s 0x3C87E0092980, .fcvts { rPlain with d := 33, a := 62, pr := 1, fn := 0x12980 }),
   (.s 0x3D004141F200, .fcmps { rPlain with a := 4, b := 5, fn := 0x1F200 }),
   (.s 0x400FC0000000, .lapset { rPlain with d := 3, a := 60 }),
   (.s 0x41081EC00003, .lapadd { rPlain with d := 2, a := 1, b := 59, fn := 3 }),
   (.s 0x42E830200000, .lapget { rPlain with d := 58, a := 3, pr := 4 })]

def scalarWords : List (SlotWord × Instr) := scalarWords1 ++ scalarWords2

/-! F words of R52 and R56, one for each opcode. -/

def flowWords : List (SlotWord × Instr) :=
  [(.f 0x01D000000000FFFF, .br { fPlain with pr := 6, pn := 1, tgt := 0xFFFF }),
   (.f 0x02D8E80000008001, .brc { fPlain with pr := 6, pn := 1, a := 35, b := 40, tgt := 0x8001 }),
   (.f 0x03D9000000000000, .jmp { fPlain with pr := 6, pn := 1, a := 36 }),
   (.f 0x04D9400000000002, .call { fPlain with pr := 6, pn := 1, a := 37, tgt := 2 }),
   (.f 0x0509800000000000, .ret { fPlain with a := 38 }),
   (.f 0x0809C00000001234, .loop { fPlain with a := 39, tgt := 0x1234 }),
   (.f 0x090FFE0000004321, .loopi { fPlain with a := 63, b := 62, tgt := 0x4321 }),
   (.f 0x0AD0000000000003, .breakl { fPlain with pr := 6, pn := 1, tgt := 3 }),
   (.f 0x10D3C0800000ABCD, .waitb { fPlain with pr := 6, pn := 1, a := 15, tgt := 0x800000ABCD }),
   (.f 0x1101E1FFFFFFFFFB, .waitt { fPlain with a := 7, b := 33, tgt := 0xFFFFFFFFFB }),
   (.f 0x1200C000000000FE, .waitf { fPlain with a := 3, tgt := 254 }),
   (.f 0x14D380000000FFFF, .advp { fPlain with pr := 6, pn := 1, a := 14, tgt := 0xFFFF }),
   (.f 0x1500400000000000, .advc { fPlain with a := 1, tgt := 0 }),
   (.f 0x18D00000FFFFFFFF, .yield { fPlain with pr := 6, pn := 1, tgt := 0xFFFFFFFF }),
   (.f 0x19D0000000000000, .endOp { fPlain with pr := 6, pn := 1 }),
   (.f 0x1A00000000000000, .sleep fPlain),
   (.f 0x1CD000000000BEEF, .trap { fPlain with pr := 6, pn := 1, tgt := 0xBEEF }),
   (.f 0x1D20000000000000, .rft { fPlain with pr := 1 })]

/-! M words of R51 and R57, one for each opcode. -/

def memoryWords1 : List (SlotWord × Instr) :=
  [(.m 0x01CB303C03FFFFF8, .ldb { mPlain with pr := 7, pn := 1, d := 50, a := 51, imm := -8 }),
   (.m 0x02CB303C03FFFFF8, .ldbn { mPlain with pr := 7, pn := 1, d := 50, a := 51, imm := -8 }),
   (.m 0x03CB303C03FFFFF8, .ldh { mPlain with pr := 7, pn := 1, d := 50, a := 51, imm := -8 }),
   (.m 0x04CB303C03FFFFF8, .ldhn { mPlain with pr := 7, pn := 1, d := 50, a := 51, imm := -8 }),
   (.m 0x05CB303C03FFFFF8, .ldw { mPlain with pr := 7, pn := 1, d := 50, a := 51, imm := -8 }),
   (.m 0x06CB303C03FFFFF8, .ldwn { mPlain with pr := 7, pn := 1, d := 50, a := 51, imm := -8 }),
   (.m 0x07CB303C03FFFFF8, .ldd { mPlain with pr := 7, pn := 1, d := 50, a := 51, imm := -8 }),
   (.m 0x08033D3C01FFFFFF, .stb { mPlain with pr := 7, pn := 1, a := 51, b := 52, imm := 0x1FFFFFF }),
   (.m 0x09033D3C01FFFFFF, .sth { mPlain with pr := 7, pn := 1, a := 51, b := 52, imm := 0x1FFFFFF }),
   (.m 0x0A033D3C01FFFFFF, .stw { mPlain with pr := 7, pn := 1, a := 51, b := 52, imm := 0x1FFFFFF }),
   (.m 0x0B033D3C01FFFFFF, .std { mPlain with pr := 7, pn := 1, a := 51, b := 52, imm := 0x1FFFFFF }),
   (.m 0x1029478010000000, .amoadd { mPlain with d := 10, a := 20, b := 30, attr := 4, imm := 0 }),
   (.m 0x11294780B8000040, .amoand { mPlain with d := 10, a := 20, b := 30, attr := 46, imm := 64 }),
   (.m 0x1229478150000080, .amoor { mPlain with d := 10, a := 20, b := 30, attr := 84, imm := 128 }),
   (.m 0x13294781F80000C0, .amoxor { mPlain with d := 10, a := 20, b := 30, attr := 126, imm := 192 }),
   (.m 0x1429478210000100, .amomin { mPlain with d := 10, a := 20, b := 30, attr := 132, imm := 0x100 }),
   (.m 0x1529478038000140, .amomax { mPlain with d := 10, a := 20, b := 30, attr := 14, imm := 0x140 }),
   (.m 0x16294780D0000180, .amominn { mPlain with d := 10, a := 20, b := 30, attr := 52, imm := 0x180 }),
   (.m 0x17294781780001C0, .amomaxn { mPlain with d := 10, a := 20, b := 30, attr := 94, imm := 0x1C0 }),
   (.m 0x1829478190000200, .amoswp { mPlain with d := 10, a := 20, b := 30, attr := 100, imm := 0x200 }),
   (.m 0x1929478238000240, .amocas { mPlain with d := 10, a := 20, b := 30, attr := 142, imm := 0x240 }),
   (.m 0x1C00001228000000, .fence { mPlain with pr := 2, attr := 138 }),
   (.m 0x20007D4003FFFFFF, .tlinc { mPlain with a := 7, b := 53, imm := 0x3FFFFFF }),
   (.m 0x21D8600000000000, .tlread { mPlain with d := 54, a := 6 })]

def memoryWords2 : List (SlotWord × Instr) :=
  [(.m 0x24DF800000000007, .cpgo { mPlain with d := 55, a := 56, imm := 7 }),
   (.m 0x2500000000000FFF, .cpstep { mPlain with imm := 0xFFF }),
   (.m 0x26E4000000000006, .cpstat { mPlain with d := 57, imm := 6 }),
   (.m 0x2803A0000000000F, .gidx { mPlain with a := 58, imm := 15 }),
   (.m 0x2903B00000000000, .gcfg { mPlain with a := 59 }),
   (.m 0x2C03CF40000003FF, .bsend { mPlain with a := 60, b := 61, imm := 0x3FF }),
   (.m 0x2D03E000000000FF, .prog { mPlain with a := 62, imm := 255 }),
   (.m 0x2EFC0000000000FE, .front { mPlain with d := 63, imm := 254 }),
   (.m 0x2F00100000000000, .gcancel { mPlain with a := 1 }),
   (.m 0x300020C00000000E, .xput { mPlain with a := 2, b := 3, imm := 14 }),
   (.m 0x3400400000000FFF, .tdefer { mPlain with a := 4, imm := 0xFFF }),
   (.m 0x3500003C00003819, .tpwr { mPlain with pr := 7, pn := 1, imm := 0x3819 }),
   (.m 0x36000000000002A5, .vpwr { mPlain with imm := 0x2A5 }),
   (.m 0x38140000000002E2, .sysr { mPlain with d := 5, imm := 0x2E2 }),
   (.m 0x3900018000000204, .sysw { mPlain with b := 6, imm := 0x204 }),
   (.m 0x3A00700000000002, .tlbinv { mPlain with a := 7, imm := 2 }),
   (.m 0x3B00001800000000, .tlbsync { mPlain with pr := 3 }),
   (.m 0x3CF8000000000000, .evpop { mPlain with d := 62 }),
   (.m 0x3D00800000000007, .watch { mPlain with a := 8, imm := 7 })]

def memoryWords : List (SlotWord × Instr) := memoryWords1 ++ memoryWords2

/-! C words of R53, R54 and R58, one for each opcode. -/

def cellWords1 : List (SlotWord × Instr) :=
  [(.c 0x01AA3E000003FF000000000000000000, .tld { cPlain with sq := 10, lm := 5, d := 31, ta := 0x3FF }),
   (.c 0x02AA01E0000000002010000000000000, .tst { cPlain with sq := 10, lm := 5, a := 30, td := 0x201 }),
   (.c 0x03902800000102000000000003000000, .tldm { cPlain with sq := 9, d := 20, ta := 0x102, cn := 12 }),
   (.c 0x08AA3BCD805B840000000C06002ABCDE,
     .vadd { cPlain with sq := 10, lm := 5, d := 29, a := 28, b := 27, as_ := 1, bs := 6, ta := 0x384, im := 0x2ABCDE, fp1 := 12, rm := 3 }),
   (.c 0x09AA3BCD805B840000000C06002ABCDE,
     .vsub { cPlain with sq := 10, lm := 5, d := 29, a := 28, b := 27, as_ := 1, bs := 6, ta := 0x384, im := 0x2ABCDE, fp1 := 12, rm := 3 }),
   (.c 0x0AAA3BCD805B840000000C06002ABCDE,
     .vmul { cPlain with sq := 10, lm := 5, d := 29, a := 28, b := 27, as_ := 1, bs := 6, ta := 0x384, im := 0x2ABCDE, fp1 := 12, rm := 3 }),
   (.c 0x0BAA3BCDE85B840000000202002ABCDE,
     .vfma { cPlain with sq := 10, lm := 5, d := 29, a := 28, b := 27, as_ := 1, bs := 6, ta := 0x384, im := 0x2ABCDE, fp1 := 2, cc := 26, rm := 1 }),
   (.c 0x0CAA3BCDE85B840000000202002ABCDE,
     .vfms { cPlain with sq := 10, lm := 5, d := 29, a := 28, b := 27, as_ := 1, bs := 6, ta := 0x384, im := 0x2ABCDE, fp1 := 2, cc := 26, rm := 1 }),
   (.c 0x0DAA3BCDE85B840000000202002ABCDE,
     .vfnma { cPlain with sq := 10, lm := 5, d := 29, a := 28, b := 27, as_ := 1, bs := 6, ta := 0x384, im := 0x2ABCDE, fp1 := 2, cc := 26, rm := 1 }),
   (.c 0x0EAA3BCD805B840000000C06002ABCDE,
     .vmin { cPlain with sq := 10, lm := 5, d := 29, a := 28, b := 27, as_ := 1, bs := 6, ta := 0x384, im := 0x2ABCDE, fp1 := 12, rm := 3 }),
   (.c 0x0FAA3BCD805B840000000C06002ABCDE,
     .vmax { cPlain with sq := 10, lm := 5, d := 29, a := 28, b := 27, as_ := 1, bs := 6, ta := 0x384, im := 0x2ABCDE, fp1 := 12, rm := 3 }),
   (.c 0x10AA064001C000000000010000000005,
     .vabs { cPlain with sq := 10, lm := 5, d := 3, a := 4, as_ := 7, fp1 := 1, im := 5 }),
   (.c 0x11AA064001C000000000010000000005,
     .vneg { cPlain with sq := 10, lm := 5, d := 3, a := 4, as_ := 7, fp1 := 1, im := 5 }),
   (.c 0x12AA3BCD805B840000000C06002ABCDE,
     .vcps { cPlain with sq := 10, lm := 5, d := 29, a := 28, b := 27, as_ := 1, bs := 6, ta := 0x384, im := 0x2ABCDE, fp1 := 12, rm := 3 }),
   (.c 0x13AB0FCD805B840000000000002ABCDE,
     .vcmp { cPlain with sq := 10, lm := 5, d := 7, a := 28, b := 27, as_ := 1, bs := 6, ta := 0x384, im := 0x2ABCDE, co := 4, fp1 := 0 }),
   (.c 0x14AA3BCD985B840000000900002ABCDE,
     .vsel { cPlain with sq := 10, lm := 5, d := 29, a := 28, b := 27, as_ := 1, bs := 6, ta := 0x384, im := 0x2ABCDE, cc := 6, fp1 := 9 }),
   (.c 0x18AA064000404D000000020400000001,
     .vrnd { cPlain with sq := 10, lm := 5, d := 3, a := 4, as_ := 1, ta := 77, fp1 := 2, rm := 2, im := 1 }),
   (.c 0x19AA064000404D000000020400000001,
     .vexf { cPlain with sq := 10, lm := 5, d := 3, a := 4, as_ := 1, ta := 77, fp1 := 2, rm := 2, im := 1 }),
   (.c 0x1AAA064000404D000000020400000001,
     .vlgf { cPlain with sq := 10, lm := 5, d := 3, a := 4, as_ := 1, ta := 77, fp1 := 2, rm := 2, im := 1 }),
   (.c 0x1BAA064000404D000000020400000001,
     .vrcpf { cPlain with sq := 10, lm := 5, d := 3, a := 4, as_ := 1, ta := 77, fp1 := 2, rm := 2, im := 1 }),
   (.c 0x1CAA064000404D000000020400000001,
     .vrsqf { cPlain with sq := 10, lm := 5, d := 3, a := 4, as_ := 1, ta := 77, fp1 := 2, rm := 2, im := 1 }),
   (.c 0x1DAA3BCD805B840000000C06002ABCDE,
     .vscl { cPlain with sq := 10, lm := 5, d := 29, a := 28, b := 27, as_ := 1, bs := 6, ta := 0x384, im := 0x2ABCDE, fp1 := 12, rm := 3 }),
   (.c 0x20AA0221800400504000080000000007,
     .viadd { cPlain with sq := 10, lm := 5, d := 1, a := 2, b := 3, as_ := 0, bs := 1, tb := 0x141, fp1 := 8, im := 7 }),
   (.c 0x21AA0221800400504000080000000007,
     .visub { cPlain with sq := 10, lm := 5, d := 1, a := 2, b := 3, as_ := 0, bs := 1, tb := 0x141, fp1 := 8, im := 7 })]

def cellWords2 : List (SlotWord × Instr) :=
  [(.c 0x22AA0221800400504000080000000007,
     .vimul { cPlain with sq := 10, lm := 5, d := 1, a := 2, b := 3, as_ := 0, bs := 1, tb := 0x141, fp1 := 8, im := 7 }),
   (.c 0x23AA02219000000000000A0000000000,
     .vimad { cPlain with sq := 10, lm := 5, d := 1, a := 2, b := 3, cc := 4, fp1 := 10 }),
   (.c 0x24AA0221800400504000080000000007,
     .vand { cPlain with sq := 10, lm := 5, d := 1, a := 2, b := 3, as_ := 0, bs := 1, tb := 0x141, fp1 := 8, im := 7 }),
   (.c 0x25AA0221800400504000080000000007,
     .vor { cPlain with sq := 10, lm := 5, d := 1, a := 2, b := 3, as_ := 0, bs := 1, tb := 0x141, fp1 := 8, im := 7 }),
   (.c 0x26AA0221800400504000080000000007,
     .vxor { cPlain with sq := 10, lm := 5, d := 1, a := 2, b := 3, as_ := 0, bs := 1, tb := 0x141, fp1 := 8, im := 7 }),
   (.c 0x27AA0221800400504000080000000007,
     .vshl { cPlain with sq := 10, lm := 5, d := 1, a := 2, b := 3, as_ := 0, bs := 1, tb := 0x141, fp1 := 8, im := 7 }),
   (.c 0x28AA0221800400504000080000000007,
     .vshr { cPlain with sq := 10, lm := 5, d := 1, a := 2, b := 3, as_ := 0, bs := 1, tb := 0x141, fp1 := 8, im := 7 }),
   (.c 0x29AA0221800400504000080000000007,
     .vshra { cPlain with sq := 10, lm := 5, d := 1, a := 2, b := 3, as_ := 0, bs := 1, tb := 0x141, fp1 := 8, im := 7 }),
   (.c 0x2AAA0221800400504000080000000007,
     .vimin { cPlain with sq := 10, lm := 5, d := 1, a := 2, b := 3, as_ := 0, bs := 1, tb := 0x141, fp1 := 8, im := 7 }),
   (.c 0x2BAA0221800400504000080000000007,
     .vimax { cPlain with sq := 10, lm := 5, d := 1, a := 2, b := 3, as_ := 0, bs := 1, tb := 0x141, fp1 := 8, im := 7 }),
   (.c 0x2CAB4221800000000000070000000000,
     .vicmp { cPlain with sq := 10, lm := 5, d := 1, a := 2, b := 3, fp1 := 7, co := 5 }),
   (.c 0x30AA1090000000000000012400000000,
     .vcvt { cPlain with sq := 10, lm := 5, d := 8, a := 9, fp1 := 1, fp2 := 2, rm := 2 }),
   (.c 0x31AA10C0000000000000007200000000,
     .vpack { cPlain with sq := 10, lm := 5, d := 8, a := 12, fp1 := 0, fp2 := 7, rm := 1 }),
   (.c 0x32AA3000004058000000050000000000,
     .vunpk { cPlain with sq := 10, lm := 5, d := 24, as_ := 1, ta := 88, fp1 := 5, fp2 := 0 }),
   (.c 0x33AA02218000000000000A0000000000, .vperm { cPlain with sq := 10, lm := 5, d := 1, a := 2, b := 3, fp1 := 10 }),
   (.c 0x34AA022000000000000004000000000F, .vbcast { cPlain with sq := 10, lm := 5, d := 1, a := 2, fp1 := 4, im := 15 }),
   (.c 0x38AA16C0000000000000090200000000, .vrsum { cPlain with sq := 10, lm := 5, d := 11, a := 12, fp1 := 9, rm := 1 }),
   (.c 0x39AA16C0000000000000090200000000, .vrmax { cPlain with sq := 10, lm := 5, d := 11, a := 12, fp1 := 9, rm := 1 }),
   (.c 0x3AAA3CC0000000000000040000000000, .vspar { cPlain with sq := 10, lm := 5, d := 30, a := 12, fp1 := 4 }),
   (.c 0x3CF00E62800000000000000000000000, .kand { cPlain with sq := 15, d := 7, a := 6, b := 5 }),
   (.c 0x3DF00E62800000000000000000000000, .kor { cPlain with sq := 15, d := 7, a := 6, b := 5 }),
   (.c 0x3E100830000000000000000000000000, .knot { cPlain with sq := 1, d := 4, a := 3 }),
   (.c 0x3F100830000000000000000000000000, .kmov { cPlain with sq := 1, d := 4, a := 3 }),
   (.c 0x40203E70000000000000000000000000, .kpop { cPlain with sq := 2, d := 31, a := 7 })]

def cellWords3 : List (SlotWord × Instr) :=
  [(.c 0x44AA1AE0000000000002080000000000, .shn { cPlain with sq := 10, lm := 5, d := 13, a := 14, rt := 32, fp1 := 8 }),
   (.c 0x45AA1AE0000000000002080000000000, .she { cPlain with sq := 10, lm := 5, d := 13, a := 14, rt := 32, fp1 := 8 }),
   (.c 0x46AA1AE0000000000002080000000000, .shs { cPlain with sq := 10, lm := 5, d := 13, a := 14, rt := 32, fp1 := 8 }),
   (.c 0x47AA1AE0000000000002080000000000, .shw { cPlain with sq := 10, lm := 5, d := 13, a := 14, rt := 32, fp1 := 8 }),
   (.c 0x48400100000000000008F00000000000, .xsnd { cPlain with sq := 4, a := 16, rt := 143 }),
   (.c 0x49AA2400000000000008E00000000000, .xrcv { cPlain with sq := 10, lm := 5, d := 18, rt := 142 }),
   (.c 0x50300200006200A0000D33400180000B,
     .mma { cPlain with sq := 3, co := 0, d := 1, as_ := 1, bs := 8, ta := 0x200, tb := 0x280, rt := 211, fp1 := 3, fp2 := 4, cn := 6, im := 11 }),
   (.c 0x51800200000000000000000000000000, .mzero { cPlain with sq := 8, d := 1 }),
   (.c 0x52840010000000003E80009603000000,
     .mdrain { cPlain with sq := 8, lm := 2, a := 1, td := 0x3E8, fp2 := 9, rm := 3, cn := 12 }),
   (.c 0x538002000003F0000000010002000000, .mload { cPlain with sq := 8, d := 1, ta := 0x3F0, fp1 := 1, cn := 8 }),
   (.c 0x54AA2C1000000000000000000000001F, .mread { cPlain with sq := 10, lm := 5, d := 22, a := 1, im := 31 }),
   (.c 0x55AA420B8000000000000000020001F8,
     .patch { cPlain with sq := 10, lm := 5, d := 1, b := 23, co := 1, im := 0x1F8, cn := 8 }),
   (.c 0x58AA02000043FC001F40020000000000,
     .lqnear { cPlain with sq := 10, lm := 5, d := 1, as_ := 1, ta := 0x3FC, td := 0x1F4, fp1 := 2 }),
   (.c 0x59AA3850014000000000000000000000, .lqdec { cPlain with sq := 10, lm := 5, d := 28, a := 5, as_ := 5 }),
   (.c 0x5AAA0C80000000000000000000000000, .lqscale { cPlain with sq := 10, lm := 5, d := 6, a := 8, fp1 := 0 }),
   (.c 0x5BAA0070000001000020000000C00005,
     .lqmerge { cPlain with sq := 10, lm := 5, a := 7, ta := 1, td := 2, cn := 3, im := 5 })]

def cellWords : List (SlotWord × Instr) := cellWords1 ++ cellWords2 ++ cellWords3


theorem test_decode_nop : ([.s 0, .f 0, .m 0, .c 0] : List SlotWord).all (fun w => reads (w, .nop)) = true := by decide +kernel
theorem test_decode_scalar : scalarWords.all reads = true := by decide +kernel
theorem test_decode_flow : flowWords.all reads = true := by decide +kernel
theorem test_decode_memory : memoryWords.all reads = true := by decide +kernel
theorem test_decode_cell : cellWords.all reads = true := by decide +kernel

/-- Every word of the tables is what the encoder gives for its instruction. -/
theorem test_encode :
    (scalarWords ++ flowWords ++ memoryWords ++ cellWords).all (fun p => decide (encode p.2 = p.1)) = true := by decide +kernel

/-- Opcodes that the maps leave unassigned are refused (R55 to R58), and so is a NOP slot with a bit set (R48). -/
theorem test_decode_unassigned :
    ((([0x0B, 0x0F, 0x1D, 0x26, 0x2D, 0x36, 0x3B, 0x3E, 0x43, 0xFF] : List Nat).all fun o =>
        !(decodeS (BitVec.ofNat 48 (o * 2 ^ 40))).isOk) &&
      ([0x06, 0x0B, 0x13, 0x16, 0x1B, 0x1E, 0xFF] : List Nat).all (fun o => !(decodeF (BitVec.ofNat 64 (o * 2 ^ 56))).isOk) &&
      ([0x0C, 0x1A, 0x1D, 0x22, 0x27, 0x2A, 0x31, 0x37, 0x3E, 0xFF] : List Nat).all (fun o =>
        !(decodeM (BitVec.ofNat 64 (o * 2 ^ 56))).isOk) &&
      ([0x04, 0x15, 0x1E, 0x2D, 0x35, 0x3B, 0x41, 0x4A, 0x56, 0x5C, 0xFF] : List Nat).all (fun o =>
        !(decodeC (BitVec.ofNat 128 (o * 2 ^ 120))).isOk) &&
      !(decodeS 1).isOk && !(decodeF 1).isOk && !(decodeM 1).isOk && !(decodeC 1).isOk) = true := by decide +kernel

/-- The header's fields (R47): EW, HW, SKIP and VER; a nonzero low field or another version is refused. -/
theorem test_header :
    (Header.unpack 0xFE440000 = ⟨63, true, 1, 1, 0⟩ ∧ (Header.unpack 0xFE440000).ok = true) ∧
      (Header.unpack 0x00080000).ok = false ∧ (Header.unpack 0x00040001).ok = false := by decide +kernel

/-! ### Well-formedness: an ill-formed term for each check -/

/-- The fields of a C slot that a row of R58 may leave at zero. -/
inductive CField where
  | lm | co | d | a | b | cc | as_ | bs | ta | tb | td | rt | fp1 | fp2 | rm | cn | im
  deriving DecidableEq, Repr

/-- The slot with one bit of a field set. -/
def CField.mark : CField → CForm → CForm
  | .lm, f => { f with lm := 1 }
  | .co, f => { f with co := 1 }
  | .d, f => { f with d := 1 }
  | .a, f => { f with a := 1 }
  | .b, f => { f with b := 1 }
  | .cc, f => { f with cc := 1 }
  | .as_, f => { f with as_ := 1 }
  | .bs, f => { f with bs := 1 }
  | .ta, f => { f with ta := 16 }
  | .tb, f => { f with tb := 16 }
  | .td, f => { f with td := 16 }
  | .rt, f => { f with rt := 16 }
  | .fp1, f => { f with fp1 := 1 }
  | .fp2, f => { f with fp2 := 1 }
  | .rm, f => { f with rm := 1 }
  | .cn, f => { f with cn := 1 }
  | .im, f => { f with im := 1 }

/-! Each C instruction with the fields that its row of R58 does not name, which shall be zero. -/

def zeroFields1 : List ((CForm → Instr) × CForm × List CField) :=
  [(.tld, { cPlain with sq := 10, lm := 5, d := 31, ta := 0x3FF },
    [.co, .a, .b, .cc, .as_, .bs, .tb, .td, .rt, .fp1, .fp2, .rm, .cn, .im]),
   (.tst, { cPlain with sq := 10, lm := 5, a := 30, td := 0x201 },
    [.co, .d, .b, .cc, .as_, .bs, .ta, .tb, .rt, .fp1, .fp2, .rm, .cn, .im]),
   (.tldm, { cPlain with sq := 9, d := 20, ta := 0x102, cn := 12 },
    [.lm, .co, .a, .b, .cc, .as_, .bs, .tb, .td, .rt, .fp1, .fp2, .rm, .im]),
   (.vadd, { cPlain with sq := 10, lm := 5, d := 29, a := 28, b := 27, as_ := 1, bs := 6, ta := 0x384, im := 0x2ABCDE, fp1 := 12, rm := 3 },
    [.co, .cc, .td, .rt, .fp2, .cn]),
   (.vsub, { cPlain with sq := 10, lm := 5, d := 29, a := 28, b := 27, as_ := 1, bs := 6, ta := 0x384, im := 0x2ABCDE, fp1 := 12, rm := 3 },
    [.co, .cc, .td, .rt, .fp2, .cn]),
   (.vmul, { cPlain with sq := 10, lm := 5, d := 29, a := 28, b := 27, as_ := 1, bs := 6, ta := 0x384, im := 0x2ABCDE, fp1 := 12, rm := 3 },
    [.co, .cc, .td, .rt, .fp2, .cn]),
   (.vfma, { cPlain with sq := 10, lm := 5, d := 29, a := 28, b := 27, as_ := 1, bs := 6, ta := 0x384, im := 0x2ABCDE, fp1 := 2, cc := 26, rm := 1 },
    [.co, .td, .rt, .fp2, .cn]),
   (.vfms, { cPlain with sq := 10, lm := 5, d := 29, a := 28, b := 27, as_ := 1, bs := 6, ta := 0x384, im := 0x2ABCDE, fp1 := 2, cc := 26, rm := 1 },
    [.co, .td, .rt, .fp2, .cn]),
   (.vfnma, { cPlain with sq := 10, lm := 5, d := 29, a := 28, b := 27, as_ := 1, bs := 6, ta := 0x384, im := 0x2ABCDE, fp1 := 2, cc := 26, rm := 1 },
    [.co, .td, .rt, .fp2, .cn]),
   (.vmin, { cPlain with sq := 10, lm := 5, d := 29, a := 28, b := 27, as_ := 1, bs := 6, ta := 0x384, im := 0x2ABCDE, fp1 := 12, rm := 3 },
    [.co, .cc, .td, .rt, .fp2, .cn]),
   (.vmax, { cPlain with sq := 10, lm := 5, d := 29, a := 28, b := 27, as_ := 1, bs := 6, ta := 0x384, im := 0x2ABCDE, fp1 := 12, rm := 3 },
    [.co, .cc, .td, .rt, .fp2, .cn]),
   (.vabs, { cPlain with sq := 10, lm := 5, d := 3, a := 4, as_ := 7, fp1 := 1, im := 5 },
    [.co, .b, .cc, .bs, .tb, .td, .rt, .fp2, .rm, .cn]),
   (.vneg, { cPlain with sq := 10, lm := 5, d := 3, a := 4, as_ := 7, fp1 := 1, im := 5 },
    [.co, .b, .cc, .bs, .tb, .td, .rt, .fp2, .rm, .cn]),
   (.vcps, { cPlain with sq := 10, lm := 5, d := 29, a := 28, b := 27, as_ := 1, bs := 6, ta := 0x384, im := 0x2ABCDE, fp1 := 12, rm := 3 },
    [.co, .cc, .td, .rt, .fp2, .cn]),
   (.vcmp, { cPlain with sq := 10, lm := 5, d := 7, a := 28, b := 27, as_ := 1, bs := 6, ta := 0x384, im := 0x2ABCDE, co := 4, fp1 := 0 },
    [.cc, .td, .rt, .fp2, .rm, .cn]),
   (.vsel, { cPlain with sq := 10, lm := 5, d := 29, a := 28, b := 27, as_ := 1, bs := 6, ta := 0x384, im := 0x2ABCDE, cc := 6, fp1 := 9 },
    [.co, .td, .rt, .fp2, .rm, .cn])]

def zeroFields2 : List ((CForm → Instr) × CForm × List CField) :=
  [(.vrnd, { cPlain with sq := 10, lm := 5, d := 3, a := 4, as_ := 1, ta := 77, fp1 := 2, rm := 2, im := 1 },
    [.co, .b, .cc, .bs, .tb, .td, .rt, .fp2, .cn]),
   (.vexf, { cPlain with sq := 10, lm := 5, d := 3, a := 4, as_ := 1, ta := 77, fp1 := 2, rm := 2, im := 1 },
    [.co, .b, .cc, .bs, .tb, .td, .rt, .fp2, .cn]),
   (.vlgf, { cPlain with sq := 10, lm := 5, d := 3, a := 4, as_ := 1, ta := 77, fp1 := 2, rm := 2, im := 1 },
    [.co, .b, .cc, .bs, .tb, .td, .rt, .fp2, .cn]),
   (.vrcpf, { cPlain with sq := 10, lm := 5, d := 3, a := 4, as_ := 1, ta := 77, fp1 := 2, rm := 2, im := 1 },
    [.co, .b, .cc, .bs, .tb, .td, .rt, .fp2, .cn]),
   (.vrsqf, { cPlain with sq := 10, lm := 5, d := 3, a := 4, as_ := 1, ta := 77, fp1 := 2, rm := 2, im := 1 },
    [.co, .b, .cc, .bs, .tb, .td, .rt, .fp2, .cn]),
   (.vscl, { cPlain with sq := 10, lm := 5, d := 29, a := 28, b := 27, as_ := 1, bs := 6, ta := 0x384, im := 0x2ABCDE, fp1 := 12, rm := 3 },
    [.co, .cc, .td, .rt, .fp2, .cn]),
   (.viadd, { cPlain with sq := 10, lm := 5, d := 1, a := 2, b := 3, as_ := 0, bs := 1, tb := 0x141, fp1 := 8, im := 7 },
    [.co, .cc, .td, .rt, .fp2, .rm, .cn]),
   (.visub, { cPlain with sq := 10, lm := 5, d := 1, a := 2, b := 3, as_ := 0, bs := 1, tb := 0x141, fp1 := 8, im := 7 },
    [.co, .cc, .td, .rt, .fp2, .rm, .cn]),
   (.vimul, { cPlain with sq := 10, lm := 5, d := 1, a := 2, b := 3, as_ := 0, bs := 1, tb := 0x141, fp1 := 8, im := 7 },
    [.co, .cc, .td, .rt, .fp2, .rm, .cn]),
   (.vimad, { cPlain with sq := 10, lm := 5, d := 1, a := 2, b := 3, cc := 4, fp1 := 10 },
    [.co, .td, .rt, .fp2, .rm, .cn]),
   (.vand, { cPlain with sq := 10, lm := 5, d := 1, a := 2, b := 3, as_ := 0, bs := 1, tb := 0x141, fp1 := 8, im := 7 },
    [.co, .cc, .td, .rt, .fp2, .rm, .cn]),
   (.vor, { cPlain with sq := 10, lm := 5, d := 1, a := 2, b := 3, as_ := 0, bs := 1, tb := 0x141, fp1 := 8, im := 7 },
    [.co, .cc, .td, .rt, .fp2, .rm, .cn]),
   (.vxor, { cPlain with sq := 10, lm := 5, d := 1, a := 2, b := 3, as_ := 0, bs := 1, tb := 0x141, fp1 := 8, im := 7 },
    [.co, .cc, .td, .rt, .fp2, .rm, .cn]),
   (.vshl, { cPlain with sq := 10, lm := 5, d := 1, a := 2, b := 3, as_ := 0, bs := 1, tb := 0x141, fp1 := 8, im := 7 },
    [.co, .cc, .td, .rt, .fp2, .rm, .cn]),
   (.vshr, { cPlain with sq := 10, lm := 5, d := 1, a := 2, b := 3, as_ := 0, bs := 1, tb := 0x141, fp1 := 8, im := 7 },
    [.co, .cc, .td, .rt, .fp2, .rm, .cn]),
   (.vshra, { cPlain with sq := 10, lm := 5, d := 1, a := 2, b := 3, as_ := 0, bs := 1, tb := 0x141, fp1 := 8, im := 7 },
    [.co, .cc, .td, .rt, .fp2, .rm, .cn])]

def zeroFields3 : List ((CForm → Instr) × CForm × List CField) :=
  [(.vimin, { cPlain with sq := 10, lm := 5, d := 1, a := 2, b := 3, as_ := 0, bs := 1, tb := 0x141, fp1 := 8, im := 7 },
    [.co, .cc, .td, .rt, .fp2, .rm, .cn]),
   (.vimax, { cPlain with sq := 10, lm := 5, d := 1, a := 2, b := 3, as_ := 0, bs := 1, tb := 0x141, fp1 := 8, im := 7 },
    [.co, .cc, .td, .rt, .fp2, .rm, .cn]),
   (.vicmp, { cPlain with sq := 10, lm := 5, d := 1, a := 2, b := 3, fp1 := 7, co := 5 },
    [.cc, .td, .rt, .fp2, .rm, .cn]),
   (.vcvt, { cPlain with sq := 10, lm := 5, d := 8, a := 9, fp1 := 1, fp2 := 2, rm := 2 },
    [.co, .b, .cc, .bs, .tb, .td, .rt, .cn, .im]),
   (.vpack, { cPlain with sq := 10, lm := 5, d := 8, a := 12, fp1 := 0, fp2 := 7, rm := 1 },
    [.co, .b, .cc, .bs, .tb, .td, .rt, .cn, .im]),
   (.vunpk, { cPlain with sq := 10, lm := 5, d := 24, as_ := 1, ta := 88, fp1 := 5, fp2 := 0 },
    [.co, .b, .cc, .bs, .tb, .td, .rt, .cn, .im]),
   (.vperm, { cPlain with sq := 10, lm := 5, d := 1, a := 2, b := 3, fp1 := 10 },
    [.co, .cc, .as_, .bs, .ta, .tb, .td, .rt, .fp2, .rm, .cn, .im]),
   (.vbcast, { cPlain with sq := 10, lm := 5, d := 1, a := 2, fp1 := 4, im := 15 },
    [.co, .b, .cc, .as_, .bs, .ta, .tb, .td, .rt, .fp2, .rm, .cn]),
   (.vrsum, { cPlain with sq := 10, lm := 5, d := 11, a := 12, fp1 := 9, rm := 1 },
    [.co, .b, .cc, .as_, .bs, .ta, .tb, .td, .rt, .fp2, .cn, .im]),
   (.vrmax, { cPlain with sq := 10, lm := 5, d := 11, a := 12, fp1 := 9, rm := 1 },
    [.co, .b, .cc, .as_, .bs, .ta, .tb, .td, .rt, .fp2, .cn, .im]),
   (.vspar, { cPlain with sq := 10, lm := 5, d := 30, a := 12, fp1 := 4 },
    [.co, .b, .cc, .as_, .bs, .ta, .tb, .td, .rt, .fp2, .rm, .cn, .im]),
   (.kand, { cPlain with sq := 15, d := 7, a := 6, b := 5 },
    [.lm, .co, .cc, .as_, .bs, .ta, .tb, .td, .rt, .fp1, .fp2, .rm, .cn, .im]),
   (.kor, { cPlain with sq := 15, d := 7, a := 6, b := 5 },
    [.lm, .co, .cc, .as_, .bs, .ta, .tb, .td, .rt, .fp1, .fp2, .rm, .cn, .im]),
   (.knot, { cPlain with sq := 1, d := 4, a := 3 },
    [.lm, .co, .b, .cc, .as_, .bs, .ta, .tb, .td, .rt, .fp1, .fp2, .rm, .cn, .im]),
   (.kmov, { cPlain with sq := 1, d := 4, a := 3 },
    [.lm, .co, .b, .cc, .as_, .bs, .ta, .tb, .td, .rt, .fp1, .fp2, .rm, .cn, .im]),
   (.kpop, { cPlain with sq := 2, d := 31, a := 7 },
    [.lm, .co, .b, .cc, .as_, .bs, .ta, .tb, .td, .rt, .fp1, .fp2, .rm, .cn, .im])]

def zeroFields4 : List ((CForm → Instr) × CForm × List CField) :=
  [(.shn, { cPlain with sq := 10, lm := 5, d := 13, a := 14, rt := 32, fp1 := 8 },
    [.co, .b, .cc, .as_, .bs, .ta, .tb, .td, .fp2, .rm, .cn, .im]),
   (.she, { cPlain with sq := 10, lm := 5, d := 13, a := 14, rt := 32, fp1 := 8 },
    [.co, .b, .cc, .as_, .bs, .ta, .tb, .td, .fp2, .rm, .cn, .im]),
   (.shs, { cPlain with sq := 10, lm := 5, d := 13, a := 14, rt := 32, fp1 := 8 },
    [.co, .b, .cc, .as_, .bs, .ta, .tb, .td, .fp2, .rm, .cn, .im]),
   (.shw, { cPlain with sq := 10, lm := 5, d := 13, a := 14, rt := 32, fp1 := 8 },
    [.co, .b, .cc, .as_, .bs, .ta, .tb, .td, .fp2, .rm, .cn, .im]),
   (.xsnd, { cPlain with sq := 4, a := 16, rt := 143 },
    [.lm, .co, .d, .b, .cc, .as_, .bs, .ta, .tb, .td, .fp1, .fp2, .rm, .cn, .im]),
   (.xrcv, { cPlain with sq := 10, lm := 5, d := 18, rt := 142 },
    [.co, .a, .b, .cc, .as_, .bs, .ta, .tb, .td, .fp1, .fp2, .rm, .cn, .im]),
   (.mma, { cPlain with sq := 3, co := 0, d := 1, as_ := 1, bs := 8, ta := 0x200, tb := 0x280, rt := 211, fp1 := 3, fp2 := 4, cn := 6, im := 11 },
    [.lm, .cc, .td, .rm]),
   (.mzero, { cPlain with sq := 8, d := 1 },
    [.lm, .co, .a, .b, .cc, .as_, .bs, .ta, .tb, .td, .rt, .fp1, .fp2, .rm, .cn, .im]),
   (.mdrain, { cPlain with sq := 8, lm := 2, a := 1, td := 0x3E8, fp2 := 9, rm := 3, cn := 12 },
    [.co, .d, .b, .cc, .as_, .bs, .ta, .tb, .rt, .fp1, .im]),
   (.mload, { cPlain with sq := 8, d := 1, ta := 0x3F0, fp1 := 1, cn := 8 },
    [.lm, .co, .a, .b, .cc, .as_, .bs, .tb, .td, .rt, .fp2, .rm, .im]),
   (.mread, { cPlain with sq := 10, lm := 5, d := 22, a := 1, im := 31 },
    [.co, .b, .cc, .as_, .bs, .ta, .tb, .td, .rt, .fp1, .fp2, .rm, .cn]),
   (.patch, { cPlain with sq := 10, lm := 5, d := 1, b := 23, co := 1, im := 0x1F8, cn := 8 },
    [.a, .cc, .as_, .bs, .ta, .tb, .td, .rt, .fp1, .fp2, .rm]),
   (.lqnear, { cPlain with sq := 10, lm := 5, d := 1, as_ := 1, ta := 0x3FC, td := 0x1F4, fp1 := 2 },
    [.co, .b, .cc, .bs, .tb, .rt, .fp2, .rm, .cn, .im]),
   (.lqdec, { cPlain with sq := 10, lm := 5, d := 28, a := 5, as_ := 5 },
    [.co, .b, .cc, .bs, .tb, .td, .rt, .fp1, .fp2, .rm, .cn, .im]),
   (.lqscale, { cPlain with sq := 10, lm := 5, d := 6, a := 8, fp1 := 0 },
    [.co, .b, .cc, .bs, .tb, .td, .rt, .fp2, .rm, .cn, .im]),
   (.lqmerge, { cPlain with sq := 10, lm := 5, a := 7, ta := 1, td := 2, cn := 3, im := 5 },
    [.co, .d, .b, .cc, .as_, .bs, .tb, .rt, .fp1, .fp2, .rm])]

def zeroFields : List ((CForm → Instr) × CForm × List CField) :=
  zeroFields1 ++ zeroFields2 ++ zeroFields3 ++ zeroFields4

theorem test_wf_cell_zero :
    zeroFields.all (fun p => WellFormed (p.1 p.2.1) && p.2.2.all fun x => !WellFormed (p.1 (x.mark p.2.1))) = true := by
  decide +kernel

def badScalar1 : List Instr :=
  [.add { rPlain with fn := 1 }, .sub { rPlain with fn := 1 }, .mul { rPlain with fn := 1 }, .mulh { rPlain with fn := 1 },
   .mulhn { rPlain with fn := 1 }, .div { rPlain with fn := 1 }, .divn { rPlain with fn := 1 }, .rem { rPlain with fn := 1 },
   .remn { rPlain with fn := 1 }, .and { rPlain with fn := 1 }, .or { rPlain with fn := 1 }, .xor { rPlain with fn := 1 },
   .shl { rPlain with fn := 1 }, .shr { rPlain with fn := 1 }, .shra { rPlain with fn := 1 }, .rotl { rPlain with fn := 1 },
   .min { rPlain with fn := 1 }, .max { rPlain with fn := 1 }, .minn { rPlain with fn := 1 }, .maxn { rPlain with fn := 1 },
   .shli { iPlain with imm := 64 }, .shri { iPlain with imm := 64 }, .shrai { iPlain with imm := -1 },
   .clz { rPlain with b := 1 }, .clz { rPlain with fn := 1 }, .popc { rPlain with b := 1 }, .popc { rPlain with fn := 1 }]

def badScalar2 : List Instr :=
  [.cmp { rPlain with d := 1 }, .cmp { rPlain with fn := 6 <<< 15 }, .cmp { rPlain with fn := 1 }, .sel { rPlain with fn := 1 },
   .sel { rPlain with fn := 1 <<< 15 }, .mov { rPlain with b := 1 }, .mov { rPlain with fn := 1 },
   .lih { lPlain with imm := 1 <<< 30 }, .addr { rPlain with fn := 7 }, .addr { rPlain with fn := 8 },
   .extb { rPlain with b := 1 }, .extb { rPlain with fn := 2 }, .exth { rPlain with b := 1 }, .exth { rPlain with fn := 2 },
   .extw { rPlain with b := 1 }, .extw { rPlain with fn := 2 }, .bfx { rPlain with b := 1 }, .bfx { rPlain with fn := 1 <<< 13 },
   .bfx { rPlain with fn := 2 <<< 6 ||| 62 }, .bfi { rPlain with fn := 1 <<< 12 }, .bfi { rPlain with fn := 63 <<< 6 ||| 1 }]

def badScalar3 : List Instr :=
  [.pand { rPlain with d := 8 }, .pand { rPlain with a := 8 }, .pand { rPlain with b := 8 }, .pand { rPlain with fn := 4 },
   .por { rPlain with d := 8 }, .por { rPlain with a := 8 }, .por { rPlain with b := 8 }, .por { rPlain with fn := 4 },
   .pnot { rPlain with d := 8 }, .pnot { rPlain with a := 8 }, .pnot { rPlain with b := 1 }, .pnot { rPlain with fn := 1 },
   .fcvts { rPlain with b := 1 }, .fcvts { rPlain with fn := 5 <<< 14 }, .fcvts { rPlain with fn := 7 <<< 10 },
   .fcvts { rPlain with fn := 10 <<< 14 ||| 10 <<< 10 }, .fcvts { rPlain with fn := 4 <<< 7 }, .fcvts { rPlain with fn := 1 },
   .fcmps { rPlain with d := 1 }, .fcmps { rPlain with fn := 4 <<< 15 }, .fcmps { rPlain with fn := 3 <<< 8 },
   .fcmps { rPlain with fn := 1 }, .lapset { rPlain with d := 4 }, .lapset { rPlain with b := 1 },
   .lapset { rPlain with fn := 1 }, .lapadd { rPlain with d := 4 }, .lapadd { rPlain with a := 4 },
   .lapadd { rPlain with fn := 4 }, .lapget { rPlain with a := 4 }, .lapget { rPlain with b := 1 },
   .lapget { rPlain with fn := 1 }]

/-- Terms of the S slots with a field that shall be zero or a value outside its table (R50, R55). -/
def badScalar : List Instr := badScalar1 ++ badScalar2 ++ badScalar3

theorem test_wf_scalar : badScalar.all (fun i => !WellFormed i) = true := by decide +kernel

def badFlow1 : List Instr :=
  [.br { fPlain with a := 1 }, .br { fPlain with b := 1 }, .br { fPlain with tgt := 0x10000 }, .brc { fPlain with b := 6 <<< 3 },
   .brc { fPlain with b := 1 }, .brc { fPlain with tgt := 0x10000 }, .jmp { fPlain with b := 1 }, .jmp { fPlain with tgt := 1 },
   .call { fPlain with b := 1 }, .call { fPlain with tgt := 0x10000 }, .ret { fPlain with b := 1 }, .ret { fPlain with tgt := 1 },
   .loop { fPlain with b := 1 }, .loop { fPlain with tgt := 0x10000 }, .loopi fPlain, .loopi { fPlain with a := 1, tgt := 0x10000 },
   .breakl { fPlain with a := 1 }, .breakl { fPlain with b := 1 }, .breakl { fPlain with tgt := 0x10000 }]

def badFlow2 : List Instr :=
  [.waitb { fPlain with a := 16 }, .waitb { fPlain with b := 1 }, .waitb { fPlain with tgt := 0x10000 },
   .waitt { fPlain with a := 8 }, .waitf { fPlain with a := 4 }, .waitf { fPlain with b := 1 }, .waitf { fPlain with tgt := 0x100 },
   .advp { fPlain with a := 16 }, .advp { fPlain with b := 1 }, .advp { fPlain with tgt := 0x10000 }, .advc { fPlain with a := 16 },
   .advc { fPlain with b := 1 }, .advc { fPlain with tgt := 0x10000 }, .yield { fPlain with a := 1 }, .yield { fPlain with b := 1 },
   .yield { fPlain with tgt := 0x100000000 }, .endOp { fPlain with a := 1 }, .endOp { fPlain with b := 1 },
   .endOp { fPlain with tgt := 1 }, .sleep { fPlain with a := 1 }, .sleep { fPlain with b := 1 }, .sleep { fPlain with tgt := 1 },
   .trap { fPlain with a := 1 }, .trap { fPlain with b := 1 }, .trap { fPlain with tgt := 0x10000 }, .rft { fPlain with a := 1 },
   .rft { fPlain with b := 1 }, .rft { fPlain with tgt := 1 }]

/-- The same of the F slot (R52, R56). -/
def badFlow : List Instr := badFlow1 ++ badFlow2

theorem test_wf_flow : badFlow.all (fun i => !WellFormed i) = true := by decide +kernel

def badMemory1 : List Instr :=
  (([.ldb, .ldbn, .ldh, .ldhn, .ldw, .ldwn, .ldd] : List (MForm → Instr)).map fun x =>
    [x { mPlain with b := 1 }, x { mPlain with attr := 1 }]).flatten

def badMemory2 : List Instr :=
  (([.stb, .sth, .stw, .std] : List (MForm → Instr)).map fun x =>
    [x { mPlain with d := 1 }, x { mPlain with attr := 1 }]).flatten

def badMemory3 : List Instr :=
  (([.amoadd, .amoand, .amoor, .amoxor, .amomin, .amomax, .amominn, .amomaxn, .amoswp, .amocas] : List (MForm → Instr)).map
    fun x => [x { mPlain with attr := 5 <<< 5 ||| 4 }, x { mPlain with attr := 2 }, x { mPlain with attr := 5 }]).flatten

def badMemory4 : List Instr :=
  (([0, 16, 28, 0xA2, 3] : List (BitVec 8)).map fun a => Instr.fence { mPlain with attr := a })

def badMemory5 : List Instr :=
  (([.tlread, .cpstep, .cpstat, .sysr, .front] : List (MForm → Instr)).map fun x => x { mPlain with a := 9 })

def badMemory6 : List Instr :=
  (([.fence, .tlinc, .cpstep, .gidx, .gcfg, .bsend, .prog, .gcancel, .xput, .tdefer, .tpwr, .vpwr, .sysw, .tlbinv, .tlbsync,
      .watch] : List (MForm → Instr)).map fun x => x { mPlain with d := 1, attr := 2, imm := 1 })

def badMemory7 : List Instr :=
  (([.cpgo, .tlread, .cpstep, .cpstat, .gidx, .gcfg, .prog, .front, .gcancel, .tdefer, .tpwr, .vpwr, .sysr, .tlbinv, .tlbsync,
      .evpop, .watch] : List (MForm → Instr)).map fun x => x { mPlain with b := 1, imm := 1 })

def badMemory8 : List Instr :=
  (([.tlinc, .cpgo, .cpstat, .gidx, .gcfg, .bsend, .prog, .front, .gcancel, .xput, .tdefer, .tpwr, .vpwr, .sysr, .sysw, .tlbinv,
      .tlbsync, .evpop, .watch] : List (MForm → Instr)).map fun x => x { mPlain with attr := 1, imm := 1 })

def badMemory9 : List Instr :=
  (([.tlread, .cpgo, .cpstep, .cpstat, .gidx, .gcfg, .bsend, .prog, .front, .gcancel, .xput, .tdefer, .tpwr, .vpwr, .sysr, .sysw,
      .tlbinv, .tlbsync, .evpop, .watch] : List (MForm → Instr)).map fun x => x { mPlain with imm := 1 <<< 25 })

def badMemory10 : List Instr :=
  [.tlinc { mPlain with a := 8 }, .tlread { mPlain with a := 8 }, .cpgo { mPlain with imm := 8 }, .cpstep { mPlain with imm := 4096 },
   .gidx { mPlain with imm := 16 }, .bsend { mPlain with imm := 1024 }, .prog mPlain, .prog { mPlain with imm := 256 },
   .front { mPlain with imm := 256 }, .xput { mPlain with imm := 16 }, .tdefer { mPlain with imm := 4096 },
   .tpwr { mPlain with imm := 1 <<< 14 }, .vpwr { mPlain with imm := 3 <<< 8 }, .vpwr { mPlain with imm := 1 <<< 10 },
   .sysr { mPlain with imm := 4096 }, .sysw { mPlain with imm := 4096 }, .sysw { mPlain with a := 1 }, .tlbinv { mPlain with imm := 3 },
   .tlbsync { mPlain with a := 1 }, .evpop { mPlain with d := 1 }, .watch { mPlain with imm := 8 }]

/-- The M instructions with what their rows of R57 leave zero: d, a, b, attr and a bit of imm, each set alone. -/
def badMemory : List Instr :=
  badMemory1 ++ badMemory2 ++ badMemory3 ++ badMemory4 ++ badMemory5 ++ badMemory6 ++ badMemory7 ++ badMemory8 ++ badMemory9 ++ badMemory10

theorem test_wf_memory : badMemory.all (fun i => !WellFormed i) = true := by decide +kernel

def badCell1 : List Instr :=
  let v : CForm := { cPlain with sq := 1 }
  [.tldm { v with cn := 0 }, .tldm { v with d := 30, cn := 3 }, .vadd { v with rm := 4 }, .vadd { v with as_ := 9 },
   .vadd { v with bs := 9 }, .vadd { v with as_ := 8 }, .vadd { v with bs := 8 }, .vadd { v with fp1 := 3 },
   .vadd { v with fp1 := 12 }, .vabs { v with fp1 := 13 }, .vcmp { v with d := 8 }, .vcmp { v with co := 5 },
   .vsel { v with fp1 := 5 }, .vsel { v with fp1 := 12 }, .vsel { v with cc := 8 }, .vrnd { v with rm := 7 },
   .viadd { v with fp1 := 6 }, .viadd { v with fp1 := 11 }, .vimad { v with fp1 := 0 }, .vicmp { v with fp1 := 7, co := 6 },
   .vicmp { v with fp1 := 7, d := 8 }, .vcvt { v with fp1 := 0, fp2 := 1 }, .vcvt { v with fp1 := 12, fp2 := 0 },
   .vcvt { v with fp1 := 0, fp2 := 5 }, .vcvt { v with rm := 5 }, .vpack { v with fp1 := 3, fp2 := 4 },
   .vpack { v with fp1 := 0, fp2 := 1, a := 1 }, .vpack { v with fp1 := 0, fp2 := 7, a := 2 },
   .vpack { v with fp1 := 0, fp2 := 7, as_ := 8 }, .vpack { v with fp1 := 0, fp2 := 1, as_ := 1 }]

def badCell2 : List Instr :=
  let v : CForm := { cPlain with sq := 1 }
  [.vunpk { v with fp1 := 0, fp2 := 1 }, .vunpk { v with fp1 := 7, fp2 := 10, d := 2 }, .vunpk { v with fp1 := 5, fp2 := 0 },
   .vunpk { v with fp1 := 7, fp2 := 9, as_ := 6 }, .vunpk { v with fp1 := 7, fp2 := 9, as_ := 8 },
   .vunpk { v with fp1 := 12, fp2 := 0 }, .vunpk { v with fp1 := 12, as_ := 1, fp2 := 3 }, .vunpk { v with fp1 := 3, fp2 := 9 },
   .vperm { v with fp1 := 5 }, .vperm { v with fp1 := 11 }, .vbcast { v with fp1 := 12 }, .vbcast { v with fp1 := 0, im := 8 },
   .vbcast { v with fp1 := 1, im := 16 }, .vrsum { v with fp1 := 3 }, .vrmax { v with fp1 := 11 }, .vrsum { v with rm := 4 },
   .vspar { v with d := 1 }, .vspar { v with fp1 := 6 }, .kand { v with d := 8 }, .kor { v with b := 8 }, .knot { v with a := 8 },
   .kmov { v with d := 16 }, .kpop { v with a := 8 }, .shn { v with rt := 0x30 }, .she { v with rt := 1 }, .shs { v with rt := 0x40 },
   .shw { v with fp1 := 5 }, .xsnd { v with rt := 0x80, a := 1 }, .xsnd { v with rt := 0x20 }, .xrcv { v with rt := 0x81, d := 1 },
   .xrcv { v with rt := 0x30 }]

def badCell3 : List Instr :=
  let v : CForm := { cPlain with sq := 1 }
  let m : CForm := { v with as_ := 1, bs := 8, fp1 := 3, fp2 := 3, cn := 4 }
  [.mma { m with cn := 0 }, .mma { m with co := 3 }, .mma { m with d := 2 }, .mma { m with rm := 1 }, .mma { m with im := 1 <<< 12 },
    .mma { m with im := 9 }, .mma { m with rt := 0x30 }, .mma { m with fp2 := 7 }, .mma { m with fp1 := 13 }, .mma { m with fp2 := 14 },
    .mma { m with a := 1 }, .mma { m with b := 1 }, .mma { m with as_ := 2, ta := 1 }, .mma { m with as_ := 0, fp1 := 12 },
    .mma { m with as_ := 6, fp1 := 6, fp2 := 6 }, .mma { m with as_ := 0, fp1 := 5, fp2 := 5 }, .mma { m with bs := 1 },
    .mma { m with bs := 0, b := 3 }, .mma { m with as_ := 8 }, .mma { m with tb := 1 }, .mma { m with ta := 1021 },
    .mma { m with tb := 1018 }, .mma { m with im := 1 <<< 11 }, .mma { m with as_ := 0, a := 1, im := 1 <<< 11 },
    .mma { m with bs := 2, tb := 1 }, .mma { m with as_ := 5, ta := 1022 }]

def badCell4 : List Instr :=
  let v : CForm := { cPlain with sq := 1 }
  [.mzero { v with d := 2 }, .mdrain { v with cn := 17 }, .mdrain { v with cn := 0 }, .mdrain { v with a := 2, cn := 1 },
   .mdrain { v with rm := 4, cn := 1 }, .mdrain { v with fp2 := 13, cn := 1 }, .mdrain { v with fp2 := 11, cn := 3 },
   .mdrain { v with fp2 := 6, cn := 1, lm := 1 }, .mdrain { v with fp2 := 0, cn := 1, td := 1021 }, .mload { v with cn := 0 },
   .mload { v with cn := 17 }, .mload { v with d := 2, cn := 1 }, .mload { v with fp1 := 3, cn := 1 },
   .mload { v with cn := 1, ta := 1021 }, .mread { v with d := 1 }, .mread { v with a := 2 }, .mread { v with im := 32 },
   .patch { v with cn := 0 }, .patch { v with d := 2, cn := 1 }, .patch { v with co := 2, cn := 1 }, .patch { v with im := 512, cn := 1 },
   .patch { v with cn := 9 }, .patch { v with im := 31, cn := 2 }, .lqnear { v with d := 2 }, .lqnear { v with a := 4 },
   .lqnear { v with fp1 := 3 }, .lqnear { v with fp1 := 12 }, .lqnear { v with as_ := 1, ta := 1017 }, .lqdec { v with d := 2 },
   .lqdec { v with as_ := 6 }, .lqdec { v with as_ := 8 }, .lqscale { v with a := 1 }, .lqscale { v with as_ := 2 },
   .lqmerge { v with cn := 0 }, .lqmerge { v with cn := 9 }, .lqmerge { v with cn := 1, im := 8 }, .lqmerge { v with cn := 4, im := 5 }]

/-- C instructions with a value that their rows or their chapters call ILLEGAL_OP (R54, R58, R128, R130, R131, R142, R149,
R154, R158 to R160, R163, R166, R172 to R178, R190 to R197, R212 to R216). -/
def badCell : List Instr := badCell1 ++ badCell2 ++ badCell3 ++ badCell4

theorem test_wf_cell : badCell.all (fun i => !WellFormed i) = true := by decide +kernel

/-- A step of the device is no instruction word. -/
theorem test_wf_steps : ([.bundleFetch 0 0, .reset 0 0 [], .powerOnReset true []] : List Instr).all (fun i => !WellFormed i) = true := by
  decide +kernel

/-- The table words are well-formed. -/
theorem test_wf_words :
    (scalarWords ++ flowWords ++ memoryWords ++ cellWords).all (fun p => WellFormed p.2) = true := by decide +kernel

/-! ### Worked examples of the manual -/

/-- The bundle of "Worked example: one bundle to the bit" and the instructions of its slots. -/
theorem test_example_bundle :
    (let w : BitVec 384 :=
      0x30840000011461C00000022080FFFFFF0724100000000010081006110000000000000200000000000000000000000000
     decide ((Header.unpack (bundleH w)).ew = 12) && decide ((Header.unpack (bundleH w)).skip = 2) &&
      reads (.s (bundleS0 w), .add { rPlain with d := 5, a := 6, b := 7 }) &&
      reads (.s (bundleS1 w), .addi { iPlain with d := 8, a := 8, imm := -1 }) &&
      reads (.m (bundleM w), .ldd { mPlain with d := 9, a := 1, imm := 16 }) &&
      reads (.c (bundleC w), .vadd { cPlain with sq := 1, d := 3, a := 1, b := 2, fp1 := 2 }) &&
      reads (.f (bundleF w), .nop)) = true := by decide +kernel

/-- "Rounding one value into three formats": 300 and 470 in E4M3 and E5M2, 2.5 and −7 in E2M1, under each mode, and the
tiny case 2⁻¹⁴⁰ in FP16. -/
theorem test_example_rounding :
    (let codes (g : Fmt) (neg : Bool) (m : Nat) (e : Int) :=
      [RMode.rne, .rtz, .rup, .rdn].map fun r => (g.spec.round r neg m e).1
     let ovf (g : Fmt) (neg : Bool) (m : Nat) (e : Int) :=
      [RMode.rne, .rtz, .rup, .rdn].map fun r => (g.spec.round r neg m e).2 == kOverflow
     codes .e4m3 false 300 0 = [0x79, 0x79, 0x7A, 0x79] ∧ codes .e4m3 false 470 0 = [0x7E, 0x7E, 0x7E, 0x7E] ∧
      ovf .e4m3 false 470 0 = [true, false, true, false] ∧ codes .e5m2 false 300 0 = [0x5D, 0x5C, 0x5D, 0x5C] ∧
      codes .e5m2 false 470 0 = [0x5F, 0x5F, 0x60, 0x5F] ∧ codes .mxfp4 false 5 (-1) = [0x4, 0x4, 0x5, 0x4] ∧
      codes .mxfp4 true 7 0 = [0xF, 0xF, 0xF, 0xF] ∧ ovf .mxfp4 true 7 0 = [true, false, false, true] ∧
      codes .fp16 false 1 (-140) = [0, 0, 1, 0] ∧ (Fmt.fp16.spec.round .rup false 1 (-140)).2 = kUnderflow) := by decide +kernel

/-- "One MXFP4 block in global memory": codes 0x5 and 0xB under the scale byte 0x7C are 0.375 and −0.1875. -/
theorem test_example_mx_block :
    ((mxValue .mxfp4 0x7C 0x5).dy.eqv ⟨3, -3⟩ && (mxValue .mxfp4 0x7C 0xB).dy.eqv ⟨-3, -4⟩) = true := by decide +kernel

/-- "A signalling NaN in one lane": b's payload is kept, quieted; later it is 0x7FC0 in BF16, 0x7E in E5M2, 0x7F in E4M3. -/
theorem test_example_nan :
    (let d := Fmt.fp32.spec.decode
     fmaRound Fmt.fp32.spec .rne (d 0x3F800000) (d 0x7F800001) (d 0xFFC00002) = (0x7FC00001, kInvalid) ∧
      (convert .fp32 .bf16 .rne 0x7FC00001).1 = 0x7FC0 ∧ (convert .fp32 .e5m2 .rne 0x7FC00001).1 = 0x7E ∧
      (convert .fp32 .e4m3 .rne 0x7FC00001).1 = 0x7F) := by decide +kernel

/-- "Tree order against running order": 5.0 under RNE and 7.0 under RUP, with no event. -/
theorem test_example_tree :
    (let xs := [0x4B800000, 0x3F800000, 0x3F800000, 0x3F800000, 0xCB800000, 0x3F800000, 0x3F800000, 0x3F800000].map some
     (vrsumRow .fp32 .rne xs).1 = 0x40A00000 ∧ (vrsumRow .fp32 .rup xs).1 = 0x40E00000) := by decide +kernel

/-- "Ties, zeros and a NaN": group 0 keeps elements 0 and 2, group 1 keeps 0 and 3. -/
theorem test_example_sparse :
    sparKeep .fp32 [0x40000000, 0x80000000, 0x3F800000, 0xBF800000] = (0, 2) ∧
      sparKeep .fp32 [0x80000000, 0, 0x80000000, 0x7FC00000] = (0, 3) := by decide +kernel

/-- "One MMA to the bit, and one step": two elements under the three operations. -/
theorem test_example_mma :
    (let v := Fmt.e4m3.spec.decode
     let p00 := [(v 0x38, v 0x38), (v 0x38, v 0x38)]
     let p11 := [(v 0x7E, v 0x7E), (v 0x7E, v 0xFE)]
     ([0, 1, 2].map fun co => (fpStep co 0x4B800000 p00).1) = [0x4B800001, 0x4B800000, 0x4B800000] ∧
      ([0, 1, 2].map fun co => (fpStep co 0x3F800000 p11).1) = [0x3F800000, 0x44604000, 0x3F800000]) := by decide +kernel

/-- "One MXFP4 block" drained: scale 127, codes 6 and 1, one underflow-inexact. -/
theorem test_example_drain :
    (let xs : List FVal := [Fmt.fp32.spec.decode 0x40A00000, Fmt.fp32.spec.decode 0x3E99999A] ++
      List.replicate 30 (.fin false 0 0)
     mxScale .mxfp4 .rne xs = 127 ∧
      (mxEncode .mxfp4 .rne 127 xs).take 3 = [(6, noKind), (1, kUnderflow), (0, noKind)]) := by decide +kernel

/-- "Worked cases" 1 to 3 of the lattice chapter: the groups' codewords, and the half-units of the first. -/
theorem test_example_lattice :
    lqEncode (lqPoint [⟨3, -1⟩, ⟨3, -1⟩, ⟨1, -1⟩, ⟨1, -1⟩, ⟨1, -1⟩, ⟨1, -1⟩, ⟨1, -1⟩, ⟨5, -2⟩]) = 0x8180 ∧
      lqEncode (lqPoint ([⟨1, 0⟩, ⟨3, -2⟩, ⟨5, -3⟩] ++ List.replicate 5 .zero)) = 0x0300 ∧
      lqEncode (lqPoint (⟨5, -1⟩ :: List.replicate 7 .zero)) = 0x8082 ∧
      lqDecode 0x8180 = [3, 3, 1, 1, 1, 1, 1, 1] := by decide +kernel

/-- Worked case 4: a NaN present gives the scale 0xFF; with nothing present the scale is 127 (R209). -/
theorem test_example_lattice_scale :
    lqScale [(true, Fmt.fp32.spec.decode 0x7FC00000)] = 0xFF ∧ lqScale [(false, .fin false 1 0)] = 127 := by decide +kernel

/-- R104, R109 at the edges: FP32 overflow under each mode, the least denormal, and integer saturation. -/
theorem test_convert_edges :
    (convert .fp32 .fp16 .rne 0x7F7FFFFF).1 = 0x7C00 ∧ (convert .fp32 .fp16 .rtz 0x7F7FFFFF).1 = 0x7BFF ∧
      (convert .fp32 .i8 .rne 0x43000000).1 = 0x7F ∧ (convert .fp32 .i8 .rne 0xC3010000).1 = 0x80 ∧
      (convert .i32 .fp32 .rne 0xFFFFFFFF).1 = 0xBF800000 := by decide +kernel

/-! ### Small states -/

/-- Core 0 with a running context, between bundles. -/
def between (f : Ctx → Ctx) : State :=
  let s := State.reset.withFetchWord 48 0
  s.setCx (f s.cx)

/-- A checked bundle of five NOPs at halfword 0 of a literal stream. -/
def quiet : Issue := fresh 0 0 25 ⟨1, false, 0, 1, 0⟩ .nop .nop .nop .nop .nop

/-- Core 0 with a checked bundle of its context in issue. -/
def within (f : Ctx → Ctx) : State := between fun x => f { x with issue := some quiet }

/-- The plainest of them. -/
def st : State := within id

/-- What a next state satisfies. -/
def after (r : Res) (p : State → Bool) : Bool :=
  match r with
  | .next t => p t
  | _ => false

/-- The state that an outcome leads to. -/
def got (r : Res) : State :=
  match r with
  | .next t => t
  | _ => State.reset

theorem got_eq {r : Res} (h : after r (fun _ => true) = true) : r = .next (got r) := by
  cases r with
  | next t => rfl
  | fault => cases h
  | refused => cases h

/-- The tables of "One walk, to the bit", for domains 0 and 7: the page at 0x40_0010_0000 is at 0x1_2000_0000; and after it a page
that the host may write, at 0x1_2001_0000. -/
def paged (s : State) : State :=
  { s with
    mgmt := { s.mgmt with domains := ([0, 7] : List Nat).map fun d => ⟨d, 0, true, true, 0, 0x100000000, 0, [(0x10000, 0x4000)]⟩ }
    mem := ([(0x100000000, 0x8000000100001000), (0x100001000, 0x8000000100002000), (0x100002800, 0x8000000100003000),
        (0x100003000, 0x8000000100004000), (0x100004080, 0xC001000120000030), (0x100004088, 0xC002000120010030)] : List (Nat × Nat)).foldl
      (fun m p => writeBytes m p.1 (leBytes 8 p.2)) s.mem }

/-- The example's walk, and its refusal of an address with no entry (R391, R392). -/
theorem test_example_walk :
    ((match (paged st).walk 0 0x4000100000 with | .ok x => decide (x.loc = .mem 0x120000000) | .error _ => false) &&
      (match (paged st).walk 7 0x4000120000 with | .ok _ => false | .error z => z == cPageFault) &&
      (match (paged st).walk 0 (2 ^ 56) with | .ok _ => false | .error z => z == cPageFault)) = true := by decide +kernel

/-! ### States and operands that meet the hypotheses of the statements -/

theorem inIssue_st : InIssue st quiet := by unfold InIssue; decide +kernel
theorem taken_r : Taken st rPlain.pr rPlain.pn := by unfold Taken; decide +kernel
theorem taken_i : Taken st iPlain.pr iPlain.pn := by unfold Taken; decide +kernel
theorem taken_f : Taken st fPlain.pr fPlain.pn := by unfold Taken; decide +kernel
theorem taken_m : Taken st mPlain.pr mPlain.pn := by unfold Taken; decide +kernel

/-- A predicated form whose predicate p1 is true where it is inverted and p1 is 0. -/
theorem taken_inverted : Taken st 1 1 := by unfold Taken; decide +kernel

theorem witness_ArithmeticResults : InIssue st quiet ∧ Taken st rPlain.pr rPlain.pn ∧ Taken st iPlain.pr iPlain.pn :=
  ⟨inIssue_st, taken_r, taken_i⟩
theorem witness_DivisionResults : InIssue st quiet ∧ Taken st rPlain.pr rPlain.pn := ⟨inIssue_st, taken_r⟩
theorem witness_LogicShiftResults : InIssue st quiet ∧ Taken st rPlain.pr rPlain.pn ∧ Taken st iPlain.pr iPlain.pn :=
  ⟨inIssue_st, taken_r, taken_i⟩
theorem witness_CountBoundResults : InIssue st quiet ∧ Taken st 1 1 := ⟨inIssue_st, taken_inverted⟩
theorem witness_CompareMoveResults : InIssue st quiet ∧ Taken st rPlain.pr rPlain.pn := ⟨inIssue_st, taken_r⟩

/-- The widest field from bit 0 and the narrowest from bit 63. -/
theorem witness_BitFieldResults : InIssue st quiet ∧ Taken st rPlain.pr rPlain.pn ∧
    (63 : BitVec 18).toNat / 2 ^ 6 % 64 + ((63 : BitVec 18).toNat % 64 + 1) ≤ 64 ∧
    (63 <<< 6 : BitVec 18).toNat / 2 ^ 6 % 64 + ((63 <<< 6 : BitVec 18).toNat % 64 + 1) ≤ 64 :=
  ⟨inIssue_st, taken_r, by decide +kernel⟩

theorem witness_PredicateResults : InIssue st quiet ∧ Taken st rPlain.pr rPlain.pn := ⟨inIssue_st, taken_r⟩

/-- FP32 to I32 and back; comparisons of two numbers, and of a NaN, under each condition. -/
theorem witness_ScalarFloatResults : InIssue st quiet ∧ Taken st rPlain.pr rPlain.pn ∧
    (Fmt.ofCode ((10 <<< 10 : BitVec 18).toNat / 2 ^ 14 % 16) = some .fp32 ∧
      Fmt.ofCode ((10 <<< 10 : BitVec 18).toNat / 2 ^ 10 % 16) = some .i32) ∧
    ((Fmt.fp32.spec.decode 0x3F800000).isNan = false ∧ (Fmt.fp32.spec.decode 0x7FC00000).isNan = true) ∧
    ([0, 1, 2, 3] : List (BitVec 18)).map (fun (c : BitVec 18) => (c <<< 15).toNat / 2 ^ 15) = [0, 1, 2, 3] :=
  ⟨inIssue_st, taken_r, by decide +kernel⟩

/-- The counter at level 0 at its greatest with nothing added, and a sum of 0xFFFF at level 3. -/
theorem witness_LapResults : InIssue st quiet ∧ Taken st rPlain.pr rPlain.pn ∧
    (0xFFFF000000000000 / 2 ^ 48 % 2 ^ 16 + 0 ≤ 0xFFFF ∧ 0x7FFF % 2 ^ 16 + 0x8000 ≤ 0xFFFF) :=
  ⟨inIssue_st, taken_r, by decide⟩

theorem witness_ConstantRegisters : (1 : Nat) ≠ 0 := by decide

/-- One entry due for g5, for p1 and for lap0, none for g6, another not yet due. -/
def landing : State :=
  between fun x => { x with vt := 9, land := [⟨.g, 5, 77, 9⟩, ⟨.p, 1, 1, 9⟩, ⟨.lap, 0, 3, 8⟩, ⟨.g, 7, 8, 10⟩] }

/-- The entries due for a register. -/
def dueFor (file : LReg) (n : Nat) : List Landing :=
  (landing.ctxAt 0 0).land.filter fun e => decide (e.due ≤ (landing.ctxAt 0 0).vt) && e.kind == file && e.idx == n

theorem witness_LandingsDue : landing.passes 0 0 = true ∧ dueFor .g 5 = [⟨.g, 5, 77, 9⟩] ∧ dueFor .g 6 = [] ∧
    dueFor .p 1 = [⟨.p, 1, 1, 9⟩] ∧ dueFor .lap 0 = [⟨.lap, 0, 3, 8⟩] := by
  decide +kernel

theorem witness_ScalarFrame : InIssue st quiet ∧ IsScalar (.add rPlain) ∧ after (exec (.add rPlain) st) (fun _ => true) = true :=
  ⟨inIssue_st, trivial, by decide +kernel⟩

theorem witness_FalsePredicate : InIssue st quiet ∧ ∃ m, slotMeaning (.add { rPlain with pn := 1 }) st = some m ∧ m.taken = false :=
  ⟨inIssue_st, _, rfl, by decide +kernel⟩

theorem witness_CheckedSlots : InIssue st quiet ∧ (between id).cx.issue = none ∧
    ∃ m z, slotMeaning (.add { rPlain with fn := 1 }) (between id) = some m ∧ (between id).slotCause m.check = some z ∧
      z.code = cIllegalOp :=
  ⟨inIssue_st, by decide +kernel, _, _, rfl, rfl, by decide +kernel⟩

theorem witness_TransferResults : InIssue st quiet ∧ Taken st fPlain.pr fPlain.pn ∧ gOf st 0 = 0 ∧ ¬ (gOf st 0).toInt < 0 :=
  ⟨inIssue_st, taken_f, by decide +kernel⟩

/-- A count of 1, the greatest count, a count of 0, and a loop to break. -/
def looping : State := within fun x => { x with g := [(1, 1), (2, 0xFFFFFFFF)], loops := [⟨0, 0, 2⟩] }

theorem witness_LoopResults : InIssue looping quiet ∧ Taken looping fPlain.pr fPlain.pn ∧ 0 < (gOf looping 1).toNat ∧
    (gOf looping 2).toNat = 0xFFFFFFFF ∧ gOf looping 0 = 0 ∧ looping.cx.loops ≠ [] := by
  unfold InIssue Taken; decide +kernel

/-- A bundle that has raised an invalid operation in S1 with its kind enabled, met a watchpoint and a TRAP. -/
def ended : Issue :=
  { quiet with raises := [⟨1, scalarEvs kInvalid⟩], evtrap := 2, watch := some (2, 5), user := some 7 }

/-- The end of each loop body in turn, and the end of a bundle with a target and of one in sequence. -/
theorem witness_LoopEndTest :
    (looping.cx.loops = [] ++ [⟨0, 0, 2⟩]) ∧ (⟨0, 0, 2⟩ : LoopEntry).fin ≠ 1 ∧ (⟨0, 0, 2⟩ : LoopEntry).fin = 0 ∧
      (⟨0, 0, 2⟩ : LoopEntry).count ≠ 1 ∧ (⟨0, 0, 1⟩ : LoopEntry).count = 1 ∧
      ({ looping.cx with resume := some ⟨0x10, some 9⟩ } : Ctx).resumeNpc = some 9 ∧ looping.cx.resumeNpc = none ∧
      { quiet with target := some 5 }.target = some 5 ∧ quiet.target = none ∧ st.cx.loops = [] ∧
      (looping.cx.loopEndTest 0).1 = some 0 ∧ (looping.cx.loopEndTest 1).1 = none ∧
      (st.ctxAt 0 0).issue = some quiet ∧ quiet.late = none ∧ NoOwnStream (st.ctxAt 0 0) ∧ quiet.raises = [] ∧
      ((between fun x => { x with issue := some ended }).ctxAt 0 0).issue = some ended ∧ ended.late = none ∧
      ended.user = some 7 ∧ ended.watch = some (2, 5) ∧ FirstEnabled ended 1 ∧ (st.ctxAt 0 0).pend = [] := by
  unfold FirstEnabled NoOwnStream; decide +kernel

/-- An answer that holds a value does so with some value. -/
theorem isOk_pair {ε α σ : Type} {p : Except ε α × σ} (h : p.1.isOk = true) : ∃ v, p = (.ok v, p.2) := by
  obtain ⟨_ | v, _⟩ := p
  · cases h
  · exact ⟨v, rfl⟩

/-- Whether an operand was read. -/
def gotOperand {α : Type} : Fetched α → Bool
  | .ok .. => true
  | _ => false

theorem gotOperand_some {α : Type} {r : Fetched α} (h : gotOperand r = true) : ∃ v u, r = .ok v u := by
  cases r with
  | ok v u => exact ⟨v, u, rfl⟩
  | issue => cases h
  | late => cases h

/-- A graph of two stations, its frontier at station 1 at lap 3. -/
def graph : Graph := { id := 5, start := 0, stations := 2, fwbase := 0, cross := false, resv := 0, auth := 0, stn := [0, 0]
                       table := [0, 0, 0, 0], front := [(1, 3)] }

/-- A launch with counters and the graph. -/
def launched (s : State) : State :=
  { s with launches := s.launches.map fun p => (p.1, { p.2 with graph := some graph, counters := [(3, 9)] }) }

/-- A tower handle of four slots, one row each, with two filled, and a timeline handle of engine context 3. -/
def half : Handle := ⟨false, 8, 1, 4, 2, 0, 2⟩

/-- Registers that the memory statements use: g1 an address of its own CMEM, g2 the page, g3 the CMEM of slot 0, g4 and g5
data; h2 the handle, tl1 the timeline handle; the stream's and watch's areas of CMEM hold descriptors. -/
def busy (x : Ctx) : Ctx :=
  { x with
    g := [(1, 0xCE00000000001000), (2, 0x4000100000), (3, 0xC800000000000000), (4, 0x1122334455667788), (5, 5), (6, 0xCE00000000002000),
      (7, 0xCE00000000002400), (8, 0xCE00000000002800), (9, 0xCE00000000002C00), (10, 0), (11, 0xCE00000000003000),
      (12, 0xCE00000000003400)]
    h := [(2, half.word)]
    tl := [(1, 0x8300000000000000)] }

/-- Doublewords of CMEM: a copy of 32 bytes from one place of the page to another, a gather configuration, a baton
descriptor, one delta. -/
def operands : List (Nat × Nat) :=
  [(0x2010, 0x4000100000), (0x2018, 0x4000100040), (0x2020, 32), (0x2400, 0x4000100000), (0x2408, 0x100000000), (0x2410, 32),
   (0x2800, 0xFFFF001000000000), (0x2C08, 0x100000000)]

/-- The machine of the memory statements, a bundle in issue. -/
def mst : State :=
  let s := launched (paged (within busy))
  s.setCore 0 { s.core 0 with
    cmem := operands.foldl (fun m p => writeBytes m p.1 (leBytes 8 p.2)) (s.core 0).cmem }

theorem inIssue_mst : InIssue mst quiet := by unfold InIssue; decide +kernel
theorem taken_mst : Taken mst mPlain.pr mPlain.pn := by unfold Taken; decide +kernel

/-- A wait for filled slots that is one short, one for free slots one short, a threshold one above the counter, and a
frontier at the lap itself. -/
def waiting : State := launched (between busy)

theorem witness_WaitResults : InIssue mst quiet ∧ Taken waiting fPlain.pr fPlain.pn ∧ waiting.cx.issue = none ∧
    waiting.cx.land.length ≤ 24 ∧
    (let f : FForm := { fPlain with a := 2, tgt := 3 }
     legal (.waitb f) = true ∧ waiting.cx.handle? (f.a.toNat % 16) = some half ∧ f.tgt.toNat % 2 ^ 16 ≤ half.count ∧
      half.filled < f.tgt.toNat % 2 ^ 16 ∧ half.count - half.filled < f.tgt.toNat % 2 ^ 16) ∧
    (let f : FForm := { fPlain with a := 1, b := 5, tgt := 5 }
     legal (.waitt f) = true ∧ waiting.cx.timeline? (f.a.toNat % 8) = some 3 ∧
      (waiting.counterOf waiting.turn.core 3).toNat < ((gOf waiting f.b).toNat + f.tgt.toNat) % 2 ^ 64) ∧
    (let f : FForm := { fPlain with tgt := 1 }
     legal (.waitf f) = true ∧ waiting.graphOf waiting.turn.core = some graph ∧ f.tgt.toNat % 2 ^ 8 < graph.stations ∧
      ((waiting.modCx fun x => { x with lap := [(0, 3)] }).cx.lapReg (f.a.toNat % 4)).toNat =
        (graph.frontier (f.tgt.toNat % 2 ^ 8)).toNat) :=
  ⟨inIssue_mst, by unfold Taken; decide +kernel, by decide +kernel⟩

/-- No slots; all the free slots; all the filled slots. -/
theorem witness_AdvanceResults : InIssue mst quiet ∧ Taken mst fPlain.pr fPlain.pn ∧ mst.cx.handle? (2 % 16) = some half ∧
    ([0, 2] : List (BitVec 40)).map (fun (t : BitVec 40) => t.toNat % 2 ^ 16) = [0, 2] ∧ half.filled + 2 ≤ half.count ∧
    2 ≤ half.filled :=
  ⟨inIssue_mst, by unfold Taken; decide +kernel, by decide +kernel⟩

theorem witness_EndingResults : InIssue mst quiet ∧ Taken mst fPlain.pr fPlain.pn ∧
    (0xFFFFFFFF : BitVec 40).toNat % 2 ^ 32 = 0xFFFFFFFF :=
  ⟨inIssue_mst, by unfold Taken; decide +kernel, by decide⟩

/-- The page's first line holds an unstamped write of a context of core 1. -/
def contested : State := { mst with lines := set {} (0x120000000 / 64) { write := some ⟨.ctx 1 0, .unstamped, 0⟩ } mst.lines }

theorem inIssue_contested : InIssue contested quiet := by unfold InIssue; decide +kernel

/-- An access that a race stops reports one. -/
theorem race_pair {α σ : Type} {p : Except AccErr α × σ} (h : (match p.1 with | .error e => e.race.isSome | .ok _ => false) = true) :
    ∃ e u r, p = (.error e, u) ∧ e.race = some r := by
  obtain ⟨e | _, u⟩ := p
  · obtain ⟨r, hr⟩ := Option.isSome_iff_exists.mp h
    exact ⟨e, u, r, rfl, hr⟩
  · cases h

/-- A byte at the last offset of CMEM, one of slot 0's, and a doubleword of the page; one of the page's that meets a race. -/
theorem witness_LoadResults : InIssue mst quiet ∧ Taken mst mPlain.pr mPlain.pn ∧
    (IsLoad (.ldb { mPlain with a := 1, imm := 0x3EFFF }) { mPlain with a := 1, imm := 0x3EFFF } 1 true ∧
      InCmem (addrOf mst { mPlain with a := 1, imm := 0x3EFFF }) 0x3FFFF ∧ mst.cc.cmemBad 0x3FFFF 1 = false) ∧
    (IsLoad (.ldd { mPlain with a := 3 }) { mPlain with a := 3 } 8 false ∧ InSibling (addrOf mst { mPlain with a := 3 }) 0 0 ∧
      ∃ l la, myLaunch mst = some (l, la) ∧ 0 < la.cores.length ∧ (mst.core (nth 0 la.cores 0)).cmemBad 0 8 = false) ∧
    InGlobal (addrOf mst { mPlain with a := 2 }) 0x4000100000 ∧
    (∃ bs u, mst.readGlobal (me mst) .read 0x4000100000 8 = (.ok bs, u) ∧ Unwatched u .load 0x4000100000) ∧
    InIssue contested quiet ∧ InGlobal (addrOf contested { mPlain with a := 2 }) 0x4000100000 ∧
    ∃ e u r, contested.readGlobal (me contested) .read 0x4000100000 8 = (.error e, u) ∧ e.race = some r := by
  refine ⟨inIssue_mst, taken_mst, ⟨.inl ⟨rfl, rfl, rfl⟩, by unfold InCmem; decide +kernel, by decide +kernel⟩,
    ⟨.inr (.inr (.inr (.inr (.inr (.inr ⟨rfl, rfl, rfl⟩))))), by unfold InSibling; decide +kernel,
      0, (launched st).launches[0].2, by unfold myLaunch; decide +kernel, by decide +kernel, by decide +kernel⟩,
    by unfold InGlobal; decide +kernel, ?_, inIssue_contested, by unfold InGlobal; decide +kernel, race_pair (by decide +kernel)⟩
  obtain ⟨v, h⟩ := isOk_pair (p := mst.readGlobal (me mst) .read 0x4000100000 8) (by decide +kernel)
  exact ⟨v, _, h, by unfold Unwatched; decide +kernel⟩

theorem ok_of_toOption {ε α : Type} {x : Except ε α} {a : α} (h : x.toOption = some a) : x = .ok a := by
  cases x with
  | error => cases h
  | ok => exact congrArg Except.ok (Option.some.inj h)

theorem ok_of_isOk {ε α : Type} {x : Except ε α} (h : x.isOk = true) : ∃ v, x = .ok v := by
  cases x with
  | error => cases h
  | ok v => exact ⟨v, rfl⟩

/-- A store to the first byte of CMEM and a doubleword to the page. -/
theorem witness_StoreResults : InIssue mst quiet ∧ Taken mst mPlain.pr mPlain.pn ∧
    (IsStore (.stb { mPlain with a := 1, imm := -0x1000 }) { mPlain with a := 1, imm := -0x1000 } 1 ∧
      InCmem (addrOf mst { mPlain with a := 1, imm := -0x1000 }) 0) ∧
    (IsStore (.std { mPlain with a := 2, b := 4 }) { mPlain with a := 2, b := 4 } 8 ∧
      InGlobal (addrOf mst { mPlain with a := 2, b := 4 }) 0x4000100000) ∧
    (∃ u v, mst.writeGlobal (me mst) .write 0x4000100000 (lowBytes 8 (gOf mst 4)) = (.ok u, v) ∧ Unwatched u .store 0x4000100000) ∧
    InIssue contested quiet ∧
    ∃ e v r, contested.writeGlobal (me contested) .write 0x4000100000 (lowBytes 8 (gOf contested 4)) = (.error e, v) ∧
      e.race = some r := by
  refine ⟨inIssue_mst, taken_mst, ⟨.inl ⟨rfl, rfl⟩, by unfold InCmem; decide +kernel⟩,
    ⟨.inr (.inr (.inr ⟨rfl, rfl⟩)), by unfold InGlobal; decide +kernel⟩, ?_, inIssue_contested, race_pair (by decide +kernel)⟩
  obtain ⟨v, h⟩ := isOk_pair (p := mst.writeGlobal (me mst) .write 0x4000100000 (lowBytes 8 (gOf mst 4))) (by decide +kernel)
  refine ⟨v, _, h, ?_⟩
  have hw : (mst.writeGlobal (me mst) .write 0x4000100000 (lowBytes 8 (gOf mst 4))).1.toOption.map
      (fun u => u.cc.watchGlobal .store 0x4000100000) = some 0 := by decide +kernel
  rw [h] at hw
  exact Option.some.inj hw

/-- A store to the page runs; the page is checked, so its line is recorded. A store to CMEM runs too. -/
theorem witness_StoreFrame : InIssue mst quiet ∧ Taken mst mPlain.pr mPlain.pn ∧
    (∃ t, exec (.std { mPlain with a := 2, b := 4 }) mst = .next t) ∧
    (∃ t, exec (.stb { mPlain with a := 1 }) mst = .next t) ∧ InCmem (addrOf mst { mPlain with a := 1 }) 0x1000 ∧
    ∃ v r, mst.translateAll (me mst).acc .write [(0x4000100000, 8)] = (.ok [(.mem 0x120000000, 8, 0xC001000120000030)], v) ∧
      v.recordAll (me mst).tag true [(.mem 0x120000000, 8, 0xC001000120000030)] = .ok r := by
  have next (x : Instr) (h : after (exec x mst) (fun _ => true) = true) : ∃ t, exec x mst = .next t := by
    cases e : exec x mst with
    | next t => exact ⟨t, rfl⟩
    | fault => rw [e] at h; cases h
    | refused => rw [e] at h; cases h
  refine ⟨inIssue_mst, taken_mst, next _ (by decide +kernel), next _ (by decide +kernel), by unfold InCmem; decide +kernel, ?_⟩
  obtain ⟨r, hr⟩ := ok_of_isOk (x := (mst.translateAll (me mst).acc .write [(0x4000100000, 8)]).2.recordAll (me mst).tag true
    [(.mem 0x120000000, 8, 0xC001000120000030)]) (by decide +kernel)
  exact ⟨_, r, Prod.ext (ok_of_toOption (by decide +kernel)) rfl, hr⟩

/-- A 64-bit add in CMEM and in the page. -/
theorem witness_AtomicResults : InIssue mst quiet ∧ Taken mst mPlain.pr mPlain.pn ∧
    (widthOf { mPlain with a := 1, attr := 6 } = 64 ∧ widthOf { mPlain with a := 1, attr := 4 } = 32) ∧
    IsAtomic (.amoadd { mPlain with a := 1, attr := 6 }) { mPlain with a := 1, attr := 6 } 64 (fun m v _ => (m + v) % 2 ^ 64) false ∧
    InCmem (addrOf mst { mPlain with a := 1, attr := 6 }) 0x1000 ∧ mst.cc.cmemBad 0x1000 8 = false ∧
    InGlobal (addrOf mst { mPlain with a := 2, attr := 6 }) 0x4000100000 ∧
    ∃ u, mst.translateAll (mst.ctxAccessor mst.turn.core mst.turn.ctx) .write [(0x4000100000, 8)] =
        (.ok [(.mem 0x120000000, 8, 0xC001000120000030)], u) ∧ u.memBad 0x120000000 8 = false ∧ Unwatched u .atomic 0x4000100000 :=
  ⟨inIssue_mst, taken_mst, by decide, .inl ⟨rfl, rfl, rfl⟩, by unfold InCmem; decide +kernel, by decide +kernel,
    by unfold InGlobal; decide +kernel, _, Prod.ext (ok_of_toOption (by decide +kernel)) rfl, by decide +kernel,
    by unfold Unwatched; decide +kernel⟩

/-- A doubleword to CMEM, the state that it leads to, and a load from there; two stores of bytes side by side, in either order
of address. -/
theorem witness_StoreThenRead :
    (let f : MForm := { mPlain with a := 1, b := 4 }
     let t := got (exec (.std f) mst)
     InIssue mst quiet ∧ Taken mst f.pr f.pn ∧ InCmem (addrOf mst f) 0x1000 ∧ exec (.std f) mst = .next t ∧
      InIssue t (ticked mst quiet) ∧ Taken t f.pr f.pn ∧ InCmem (addrOf t f) 0x1000) ∧
    Bytes.wf [] = true ∧ 0 + ([1, 2] : List Byte).length ≤ 2 ∧ 2 + ([3] : List Byte).length ≤ 3 :=
  ⟨⟨inIssue_mst, taken_mst, by unfold InCmem; decide +kernel, got_eq (by decide +kernel), by unfold InIssue; decide +kernel,
    by unfold Taken; decide +kernel, by unfold InCmem; decide +kernel⟩, by decide +kernel⟩

theorem witness_OrderTimelineResults : InIssue mst quiet ∧ Taken mst mPlain.pr mPlain.pn ∧
    mst.cx.timeline? (1 % 8) = some 3 ∧ ∃ l la, myLaunch mst = some (l, la) :=
  ⟨inIssue_mst, taken_mst, by decide +kernel, by
    obtain ⟨⟨l, la⟩, h⟩ := Option.isSome_iff_exists.mp (by decide +kernel : (myLaunch mst).isSome = true)
    exact ⟨l, la, h⟩⟩

theorem witness_EngineResults : InIssue mst quiet ∧ Taken mst mPlain.pr mPlain.pn ∧
    (∃ d u, cpgoFetch { mPlain with a := 6 } mst = .ok d u) ∧ (∃ d u, gcfgFetch { mPlain with a := 7 } mst = .ok d u) ∧
    (∃ d, (mst.modCx fun x => { x with gcfg := some [0x4000100000, 0x100000000, 32, 0] }).cx.gcfg = some d) ∧
    (∃ bs u l, xputFetch { mPlain with a := 10, b := 11, imm := 2 } mst = .ok bs u ∧ u.cc.launch = some l) := by
  refine ⟨inIssue_mst, taken_mst, gotOperand_some (by decide +kernel), gotOperand_some (by decide +kernel), ⟨_, rfl⟩, ?_⟩
  obtain ⟨bs, u, h⟩ := gotOperand_some (r := xputFetch { mPlain with a := 10, b := 11, imm := 2 } mst) (by decide +kernel)
  refine ⟨bs, u, 0, h, ?_⟩
  have hl : (match xputFetch { mPlain with a := 10, b := 11, imm := 2 } mst with
    | .ok _ u => u.cc.launch
    | _ => none) = some 0 := by decide +kernel
  rw [h] at hl
  exact hl

theorem witness_GraphResults : InIssue mst quiet ∧ Taken mst mPlain.pr mPlain.pn ∧
    (∃ d ps u, bsendFetch { mPlain with a := 8, b := 11 } mst = .ok (d, ps) u) ∧
    (∃ ds u, progFetch { mPlain with a := 9, imm := 1 } mst = .ok ds u) ∧ mst.graphOf mst.turn.core = some graph ∧
    graph.auth ≠ 3 ∧ { graph with auth := 3 }.auth = 3 ∧
    { graph with auth := 3, state := 2 }.state = 2 ∧ ({ mst.cx with frontGot := some (1, 3) } : Ctx).frontGot = some (1, 3) ∧
    (gOf mst 5).toNat = graph.id ∧ graph.id < 2 ^ 16 ∧ graph.cancelReq = none := by
  refine ⟨inIssue_mst, taken_mst, ?_, gotOperand_some (by decide +kernel), by decide +kernel⟩
  obtain ⟨⟨d, ps⟩, u, h⟩ := gotOperand_some (r := bsendFetch { mPlain with a := 8, b := 11 } mst) (by decide +kernel)
  exact ⟨d, ps, u, h⟩

theorem witness_PowerResults : InIssue mst quiet ∧ Taken mst mPlain.pr mPlain.pn := ⟨inIssue_mst, taken_mst⟩

/-- Each register that a clause names, and one that the last clause covers: SYS.QBELL. -/
theorem witness_SystemRegisterResults : InIssue mst quiet ∧ Taken mst mPlain.pr mPlain.pn ∧
    (([0x011, 0x012, 0x030, 0x204, 0x2E4] : List (BitVec 26)).map fun (n : BitVec 26) => n.toNat % 2 ^ 12) =
      [0x011, 0x012, 0x030, 0x204, 0x2E4] ∧
    (mst.syswEffect mst.turn.core mst.turn.ctx 0x2C0 0).cx.issue = some quiet ∧
    (mst.syswEffect mst.turn.core mst.turn.ctx 0x2C0 0).turn = mst.turn :=
  ⟨inIssue_mst, taken_mst, by decide +kernel, by decide +kernel⟩

theorem witness_ClearingReads : (0 : Nat) ≠ 0x024 ∧ (0 : Nat) ≠ 0x0B8 ∧ (0 : Nat) ≠ 0x0B9 ∧ (0 : Nat) ≠ 0x200 ∧ (0 : Nat) ≠ 0x2E1 := by
  decide

/-- A context at privilege `p`, between bundles. -/
def level (p : Nat) : State := between fun x => { x with priv := BitVec.ofNat 64 (p * 2 ^ 16) }

/-- A supervisor of domain 0 that names domain 9, which does not exist. -/
def foreign : State := (level 1).modCx fun x => { x with g := [(1, 9)] }

/-- Privilege 0 for a register that asks for 1; privilege 1 for one that asks for 2, at both ends of the range; a domain of
another's. -/
theorem witness_PrivilegeTraps : (level 0).cx.issue = none ∧ (level 0).cx.land.length ≤ 24 ∧
    Taken (level 0) mPlain.pr mPlain.pn ∧ Taken (level 1) mPlain.pr mPlain.pn ∧ (level 1).cx.issue = none ∧
    (level 0).cx.pl = 0 ∧ (level 1).cx.pl = 1 ∧ legal (.sysw { mPlain with imm := 0x018 }) = true ∧
    legal (.sysw { mPlain with imm := 0x0FF }) = true ∧ legal (.sysw { mPlain with imm := 0x1FF }) = true ∧
    legal (.tlbsync mPlain) = true ∧ legal (.tlbinv { mPlain with imm := 0 }) = true ∧
    legal (.tlbinv { mPlain with imm := 2 }) = true ∧
    (legal (.tlbinv { mPlain with a := 1, imm := 1 }) = true ∧ foreign.cx.issue = none ∧ Taken foreign mPlain.pr mPlain.pn ∧
      foreign.cx.pl = 1 ∧ (gOf foreign 1).toNat = 9 ∧ foreign.cx.priv.toNat % 2 ^ 16 = 0 ∧ foreign.domain? 9 = none) ∧ st.cx.issue = some quiet ∧ (slotMeaning (.add rPlain) st).isSome = true ∧
    (0x0FF : BitVec 26).toNat % 2 ^ 12 ≠ 0x2C0 ∧ after (exec (.add rPlain) st) (fun _ => true) = true := by
  unfold Taken; decide +kernel

/-- An empty event queue, one with a record, and a watchpoint configuration of zeros. -/
theorem witness_TlbEventResults : InIssue mst quiet ∧ Taken mst mPlain.pr mPlain.pn ∧ mst.cc.evq = [] ∧
    (∃ rest, (mst.modCore fun k => { k with evq := [(1, 2)] }).cc.evq = (1, 2) :: rest) ∧
    ∃ ws u, watchFetch { mPlain with a := 11 } mst = .ok ws u :=
  ⟨inIssue_mst, taken_mst, by decide +kernel, ⟨[], rfl⟩, gotOperand_some (by decide +kernel)⟩

/-! ### The cell statements -/

/-- A slot of squad 0 with a format pair. -/
def cf (fp1 fp2 : BitVec 4) : CForm := { cPlain with sq := 1, fp1 := fp1, fp2 := fp2 }

/-- In a core that lists no cell, spare or remap every cell and tower is sound. -/
theorem sound_bare {s : State} (h : s.cc.cells = [] ∧ s.cc.remap = []) (f : CForm) : Sound s f := by
  intro n _
  have hc : s.cc.cell n = {} := by simp [Core.cell, h.1, Machine.get]
  have hu : s.cc.usesSpare n = false := by
    simp [Core.usesSpare, Core.remapWord, h.2, Machine.get, bit]
  refine ⟨by rw [hc], fun r => ?_, fun d => by rw [hc]; rfl, fun e he => by rw [hc] at he; cases he⟩
  simp [Core.tower, hu, hc, Tower.uncorrectable, Tower.isBad]

theorem sound_st (f : CForm) : Sound st f := sound_bare (by decide +kernel) f

theorem witness_CellFloatResults : InIssue st quiet ∧ Sound st (cf 2 0) ∧ st.fpFmt (cf 2 0) = some .bf16 :=
  ⟨inIssue_st, sound_st _, by decide +kernel⟩

theorem witness_CellIntegerResults : InIssue st quiet ∧ Sound st (cf 8 0) ∧ st.plainFmt (cf 8 0) = some .n8 ∧ Fmt.n8.isInt = true :=
  ⟨inIssue_st, sound_st _, by decide +kernel⟩

/-- Unordered, the last of the conditions of VCMP; integers; a raw-moving format. -/
theorem witness_CellCompareResults : InIssue st quiet ∧ (∀ f, Sound st f) ∧ st.fpFmt (cf 0 0) = some .fp32 ∧
    (match ({ cf 0 0 with co := 4 } : CForm).co.toNat with
      | 0 => FRel.un = .eq | 1 => FRel.un = .ne | 2 => FRel.un = .lt | 3 => FRel.un = .le | _ => FRel.un = .un) ∧
    st.plainFmt (cf 7 0) = some .i8 ∧ Fmt.i8.isInt = true ∧ st.plainFmt (cf 3 0) = some .e4m3 :=
  ⟨inIssue_st, sound_st, by decide +kernel, rfl, by decide +kernel⟩

/-- Equal widths, half, a quarter from registers, and a wider element. -/
theorem witness_CellConversionResults : InIssue st quiet ∧ (∀ f, Sound st f) ∧
    (Fmt.ofCode (cf 1 2).fp2.toNat = some .bf16 ∧ Fmt.bf16.width ≠ 4 ∧ vcvtFmt (cf 1 2) st = some .fp16 ∧
      Fmt.fp16.width = Fmt.bf16.width) ∧
    (Fmt.ofCode (cf 0 2).fp1.toNat = some .fp32 ∧ Fmt.bf16.width * 2 = Fmt.fp32.width) ∧
    (Fmt.i8.width * 4 = Fmt.fp32.width ∧ (cf 0 7).as_ ≠ 8) ∧
    (vunpkFmt (cf 7 9) st = some .i8 ∧ Fmt.ofCode (cf 7 9).fp1.toNat = some .i8) :=
  ⟨inIssue_st, sound_st, by decide +kernel⟩

theorem witness_CellMovementResults : InIssue st quiet ∧ (∀ f, Sound st f) ∧ plainWidth (cf 7 0).fp1.toNat = 8 ∧
    plainWidth (cf 1 0).fp1.toNat = 16 ∧ plainWidth (cf 0 0).fp1.toNat = 32 ∧ Fmt.ofCode (cf 0 0).fp1.toNat = some .fp32 ∧
    Fmt.fp32.width = 32 :=
  ⟨inIssue_st, sound_st, by decide +kernel⟩

theorem witness_MaskResults : InIssue st quiet ∧ Sound st (cf 0 0) := ⟨inIssue_st, sound_st _⟩

theorem witness_TowerAccessResults : InIssue st quiet ∧ Sound st { cf 0 0 with lm := 7 } := ⟨inIssue_st, sound_st _⟩

/-- No squad; a squad, a format of MLOAD's, and a lattice source in the tower. -/
theorem witness_StreamStarts : InIssue st quiet ∧ (∀ f, Sound st f) ∧ cPlain.sq = 0 ∧ (cf 0 0).sq ≠ 0 ∧
    Fmt.ofCode (cf 10 0).fp1.toNat = some .i32 ∧ ({ cf 2 0 with as_ := 1 } : CForm).as_ = 1 ∧
    st.lqCode { cf 2 0 with as_ := 1 } = some 2 :=
  ⟨inIssue_st, sound_st, by decide +kernel⟩

/-- One and two products; a NaN among the operands, 0 times an infinity, infinities of opposite sign, one infinity, and a
finite sum with which x is compared. -/
theorem witness_MatrixElement :
    (let q := Fmt.fp32.spec
     let one := q.decode 0x3F800000
     ([(1, 1)] : List (Int × Int)) ≠ [] ∧
      [one, .nan false true 0 23, one] = [one] ++ .nan false true 0 23 :: [one] ∧ (∀ w ∈ [one], w.isNan = false) ∧
      [(FVal.fin false 0 0).times (.inf false)] = [none] ∧
      [(FVal.inf true).times one, (FVal.inf false).times one] = [.inf true, .inf false].map some ∧
      (FVal.inf false).absDiff one = some (.inf false) ∧ [one.times one] = [.fin false (2 ^ 46) (-46)].map some ∧
      (q.decode (sumRound q .rne [.fin false (2 ^ 46) (-46)]).1).isNan = false) := by decide +kernel

theorem witness_AccumulatorResults : InIssue st quiet ∧ (∀ f, Sound st f) ∧ ({ cf 0 0 with d := 1 } : CForm).d.toNat % 2 = 1 ∧
    (cf 0 0).a.toNat % 2 = 0 ∧ st.drainFmt (cf 0 11) = some .lq8 :=
  ⟨inIssue_st, sound_st, by decide +kernel⟩

/-- Channel 3 to the context's own cells, an entry of it in every cell's buffer. -/
def sending : State :=
  let s := within fun x => { x with xch := [(3, 0x1), (15, 0x1)] }
  s.setCore 0 { s.core 0 with
    cells := (List.range 256).map fun n => (n, ({ rx := [⟨3, false, {}⟩] } : Cell)) }

theorem witness_CellMoveResults : InIssue sending quiet ∧ Sound sending { cf 0 0 with rt := 3 } ∧ sending.cc.launch = some 0 ∧
    (∀ n : Nat, Sel { cf 0 0 with rt := 3 } n → sending.channelTo sending.turn.core (sending.cx.xchan 3) n ≠ none) ∧
    ∀ n : Nat, Sel { cf 0 0 with rt := 3 } n → takeChannel 3 (sending.cc.cell n).rx ≠ none := by
  have cells : ∀ n : Nat, n < 256 → sending.cc.cell n = { rx := [⟨3, false, {}⟩] } ∧ sending.cc.usesSpare n = false ∧
      sending.channelTo sending.turn.core (sending.cx.xchan 3) n ≠ none := by decide +kernel
  refine ⟨by unfold InIssue; decide +kernel, fun n hn => ?_, by decide +kernel, fun n hn => (cells n hn.1).2.2, fun n hn => ?_⟩
  · obtain ⟨hc, hu, _⟩ := cells n hn.1
    exact ⟨by rw [hc], fun r => by simp [Core.tower, hu, hc, Tower.uncorrectable, Tower.isBad], fun d => by rw [hc]; rfl,
      fun e he => by rw [hc] at he; simp at he; rw [he]⟩
  · rw [(cells n hn.1).1]
    simp [takeChannel]

theorem witness_LatticeResults : InIssue st quiet ∧ (∀ f, Sound st f) ∧ (cf 0 0).as_ ≠ 1 ∧ (cf 0 0).sq ≠ 0 ∧
    Fmt.ofCode (cf 0 0).fp1.toNat = some .fp32 ∧
    ∀ n : Nat, n < 256 → (∀ e ∈ (st.cc.cell n).land, e.await = false) ∧ ∀ e ∈ (st.cc.cell n).writes, e.await = false :=
  ⟨inIssue_st, sound_st, by decide +kernel, by decide +kernel, by decide +kernel, by decide +kernel⟩

/-! ### Steps of the device -/

/-- A stream of a kind with given progress, at level 0. -/
def stream (kind : StreamKind) (f : CForm) (start : Int) (done left : Nat) : Stream :=
  { kind := kind, level := 0, form := f, pc := 0, start := start, done := done, left := left, fa := 0, fb := 0, geom := 0, held := 1
    writes := false, cap := [], rows := [], watch := [], evs := [], evVt := 0 }

/-- A message for a cell whose buffer has room, and a core whose cluster changes its rail. -/
def crossing : State :=
  { between id with express := [⟨0, 0, 5, 0, 4, ⟨3, false, {}⟩⟩], clusters := [(0, { switching := true })] }

/-- Cycle 9 of a context: a result due for v3, another for v4 not due and a mask due for m2, a fragment due, a row written and,
in cell 1, a layer to become drowsy; a step due of a TLDM, and an MLOAD whose update is due. -/
def cycling : State :=
  let s := between fun x => { x with
    vt := 9
    streams := [stream .tldm { cf 0 0 with cn := 4 } 8 1 1, stream .mload { cf 1 0 with cn := 1 } 7 1 0] }
  s.setCore 0 { s.core 0 with
    cells := [(0, { land := [⟨0, 9, false, 3, 7, BitVec.allOnes 256, false⟩, ⟨0, 10, false, 4, 7, BitVec.allOnes 256, false⟩,
                      ⟨0, 9, true, 2, 5, 0xFFFF, false⟩]
                    writes := [⟨0, 9, 130, 6, BitVec.allOnes 256, [], false⟩]
                    frags := [⟨0, 9, 2, {}⟩] }),
              (1, { power := [⟨0, 9, 3, .drowsy⟩] })] }

/-- Cycle 9 of a context with a step due of an MMA. -/
def stepping : State := between fun x => { x with vt := 9, streams := [stream .mma { cf 0 0 with cn := 2, im := 1 } 8 1 1] }

/-- No spare serves a cell in a core without remapped cells. -/
theorem no_spare {k : Core} (h : k.remap = []) (q : Nat) : k.usesSpare q = false := by
  simp [Core.usesSpare, Core.remapWord, h, Machine.get, bit]

theorem witness_CycleEvents : IsCtx 0 0 ∧ cycling.passes 0 0 = true ∧ (∀ q : Nat, q < 4 → q ≠ 0 → cycling.passes 0 q = false) ∧
    (∀ q : Nat, q < 4 → crossing.passes 0 q = false) ∧ bit (cycling.ctxAt 0 0).sqm (squadOf 0) = true ∧
    (let x := cycling.ctxAt 0 0
     let y := (cycling.core 0).cell 0
     (y.land.filter fun e => dueIn x e.level e.due && !e.isMask && e.idx == 3) = [⟨0, 9, false, 3, 7, BitVec.allOnes 256, false⟩] ∧
      (y.land.filter fun e => dueIn x e.level e.due && !e.isMask && e.idx == 4) = [] ∧
      (y.land.filter fun e => dueIn x e.level e.due && e.isMask && e.idx == 2) = [⟨0, 9, true, 2, 5, 0xFFFF, false⟩] ∧
      y.power.filter (fun e => dueIn x e.level e.due) = [] ∧
      (y.writes.filter fun w => dueIn x w.level w.due && w.row == 130) = [⟨0, 9, 130, 6, BitVec.allOnes 256, [], false⟩] ∧
      ((cycling.core 0).tower 0).layer (rowLayer 130) ≠ .off ∧
      (y.frags.filter fun e => dueIn x e.level e.due && e.side == 2) = [⟨0, 9, 2, {}⟩] ∧
      ((cycling.core 0).tower 1).waking 3 = false ∧
      (((cycling.core 0).cell 1).power.filter fun e => dueIn x e.level e.due && e.layer == 3) = [⟨0, 9, 3, .drowsy⟩]) ∧
    (∀ q : Nat, (cycling.core 0).usesSpare q = false) ∧ ((cycling.core 0).tower 0).bad = [] ∧
    (∃ a : Stream, (cycling.ctxAt 0 0).streams[0]? = some a ∧ a.kind ≠ .mma ∧ a.level = 0 ∧ 0 < a.left ∧ a.start + a.done ≤ 9) ∧
    (∃ a : Stream, (cycling.ctxAt 0 0).streams[1]? = some a ∧ a.kind = .mload ∧ a.level = 0 ∧ a.left = 0 ∧ a.loaded = false ∧ a.start + a.done + 1 = 9 ∧
      Fmt.ofCode a.form.fp1.toNat = some .fp16) ∧
    stepping.passes 0 0 = true ∧ ∃ a : Stream, (stepping.ctxAt 0 0).streams[0]? = some a ∧ a.kind = .mma ∧ a.level = 0 ∧ 0 < a.left ∧ a.start + a.done ≤ 9 ∧
      (let u := got (exec (.resultLanding 0 0) stepping)
       let v := got (exec (.cellResultLanding 0 0) u)
       exec (.resultLanding 0 0) stepping = .next u ∧ exec (.cellResultLanding 0 0) u = .next v ∧ u.passes 0 0 = true ∧
        (a.takeBoth (v.core 0) a.done 0).isSome = true) ∧ a.limit 0 ≠ 0 ∧ a.limit 1 = 0 ∧
      Fmt.ofCode a.fa = some .fp32 :=
  ⟨by unfold IsCtx; decide, by decide +kernel, by decide +kernel, by decide +kernel, by decide +kernel, by decide +kernel,
    no_spare (by decide +kernel), by decide +kernel, ⟨stream .tldm { cf 0 0 with cn := 4 } 8 1 1, by decide +kernel⟩,
    ⟨stream .mload { cf 1 0 with cn := 1 } 7 1 0, by decide +kernel⟩, by decide +kernel, stream .mma { cf 0 0 with cn := 2, im := 1 } 8 1 1, by decide +kernel,
    by decide +kernel, by decide +kernel, by decide +kernel, by decide +kernel,
    ⟨got_eq (by decide +kernel), got_eq (by decide +kernel), by decide +kernel, by decide +kernel⟩, by decide +kernel⟩

/-- A group at risk: a row of cell 0 touched at 0 whose layer has a deferral, at the last millisecond of its retention. -/
def aged : State :=
  let s := between id
  { s.setCore 0 { s.core 0 with cells := [(0, { tower := { defer := [(0, 2 ^ 60)] } })] } with
    clock := (retention (s.cluster 0).temp - 1) * cyclesPerMs }

/-- Core 0 with a bank of cell 5 under test. -/
def tested : State := let s := between id; s.setCore 0 { s.core 0 with tests := [.towerBank 0 5 7 8] }

/-- The same with a row of the bank in error; a core without a launch whose cell 5 is under test. -/
def testedBad : State := let s := tested; s.setCore 0 ((s.core 0).setTower 5 { badXor := [xorRow 896] })
def testedCell : State := State.reset.setCore 0 { tests := [.cellUnit 0 5 1] }

/-- Two contexts of core 0 with a bundle to issue. -/
def paired : State := let s := between id; s.setCore 0 { s.core 0 with ctxs := [(0, s.ctxAt 0 0), (1, s.ctxAt 0 0)] }

/-- What a cluster asks for at a temperature. -/
def asks (temp : Nat) : List LimitRequest := limitsOf ⟨0, [], ⟨.high, []⟩, ⟨.high, []⟩, ⟨.high, []⟩⟩ temp

theorem witness_ClockEvents :
    ({ crossing with clusters := [] }.express[0]? = some ⟨0, 0, 5, 0, 4, ⟨3, false, {}⟩⟩ ∧
      ({ crossing with clusters := [] }.core 0).launch = some 0 ∧ { crossing with clusters := [] }.unitsRun 0 = true ∧
      ((crossing.core 0).cell 5).rx.length < 4 ∧ crossing.express.take 0 = []) ∧
    ((aged.cluster 0).switching = false ∧ ((aged.core 0).tower 5).layer 0 ≠ .off ∧ get 0 ((aged.core 0).tower 5).defer 0 ≤ aged.clock ∧
      retention (aged.cluster 0).temp * cyclesPerMs ≤ 2 * (aged.clock - get 0 ((aged.core 0).tower 5).touch 0 + cyclesPerMs) ∧
      aged.clock < get 0 ((aged.core 0).tower 0).defer 0 ∧ (crossing.cluster 0).switching = true) ∧
    ((aged.core 0).atRisk (aged.ctxAt 0 0) (max aged.clock 0) (retention (aged.cluster 0).temp) ≠ [] ∧
      (st.core 0).atRisk (st.ctxAt 0 0) (max st.clock 0) (retention (st.cluster 0).temp) = []) ∧
    (unitExists (.towerBank 127 255 7 8) = true ∧ ((st.core 127).tower 255).layer 7 ≠ .off) ∧
    (unitExists (.towerBank 0 5 7 8) = true ∧ unitCore (.towerBank 0 5 7 8) = some 0 ∧
      unitAt 0 (.towerBank 0 5 7 8) ∈ (tested.core 0).tests ∧ unitAt 0 (.towerBank 0 5 7 8) ∉ (tested.core 0).lasting ∧
      (tested.core 0).withdrawn = false ∧ unitAt 0 (.towerBank 0 5 7 8) ∉ (st.core 0).tests ∧
      (tested.core 0).testFinds (.towerBank 0 5 7 8) = false ∧ (testedBad.core 0).testFinds (.towerBank 0 5 7 8) = true) ∧
    (unitExists (.cellUnit 0 5 1) = true ∧ isCellUnit (.cellUnit 0 5 1) = true ∧ (st.core 0).launch ≠ none ∧
      (testedCell.core 0).launch = none ∧ unitAt 0 (.cellUnit 0 5 1) ∈ (testedCell.core 0).tests ∧
      (testedCell.core 0).lasting = [] ∧ (testedCell.core 0).withdrawn = false) ∧
    (st.mgmt.fatal = false ∧ (∃ x ∈ asks 111, x.rail = .stop) ∧ (∃ x ∈ asks 106, x.rail = .low) ∧ ¬ (∃ x ∈ asks 40, x.rail = .stop)) ∧
    ((paired.tryTurn 0 1).2.isSome = true ∧ ((paired.core 0).holder + 1) % 4 = 1 ∧ paired.coreRuns 0 = true ∧
      paired.otherReady 0 = true) := by decide +kernel

/-- A handler's return: a trap taken from depth 0 and its RFT in issue. -/
def trapping (depth : Nat) (vector : Bool) : State := between fun x => { x with
  tvec := if vector then 0x10010 else 0, tsave := 0x8000, depth := depth, tread := true, tseen := true, vt := 40, loops := [⟨1, 20, 3⟩]
  land := [⟨.g, 3, 77, 44⟩] }

/-- A cause of a bundle at halfword 0, with everything of a record set. -/
def cause : Trap := { cause := cIllegalOp, fslot := 3, fpc := 0, rpc := 0, cmask := 0, info := 0xDEADBEEF }

def handling : State := ((trapping 0 true).takeTrap 0 0 cause).modCtxAt 0 0 fun x => { x with issue := some quiet }

/-- A record whose first words have every bit set. -/
def spoilt : State := st.setCore 0 { st.core 0 with cmem := writeBytes [] 0 (List.replicate 32 0xFF) }

theorem witness_TrapResults :
    (((trapping 14 true).ctxAt 0 0).tvec.getLsbD 16 = true ∧ ((trapping 14 true).ctxAt 0 0).depth ≠ 15 ∧
      ((trapping 14 true).ctxAt 0 0).tseen = true ∧ ((trapping 0 true).ctxAt 0 0).depth = 0) ∧
    (∃ l la, (trapping 15 true).launchOf 0 = some (l, la) ∧ la.phase = .running) ∧
    ((trapping 0 false).ctxAt 0 0).tvec.getLsbD 16 = false ∧ ((trapping 15 true).ctxAt 0 0).depth = 15 ∧
    (∃ r l ls, restoreRecord (recordRead (handling.core 0).cmem ((handling.ctxAt 0 0).trec.toNat % 2 ^ 18)) = some r ∧
      (handling.ctxAt 0 0).levels = l :: ls) ∧
    (handling.core 0).cmemBad ((handling.ctxAt 0 0).trec.toNat % 2 ^ 18) 1024 = false ∧
    (((trapping 3 true).modCtxAt 0 0 fun x => { x with tseen := false }).ctxAt 0 0).tseen = false ∧
    (∃ i, (spoilt.ctxAt 0 0).issue = some i ∧
      restoreRecord (recordRead (spoilt.core 0).cmem ((spoilt.ctxAt 0 0).trec.toNat % 2 ^ 18)) = none) ∧
    (IsCtx 0 0 ∧ ((trapping 0 true).ctxAt 0 0).active = true ∧ (trapping 0 true).coreRuns 0 = true ∧
      ((trapping 0 true).ctxAt 0 0).depth = 0 ∧ (((trapping 0 true).landAll 0 0).stepsCause 0 0 false).isNone = true ∧
      ((trapping 0 true).modCtxAt 0 0 fun x => { x with pend := [⟨cRetentionLimit, 5, none, 0, false, false⟩] }).cx.pend =
        [⟨cRetentionLimit, 5, none, 0, false, false⟩]) := by
  refine ⟨by decide +kernel, ?_, by decide +kernel, by decide +kernel, ?_, by decide +kernel, by decide +kernel,
    ⟨quiet, by decide +kernel⟩, by unfold IsCtx; decide +kernel⟩
  · obtain ⟨⟨l, la⟩, h⟩ := Option.isSome_iff_exists.mp (by decide +kernel : ((trapping 15 true).launchOf 0).isSome = true)
    refine ⟨l, la, h, ?_⟩
    have hp : ((trapping 15 true).launchOf 0).map (fun p => p.2.phase) = some .running := by decide +kernel
    rw [h] at hp
    exact Option.some.inj hp
  · obtain ⟨r, h⟩ := Option.isSome_iff_exists.mp (by decide +kernel :
      (restoreRecord (recordRead (handling.core 0).cmem ((handling.ctxAt 0 0).trec.toNat % 2 ^ 18))).isSome = true)
    obtain ⟨l, ls, h'⟩ := List.exists_cons_of_ne_nil (by decide +kernel : (handling.ctxAt 0 0).levels ≠ [])
    exact ⟨r, l, ls, h, h'⟩

/-- An operation of engine context 0 whose descriptor is all zeros. -/
def zeroOp : EngineOp := ⟨List.replicate 16 0, 1, none, 0, 0, 0, 0, 0⟩

/-- Core 0 with engine context 0 as given. -/
def engined (x : Engine) : State := let s := between id; s.setCore 0 { s.core 0 with engines := [(0, x)] }

/-- A gather, XPUT data, a baton and a judge operation on their way to handle 2 of unit 0, and a cancel. -/
def delivering : State :=
  let s := launched (paged (between fun x => { busy x with judgeQ := [.prog []] }))
  { s.setCore 0 { s.core 0 with gather := [⟨0, [0x4000100000, 0x100000000, 32, 0], 2, 0, none⟩] } with
    xputs := [⟨0, 0, 0, 2, List.replicate 32 1⟩]
    batons := [⟨0, 0, 0, 1, 0, 2, 0xFFFF, [], none⟩] }

/-- Deltas that the judge refuses: a count below zero. -/
def refused : List ((Nat × Word) × Int) := [((0, 0), -1)]

/-- A slot was filled. -/
def filled (r : Filled) : Bool :=
  match r with
  | .done _ => true
  | _ => false

theorem witness_CopyDeliveryEvents :
    ((engined { queue := [zeroOp] }).copyReady 0 0 = some (zeroOp, []) ∧ ((engined {}).launchOf 0).isSome = true) ∧
    (let s := engined { run := some { op := zeroOp, pos := 0, goal := 1, scbase := 0, rows := [{ cells := [3], row := 1023, val := 1, bits := 1 }] } }
     s.unitsRun 0 = true ∧ ∀ n ∈ [3], (((s.core 0).wakeLayer 3 1023).tower n).layer (rowLayer 1023) ≠ .off ∧
      (((s.core 0).wakeLayer 3 1023).tower n).uncorrectable 1023 = false) ∧
    (let r : EngineRun := { op := zeroOp, pos := 0, goal := 0, scbase := 0 }
     r.rows = [] ∧ r.packets = [] ∧ r.sent = [] ∧ r.err = none ∧ { r with err := some (8, 0) }.err = some (8, 0) ∧
      { r with packets := [([], 1)] }.packets ≠ [] ∧ (engined { run := some r }).unitsRun 0 = true) ∧
    (let g : GatherIdx := ⟨0, [0x4000100000, 0x100000000, 32, 0], 2, 0, none⟩
     (delivering.core 0).gather = [g] ∧ g.index.toNat < fieldN (nth 0 g.cfg 1) 32 32 ∧
      (delivering.ctxAt 0 0).producerView 2 = some half ∧ half.filled < half.count ∧
      (delivering.readGlobal (delivering.gatherClient 0 g) .read 0x4000100000 (Machine.gatherRow g.cfg)).1.isOk = true ∧
      filled ((delivering.readGlobal (delivering.gatherClient 0 g) .read 0x4000100000 (Machine.gatherRow g.cfg)).2.fillSlot 0 0 2
        (List.replicate 32 0)) = true) ∧
    (delivering.unitCtx 0 0 = some (0, 0) ∧ (delivering.ctxAt 0 0).hasStopped = false ∧ overtakesXput [] ⟨0, 0, 0, 2, []⟩ = false ∧
      filled ({ delivering with xputs := [] }.fillSlot 0 0 2 (List.replicate 32 1)) = true ∧
      filled ({ delivering with batons := [] }.fillSlot 0 0 2 (List.replicate 32 1)) = true) ∧
    (graph.state ≠ 2 ∧ graph.auth ≠ 3 ∧ { graph with auth := 3 }.auth = 3 ∧ { graph with state := 2 }.state = 2 ∧
      (delivering.ctxAt 0 0).judgeSent = false ∧ (delivering.ctxAt 0 0).judgeQ = [.prog []] ∧
      ((delivering.applyDeltas 0 (JudgeOp.prog []).deltas).bind fun t => ((t.launch? 0).bind fun x => x.graph).map fun h => h.state) =
        some 1 ∧
      ((delivering.applyDeltas 0 refused).bind fun t => ((t.launch? 0).bind fun x => x.graph).map fun h => h.state) = some 2) ∧
    (let r : EngineRun := { op := zeroOp, pos := 0, goal := 0, scbase := 0, packets := [([], 1)] }
     r.packets ≠ [] ∧ max r.since (delivering.mgmt.group r.via).delivered + 100 * cyclesPerMs ≤ 100 * cyclesPerMs ∧
      delivering.clock < max r.since (delivering.mgmt.group r.via).delivered + 100 * cyclesPerMs) ∧
    { graph with cancelReq := some 3 }.cancelReq = some 3 ∧ delivering.mgmt.fatal = false := by decide +kernel

/-- A context of each privilege between bundles. -/
theorem witness_RegisterEvents : MayStep (level 0) 0 0 ∧ MayStep (level 1) 0 0 ∧ MayStep (level 2) 0 0 ∧
    (level 0).cx.pl = 0 ∧ (level 1).cx.pl ≠ 0 ∧ 2 ≤ (level 2).cx.pl ∧ (level 2).cx.land.length ≤ 24 ∧
    (∃ l la, ((level 1).core 0).launch = some l ∧ (level 1).launch? l = some la) ∧
    rgnOk 0x8000000000000000 = true ∧ rgnOk 0xF = false ∧ (level 1).geomWaits (level 1).cx 0 0 (.sysw (sysForm 0x020 0)) = false ∧
    (2 ^ 18 - 1024 + 1024 ≤ 0x40000 ∧ (2 ^ 18 - 1024) / 64 % 4096 * 64 = 2 ^ 18 - 1024 ∧
      2 * ((level 1).core 0).streamN ≤ 2 ^ 18 - 1024) ∧
    ((inM (level 1) 0 0).doorbell 63).cx.issue = none ∧ ((inM (level 1) 0 0).doorbell 63).turn = (inM (level 1) 0 0).turn ∧
    CanLand (level 1).cx 5 := by
  refine ⟨by unfold MayStep IsCtx; decide +kernel, by unfold MayStep IsCtx; decide +kernel, by unfold MayStep IsCtx; decide +kernel,
    by decide +kernel, by decide +kernel, by decide +kernel, by decide +kernel, ?_, by decide +kernel, by decide +kernel,
    by decide +kernel, by decide +kernel, by decide +kernel, by decide +kernel, by unfold CanLand; decide +kernel⟩
  obtain ⟨la, h⟩ := Option.isSome_iff_exists.mp (by decide +kernel : ((level 1).launch? 0).isSome = true)
  exact ⟨0, la, by decide +kernel, h⟩

/-- Launch 0 in a phase, its one context doing `r`. -/
def inPhase (p : LaunchPhase) (r : RunState) : State :=
  let s := between fun x => { x with run := r }
  { s with launches := s.launches.map fun q => (q.1, { q.2 with phase := p, words := q.2.words.set 7 0x100000000 }) }

/-- The same with its record in the page of "One walk, to the bit", so that STATUS can be written. -/
def onPage (p : LaunchPhase) (r : RunState) : State :=
  let s := paged (inPhase p r)
  { s with launches := s.launches.map fun q => (q.1, { q.2 with va := 0x4000100000 }) }

/-- A test of launch 0. -/
def ofLaunch (s : State) (f : Launch → Bool) : Bool := ((s.launch? 0).map f).getD false

/-- The phase of launch 0. -/
def phaseOf (s : State) : Option LaunchPhase := (s.launch? 0).map fun x => x.phase

/-- Each phase; both sides of the slice boundary; a watchdog that is due, first and second; a launch that retires. -/
theorem witness_LaunchEvents :
    (State.reset.tick 0).clock < (State.reset.tick 0).starter.sliceEnd ∧
    (State.reset.tick (State.reset.starter.sliceEnd)).starter.sliceEnd ≤ (State.reset.tick (State.reset.starter.sliceEnd)).clock ∧
    phaseOf (inPhase .placed .idle) = some .placed ∧ phaseOf (inPhase .running .running) = some .running ∧
    phaseOf (inPhase (.failing 6 cTowerOff) .idle) = some (.failing 6 cTowerOff) ∧
    phaseOf (inPhase (.draining true) .dormant) = some (.draining true) ∧
    (inPhase (.draining true) .dormant).ctxDrained 0 0 = true ∧ (inPhase (.draining true) .running).ctxDrained 0 0 = false ∧
    phaseOf (inPhase .checkpointing .running) = some .checkpointing ∧
    phaseOf (inPhase (.killing 4 cKilled) .running) = some (.killing 4 cKilled) ∧
    (((inPhase .running .running).tick 1000000).launch? 0).map (fun y =>
      ((inPhase .running .running).tick 1000000).wdogRuns y &&
        decide (y.wdogAt + ((inPhase .running .running).tick 1000000).wdogPeriod y ≤ ((inPhase .running .running).tick 1000000).clock) &&
        !y.wdogSecond) = some true ∧
    ((inPhase .running .retired).launch? 0).map (fun x => (inPhase .running .retired).retires 0 x) = some true ∧
    ((inPhase .running .running).launch? 0).map (fun x => (inPhase .running .running).retires 0 x) = some false ∧
    (let s := inPhase .running .stopped
     s.unitsRun 0 = true ∧ (s.ctxAt 0 0).run = .stopped ∧ (s.core 0).enginesDone 0 = true ∧ (s.core 0).gather = [] ∧
      (s.ctxAt 0 0).judgeQ = [] ∧ s.mgmt.fatal = false) ∧
    (ofLaunch (onPage .placed .idle) fun x => (withStatus (onPage .placed .idle) x 2 0).isSome && x.graph.isNone) = true ∧
    (ofLaunch (onPage (.failing 6 cTowerOff) .idle) fun x =>
      (withStatus ((onPage (.failing 6 cTowerOff) .idle).freeCores x.cores) x 6 cTowerOff).isSome && x.graph.isNone &&
        (onPage (.failing 6 cTowerOff) .idle).ingress.isEmpty) = true ∧
    (ofLaunch (onPage (.killing 4 cKilled) .stopped) fun x =>
      (withStatus ((onPage (.killing 4 cKilled) .stopped).freeCores x.cores) x 4 cKilled).isSome && x.graph.isNone &&
        (onPage (.killing 4 cKilled) .stopped).ingress.isEmpty) = true ∧
    (ofLaunch (onPage .running .retired) fun x =>
      (withStatus (onPage .running .retired) x 3 0).isSome && x.graph.isNone && (onPage .running .retired).retires 0 x && !x.engineFault &&
        (onPage .running .retired).ingress.isEmpty) = true ∧
    (ofLaunch (inPhase .checkpointing .dormant) fun x => (inPhase .checkpointing .dormant).settledLaunch x) = true ∧
    (ofLaunch (inPhase .checkpointing .running) fun x => !(inPhase .checkpointing .running).settledLaunch x) = true ∧
    (ofLaunch (inPhase .running .running) fun x => (inPhase .running .running).roomToSave x) = true := by decide +kernel

/-! ### Management -/

/-- Master 1 owns the device, holds its lease for a second, and has a session from endpoint 3; queue pairs of masters 1 and 63
and of endpoint 4, two windows of domain 7, an unlocked debugger, halted context 0. -/
def owned : State :=
  let s := launched (paged (between fun x => { busy x with halted := true }))
  { s with
    mgmt := { s.mgmt with
      own := .owned, owner := 1, leaseEnd := 1, sessions := [(1, some 3)], unlocked := [0]
      pairs := [(0, some (.master 1)), (1, some (.endpoint 4)), (2, some (.master 63)), (1023, some (.master 1))]
      windows := [⟨5, 7, 0x4000110000, 0x10000, true, 0, 0⟩, ⟨6, 7, 0x4000100000, 0x10000, false, 0, 0⟩] }
    mem := ([(0x120000000, 0x4000110000), (0x120000008, 0x0007000000100100)] : List (Nat × Nat)).foldl
      (fun m p => writeBytes m p.1 (leBytes 8 p.2)) s.mem }

theorem heard_owned : Heard owned 1 := by unfold Heard; decide +kernel
theorem owns_owned : Owns owned 1 := ⟨heard_owned, by decide +kernel⟩

/-- The same with no owner, and while master 1 waits for a handover. -/
def ownedAs (o : OwnState) (owner heir : Nat) : State := withMgmt owned fun g => { g with own := o, owner := owner, heir := heir }

/-- Every slot of the trust store written with one root. -/
def rooted : State := withMgmt owned fun g => { g with trust := (List.range 8).map fun i => (i, [7]) }

/-- A session of the baseboard controller, master 0. -/
def baseboard : State := withMgmt owned fun g => { g with sessions := [(0, some 0)] }

/-- The least and the greatest cap and lease; each state of ownership; no lock-out. -/
theorem witness_OwnershipCommands : Heard owned 1 ∧ Heard (ownedAs .unowned 0xFF 0xFF) 1 ∧ Heard (ownedAs .handover 0xFF 1) 1 ∧
    Owns owned 1 ∧ Heard (ownedAs .owned 2 0xFF) 1 ∧
    (argN [0x90, 0x01] 0 2 = 400 ∧ argN [0x80, 0x0C] 0 2 = 3200 ∧ argN [1, 0] 0 2 = 1 ∧ argN [0x58, 0x02] 0 2 = 600) ∧
    (argN [63] 0 1 < 64 ∧ argN [0xFF] 0 1 = 0xFF) ∧ ¬ ((ownedAs .owned 2 0xFF).mgmt.own = .owned ∧ (ownedAs .owned 2 0xFF).mgmt.owner = 1) ∧
    (argN (List.replicate 49 7) 0 1 = 7 ∧ (List.replicate 49 (7 : Byte)).length = 49) ∧
    ((owned.tick 0).lockedOut 3 = false ∧ (owned.tick 0).masterFor 3 = some 1) ∧
    ((rooted.tick 0).mgmt.trusts [7] = true ∧ (rooted.tick 0).mgmt.trusts [8] = false) ∧
    (63 < 64 ∧ 2 < 1024 ∧ get none owned.mgmt.pairs 2 = some (.master 63) ∧ get none owned.mgmt.retries 2 = none) ∧ Heard baseboard 0 ∧ Unassigned (0xFF : Byte).toNat :=
  ⟨heard_owned, by unfold Heard; decide +kernel, by unfold Heard; decide +kernel, owns_owned, by unfold Heard; decide +kernel,
    by decide +kernel, by decide +kernel, by decide +kernel, by decide +kernel, by decide +kernel, by decide +kernel,
    by decide +kernel, by unfold Heard; decide +kernel, by intro i h; simp [IsCommand] at h⟩

/-- The body of DOMAIN_SET for domain 9 with one grant. -/
def domainBody : List Byte :=
  (([0x0009000000000000, 0x100000000, 0, 1, 0x0001000000004000] ++ List.replicate 15 0 : List Nat).map (leBytes 8)).flatten

/-- The body of WINDOW_SET for the host's page of domain 7. -/
def windowBody : List Byte := leBytes 8 0x10007 ++ leBytes 8 0x4000110000 ++ leBytes 8 0x10000 ++ leBytes 8 0

/-- The body of QUEUE_SET: queue 63 in domain 7, its descriptor at the start of the page. -/
def queueBody : List Byte := leBytes 8 0x0007003F ++ leBytes 8 0x4000100000

/-- The launch in domain 7, and the body of a KILL of it. -/
def inSeven : State := { owned with launches := owned.launches.map fun p => (p.1, { p.2 with dom := 7 }) }
def killBody : List Byte := leBytes 8 7 ++ leBytes 8 0

/-- Vector register 31 of cell 0 of core 0. -/
def target : Target := ⟨0x10, 0, 0, 0, 31⟩

theorem witness_OwnerCommands : Owns owned 1 ∧
    (domainBody.length = 160 ∧ owned.domainOk (bytesToWords domainBody) = true) ∧
    (argN [7, 0] 0 2 = 7 ∧ ∃ d, owned.domain? 7 = some d ∧ d.dbg = true) ∧
    (windowBody.length = 32 ∧ owned.windowOk windowBody = true) ∧
    (argN [5, 0, 0, 0] 0 4 = 5 ∧ ∃ w ∈ owned.mgmt.windows, w.rkey.toNat = 5) ∧
    (queueBody.length = 16 ∧ argN queueBody 0 1 = 63 ∧ argN queueBody 2 2 = 7 ∧ argN queueBody 8 8 = 0x4000100000 ∧
      bodyZero queueBody 1 1 = true ∧ bodyZero queueBody 4 4 = true ∧
      (match owned.deviceRead 7 0x4000100000 64 with | .ok bs => queueDescOk (bytesToWords bs) 7 | .error _ => false) = true) ∧
    (Owns inSeven 1 ∧ inSeven.launchAt (argN killBody 0 2) (argN killBody 8 8) = some 0 ∧ killBody.length = 16 ∧
      bodyZero killBody 2 6 = true ∧ argN killBody 0 2 ≠ 0) ∧
    ((List.replicate 97 (7 : Byte)).length = 97 ∧ argN (List.replicate 97 7) 0 1 < 8) ∧
    (let b : List Byte := leBytes 8 0x03FF00000001 ++ leBytes 8 0x800000000000 ++ List.replicate 32 0
     b.length = 48 ∧ argN b 4 2 = 1023 ∧ bodyZero b 6 2 = true ∧ bodyZero b 14 2 = true ∧
      (maskList (BitVec.ofNat 48 (argN b 8 6))).length ∈ [1, 2, 4]) ∧
    (argN [7, 0, 2, 0] 0 2 = 7 ∧ (∀ b ∈ owned.mgmt.bindings, b.1 = 7 ↔ b.2 = 2) ∧
      (∀ b ∈ ([(7, 2)] : List (Nat × Nat)), b.1 = 7 ↔ b.2 = 2) ∧ ∃ b ∈ ([(7, 3)] : List (Nat × Nat)), ¬ (b.1 = 7 ↔ b.2 = 2)) ∧
    ((owned.window? 6).isSome = true ∧ (owned.window? 6).map (fun w => (owned.readWindow w 0xFFFF 1).isOk) = some true ∧
      0xFFFF + 1 ≤ 0x10000) ∧
    0x30000000 - 1 + 1 ≤ 0x30000000 ∧ (1 ≤ argN [0, 0, 255, 0] 2 2 ∧ argN [0, 0, 255, 0] 2 2 ≤ 255) ∧
    (owned.unlockedCore 0 = true ∧ (owned.ctxAt 0 0).run ≠ .idle ∧ (owned.cluster 0).switching = false ∧
      (owned.ctxAt 0 0).nextPending = none ∧ (owned.stepsCause 0 0 false).isNone = true ∧
      ({ owned with clusters := [(0, { switching := true })] }.cluster 0).switching = true ∧ (st.ctxAt 0 0).active = true ∧
      (owned.ctxAt 0 0).halted = true ∧ (owned.dbgResume 0 0).isSome = true) ∧
    target = targetOf (BitVec.ofNat 64 (argN (leBytes 8 0x100000000000001F) 0 8)) ∧ owned.unlockedCore target.core = true ∧
    target.bytes = some 32 ∧ owned.targetHalted target = true ∧ owned.targetStatus target true = 0 ∧
    owned.targetStatus target false = 0 ∧ owned.targetTakes target (List.replicate 32 0) = true := by
  refine ⟨owns_owned, by decide +kernel, ⟨by decide +kernel, ⟨7, 0, true, true, 0, 0x100000000, 0, [(0x10000, 0x4000)]⟩,
    by decide +kernel⟩, by decide +kernel, ⟨by decide +kernel, ⟨5, 7, 0x4000110000, 0x10000, true, 0, 0⟩, by decide +kernel⟩, ?_⟩
  unfold Owns Heard
  decide +kernel

/-- A port in its group and one under test; a full ingress buffer; a device without launches. -/
def linked (p : Port) : State :=
  withMgmt owned fun g => { g with ports := [(20, p)], groups := [(20, { ports := [20], width := 4, recvSeq := 0xFFFFFF })] }

/-- What fills the ingress buffer. -/
def flood (n : Nat) : State := { owned with ingress := [⟨5, 7, 0x4000110000, List.replicate n 0⟩] }

theorem ingress_flood (n : Nat) : (flood n).ingressBytes = n := by simp [flood, State.ingressBytes]

theorem witness_AttachmentEvents : Owns owned 1 ∧
    (owned.masterOf 3 = some 1 ∧ Heard owned 1 ∧ argN [0x02, 9, 0, 0] 2 2 = [0x02, 9, 0, (0 : Byte)].length - 4 ∧
      IsCommand 1 (argN [0x02, 9, 0, 0] 0 1) 9 [] (.capGet 1 9 []) ∧ Unassigned 0xFF ∧ argN [0x02, 9, 1, 0] 2 2 ≠ 0 ∧
      get none owned.mgmt.pairs 0 = some (owned.peerOf 3) ∧ get none owned.mgmt.retries 0 = none ∧
      get none owned.mgmt.pairs 1 = some (.endpoint 4) ∧ owned.peerOf 3 = .master 1 ∧
      get none owned.mgmt.pairs 3 = none ∧ get none owned.mgmt.retries 3 = none) ∧
    ((withMgmt owned fun g => { g with bootFail := true }).masterOf 4 = none ∧ get none owned.mgmt.pairs 1 = some (owned.peerOf 4) ∧
      owned.masterOf 4 = none ∧ owned.mgmt.bootFail = false ∧ owned.mgmt.alarmLevel < 2 ∧
      (withMgmt owned fun g => { g with alarmLevel := 2 }).mgmt.alarmLevel = 2) ∧
    (∃ w ∈ owned.mgmt.windows, owned.window? w.rkey.toNat = some w ∧ w.write = true ∧ 0xFFFF + 1 ≤ w.len ∧
      owned.windowPasses w .hostWrite 0xFFFF 1 = true ∧ owned.ingressBytes + 1 ≤ 4194304 ∧
      get none owned.mgmt.pairs 1023 = some (.master 1) ∧
      owned.mgmt.outOfOrder 1023 (some (w.rkey.toNat, 0xFFFF, [1])) = false ∧ w.len < 0xFFFF + 2 ∧
      get none (owing owned 1023 (some (5, 0, [2]))).mgmt.retries 1023 = some (5, 0, [2])) ∧
    4194304 < (flood 4194304).ingressBytes + ([1] : List Byte).length ∧
    (((linked { state := .inGroup, group := 20, lanes := 0xF }).mgmt.port 20).state = .inGroup ∧
      ((linked { state := .inGroup, group := 20 }).remoteOp 20 (.data 0 0 [])).isSome = true ∧
      (([] : List Nat).filter fun t => decide (0 ≤ t + cyclesPerMs)).length + 1 < 16 ∧
      16 ≤ (0 :: (List.replicate 15 0).filter fun t => decide (0 ≤ t + cyclesPerMs)).length ∧
      (∀ o ∈ ((linked { state := .inGroup, group := 20 }).mgmt.group 20).owner,
        ∀ f ∈ ((linked { state := .inGroup, group := 20 }).mgmt.group 20).unacked, o.1 ≠ f.1) ∧
      ((linked { state := .inGroup, group := 20 }).mgmt.group 20).covered 0 = 0) ∧
    (let s := withMgmt owned fun g => { g with groups := [(20, { ports := [20], active := [20], width := 4, unacked := [(0, .data 0 0 [])] })] }
     (s.mgmt.group 20).unacked ≠ [] ∧ (s.mgmt.group 20).width ≠ 0 ∧ (s.mgmt.group 20).active ≠ []) ∧
    (((linked { state := .testing, group := 20, passed := 2 }).mgmt.port 20).state = .testing ∧
      2 ≤ ((linked { state := .testing, group := 20, passed := 2 }).mgmt.port 20).passed ∧
      ((linked { state := .testing, group := 20, passed := 2 }).mgmt.group 20).unacked = [] ∧
      ((linked { state := .testing, group := 20, passed := 2 }).mgmt.group 20).resend = false ∧
      ((linked { state := .testing, group := 20, passed := 1 }).mgmt.port 20).passed < 2 ∧ owned.mgmt.laneTests = [] ∧
      (let g : Mgmt := { owned.mgmt with laneTests := [(20, 2)], laneErrs := List.replicate 3 ((20, 2), 0) }
       g.laneTests.filter (fun q => q.1 == 20) = [(20, 2)] ∧
        (g.laneErrs.filter fun q => q.1 == (20, 2) && decide (owned.clock < q.2 + dayCycles)).length = 3)) ∧
    State.reset.launches = [] ∧ owned.mgmt.alarmTimes = [] ∧ get 0 owned.mgmt.lockout 3 ≤ max owned.clock 0 ∧
    owned.mgmt.fatal = false := by
  refine ⟨owns_owned, ⟨by decide +kernel, heard_owned, by decide, by simp [IsCommand, argN, leNat], by intro i h; simp [IsCommand] at h,
    by decide⟩, by decide +kernel, ⟨⟨5, 7, 0x4000110000, 0x10000, true, 0, 0⟩, by decide +kernel⟩, ?_,
    by decide +kernel, by decide +kernel, by decide +kernel, rfl, by decide +kernel, by decide +kernel, by decide +kernel⟩
  rw [ingress_flood]
  decide

/-! ### Rules, records, refusals and flits -/

/-- Fields of each kind of pattern; 300 in E4M3 between neighbours 288 and 320, and 470 above its largest value; an infinity, NaN
and 2.5 to convert; finite values whose exponents differ, and infinities, to compare. -/
theorem witness_ScalarFloatRules :
    (0 < 7 ∧ 7 < 2 ^ 4 - 1 ∧ (3 : Nat) < 2 ^ 3 ∧ (15 : Nat) = 2 ^ 4 - 1 ∧ (255 : Nat) = 2 ^ 8 - 1) ∧
    (let q := Fmt.e4m3.spec
     (∃ top et, q.decode q.maxCode = .fin false top et ∧ top * 2 ^ (et - 0).toNat = 448) ∧
      2 ^ ((8 : Int) - 0).toNat ≤ 300 ∧ 300 < 2 * 2 ^ ((8 : Int) - 0).toNat ∧
      (5 : Int) = max 8 (1 - (q.bias : Int)) - q.mbits ∧ 9 * 2 ^ ((5 : Int) - 0).toNat ≤ 300 ∧ 300 < 10 * 2 ^ ((5 : Int) - 0).toNat ∧
      neighbour .rne false 300 32 9 = 9 ∧ 14 * 2 ^ ((5 : Int) - 0).toNat ≤ 470 ∧ 470 < 15 * 2 ^ ((5 : Int) - 0).toNat ∧
      neighbour .rne false 470 32 14 = 15 ∧ 448 < 15 * 32) ∧
    (Fmt.fp32.spec.decode 0x7F800000 = .inf false ∧ Fmt.fp32.spec.decode 0x7FC00000 = .nan false true 0 22 ∧
      Fmt.i32.isInt = true ∧ Fmt.fp32.isInt = false ∧ 2 * 2 ^ (-(-1 : Int)).toNat ≤ 5 ∧ 5 < 3 * 2 ^ (-(-1 : Int)).toNat) ∧
    (FVal.fin false 1 4).isNan = false ∧ scaledAt false 1 4 0 = 16 ∧ scaledAt true 0 3 0 = scaledAt false 0 0 0 ∧
    (FVal.inf true).isNan = false ∧ (FVal.nan false true 0 0).isNan = true := by
  refine ⟨by decide, ⟨⟨14, 5, by decide +kernel, by decide⟩, by decide +kernel⟩, by decide +kernel⟩

/-- Slots 0, 1, 3 and 4 raise at the end of a bundle whose core's queue has room for one record; an older stream has ended, and the
bundle's own has. -/
def recording : State :=
  let s := between fun x => { x with
    vt := 7
    streams := [{ kind := .mma, level := 0, form := cPlain, pc := 3, start := 2, done := 2, left := 0, fa := 0, fb := 0, geom := 0, held := 1
                  writes := false, cap := [], rows := [], watch := [], evs := [⟨5, ⟨1, 4, 2⟩⟩], evVt := 2 },
                { kind := .mma, level := 0, form := cPlain, pc := 9, start := 7, done := 1, left := 0, fa := 0, fb := 0, geom := 0, held := 1
                  writes := false, cap := [], rows := [], watch := [], evs := [⟨6, ⟨1, 8, 1⟩⟩], evVt := 7 }]
    issue := some { quiet with raises := [⟨3, [⟨5, ⟨1, 1, 1⟩⟩]⟩, ⟨0, scalarEvs kInvalid⟩] } }
  s.setCore 0 { s.core 0 with evq := List.replicate 63 (0, 0) }

theorem witness_LoopEndTest_records :
    ((recording.ctxAt 0 0).issue.map fun i => i.late) = some none ∧
    ((recording.ctxAt 0 0).issue.map fun i => (bundleRecords 0 (recording.ctxAt 0 0) i).length) = some 3 ∧
    (((recording.finishBundle 0 0).core 0).evq.length, ((recording.finishBundle 0 0).core 0).evDrop) = (64, 2) ∧
    ((recording.finishBundle 0 0).core 0).evq.getLast? =
      some (0x0003610000000002, 0x0510004000000002) := by decide +kernel

/-- An exact zero of opposite values, a sum of values with different exponents, infinities, and NaN. -/
theorem witness_CellFloatRules :
    scaledAt false 3 0 (-1) + scaledAt true 6 (-1) (-1) = 0 ∧ scaledAt false 3 1 (-1) + scaledAt true 1 (-1) (-1) = 11 ∧
    (FVal.fin false 1 0).isNan = false ∧ FVal.fin false 1 0 ≠ .inf true ∧ (FVal.fin false 0 0).isZero = true ∧
    (FVal.fin true 1 0).isZero = false ∧ (FVal.nan false false 1 22).isSnan = true := by decide +kernel

/-- A pair of formats with four positions, three of them within the K extent. -/
theorem witness_MatrixElement_step :
    mmaPair .e4m3 .lq8 = some ⟨4, 2, 1, false⟩ ∧ mmaPair .n8 .i8 = some ⟨2, 1, 2, true⟩ ∧ 0 < 3 ∧ 3 ≤ 4 ∧
    (let st := stream .mma { cf 3 11 with cn := 2, im := 7 } 0 0 2
     Fmt.ofCode ({ st with fa := 3, fb := 11 } : Stream).fa = some .e4m3 ∧ ({ st with fa := 3, fb := 11 } : Stream).pair = ⟨4, 2, 1, false⟩ ∧
      ({ st with fa := 3, fb := 11 } : Stream).limit 1 = 3) := by decide +kernel

/-- A codeword beside an infinite value, a destination block without a scale, and neither. -/
theorem witness_LatticeResults_merge :
    ((List.replicate 8 (FVal.inf false)).length = 8) ∧ (FVal.inf false).unblockable = true ∧
    (lqMergeWord 127 127 0 0 1 (List.replicate 8 (FVal.inf false))).2.1 = true ∧
    (lqMergeWord 127 255 0 0 1 (List.replicate 8 (FVal.fin false 0 0))).2.1 = true ∧
    (lqMergeWord 127 127 0 0 1 (List.replicate 8 (FVal.fin false 0 0))).2.1 = false := by decide +kernel

/-- A turn that may be charged, with another context ready and with none. -/
theorem witness_ClockEvents_turns : paired.mayCharge 0 1 = true ∧ paired.otherReady 0 = true ∧ st.mayCharge 0 1 = true ∧
    st.otherReady 0 = false := by decide +kernel

/-- Data and a baton for a null handle of unit 0; a baton for a stopped context and one for a unit that the launch lacks. -/
def misdirected : State :=
  { delivering with
    xputs := [⟨0, 0, 0, 9, List.replicate 32 1⟩]
    batons := [⟨0, 0, 0, 0, 0, 9, 0xFFFF, [], none⟩, ⟨0, 0, 0, 0, 7, 2, 0xFFFF, [], none⟩, ⟨0, 0, 0, 0, 0, 8, 0xFFFF, [], some 3⟩] }

/-- The same with the context stopped. -/
def misdirectedStopped : State := misdirected.modCtxAt 0 0 fun x => { x with run := .stopped }

theorem witness_CopyDeliveryEvents_refused :
    (misdirected.unitCtx 0 0 = some (0, 0) ∧ (misdirected.ctxAt 0 0).hasStopped = false ∧
      overtakesXput [] ⟨0, 0, 0, 9, []⟩ = false ∧
      { misdirected with xputs := [] }.fillSlot 0 0 9 (List.replicate 32 1) = .refused) ∧
    (let b : Baton := ⟨0, 0, 0, 0, 0, 9, 0xFFFF, [], none⟩
     let rest : State := { misdirected with batons := misdirected.batons.eraseIdx 0 }
     misdirected.batons[0]? = some b ∧ overtakesBaton [] b = false ∧ (rest.dropBaton b).isSome = true ∧
      rest.fillSlot 0 0 9 (b.header ++ b.payload) = .refused ∧ (misdirectedStopped.ctxAt 0 0).hasStopped = true ∧
      ({ misdirectedStopped with batons := misdirected.batons.eraseIdx 0 }.dropBaton b).isSome = true) ∧
    (let b : Baton := ⟨0, 0, 0, 0, 7, 2, 0xFFFF, [], none⟩
     misdirected.batons[1]? = some b ∧ overtakesBaton (misdirected.batons.take 1) b = false ∧ misdirected.unitCtx 0 7 = none ∧
      ({ misdirected with batons := misdirected.batons.eraseIdx 1 }.dropBaton b).isSome = true ∧
      ofLaunch misdirected (fun x => decide (x.coreN * x.ctxs ≤ 7) && x.graph.isSome) = true) ∧
    ofLaunch misdirected (fun x => x.cores[0 / x.ctxs]? == some 0 && decide (0 % x.ctxs = 0)) = true ∧
    (misdirected.ctxAt 0 0).engfltb = 0 := by decide +kernel

/-- A free queue pair: number 3. -/
theorem witness_OwnershipCommands_pair : get none owned.mgmt.pairs 3 = none ∧ get none owned.mgmt.retries 3 = none ∧ 3 < 1024 ∧ 1 < 64 := by
  decide +kernel

/-- A group that has received one part of an operation of two flits; one with room for another, and a full one. -/
theorem witness_AttachmentEvents_flits :
    (let op : RemoteOp := .data 0 0 (List.replicate 257 0)
     flitsOf op = 2 ∧ op ≠ .part ∧ opBytes op = 257 ∧
      (let s := withMgmt (linked { state := .inGroup, group := 20 }) fun g => g.setGroup 20 { g.group 20 with parts := 1 }
       (s.mgmt.group 20).parts + 1 = flitsOf op ∧ (s.remoteOp 20 op).isSome = true ∧
        ({ s with clusters := [(0, { switching := true })] }.remoteOp 20 op).isNone = true ∧
        (s.mgmt.group 20).ports ≠ [] ∧ (s.mgmt.group 20).width ≠ 0 ∧ (s.mgmt.group 20).unacked.length + 2 ≤ 2 ^ 20)) ∧
    flitsOf (.cancel none 0 0) = 1 ∧ 2 ^ 20 < (2 ^ 20 - 1) + 2 ∧ argN [0xFF, 9, 0, 0] 0 1 = 0xFF ∧
    get none owned.mgmt.pairs 3 = none ∧ get none owned.mgmt.retries 3 = none := by decide +kernel

/-! ### The step and the whole machine -/

/-- A bundle `add g1, g0, g0 | end`, next to be fetched. -/
def ready : State := State.reset.withBundle 0x000400000104000000000000000000000000000000000000000000000000000000000000000000001900000000000000

/-- CAP_GET of masters 2 and 1 that arrive together. -/
noncomputable def between2 : State := { owned with agenda := [.capGet 2 0 [], .capGet 1 0 []], together := 2 }

/-- Its fetch, and the states between its slots. -/
def fetched : State := got (exec (.bundleFetch 0 0) ready)
def afterS0 : State := got (exec (.add { rPlain with d := 1 }) (atSlot fetched 0))
def afterS1 : State := got (exec .nop (atSlot afterS0 1))
def afterC : State := got (exec .nop (atSlot afterS1 3))
def afterM : State := got (exec .nop (atSlot afterC 2))

theorem witness_StepRunsBundle : IsCtx 0 0 ∧
    (State.reset.coreRuns 0 = false ∧ (ready.coreRuns 0 = true ∧ (ready.core 0).holder = 0 ∧ (ready.ctxAt 0 0).active = true) ∧
      (inPhase .running .retired).coreRuns 0 = true ∧ ((inPhase .running .retired).ctxAt 0 0).active = false) ∧
    ((ready.ctxAt 0 0).depth = 0 ∧ (ready.ctxAt 0 0).nextPending.isNone = true ∧ (ready.ctxAt 0 0).haltReq = false ∧
      ((ready.landAll 0 0).stepsCause 0 0 false).isNone = true ∧ (ready.core 0).landNeeds (ready.ctxAt 0 0) = [] ∧
      (ready.ctxAt 0 0).dueStreams = [] ∧
      ((withCtx ((ready.landAll 0 0).stepAll 0 0) 0 0 fun y => { y with owed := 0 }).ctxAt 0 0).run = .running ∧
      ((withCtx ((ready.landAll 0 0).stepAll 0 0) 0 0 fun y => { y with owed := 0 }).ctxAt 0 0).skip = 0) ∧
    ((ready.ctxAt 0 0).resumeMask = 0 ∧ ∃ next w, ready.fetchNext 0 0 = .ok next w ∧
      (Header.unpack (bundleH w)).ok = true ∧ decodeS (bundleS0 w) = .ok (.add { rPlain with d := 1 }) ∧
      decodeS (bundleS1 w) = .ok .nop ∧ decodeM (bundleM w) = .ok .nop ∧ decodeC (bundleC w) = .ok .nop ∧
      decodeF (bundleF w) = .ok (.endOp fPlain)) ∧
    (ready.keepNext exec = none ∧ ready.agenda = [] ∧ ready.turn.core = 0 ∧ ready.ownEvent exec = ready.turnEvent ∧
      exec (.bundleFetch 0 0) ready = .next fetched ∧
      ∃ i, fetched.cx.issue = some i ∧ fetched.cx.run = .running ∧ fetched.turn = ⟨0, 0, 0⟩ ∧
        i.s0 = .add { rPlain with d := 1 } ∧ i.s1 = .nop ∧ i.c = .nop ∧ i.m = .nop ∧ i.f = .endOp fPlain ∧
        exec i.s0 (atSlot fetched 0) = .next afterS0 ∧ exec i.s1 (atSlot afterS0 1) = .next afterS1 ∧
        exec i.c (atSlot afterS1 3) = .next afterC ∧ exec i.m (atSlot afterC 2) = .next afterM ∧
        ∃ j, afterM.cx.issue = some j ∧ j.late = none ∧ ∃ z, exec j.f (atSlot afterM 4) = .next z) ∧
    (between2.keepNext exec = none ∧ between2.agenda[1]? = some (.capGet 1 0 []) ∧ between2.commander (.capGet 1 0 []) = some 1 ∧
      (between2.agenda.head?.bind between2.commander).isSome = true ∧ 1 < between2.together ∧
      (∀ (j : Nat) a q, j < between2.together → between2.agenda[j]? = some a → between2.commander a = some q → 1 ≤ q ∧ (j < 1 → 1 < q)) ∧
      after (exec (.capGet 1 0 []) { between2 with agenda := between2.agenda.eraseIdx 1, together := between2.together - 1 })
        (fun t => t.cx.issue.isNone) = true) ∧
    (aged.keepNext exec).isSome = true ∧ after (exec ((aged.keepNext exec).getD .nop) aged) (fun t => t.cx.issue.isNone) = true ∧
    (State.keepNext exec { ready with agenda := [.nocFreqStep 0 1] } = none ∧
      { ready with agenda := [.nocFreqStep 0 1] }.agenda = .nocFreqStep 0 1 :: [] ∧ ready.together ≤ 1 ∧
      after (exec (.nocFreqStep 0 1) ready) (fun t => t.cx.issue.isNone) = true) := by
  have w : ready.fetchNext 0 0 = .ok 25
    0x000400000104000000000000000000000000000000000000000000000000000000000000000000001900000000000000 := by decide +kernel
  obtain ⟨i, hi⟩ := Option.isSome_iff_exists.mp (by decide +kernel : fetched.cx.issue.isSome = true)
  have parts : fetched.cx.issue.map (fun i => (i.s0, i.s1, i.c, i.m, i.f)) =
      some (.add { rPlain with d := 1 }, .nop, .nop, .nop, .endOp fPlain) := by decide +kernel
  rw [hi] at parts
  obtain ⟨h0, h1, h2, h3, h4⟩ : i.s0 = .add { rPlain with d := 1 } ∧ i.s1 = .nop ∧ i.c = .nop ∧ i.m = .nop ∧ i.f = .endOp fPlain := by
    simpa using parts
  obtain ⟨j, hj⟩ := Option.isSome_iff_exists.mp (by decide +kernel : afterM.cx.issue.isSome = true)
  have last : afterM.cx.issue.map (fun j => (j.late, j.f)) = some (none, .endOp fPlain) := by decide +kernel
  rw [hj] at last
  obtain ⟨hl, hf⟩ : j.late = none ∧ j.f = .endOp fPlain := by simpa using last
  refine ⟨by unfold IsCtx; decide, by decide +kernel, by decide +kernel, ⟨by decide +kernel, 25, _, w, by decide +kernel⟩,
    ⟨rfl, by decide +kernel, by decide +kernel, by decide +kernel, got_eq (by decide +kernel), i, hi, by decide +kernel, by decide +kernel,
      h0, h1, h2, h3, h4, by rw [h0]; exact got_eq (by decide +kernel), by rw [h1]; exact got_eq (by decide +kernel),
      by rw [h2]; exact got_eq (by decide +kernel), by rw [h3]; exact got_eq (by decide +kernel), j, hj, hl,
      got (exec (.endOp fPlain) (atSlot afterM 4)), by rw [hf]; exact got_eq (by decide +kernel)⟩,
    ⟨rfl, rfl, rfl, rfl, by decide, ?_, by decide +kernel⟩, by decide +kernel, by decide +kernel, rfl, rfl, by decide, by decide +kernel⟩
  intro j a q hj ha hq
  have : j = 0 ∨ j = 1 := by have : between2.together = 2 := rfl; omega
  rcases this with rfl | rfl <;> (cases ha; cases hq; decide)

theorem witness_DecodeEncode : WellFormed (.add rPlain) = true ∧ WellFormed (.vfma { cf 1 0 with as_ := 1, ta := 1023 }) = true := by
  decide +kernel

/-- A device whose next step stores into memory that is in its canonical form. -/
theorem witness_MemoryCanonicalStep : (paged ready).mem.wf = true ∧ step (paged ready) = .next (got (step (paged ready))) :=
  ⟨by decide +kernel, got_eq (by decide +kernel)⟩
/-! ### Single instructions -/

/-- Results scheduled by an instruction in the bundle of `s`: file, register, value and cycles. -/
def lands (s : State) (i : Instr) : List (LReg × Nat × Word × Nat) :=
  match exec i s with
  | .next t => t.cx.land.map fun e => (e.kind, e.idx, e.val, e.due - t.cx.vt)
  | _ => []

/-- g1 = −7, g2 = 2, g3 = 0x8000_0000_0000_0000, g4 = 0x9ABC_DEF0, g5 = 0xFFFF, g6 = −1. -/
def numbers : State := within fun x => { x with g := [(1, -7), (2, 2), (3, 0x8000000000000000), (4, 0x9ABCDEF0), (5, 0xFFFF), (6, -1)] }

/-- R73, R74: division truncates, a zero divisor, and the most negative number divided by −1. -/
theorem test_division :
    lands numbers (.div { rPlain with d := 9, a := 1, b := 2 }) = [(.g, 9, -3, 18)] ∧
    lands numbers (.rem { rPlain with d := 9, a := 1, b := 2 }) = [(.g, 9, -1, 18)] ∧
    lands numbers (.remn { rPlain with d := 9, a := 1, b := 0 }) = [(.g, 9, -7, 18)] ∧
    lands numbers (.div { rPlain with d := 9, a := 3, b := 6 }) = [(.g, 9, 0x8000000000000000, 18)] := by decide +kernel

/-- R73: the high half of a product, signed and not; a result for g0 is discarded. -/
theorem test_high_product :
    lands numbers (.mulhn { rPlain with d := 9, a := 3, b := 2 }) = [(.g, 9, 1, 3)] ∧
    lands numbers (.mulh { rPlain with d := 9, a := 3, b := 2 }) = [(.g, 9, -1, 3)] ∧
    lands numbers (.div rPlain) = [] := by decide +kernel

/-- The constant of R77's example: LI, then LIH. -/
theorem test_constant :
    lands numbers (.li { lPlain with d := 4, imm := 0x9ABCDEF0 }) = [(.g, 4, 0x9ABCDEF0, 1)] ∧
    lands numbers (.lih { lPlain with d := 4, imm := 0x48D159E }) = [(.g, 4, 0x123456789ABCDEF0, 1)] := by decide +kernel

/-- R277: with n = 0 LAPADD clears the deeper levels; a counter past 0xFFFF is LAP_RANGE. -/
theorem test_lapadd :
    (let s := within fun x => { x with lap := [(1, 0x0001000200030004)], g := [(1, 1), (2, 0xFFFF)] }
     lands s (.lapadd { rPlain with d := 2, a := 1, b := 0, fn := 1 }) = [(.lap, 2, 0x0001000200000000, 1)] ∧
     lands s (.lapadd { rPlain with d := 2, a := 1, b := 1, fn := 2 }) = [(.lap, 2, 0x0001000200040000, 1)]) := by decide +kernel

/-- R69: two results of one register in one cycle are SCHED_COLLIDE; the slot alone traps, and with no vector the launch is
killed with that cause (R422). -/
theorem test_collide :
    (let s := between fun x => { x with land := [⟨.g, 9, 0, 1⟩] }
     after (exec (.add { rPlain with d := 9 }) s) (fun t => decide (phaseOf t = some (.killing 6 cSchedCollide)))) = true := by
  decide +kernel

/-- R309: a word stored to the page lies least significant byte first, and its line is recorded for the context. -/
theorem test_store :
    after (exec (.stw { mPlain with a := 2, b := 4, imm := 4 }) mst) (fun t =>
      readBytes t.mem 0x120000003 6 == [0, 0x88, 0x77, 0x66, 0x55, 0] && (get {} t.lines (0x120000000 / 64)).write.isSome) = true := by
  decide +kernel

/-- R26: a store to a sibling's CMEM is ADDR_SPACE. -/
theorem test_store_sibling :
    after (exec (.std { mPlain with a := 3 }) (launched (paged (between busy)))) (fun t =>
      decide (phaseOf t = some (.killing 6 cAddrSpace))) = true := by decide +kernel

/-- R312: AMOMINN compares unsigned, and its old word is zero-extended. -/
theorem test_atomic :
    after (exec (.amominn { mPlain with d := 9, a := 1, b := 5, attr := 4 })
      (mst.setCore 0 { mst.core 0 with cmem := writeBytes (mst.core 0).cmem 0x1000 [0xFF, 0xFF, 0xFF, 0xFF] })) (fun t =>
        readBytes t.cc.cmem 0x1000 5 == [5, 0, 0, 0, 0] && t.cx.land.map (fun e => e.val) == [0xFFFFFFFF]) = true := by decide +kernel

/-- "Placing a launch": SYS.PLACE of units 1 and 5, and g2, g3 and g4 of unit 5. -/
theorem test_example_place :
    (let x : Launch := { probeLaunch with words := probeLaunch.words.set 3 0x00210300, cores := [17, 18, 70] }
     (startCtx x none 17 0 1).place = 0x0000000100C10011 ∧ (startCtx x none 70 2 1).place = 0x0000000502C100C6 ∧
      ((startCtx x none 70 2 1).greg 2, (startCtx x none 70 2 1).greg 3, (startCtx x none 70 2 1).greg 4) = (5, 6, 0xC)) := by
  decide +kernel

/-- Each of two slots of a step: the manual's ADD lands one cycle after its issue, and END drains the context. -/
theorem test_step :
    after (step ready) (fun t => decide (t.cx.land = [⟨.g, 1, 0, 1⟩]) && t.cx.run == .ending && t.cx.pc == 25) = true := by
  decide +kernel

/-- R151: 2^½, the end of VEXF's domain and a value past it; log2 of 1.5 and of a power of two; exact reciprocals. -/
theorem test_functions :
    (vexfElem Fmt.fp32.spec .rne 0x3F000000).1 = 0x3FB504F3 ∧ vexfElem Fmt.fp32.spec .rne 0x3F800000 = (0x7FC00000, kInvalid) ∧
      (vlgfElem Fmt.fp32.spec .rne 0x3FC00000).1 = 0x3F15C01A ∧ (vlgfElem Fmt.fp32.spec .rne 0x41000000).1 = 0 ∧
      (vrcpfElem Fmt.fp32.spec .rne 0x40800000).1 = 0x3E800000 ∧ (vrsqfElem Fmt.fp32.spec .rne 0x3E800000).1 = 0x40000000 := by
  decide +kernel

end Sys2Proof.Tests
end

section
/-! SUPPORT. The constant registers (R7). -/

namespace Sys2Proof.Machine

/-- Settles O10, by what a register reads after a landing. -/
theorem constantRegisters : Obligations.ConstantRegisters := by
  intro x v n
  refine ⟨x.greg_zero, x.preg_zero, rfl, rfl, fun hn => ⟨?_, ?_⟩, ?_⟩
  · rw [Ctx.greg_writeReg, if_neg hn, if_pos rfl]
  · rw [Ctx.preg_writeReg, if_neg hn, if_pos rfl]
  · rw [Ctx.lapReg_writeReg, if_pos rfl]

end Sys2Proof.Machine
end

section
/-! SUPPORT. What a command does that Filzan hears (R394 to R400): said once, for every command's own lemma. -/

namespace Sys2Proof.Machine

open Sys2Proof.Claims

variable {s : State} {m code : Nat} {tag : Byte} {body : List Byte}

/-! ### Filzan listens -/

theorem State.filzanServes_iff :
    s.filzanServes = true ↔ s.mgmt.bootFail = false ∧ s.mgmt.fatal = false ∧ s.mgmt.alarmLevel < 2 := by
  simp [State.filzanServes, and_assoc]

theorem State.hears_iff :
    s.hears m = true ↔ s.filzanServes = true ∧ ∃ ep, get none s.mgmt.sessions m = some ep ∧ s.lockedOut ep = false := by
  unfold State.hears
  cases get none s.mgmt.sessions m <;> simp

theorem heard_lt (h : Heard s m) : m < masters := h.1

theorem heard_serves (h : Heard s m) : s.filzanServes = true := (State.hears_iff.1 h.2.1).1

theorem heard_session (h : Heard s m) : ∃ ep, get none s.mgmt.sessions m = some ep ∧ s.lockedOut ep = false :=
  (State.hears_iff.1 h.2.1).2

/-- No lease or handover of a device that hears a master is over. -/
theorem heard_settleOwner (h : Heard s m) : s.settleOwner = s := by
  obtain ⟨-, -, hlease⟩ := h
  exact if_neg fun hover => absurd (hlease hover.1) (Nat.not_lt.2 hover.2)

/-! ### A command that is heard (R398) -/

/-- Of a master that is heard, only the sender's right, the layout and the effect decide. -/
theorem State.command_of_heard (h : Heard s m) (w : Sender) (ok : Bool) (go : State → Reply) :
    s.command m code tag w ok go = s.attend m code tag w ok go := by
  obtain ⟨hboot, hfatal, halarm⟩ := State.filzanServes_iff.1 (heard_serves h)
  obtain ⟨ep, hsession, hlock⟩ := heard_session h
  simp [State.command, hboot, hfatal, Nat.ne_of_lt halarm, hsession, hlock]

/-- A command that its master may not send is answered NOT_OWNER and changes nothing else. -/
theorem State.command_notOwner (h : Heard s m) {w : Sender} (hw : s.allows w m = false) (ok : Bool) (go : State → Reply) :
    s.command m code tag w ok go = answered s m code tag 1 [] := by
  rw [command_of_heard h, State.attend, heard_settleOwner h, hw]
  rfl

/-- A command that its master may send and that is well formed has its effect and its answer. -/
theorem State.command_done (h : Heard s m) {w : Sender} (hw : s.allows w m = true) (go : State → Reply) :
    s.command m code tag w true go = answered (go s).state m code tag (go s).status (go s).body := by
  rw [command_of_heard h, State.attend, heard_settleOwner h, hw]
  rfl

theorem commandStep_of_lt (h : m < masters) (w : Sender) (ok : State → Bool) (go : State → Reply) :
    commandStep m code tag w ok go s = .next (s.command m code tag w (ok s) go) :=
  if_neg (Nat.not_le.2 h)

theorem commandStep_notOwner (h : Heard s m) {w : Sender} (hw : s.allows w m = false) (ok : State → Bool) (go : State → Reply) :
    commandStep m code tag w ok go s = .next (answered s m code tag 1 []) := by
  rw [commandStep_of_lt (heard_lt h), State.command_notOwner h hw]

theorem commandStep_done (h : Heard s m) {w : Sender} {ok : State → Bool} (hw : s.allows w m = true) (hok : ok s = true)
    (go : State → Reply) :
    commandStep m code tag w ok go s = .next (answered (go s).state m code tag (go s).status (go s).body) := by
  rw [commandStep_of_lt (heard_lt h), hok, State.command_done h hw]

/-! ### Who may send (R381, R394, R396) -/

theorem State.allows_owner_iff : s.allows .owner m = true ↔ s.mgmt.own = .owned ∧ s.mgmt.owner = m := by
  simp [State.allows]

theorem State.allows_owner_false (h : ¬ (s.mgmt.own = .owned ∧ s.mgmt.owner = m)) : s.allows .owner m = false :=
  Bool.eq_false_iff.2 (h ∘ State.allows_owner_iff.1)

theorem State.allows_ownerOrBaseboard_iff :
    s.allows .ownerOrBaseboard m = true ↔ s.mgmt.own = .owned ∧ s.mgmt.owner = m ∨ m = 0 := by
  simp [State.allows]

theorem State.allows_trust_iff :
    s.allows .trust m = true ↔ s.mgmt.own = .owned ∧ s.mgmt.owner = m ∨ m = 0 ∧ s.mgmt.own = .unowned := by
  simp [State.allows]

theorem owns_heard (h : Owns s m) : Heard s m := h.1

theorem owns_allows_owner (h : Owns s m) : s.allows .owner m = true := State.allows_owner_iff.2 h.2

/-! ### Codes (R398, R400) -/

/-- Every code with a meaning stands in the table of commands. -/
theorem isCommand_of_commandOf_isSome (h : (commandOf m code tag body).isSome = true) : ∃ i, IsCommand 0 code 0 [] i := by
  unfold commandOf at h
  split at h
  case h_34 => cases h
  all_goals simp [IsCommand]

theorem commandOf_of_unassigned (h : Unassigned code) : commandOf m code tag body = none := by
  refine Option.not_isSome_iff_eq_none.1 fun hsome => ?_
  obtain ⟨i, hi⟩ := isCommand_of_commandOf_isSome hsome
  exact h i hi

end Sys2Proof.Machine
end

section
/-! SUPPORT. Power caps, ownership, sessions and trust (R15, R381, R394 to R396, R400, R401, R405): each command of a master
that Filzan hears, and what becomes of ownership and sessions in clock time. -/

namespace Sys2Proof.Machine

open Sys2Proof.Claims

variable {s : State} {m : Nat} {body : List Byte}

/-! ### Caps and status (R381, R400) -/

theorem execCapSet_of_heard (h : Heard s m) (tag : Byte) (hw : s.mgmt.own = .owned ∧ s.mgmt.owner = m ∨ m = 0)
    (hlen : body.length = 2) (hv : bodyN body 0 2 = 0 ∨ 400 ≤ bodyN body 0 2 ∧ bodyN body 0 2 ≤ 3200) :
    execCapSet m tag body s = .next (answered
      (withMgmt s fun g => { g with capW := if bodyN body 0 2 = 0 then 3200 else bodyN body 0 2 }) m 0x01 tag 0 []) := by
  rw [execCapSet, commandStep_done h (State.allows_ownerOrBaseboard_iff.2 hw) (by simpa [hlen] using hv)]
  rfl

theorem execCapGet_of_heard (h : Heard s m) (tag : Byte) : execCapGet m tag [] s = .next (answered s m 0x02 tag 0
    (leBytes 2 s.mgmt.capW ++ leBytes 2 s.mgmt.meanW ++ leBytes 4 s.mgmt.capLimits.toNat)) :=
  commandStep_done h (ok := fun _ => true) rfl rfl _

theorem execStatus_of_heard (h : Heard s m) (tag : Byte) :
    execStatus m tag [] s = .next (answered s m 0x70 tag 0 s.report) :=
  commandStep_done h (ok := fun _ => true) rfl rfl _

/-! ### Ownership (R395) -/

/-- Ownership with a lease in seconds of the reference clock. -/
theorem State.own_eq_withMgmt (s : State) (m sec : Nat) : s.own m sec = withMgmt s fun g => { g with
    own := .owned, owner := m, heir := 0xFF, leaseSec := sec, leaseEnd := s.clock + sec * second } := by
  simp only [State.own, Nat.mul_assoc]
  rfl

theorem State.mayClaim_iff :
    s.mayClaim m = true ↔ s.mgmt.own = .unowned ∨ s.mgmt.own = .handover ∧ s.mgmt.heir = m := by
  unfold State.mayClaim
  cases s.mgmt.own <;> simp

theorem execClaim_of_free (h : Heard s m) (tag : Byte) (hlen : body.length = 2)
    (hlo : 1 ≤ bodyN body 0 2) (hhi : bodyN body 0 2 ≤ 600)
    (hfree : s.mgmt.own = .unowned ∨ s.mgmt.own = .handover ∧ s.mgmt.heir = m) :
    execClaim m tag body s = .next (answered (withMgmt s fun g => { g with
      own := .owned, owner := m, heir := 0xFF, leaseSec := bodyN body 0 2, leaseEnd := s.clock + bodyN body 0 2 * second })
      m 0x10 tag 0 []) := by
  have hform : ¬ (body.length ≠ 2 ∨ bodyN body 0 2 < 1 ∨ 600 < bodyN body 0 2) := by omega
  simp only [execClaim, commandStep_done h (w := .anyone) rfl, State.mayClaim_iff.2 hfree, if_neg hform, State.own_eq_withMgmt]
  rfl

theorem execClaim_of_owned (h : Heard s m) (tag : Byte) (howned : s.mgmt.own = .owned) :
    execClaim m tag body s = .next (answered s m 0x10 tag 1 []) := by
  simp [execClaim, commandStep_done h (w := .anyone) rfl, State.mayClaim, howned]

theorem execRenew_of_owns (h : Owns s m) (tag : Byte) :
    execRenew m tag [] s = .next (answered (withMgmt s fun g => { g with
      own := .owned, owner := m, heir := 0xFF, leaseEnd := s.clock + s.mgmt.leaseSec * second }) m 0x11 tag 0 []) := by
  rw [execRenew, commandStep_done (owns_heard h) (owns_allows_owner h) rfl, State.own_eq_withMgmt]
  rfl

theorem execRelease_of_owns (h : Owns s m) (tag : Byte) :
    execRelease m tag [] s = .next (answered s.unown m 0x12 tag 0 []) :=
  commandStep_done (owns_heard h) (ok := fun _ => true) (owns_allows_owner h) rfl _

/-- HANDOVER to an heir leaves the device unowned but for the heir's ten seconds (R395). -/
theorem execHandover_to_heir (h : Owns s m) (tag : Byte) (hlen : body.length = 1) (hheir : bodyN body 0 1 < masters) :
    execHandover m tag body s = .next (answered (withMgmt s.unown fun g => { g with
      own := .handover, heir := bodyN body 0 1, leaseEnd := s.clock + 10 * second }) m 0x13 tag 0 []) := by
  have hne : bodyN body 0 1 ≠ 0xFF := by unfold masters at hheir; omega
  rw [execHandover, commandStep_done (owns_heard h) (owns_allows_owner h) (by simp [hlen, hheir])]
  simp only [if_neg hne]
  rfl

theorem execHandover_to_none (h : Owns s m) (tag : Byte) (hlen : body.length = 1) (hnone : bodyN body 0 1 = 0xFF) :
    execHandover m tag body s = .next (answered s.unown m 0x13 tag 0 []) := by
  rw [execHandover, commandStep_done (owns_heard h) (owns_allows_owner h) (by simp [hlen, hnone])]
  simp only [if_pos hnone]
  rfl

/-- A command of the owner's from another master is answered NOT_OWNER and changes nothing else. -/
theorem ownerCommands_of_notOwner (h : Heard s m) (hno : ¬ (s.mgmt.own = .owned ∧ s.mgmt.owner = m)) (tag : Byte)
    (body : List Byte) :
    execRenew m tag body s = .next (answered s m 0x11 tag 1 []) ∧
    execRelease m tag body s = .next (answered s m 0x12 tag 1 []) ∧
    execHandover m tag body s = .next (answered s m 0x13 tag 1 []) ∧
    execDomainSet m tag body s = .next (answered s m 0x20 tag 1 []) ∧
    execKill m tag body s = .next (answered s m 0x33 tag 1 []) ∧
    execKeyLoad m tag body s = .next (answered s m 0x40 tag 1 []) := by
  simp only [execRenew, execRelease, execHandover, execDomainSet, execKill, execKeyLoad,
    commandStep_notOwner h (State.allows_owner_false hno), and_self]

/-! ### Ownership in clock time (R395) -/

theorem State.settleOwner_of_leased (h : s.mgmt.own = .owned ∨ s.mgmt.own = .handover) :
    s.settleOwner = if s.mgmt.leaseEnd ≤ s.clock then s.unown else s := by
  simp [State.settleOwner, h]

/-- A device that serves settles a lease or a handover, whichever the occurrence is for, when its time is over. -/
theorem State.settle_of_serves {o : OwnState} (ho : o = .owned ∨ o = .handover) (hserves : s.filzanServes = true) :
    (if s.mgmt.own = o ∧ s.filzanServes then s.settleOwner else s) =
      if s.mgmt.own = o ∧ s.mgmt.leaseEnd ≤ s.clock then s.unown else s := by
  by_cases hown : s.mgmt.own = o
  · rw [if_pos ⟨hown, hserves⟩, State.settleOwner_of_leased (hown ▸ ho)]
    simp only [hown, true_and]
  · simp only [hown, false_and, if_false]

/-! ### Sessions (R394) -/

theorem execSpdmSession_of_passed {ep time q : Nat} {root : List Byte} (hserves : (s.tick time).filzanServes = true)
    (hlock : (s.tick time).lockedOut ep = false) (htrust : (s.tick time).mgmt.trusts root = true)
    (hq : (s.tick time).masterFor ep = some q) :
    execSpdmSession ep ⟨root, true⟩ time s = .next (withMgmt (s.tick time) fun g => g.startSession q ep) := by
  simp only [execSpdmSession, hserves, hlock, htrust, hq]
  rfl

/-- An attempt that does not pass, or whose chain ends at no trusted root, counts as a failure. -/
theorem execSpdmSession_of_failed {ep time : Nat} {proof : ChainProof} (hserves : (s.tick time).filzanServes = true)
    (hlock : (s.tick time).lockedOut ep = false)
    (hfail : (proof.passed && (s.tick time).mgmt.trusts proof.root) = false) :
    execSpdmSession ep proof time s = .next ((s.tick time).authFailure ep) := by
  simp only [execSpdmSession, hserves, hlock, hfail]
  rfl

theorem execSessionEnd_of_heard (h : Heard s m) :
    execSessionEnd m s = .next (if s.mgmt.own = .owned ∧ s.mgmt.owner = m
      then (withMgmt s fun g => g.endSession m).unown else withMgmt s fun g => g.endSession m) := by
  have hserves : (s.modMgmt fun g => g.endSession m).filzanServes = s.filzanServes := rfl
  rw [execSessionEnd, if_neg (Nat.not_le.2 (heard_lt h))]
  simp only [hserves, heard_serves h, and_true]
  rfl

theorem execMeasurementRetrieval_of_heard (h : Heard s m) :
    execMeasurementRetrieval m s = .next { s with answers := .measurement m :: s.answers } := by
  obtain ⟨ep, hsession, hlock⟩ := heard_session h
  rw [execMeasurementRetrieval, if_neg (Nat.not_le.2 (heard_lt h))]
  simp only [heard_serves h, hsession, hlock]
  rfl

theorem execTrustSet_of_heard (h : Heard s m) (tag : Byte)
    (hw : s.mgmt.own = .owned ∧ s.mgmt.owner = m ∨ m = 0 ∧ s.mgmt.own = .unowned)
    (hlen : body.length = 49) (hslot : bodyN body 0 1 < 8) :
    execTrustSet m tag body s = .next (answered
      (withMgmt s fun g => { g with trust := set [] (bodyN body 0 1) (body.drop 1) g.trust }) m 0x18 tag 0 []) := by
  rw [execTrustSet, commandStep_done h (State.allows_trust_iff.2 hw) (by simp [hlen, hslot])]
  rfl

/-! ### What an interface does not support (R15, R398, R401) -/

theorem State.pairTakes_of_free {p : HostPeer} {qp : Nat} (hpair : ∀ q, get none s.mgmt.pairs qp = some q → q = p)
    (hretry : get none s.mgmt.retries qp = none) : s.pairTakes p qp none = true := by
  simp only [State.pairTakes, Mgmt.outOfOrder, hretry, Bool.and_eq_true]
  exact ⟨by simpa [Option.all_eq_true] using hpair, rfl⟩

theorem execUnsupportedOption_option (hserves : s.filzanServes = true) (overHost : Bool) (code : Nat) :
    execUnsupportedOption (.option overHost) code s = .next { s with answers := .refusal overHost :: s.answers } := by
  simp only [execUnsupportedOption, hserves]
  rfl

theorem execUnsupportedOption_request (hserves : s.filzanServes = true) {q qp : Nat} (code : Nat) (hq : q < masters)
    (hqp : qp < queuePairs) (htakes : s.pairTakes (.master q) qp none = true) :
    execUnsupportedOption (.request q qp) code s = .next { s with answers := .rdmaInvalid q qp :: s.answers } := by
  have hpart : ¬ (masters ≤ q ∨ queuePairs ≤ qp) := by omega
  simp only [execUnsupportedOption, if_neg hpart, htakes, hserves]
  rfl

theorem execUnsupportedOption_command (h : Heard s 0) {code : Nat} (tag : Byte) (hcode : Unassigned code) :
    execUnsupportedOption (.command tag) code s = .next (answered s 0 code tag 5 []) := by
  simp only [execUnsupportedOption, commandOf_of_unassigned hcode, State.command_done h (w := .anyone) rfl]
  rfl

end Sys2Proof.Machine
end

section
/-! SUPPORT. The statement of ownership, sessions and caps, from the lemma of each command. -/

namespace Sys2Proof.Machine

open Sys2Proof.Claims

/-- Settles O52, by the lemma of each command that is heard and the rules of ownership and sessions in clock time. -/
theorem ownershipCommands : Obligations.OwnershipCommands := by
  intro s m tag body time h
  have hserves : s.filzanServes = true := heard_serves h
  have hticked : (s.tick time).filzanServes = true := hserves
  refine ⟨?capSet, execCapGet_of_heard h tag, execStatus_of_heard h tag, ?claim, execClaim_of_owned h tag, ?owner, ?notOwner,
    ?trustSet, ⟨?lease, ?handover, ?session⟩, ?sessionEnd, execMeasurementRetrieval_of_heard h,
    execUnsupportedOption_option hserves, ?request, ?command⟩
  case capSet => rintro v rfl hw hlen hv; exact execCapSet_of_heard h tag hw hlen hv
  case claim => rintro p rfl hlen hlo hhi hfree; exact execClaim_of_free h tag hlen hlo hhi hfree
  case owner =>
    refine fun howns => ⟨execRenew_of_owns howns tag, execRelease_of_owns howns tag, ?_,
      fun hnone hlen => execHandover_to_none howns tag hlen hnone⟩
    rintro heir rfl hlen hheir
    exact execHandover_to_heir howns tag hlen hheir
  case notOwner => exact fun hno b => ownerCommands_of_notOwner h hno tag b
  case trustSet => rintro hw slot rfl hlen hslot; exact execTrustSet_of_heard h tag hw hlen hslot
  case lease => exact congrArg _ (State.settle_of_serves (.inl rfl) hticked)
  case handover => exact congrArg _ (State.settle_of_serves (.inr rfl) hticked)
  case session =>
    exact fun ep root hlock => ⟨fun q htrust hq => execSpdmSession_of_passed hticked hlock htrust hq,
      fun htrust => execSpdmSession_of_failed hticked hlock htrust, execSpdmSession_of_failed hticked hlock rfl⟩
  case sessionEnd => rintro n rfl; exact execSessionEnd_of_heard h
  case request =>
    exact fun q qp code hq hqp hpair hretry =>
      execUnsupportedOption_request hserves code hq hqp (State.pairTakes_of_free hpair hretry)
  case command => rintro code t rfl hcode; exact execUnsupportedOption_command h t hcode

end Sys2Proof.Machine
end

section
/-! SUPPORT. What the operations of the flow, memory and judge instructions leave of memory: untouched, or in its canonical
form (log entry 2). -/

namespace Sys2Proof.Machine

variable (s : State)

/-! ### Register files, loops and handles -/

@[simp] theorem State.transferTo_mem (t : Word) : (s.transferTo t).mem = s.mem := by
  unfold State.transferTo
  split <;> simp

@[simp] theorem State.branchTo_mem (t : Word) : (s.branchTo t).mem = s.mem := by simp [State.branchTo]

@[simp] theorem State.pushLoop_mem (t : Nat) (count : BitVec 32) : (s.pushLoop t count).mem = s.mem := rfl

@[simp] theorem State.advanceHandle_mem (n : Nat) (fill : Bool) (count : Nat) : (s.advanceHandle n fill count).mem = s.mem := by
  unfold State.advanceHandle
  split
  · rfl
  · split <;> simp

@[simp] theorem State.progress_mem (c : Nat) : (s.progress c).mem = s.mem := by
  unfold State.progress
  split <;> simp

@[simp] theorem State.afterBundle_mem (r : RunState) : (s.afterBundle r).mem = s.mem := by
  unfold State.afterBundle
  split <;> simp

/-! ### Accesses and engines -/

@[simp] theorem State.accessFault_mem (ea : Word) (isWrite : Bool) (e : AccErr) : (s.accessFault ea isWrite e).mem = s.mem := by
  simp [State.accessFault]

@[simp] theorem State.watchAccess_mem (kind : AccKind) (ea : Word) : (s.watchAccess kind ea).mem = s.mem := by
  unfold State.watchAccess
  split
  · dsimp only
    split <;> simp
  · rfl

@[simp] theorem State.addTimeline_mem (c e v : Nat) : (s.addTimeline c e v).mem = s.mem := by
  unfold State.addTimeline
  split <;> simp

@[simp] theorem State.setEngine_mem (e : Nat) (x : Engine) : (s.setEngine e x).mem = s.mem := rfl

@[simp] theorem State.queueCopy_mem (e : Nat) (d : List Word) : (s.queueCopy e d).2.mem = s.mem := rfl

@[simp] theorem State.queueJudge_mem (o : JudgeOp) : (s.queueJudge o).mem = s.mem := rfl

@[simp] theorem State.invalidate_mem (p : TlbEntry → Bool) (q : WalkEntry → Bool) : (s.invalidate p q).mem = s.mem := rfl

theorem State.amoAccess_wf (ea : Word) (n : Nat) (f : Nat → Nat) (hm : s.mem.wf = true) :
    (s.amoAccess ea n f).2.mem.wf = true := by
  unfold State.amoAccess
  dsimp only
  split
  · split <;> simpa using hm
  · split
    case h_1 e => simpa [State.translateAll_pair e] using hm
    case h_2 e =>
      have ht := State.translateAll_pair e
      split
      · simpa [ht] using hm
      · split
        · simpa [ht] using hm
        · exact State.writeLoc_ok _ _ _ (by simpa [ht] using hm)
  · exact hm

/-! ### The fabric -/

@[simp] theorem State.pickGroup_mem (gs : List Nat) : (s.pickGroup gs).2.mem = s.mem := by
  unfold State.pickGroup
  split <;> simp

@[simp] theorem State.routeTo_mem (key : Nat) : (s.routeTo key).2.mem = s.mem := by
  unfold State.routeTo
  dsimp only
  (repeat' split) <;> simp

theorem State.sendFlit_mem {s : State} {g : Nat} {op : RemoteOp} {owner : Option (Nat × Nat)} {r : Nat × State}
    (h : s.sendFlit g op owner = some r) : r.2.mem = s.mem := by
  unfold State.sendFlit at h
  dsimp only at h
  split at h
  · cases h
  · cases h
    rfl

end Sys2Proof.Machine
end

section
/-! SUPPORT. What the fabric, the judges' counting and the queues leave of memory: untouched, or in its canonical form
(log entry 2). -/

namespace Sys2Proof.Machine

variable (s : State)

/-! ### The fabric (R303) -/

/-- The state that an entry of the outbox leaves, whether it has gone or stays. -/
def Sent.state : Sent → State
  | .gone s => s
  | .stays s _ => s

@[simp] theorem Sent.state_gone : (Sent.gone s).state = s := rfl
@[simp] theorem Sent.state_stays (g : Nat) : (Sent.stays s g).state = s := rfl

@[simp] theorem State.sendTo_mem (full : List Nat) (key : Nat) (op : RemoteOp) : (s.sendTo full key op).state.mem = s.mem := by
  unfold State.sendTo
  dsimp only
  split
  · simp
  · split
    case h_1 h => exact (State.sendFlit_mem h).trans (State.routeTo_mem s key)
    case h_2 => simp

@[simp] theorem State.sendOne_mem (full : List Nat) (e : Option Nat × RemoteOp) : (s.sendOne full e).state.mem = s.mem := by
  unfold State.sendOne
  split
  · split <;> simp
  · simp
  · simp

@[simp] theorem State.sendEach_mem (es : List (Option Nat × RemoteOp)) : (s.sendEach es).mem = s.mem := by
  refine foldl_inv (fun acc : State × List (Option Nat × RemoteOp) × List Nat => acc.1.mem = s.mem) _ (fun acc e h => ?_) _ _ rfl
  have hsent := State.sendOne_mem acc.1 acc.2.2 e
  split
  case h_1 heq => rw [heq] at hsent; exact hsent.trans h
  case h_2 heq => rw [heq] at hsent; exact hsent.trans h

@[simp] theorem State.post_mem (op : RemoteOp) : (s.post op).mem = s.mem := by simp [State.post]

@[simp] theorem State.forwardDeltas_mem (dom : Nat) (g : Graph) (unit : Nat) (prog : Bool) (ds : List ((Nat × Word) × Int)) :
    (s.forwardDeltas dom g unit prog ds).mem = s.mem := by simp [State.forwardDeltas]

@[simp] theorem State.askFront_mem (st : Nat) : (s.askFront st).mem = s.mem := by
  unfold State.askFront
  split
  · split
    · split <;> simp
    · rfl
  · rfl

/-! ### Graphs (R287 to R301) -/

@[simp] theorem State.modGraph_mem (l : Nat) (f : Graph → Graph) : (s.modGraph l f).mem = s.mem := by simp [State.modGraph]

@[simp] theorem State.pendAll_mem (l : Nat) (p : Pending) : (s.pendAll l p).mem = s.mem := by
  unfold State.pendAll
  split
  · rfl
  · have hfold : ∀ (cs : List Nat) (t : State), (cs.foldl (fun t c => ((t.core c).ctxs.map Prod.fst).foldl
        (fun t k => if (t.ctxAt c k).run = .idle then t else t.pendCause c k p) t) t).mem = t.mem :=
      foldl_mem _ fun t c => foldl_mem _ (fun t k => by split <;> simp) _ _
    dsimp only
    split <;> simp [hfold]

@[simp] theorem State.countGone_mem (l dropped ignored : Nat) : (s.countGone l dropped ignored).mem = s.mem := by
  unfold State.countGone
  (repeat' split) <;> simp

@[simp] theorem State.dropBatons_mem (l : Nat) : (s.dropBatons l).mem = s.mem := by simp [State.dropBatons]

variable {s}

@[simp] theorem State.judgeWrite_wf (dom va : Nat) (w : Word) (hm : s.mem.wf = true) : (s.judgeWrite dom va w).mem.wf = true := by
  unfold State.judgeWrite
  split
  case h_1 h => exact State.writeGlobal_done h hm
  case h_2 h => exact State.writeGlobal_pair h hm

@[simp] theorem State.writeStatusBlock_wf (dom : Nat) (g : Graph) (hm : s.mem.wf = true) :
    (s.writeStatusBlock dom g).mem.wf = true := by
  unfold State.writeStatusBlock
  split
  · exact hm
  · exact State.judgeWrite_wf _ _ _ (foldl_ok _ (fun t i h => State.judgeWrite_wf _ _ _ h) _ _ (by simp [hm]))

@[simp] theorem State.announce_wf (l st : Nat) (v : Word) (hm : s.mem.wf = true) : (s.announce l st v).mem.wf = true := by
  unfold State.announce
  dsimp only
  (repeat' split) <;> simp [hm]

@[simp] theorem State.announceAll_wf (l : Nat) (hm : s.mem.wf = true) : (s.announceAll l).mem.wf = true := by
  unfold State.announceAll
  split
  · exact hm
  · next g _ =>
    have hfold : ((List.range g.stations).foldl (fun t st => t.announce l st (g.compute st)) s).mem.wf = true :=
      foldl_ok _ (fun t st h => State.announce_wf l st _ h) _ _ hm
    dsimp only
    (repeat' split) <;> simp [hfold]

@[simp] theorem State.cancelGraph_wf (l : Nat) (cause : BitVec 48) (unit : Nat) (hm : s.mem.wf = true) :
    (s.cancelGraph l cause unit).mem.wf = true := by
  unfold State.cancelGraph
  split
  · exact hm
  · split
    · exact hm
    · next x _ g _ =>
      have hclosed : ∀ t : State, t.mem.wf = true →
          ((List.range g.stations).foldl (fun t st => t.announce l st closedLap) t).mem.wf = true :=
        foldl_ok _ (fun t st h => State.announce_wf l st _ h) _
      have hretired : ∀ (cs : List Nat) (t : State), (cs.foldl (fun t c =>
          t.setCore c { t.core c with ctxs := (t.core c).ctxs.map fun (q : Nat × Ctx) => (q.1, q.2.retireDormant) }) t).mem = t.mem :=
        foldl_mem _ fun t c => rfl
      dsimp only
      (repeat' split) <;> simp [hm, hclosed, hretired]

@[simp] theorem State.killGraph_wf (l : Nat) (hm : s.mem.wf = true) : (s.killGraph l).mem.wf = true := by
  unfold State.killGraph
  (repeat' split) <;> simp [hm]

@[simp] theorem State.retireGraph_wf (l : Nat) (hm : s.mem.wf = true) : (s.retireGraph l).mem.wf = true := by
  unfold State.retireGraph
  dsimp only
  (repeat' split) <;> simp [hm]

@[simp] theorem State.countLost_wf (l dropped ignored : Nat) (hm : s.mem.wf = true) :
    (s.countLost l dropped ignored).mem.wf = true := by
  unfold State.countLost
  dsimp only
  (repeat' split) <;> simp [hm]

theorem State.applyDeltas_wf {l : Nat} {ds : List ((Nat × Word) × Int)} {t : State} (h : s.applyDeltas l ds = some t)
    (hm : s.mem.wf = true) : t.mem.wf = true := by
  unfold State.applyDeltas at h
  split at h
  · cases h
    exact hm
  · dsimp only at h
    split at h
    · cases h
      simp [hm]
    · split at h
      · cases h
        simp [hm]
      · cases h

theorem State.judgeDeltas_wf {l : Nat} {ds : List ((Nat × Word) × Int)} {t : State} (h : s.judgeDeltas l ds = some t)
    (hm : s.mem.wf = true) : t.mem.wf = true := by
  unfold State.judgeDeltas at h
  split at h
  · cases h
    exact hm
  · split at h
    · cases h
      simpa using hm
    · exact State.applyDeltas_wf h hm

end Sys2Proof.Machine
end

section
/-! SUPPORT. What queues, doorbells, placements and saves leave of memory (R34 to R37, R350, R360, R457): untouched, or in its
canonical form (log entry 2). -/

namespace Sys2Proof.Machine

variable {s : State}

/-- A state that an operation may not reach is canonical where the one it starts from and each that it reaches are. -/
theorem getD_wf {o : Option State} (h : ∀ t, o = some t → t.mem.wf = true) (hm : s.mem.wf = true) : (o.getD s).mem.wf = true := by
  cases o with
  | none => exact hm
  | some t => exact h t rfl

/-! ### Queues (R350, R351) -/

@[simp] theorem State.setQueue_mem (s : State) (q : Nat) (x : Queue) : (s.setQueue q x).mem = s.mem := rfl

theorem State.deviceWrite_wf {dom va : Nat} {bs : List Byte} {t : State} (h : s.deviceWrite dom va bs = some t)
    (hm : s.mem.wf = true) : t.mem.wf = true := by
  unfold State.deviceWrite at h
  split at h
  case h_1 e =>
    cases h
    exact State.writeGlobal_done e hm
  case h_2 => cases h

@[simp] theorem State.queueError_wf (q ekind elaunch : Nat) (einfo eval : Word) (hm : s.mem.wf = true) :
    (s.queueError q ekind elaunch einfo eval).mem.wf = true :=
  getD_wf (fun _ h => State.deviceWrite_wf h hm) hm

@[simp] theorem State.statusAt_wf (q dom va state : Nat) (cause : BitVec 16) (hm : s.mem.wf = true) :
    (s.statusAt q dom va state cause).mem.wf = true := by
  unfold State.statusAt
  dsimp only
  split
  case h_1 h => exact State.deviceWrite_wf h hm
  case h_2 => simp [hm]

@[simp] theorem State.setStatus_wf (l state : Nat) (cause : BitVec 16) (hm : s.mem.wf = true) :
    (s.setStatus l state cause).mem.wf = true := by
  unfold State.setStatus
  split <;> simp [hm]

@[simp] theorem State.rangeError_wf (q va : Nat) (m : Nat × Nat × Int) (hm : s.mem.wf = true) :
    (s.rangeError q va m).mem.wf = true := State.queueError_wf _ _ _ _ _ hm

@[simp] theorem State.submit_wf (q va : Nat) (ws : List Word) (hm : s.mem.wf = true) : (s.submit q va ws).mem.wf = true := by
  unfold State.submit
  split
  · dsimp only
    split <;> simp [hm]
  · simp [hm]

@[simp] theorem State.ringCorrupt_wf (q va : Nat) (hm : s.mem.wf = true) : (s.ringCorrupt q va).mem.wf = true := by
  simp [State.ringCorrupt, hm]

@[simp] theorem State.advanceHead_wf (q : Nat) (hm : s.mem.wf = true) : (s.advanceHead q).mem.wf = true :=
  getD_wf (fun _ h => State.deviceWrite_wf h hm) hm

@[simp] theorem State.takeEntry_wf (q idx va : Nat) (hm : s.mem.wf = true) : (s.takeEntry q idx va).mem.wf = true := by
  unfold State.takeEntry
  dsimp only
  split
  · simp [hm]
  · split <;> simp [hm]

@[simp] theorem State.takeEntries_wf (q n : Nat) (hm : s.mem.wf = true) : (s.takeEntries q n).mem.wf = true := by
  induction n generalizing s with
  | zero => exact hm
  | succ n ih =>
    unfold State.takeEntries
    dsimp only
    split
    · simp [hm]
    · exact ih (by simp [hm])

@[simp] theorem State.doorbell_wf (q : Nat) (hm : s.mem.wf = true) : (s.doorbell q).mem.wf = true := by
  unfold State.doorbell
  dsimp only
  (repeat' split) <;> simp [hm]

/-! ### Lasting faults, traffic and saved launches (R360, R424, R440, R457) -/

section
variable (s : State)

@[simp] theorem State.classify_mem (c : Nat) (u : ErrUnit) (failed : Bool) : (s.classify c u failed).mem = s.mem := by
  unfold State.classify
  dsimp only
  (repeat' split) <;> simp

@[simp] theorem State.coreVerdict_mem (c : Nat) (u : ErrUnit) (failed : Bool) : (s.coreVerdict c u failed).mem = s.mem := by
  unfold State.coreVerdict
  dsimp only
  split <;> simp

@[simp] theorem State.testCells_mem (c : Nat) : (s.testCells c).mem = s.mem := by simp [State.testCells]

@[simp] theorem State.freeCores_mem (cs : List Nat) : (s.freeCores cs).mem = s.mem :=
  foldl_mem _ (fun t c => State.setCore_mem t c _) _ _

@[simp] theorem State.keepEnded_mem (l : Nat) : (s.keepEnded l).mem = s.mem := by
  unfold State.keepEnded
  split
  · split <;> rfl
  · rfl

@[simp] theorem State.forget_mem (l : Nat) : (s.forget l).mem = s.mem := s.keepEnded_mem l

@[simp] theorem State.releaseEvent_mem : s.releaseEvent.mem = s.mem := rfl

@[simp] theorem State.holdFrames_mem (l : Nat) : (s.holdFrames l).mem = s.mem := by
  unfold State.holdFrames
  split
  · split <;> simp
  · rfl

@[simp] theorem State.requeue_mem (l : Nat) (toTail : Bool) : (s.requeue l toTail).mem = s.mem := by
  unfold State.requeue
  split <;> simp

@[simp] theorem State.haltWaiting_mem (x : Launch) : (s.haltWaiting x).mem = s.mem :=
  foldl_mem _ (fun t c => foldl_mem _ (fun u k => by split <;> simp) _ _) _ _

end

@[simp] theorem State.saveLaunch_wf (l : Nat) (toTail : Bool) (hm : s.mem.wf = true) : (s.saveLaunch l toTail).mem.wf = true := by
  unfold State.saveLaunch
  split <;> simp [hm]

/-! ### Placing (R34 to R37, R361) -/

section
variable (s : State)

@[simp] theorem State.judgeOf_mem (cross : Bool) (cores : List Nat) : (s.judgeOf cross cores).2.mem = s.mem := by
  unfold State.judgeOf
  dsimp only
  (repeat' split) <;> simp

@[simp] theorem State.judgeFor_mem (x : Launch) (cores : List Nat) : (s.judgeFor x cores).2.mem = s.mem := by
  unfold State.judgeFor
  split
  · rfl
  · split <;> simp

@[simp] theorem State.scrubStage_mem (x : Launch) (slots : List (Nat × Nat)) : (s.scrubStage x slots).mem = s.mem :=
  foldl_mem _ (fun t p => by dsimp only; split <;> simp) _ _

@[simp] theorem State.loadCores_mem (x : Launch) (graph : Option (Nat × Nat)) (scbase : Nat) (slots : List (Nat × Nat)) :
    (s.loadCores x graph scbase slots).1.mem = s.mem := by
  induction slots generalizing s with
  | nil => rfl
  | cons p rest ih =>
    obtain ⟨slot, c⟩ := p
    unfold State.loadCores
    dsimp only
    (repeat' split) <;> simp [ih]

@[simp] theorem State.initStage_mem (l : Nat) (x : Launch) (slots : List (Nat × Nat)) : (s.initStage l x slots).mem = s.mem :=
  foldl_mem _ (fun t p => by dsimp only; split <;> simp) _ _

@[simp] theorem State.resumeExpress_mem (x : Launch) (cores : List Nat) : (s.resumeExpress x cores).mem = s.mem := rfl

@[simp] theorem State.moveRecords_mem (l : Nat) (x : Launch) (cores : List Nat) : (s.moveRecords l x cores).mem = s.mem := by
  unfold State.moveRecords
  dsimp only
  split <;> rfl

end

@[simp] theorem State.startGraph_wf (l : Nat) (x : Launch) (g : Graph) (judge : Nat × Nat) (hm : s.mem.wf = true) :
    (s.startGraph l x g judge).mem.wf = true := by
  have hcleared : ∀ (f : Nat → Nat) (v : Nat → Word) (t : State), t.mem.wf = true →
      ((List.range 256).foldl (fun t st => t.judgeWrite x.dom (f st) (v st)) t).mem.wf = true :=
    fun f v => foldl_ok _ (fun t st h => State.judgeWrite_wf _ _ _ h) _
  unfold State.startGraph
  dsimp only
  split
  · simp [hm]
  · exact State.writeStatusBlock_wf _ _ (hcleared _ _ _ (by simp [hm]))

@[simp] theorem State.graphStage_wf (l : Nat) (x : Launch) (judge : Nat × Nat) (hm : s.mem.wf = true) :
    (s.graphStage l x judge).1.mem.wf = true := by
  unfold State.graphStage
  (repeat' split) <;> simp [hm]

theorem State.placeSteps_wf (l : Nat) (x : Launch) (cores : List Nat) (judge : Nat × Nat) (hm : s.mem.wf = true) :
    (s.placeSteps l x cores judge).1.mem.wf = true := by
  unfold State.placeSteps
  dsimp only
  split
  case h_1 h => exact (congrArg (fun r => r.1.mem) h) ▸ (by simpa using hm)
  case h_2 t h =>
    have ht : t.mem.wf = true := (congrArg (fun r => r.1.mem) h) ▸ (by simpa using hm)
    have hstage := State.graphStage_wf l x judge ht
    split
    case h_1 h' => rw [h'] at hstage; exact hstage
    case h_2 h' => rw [h'] at hstage; simpa using hstage

@[simp] theorem State.place_wf (l : Nat) (hm : s.mem.wf = true) : (s.place l).mem.wf = true := by
  have hcores : ∀ (ps : List (Nat × Nat)) (t : State),
      (ps.foldl (fun t p => t.setCore p.2 { t.core p.2 with launch := some l, slot := p.1 }) t).mem = t.mem :=
    foldl_mem _ fun t p => rfl
  unfold State.place
  split
  · exact hm
  · next x _ =>
    dsimp only
    split
    case h_1 t f h =>
      have ht : t.mem.wf = true := (congrArg (fun r => r.1.mem) h) ▸ State.placeSteps_wf _ _ _ _
        (by split <;> simp [hcores, hm])
      split <;> simp [ht]
    case h_2 t h =>
      have ht : t.mem.wf = true := (congrArg (fun r => r.1.mem) h) ▸ State.placeSteps_wf _ _ _ _
        (by split <;> simp [hcores, hm])
      simp [ht]

end Sys2Proof.Machine
end

section
/-! SUPPORT. Every slot instruction keeps memory in its canonical form (log entry 2): its meaning does, shape by shape. -/

namespace Sys2Proof.Machine

variable {s : State} {i : Instr}

/-! ### The shapes of the slots (R50 to R53) -/

/-- A meaning that prepares nothing keeps memory canonical where its effect does. -/
theorem Meaning.Keeps.of_effect {m : Meaning} (hp : m.prepare = id) (h : ∀ t, t.mem.wf = true → (m.effect t).mem.wf = true) :
    m.Keeps :=
  ⟨h, fun t ht => by rw [hp]; exact ht⟩

/-- A meaning that prepares nothing, and whose effect leaves memory alone. -/
theorem Meaning.Keeps.of_mem {m : Meaning} (hp : m.prepare = id) (h : ∀ t, (m.effect t).mem = t.mem) : m.Keeps :=
  of_effect hp fun t ht => by rw [h]; exact ht

theorem scalarTo_keeps (taken : Bool) (k : LReg) (d lat : Nat) (v : Word) (evs : List CellEv) :
    (scalarTo i taken k d lat v evs).Keeps :=
  .of_mem rfl fun t => by simp [scalarTo]

theorem aluR_keeps (f : RForm) (lat : Nat) (op : Word → Word → Word) : (aluR i f lat op s).Keeps := scalarTo_keeps ..

theorem aluI_keeps (f : IForm) (op : Word → BitVec 24 → Word) : (aluI i f op s).Keeps := scalarTo_keeps ..

theorem aluL_keeps (f : LForm) (op : Word → BitVec 34 → Word) : (aluL i f op s).Keeps := scalarTo_keeps ..

theorem predR_keeps (f : RForm) (q lat : Nat) (v : Ctx → Bool × Kinds) : (predR i f q lat v s).Keeps := scalarTo_keeps ..

theorem flowOp_keeps (f : FForm) (other : Option Cause) {effect : State → State} (h : ∀ t, (effect t).mem = t.mem) :
    (flowOp i f other effect s).Keeps := .of_mem rfl h

theorem memOp_keeps (f : MForm) (lands : List (LReg × Nat × Nat)) (other : Option Cause) {effect : State → State}
    (h : ∀ t, t.mem.wf = true → (effect t).mem.wf = true) : (memOp i f lands other effect s).Keeps :=
  .of_effect rfl h

theorem memOp_keeps_of_mem (f : MForm) (lands : List (LReg × Nat × Nat)) (other : Option Cause) {effect : State → State}
    (h : ∀ t, (effect t).mem = t.mem) : (memOp i f lands other effect s).Keeps := .of_mem rfl h

theorem memOpIf_keeps (bad : Bool) {m : Meaning} (h : m.Keeps) : (memOpIf bad m).Keeps := ⟨h.effect, h.prepare⟩

theorem cellSlot_keeps (u : CellUse) (early : Bool → Option StepCause) {effect : State → State}
    (h : ∀ t, (effect t).mem = t.mem) : (cellSlot i u early effect s).Keeps where
  effect t ht := by
    simp only [cellSlot]
    split <;> simp [h, ht]
  prepare t ht := by simpa [cellSlot] using ht

theorem plainSlot_keeps (u : CellUse) {effect : State → State} (h : ∀ t, (effect t).mem = t.mem) :
    (plainSlot i u effect s).Keeps := cellSlot_keeps u _ fun t => by simp [h]

/-- A cell instruction whose results come from the cells alone. -/
theorem cellsDo_keeps (u : CellUse) (out : Core → Nat → CellOut) (cells : List Nat) :
    (plainSlot i u (fun t => t.cellsDo cells out) s).Keeps := plainSlot_keeps u fun t => t.cellsDo_mem cells out

theorem vecV_keeps (f : CForm) (n lat : Nat) (g : Option Fmt) (op : Fmt → Nat → Nat → Nat → Nat × Kinds) :
    (vecV i f n lat g op s).Keeps := cellsDo_keeps ..

theorem vecM_keeps (f : CForm) (g : Option Fmt) (op : Fmt → Nat → Nat → Bool × Kinds) : (vecM i f g op s).Keeps := cellsDo_keeps ..

theorem fpV_keeps (f : CForm) (n lat : Nat) (op : FloatSpec → FVal → FVal → FVal → Nat × Kinds) : (fpV i f n lat op s).Keeps :=
  vecV_keeps ..

theorem intV_keeps (f : CForm) (n lat : Nat) (op : Fmt → Nat → Nat → Nat → Nat) : (intV i f n lat op s).Keeps := vecV_keeps ..

theorem reduceSlot_keeps (f : CForm) (lat : Nat) (op : Fmt → List (Option Nat) → Nat × List Kinds) :
    (reduceSlot i f lat op s).Keeps := cellsDo_keeps ..

theorem maskSlot_keeps (f : CForm) (n : Nat) (op : BitVec 16 → BitVec 16 → BitVec 16) : (maskSlot i f n op s).Keeps :=
  cellsDo_keeps ..

theorem shiftSlot_keeps (f : CForm) (d : Side) : (shiftSlot i f d s).Keeps := cellsDo_keeps ..

theorem lqSlot_keeps (f : CForm) (u : CellUse) (writes : Bool) (waiting : Ctx → Cell → CellOut) :
    (lqSlot i f u writes waiting s).Keeps :=
  cellSlot_keeps u _ fun t => by
    split
    · rfl
    · dsimp only
      split <;> simp

/-! ### Loads, stores and atomics (R308 to R312) -/

theorem loadOp_keeps (f : MForm) (n : Nat) (signed : Bool) : (loadOp i f n signed s).Keeps :=
  memOp_keeps_of_mem _ _ _ fun t => by
    split
    case h_1 e => simp [State.ctxRead_pair e]
    case h_2 e => simp [State.ctxRead_pair e]

theorem storeOp_keeps (f : MForm) (n : Nat) : (storeOp i f n s).Keeps :=
  memOp_keeps _ _ _ fun t ht => by
    split
    case h_1 e => simpa using State.ctxWrite_pair e ht
    case h_2 e => simpa using State.ctxWrite_done e ht

theorem amoMean_keeps (f : MForm) (op : AmoOp) : (amoMean i f op s).Keeps :=
  memOp_keeps _ _ _ fun t ht => by
    have hacc := t.amoAccess_wf (effAddr f s) (amoWidth f / 8) (fun m =>
      amoNew op (amoWidth f) m ((s.cx.greg f.b.toNat).toNat % 2 ^ amoWidth f) ((s.cx.greg f.d.toNat).toNat % 2 ^ amoWidth f)) ht
    split
    case h_1 e => rw [e] at hacc; simpa using hacc
    case h_2 e => rw [e] at hacc; simpa using hacc

/-! ### What an instruction fetches from memory before it acts (R306) -/

/-- The state that a fetch leaves, where it leaves one, has canonical memory. -/
def Fetched.Canonical {α : Type} : Fetched α → Prop
  | .ok _ t => t.mem.wf = true
  | .issue _ => True
  | .late t => t.mem.wf = true

@[simp] theorem Fetched.canonical_ok {α : Type} (v : α) (t : State) : (Fetched.ok v t).Canonical ↔ t.mem.wf = true := .rfl
@[simp] theorem Fetched.canonical_issue {α : Type} (cz : Cause) : (Fetched.issue cz : Fetched α).Canonical := trivial
@[simp] theorem Fetched.canonical_late {α : Type} (t : State) : (Fetched.late t : Fetched α).Canonical ↔ t.mem.wf = true := .rfl

theorem Fetched.effect_wf {α : Type} {r : Fetched α} {t : State} {go : α → State → State} (hr : r.Canonical)
    (ht : t.mem.wf = true) (hgo : ∀ v u, (go v u).mem = u.mem) : (r.effect t go).mem.wf = true := by
  cases r with
  | ok v u => simpa [Fetched.effect, hgo] using (canonical_ok v u).1 hr
  | issue cz => exact ht
  | late u => simpa [Fetched.effect] using hr

/-- An instruction that acts on what it fetched. -/
theorem fetched_keeps {α : Type} (f : MForm) (lands : List (LReg × Nat × Nat)) (other : Option Cause) {r : Fetched α}
    {go : α → State → State} (hr : r.Canonical) (hgo : ∀ v u, (go v u).mem = u.mem) :
    (memOp i f lands other (fun t => r.effect t go) s).Keeps :=
  memOp_keeps _ _ _ fun _ ht => Fetched.effect_wf hr ht hgo

section
variable (hm : s.mem.wf = true)
include hm

theorem fetchOperand_canonical (ea : Word) (n al : Nat) (bad : BitVec 16) : (s.fetchOperand ea n al bad).Canonical := by
  unfold State.fetchOperand
  split
  · trivial
  · split
    case h_1 e => simpa [State.operandRead_pair e] using hm
    case h_2 => trivial
    case h_3 e => simpa [State.operandRead_pair e] using hm

theorem cpgoFetch_canonical (f : MForm) : (cpgoFetch f s).Canonical := by
  have h := fetchOperand_canonical hm (s.cx.greg f.a.toNat) 128 128 cCopyInvalid
  unfold cpgoFetch
  dsimp only
  repeat' split
  all_goals simp_all

theorem gcfgFetch_canonical (f : MForm) : (gcfgFetch f s).Canonical := by
  have h := fetchOperand_canonical hm (s.cx.greg f.a.toNat) 32 32 cGatherInvalid
  unfold gcfgFetch
  dsimp only
  repeat' split
  all_goals simp_all

theorem xputFetch_canonical (f : MForm) : (xputFetch f s).Canonical := by
  unfold xputFetch
  dsimp only
  split
  · trivial
  · split
    · trivial
    · split
      · trivial
      · exact fetchOperand_canonical hm _ _ _ _

theorem watchFetch_canonical (f : MForm) : (watchFetch f s).Canonical := by
  have h := fetchOperand_canonical hm (s.cx.greg f.a.toNat) 32 32 cWatchInvalid
  unfold watchFetch
  repeat' split
  all_goals simp_all

theorem progFetch_canonical (f : MForm) : (progFetch f s).Canonical := by
  have h := fetchOperand_canonical hm (s.cx.greg f.a.toNat) (16 * fieldN f.imm 0 8) 16 cMisaligned
  unfold progFetch
  split
  case h_1 => trivial
  case h_2 e => rwa [e] at h
  case h_3 e =>
    dsimp only
    repeat' split
    all_goals simp_all

theorem bsendFetch_canonical (f : MForm) : (bsendFetch f s).Canonical := by
  have h := fetchOperand_canonical hm (s.cx.greg f.a.toNat) 8 8 cMisaligned
  unfold bsendFetch
  dsimp only
  split
  · trivial
  · split
    · trivial
    · split
      case h_1 => trivial
      case h_2 e => rwa [e] at h
      case h_3 bs t e =>
        rw [e] at h
        have hpayload := fetchOperand_canonical h (s.cx.greg f.b.toNat) (batonDesc (BitVec.ofNat 64 (leNat bs))).len 8 cMisaligned
        repeat' split
        all_goals simp_all

end

/-! ### Every slot instruction -/

@[simp] theorem State.syswEffect_wf (c k n : Nat) (v : Word) (hm : s.mem.wf = true) : (s.syswEffect c k n v).mem.wf = true := by
  unfold State.syswEffect
  dsimp only
  (repeat' split) <;> simp [hm]

theorem meanVcvt_keeps (f : CForm) : (meanVcvt f s).Keeps := by
  unfold meanVcvt
  exact vecV_keeps ..

theorem meanLqnear_keeps (f : CForm) : (meanLqnear f s).Keeps := by
  unfold meanLqnear
  exact lqSlot_keeps ..

theorem meanLqscale_keeps (f : CForm) : (meanLqscale f s).Keeps := by
  unfold meanLqscale
  exact lqSlot_keeps ..

theorem meanTldm_keeps (f : CForm) : (meanTldm f s).Keeps := by
  unfold meanTldm
  exact cellSlot_keeps _ _ fun t => by split <;> simp

theorem meanMload_keeps (f : CForm) : (meanMload f s).Keeps := by
  unfold meanMload
  exact cellSlot_keeps _ _ fun t => by split <;> simp

theorem meanMma_keeps (f : CForm) : (meanMma f s).Keeps := by
  unfold meanMma
  exact cellSlot_keeps _ _ fun t => by split <;> simp

theorem meanXsnd_keeps (f : CForm) : (meanXsnd f s).Keeps := by
  unfold meanXsnd
  exact plainSlot_keeps _ fun t => by simp

theorem meanVsel_keeps (f : CForm) : (meanVsel f s).Keeps := by
  unfold meanVsel
  exact cellsDo_keeps ..

theorem meanVpack_keeps (f : CForm) : (meanVpack f s).Keeps := by
  unfold meanVpack
  exact cellsDo_keeps ..

theorem meanVunpk_keeps (f : CForm) : (meanVunpk f s).Keeps := by
  unfold meanVunpk
  exact cellsDo_keeps ..

theorem meanVperm_keeps (f : CForm) : (meanVperm f s).Keeps := by
  unfold meanVperm
  exact cellsDo_keeps ..

theorem meanVspar_keeps (f : CForm) : (meanVspar f s).Keeps := by
  unfold meanVspar
  exact cellsDo_keeps ..

theorem meanMdrain_keeps (f : CForm) : (meanMdrain f s).Keeps := by
  unfold meanMdrain
  exact cellsDo_keeps ..

theorem meanXrcv_keeps (f : CForm) : (meanXrcv f s).Keeps := by
  unfold meanXrcv
  exact cellsDo_keeps ..

theorem meanLqmerge_keeps (f : CForm) : (meanLqmerge f s).Keeps := by
  unfold meanLqmerge
  exact cellsDo_keeps ..

/-- A meaning, where an instruction has one, keeps memory canonical. -/
def KeepsMeaning : Option Meaning → Prop
  | some m => m.Keeps
  | none => True

theorem slotMeaning_keeps (hm : s.mem.wf = true) : KeepsMeaning (slotMeaning i s) := by
  cases i
  case add | sub | mul | mulh | mulhn | div | divn | rem | remn | and | or | xor | shl | shr | shra | rotl | clz | popc | min |
      max | minn | maxn | sel | mov | addr | extb | exth | extw | bfx | bfi => exact aluR_keeps ..
  case addi | andi | ori | xori | shli | shri | shrai => exact aluI_keeps ..
  case li | lih => exact aluL_keeps ..
  case cmp | pand | por | pnot | fcmps => exact predR_keeps ..
  case fcvts | lapset | lapget => exact scalarTo_keeps ..
  case lapadd => exact .of_mem rfl fun t => by simp [meanLapadd, scalarTo]
  case br | jmp | ret => exact flowOp_keeps _ _ fun t => by simp
  case brc | loop => exact flowOp_keeps _ _ fun t => by split <;> simp
  case call => exact .of_mem rfl fun t => by simp [meanCall]
  case loopi | breakl | advp | advc | endOp | sleep | rft => exact flowOp_keeps _ _ fun t => by simp
  case waitb | waitt | waitf => exact .of_mem rfl fun t => rfl
  case yield => exact flowOp_keeps _ _ fun t => (apply_ite State.mem _ _ _).trans (by simp)
  case trap => exact flowOp_keeps _ _ fun t => by split <;> simp
  case ldb | ldbn | ldh | ldhn | ldw | ldwn | ldd => exact loadOp_keeps ..
  case stb | sth | stw | std => exact storeOp_keeps ..
  case amoadd | amoand | amoor | amoxor | amomin | amomax | amominn | amomaxn | amoswp | amocas => exact amoMean_keeps ..
  case fence | tlbsync => exact memOp_keeps_of_mem _ _ _ fun t => rfl
  case tlinc | tlread | cpstep | gcancel => exact memOp_keeps_of_mem _ _ _ fun t => by split <;> simp
  case cpstat => exact memOp_keeps_of_mem _ _ _ fun t => by simp
  case gidx => exact .of_mem rfl fun t => by dsimp only [meanGidx, memOp]; split <;> simp
  case front f => exact ⟨fun t ht => by dsimp only [meanFront, memOp]; split <;> simpa using ht, fun t ht => by simpa [meanFront] using ht⟩
  case cpgo f => exact .of_effect rfl fun t ht => Fetched.effect_wf (cpgoFetch_canonical hm f) ht fun _ u => by simp
  case gcfg f => exact fetched_keeps _ _ _ (gcfgFetch_canonical hm f) fun _ u => by simp
  case xput f => exact fetched_keeps _ _ _ (xputFetch_canonical hm f) fun _ u => by split <;> simp
  case watch f => exact fetched_keeps _ _ _ (watchFetch_canonical hm f) fun _ u => by simp
  case bsend f => exact .of_effect rfl fun t ht => Fetched.effect_wf (bsendFetch_canonical hm f) ht fun _ u => by simp
  case prog f => exact .of_effect rfl fun t ht => Fetched.effect_wf (progFetch_canonical hm f) ht fun _ u => by simp
  case tdefer | tpwr | vpwr | sysr => exact memOpIf_keeps _ (memOp_keeps_of_mem _ _ _ fun t => by simp)
  case sysw => exact memOpIf_keeps _ (memOp_keeps _ _ _ fun t ht => State.syswEffect_wf _ _ _ _ ht)
  case tlbinv => exact memOpIf_keeps _ (memOp_keeps_of_mem _ _ _ fun t => by simp)
  case evpop => exact memOp_keeps_of_mem _ _ _ fun t => by simp
  case vadd | vsub | vmul | vfma | vfms | vfnma => exact fpV_keeps ..
  case viadd | visub | vimul | vimad | vand | vor | vxor | vshl | vshr | vshra | vimin | vimax => exact intV_keeps ..
  case vmin | vmax | vabs | vneg | vcps | vrnd | vexf | vlgf | vrcpf | vrsqf | vscl => exact vecV_keeps ..
  case vcmp | vicmp => exact vecM_keeps ..
  case vrsum | vrmax => exact reduceSlot_keeps ..
  case kand | kor | knot | kmov => exact maskSlot_keeps ..
  case shn | she | shs | shw => exact shiftSlot_keeps ..
  case tld | tst | vbcast | kpop | mzero | mread | patch | lqdec => exact cellsDo_keeps ..
  case vcvt f => exact meanVcvt_keeps f
  case vsel f => exact meanVsel_keeps f
  case vpack f => exact meanVpack_keeps f
  case vunpk f => exact meanVunpk_keeps f
  case vperm f => exact meanVperm_keeps f
  case vspar f => exact meanVspar_keeps f
  case lqnear f => exact meanLqnear_keeps f
  case lqscale f => exact meanLqscale_keeps f
  case lqmerge f => exact meanLqmerge_keeps f
  case tldm f => exact meanTldm_keeps f
  case mload f => exact meanMload_keeps f
  case mdrain f => exact meanMdrain_keeps f
  case mma f => exact meanMma_keeps f
  case xsnd f => exact meanXsnd_keeps f
  case xrcv f => exact meanXrcv_keeps f
  all_goals trivial

end Sys2Proof.Machine
end

section
/-! SUPPORT. A virtual cycle of a context and the turns of a core keep memory in its canonical form (log entry 2). -/

namespace Sys2Proof.Machine

/-! ### What a cycle performs (R68, R133, R179) -/

section
variable (s : State) (c k : Nat)

@[simp] theorem State.fetchTrap_mem (f : Fetch) : (s.fetchTrap c k f).mem = s.mem := by
  unfold State.fetchTrap
  dsimp only
  (repeat' split) <;> simp

@[simp] theorem State.deliver_mem (p : Pending) : (s.deliver c k p).mem = s.mem := by
  unfold State.deliver
  split <;> simp

@[simp] theorem State.startNeeds_mem (needs : List PowerNeed) : (s.startNeeds c needs).mem = s.mem := rfl

@[simp] theorem State.landAll_mem : (s.landAll c k).mem = s.mem := rfl

@[simp] theorem State.stepAll_mem : (s.stepAll c k).mem = s.mem := by
  simp only [State.stepAll, State.modCtxAt_mem]
  refine foldl_inv (fun acc : State × List Stream × List Stream => acc.1.mem = s.mem) _ (fun acc st h => ?_) _ _ rfl
  (repeat' split) <;> simpa using h

@[simp] theorem State.endTurn_mem : (s.endTurn c k).mem = s.mem := by simp [State.endTurn]

@[simp] theorem State.idleCycle_mem : (s.idleCycle c k).mem = s.mem := by simp [State.idleCycle]

@[simp] theorem State.finish_mem : (s.finish c k).mem = s.mem := by
  unfold State.finish
  dsimp only
  split <;> simp

@[simp] theorem State.issueTrap_mem (slot : Nat) (z : Cause) : (s.issueTrap c k slot z).mem = s.mem := by simp [State.issueTrap]

@[simp] theorem State.pendStep_mem (pc : CodeAddr) (z : StepCause) : (s.pendStep c k pc z).mem = s.mem := by
  unfold State.pendStep
  dsimp only
  split <;> simp

@[simp] theorem State.loadBundle_mem (next : CodeAddr) (w : BitVec 384) (xs : List (Nat × Except DecodeError Instr)) :
    (s.loadBundle c k next w xs).mem = s.mem := rfl

theorem State.boundaryTake_mem {take : State → State} (h : s.boundaryTake c k = some take) (t : State) :
    (take t).mem = t.mem := by
  unfold State.boundaryTake at h
  split at h
  case h_1 => cases h
  case h_2 => cases h; simp
  case h_3 => cases h; simp
  case h_4 =>
    split at h
    · cases h; simp
    · split at h <;> (cases h; simp)

@[simp] theorem State.flushRaises_mem (i : Issue) : (s.flushRaises c k i).mem = s.mem := by
  unfold State.flushRaises
  dsimp only
  split <;> simp only [State.modCtxAt_mem] <;> rw [foldl_mem _ fun t n => by split <;> simp, State.flushDone_mem]

@[simp] theorem State.finishBundle_mem : (s.finishBundle c k).mem = s.mem := by
  unfold State.finishBundle
  dsimp only
  (repeat' split) <;> simp

end

/-! ### Host writes (R272) -/

section
variable {s : State}

@[simp] theorem State.applyWrite_wf (w : HostWrite) (hm : s.mem.wf = true) : (s.applyWrite w).mem.wf = true := by
  unfold State.applyWrite
  split
  case h_1 e => exact State.writeGlobal_done e hm
  case h_2 => exact hm

@[simp] theorem State.applyHost_wf (mine : HostWrite → Bool) (hm : s.mem.wf = true) : (s.applyHost mine).mem.wf = true :=
  foldl_ok State.applyWrite (fun _ w h => State.applyWrite_wf w h) _ _ hm

@[simp] theorem State.openRegions_wf (dom : Nat) (hm : s.mem.wf = true) : (s.openRegions dom).mem.wf = true := by
  unfold State.openRegions
  split <;> simp [hm]

@[simp] theorem State.windowWrites_wf (c k : Nat) (hm : s.mem.wf = true) : (s.windowWrites c k).mem.wf = true := by
  unfold State.windowWrites
  split
  · split <;> simp [hm]
  · exact hm

/-! ### A turn (R66, R362, R413) -/

/-- The state that a turn leaves, whatever came of it. -/
def Turned.state : Turned → State
  | .frozen s => s
  | .stopped s _ => s
  | .passed s _ => s

@[simp] theorem Turned.state_frozen : (Turned.frozen s).state = s := rfl
@[simp] theorem Turned.state_stopped (n : Nat) : (Turned.stopped s n).state = s := rfl
@[simp] theorem Turned.state_passed (n : Nat) : (Turned.passed s n).state = s := rfl

theorem State.slotIn_keeps (n : Nat) (i : Instr) (hm : s.mem.wf = true) : (s.slotIn n i).Keeps := by
  have h := slotMeaning_keeps (i := i) (s := { s with turn := { s.turn with slot := n } }) hm
  unfold State.slotIn
  cases hi : slotMeaning i { s with turn := { s.turn with slot := n } } with
  | none => exact ⟨fun _ ht => ht, fun _ ht => ht⟩
  | some m => rwa [hi] at h

/-- The slots of a bundle that are not ready start what they need. -/
theorem prepareAll_wf {t : State} (c k : Nat) (ns : List Nat) (is : Nat → Instr) (ht : t.mem.wf = true) (hm : s.mem.wf = true) :
    ((ns.map fun n => (n, t.slotIn n (is n))).foldl (fun o m =>
      if m.2.taken && !m.2.ready then m.2.prepare { o with turn := ⟨c, k, m.1⟩ } else o) s).mem.wf = true := by
  rw [List.foldl_map]
  refine foldl_ok _ (fun o n ho => ?_) _ _ hm
  split
  · exact (t.slotIn_keeps n (is n) ht).prepare _ ho
  · exact ho

theorem State.stopWith_wf (c k : Nat) {stop : State → State} (h : ∀ t, (stop t).mem = t.mem) (hm : s.mem.wf = true) :
    (s.stopWith c k stop).state.mem.wf = true := by
  simp [State.stopWith, h, hm]

theorem State.issueNext_wf {old : State} (c k charge : Nat) (hold : old.mem.wf = true) (hm : s.mem.wf = true) :
    (old.issueNext s c k charge).state.mem.wf = true := by
  unfold State.issueNext
  dsimp only
  split
  case h_2 => simp [hm]
  case h_1 next w _ =>
    generalize ht : ite ((Header.unpack (bundleH w)).hw = true) _ _ = t
    have htm : t.mem.wf = true := by
      subst ht
      split <;> simp [hm]
    split
    · simp [hm]
    · split
      · simp [hm]
      · split
        · split
          · exact State.stopWith_wf c k (fun _ => rfl) hold
          · exact hold
        · split
          · simp [hm]
          · split
            · split
              · exact prepareAll_wf _ _ _ _ htm hold
              · exact htm
            · split
              · exact State.stopWith_wf c k (fun t => by simp) hold
              · split
                · split
                  · exact prepareAll_wf _ _ _ _ htm hold
                  · simp [htm]
                · simp [hold]

theorem State.afterSteps_wf {old : State} (c k charge : Nat) (hold : old.mem.wf = true) (hm : s.mem.wf = true) :
    (old.afterSteps s c k charge).state.mem.wf = true := by
  unfold State.afterSteps
  dsimp only
  split
  · split
    · simp [hm]
    · exact State.issueNext_wf c k charge hold hm
  · split
    · split <;> simp [hm]
    · simp [hm]
  · split <;> simp [hm]

theorem State.cycleBody_wf (c k : Nat) (hm : s.mem.wf = true) : (s.cycleBody c k).state.mem.wf = true := by
  unfold State.cycleBody
  dsimp only
  split
  · simp [hm]
  · split
    · simp [hm]
    · split
      · exact hm
      · exact State.afterSteps_wf c k _ hm (by simp [hm])

theorem State.turnHandler_wf (c k : Nat) (hm : s.mem.wf = true) : (s.turnHandler c k).state.mem.wf = true := by
  unfold State.turnHandler
  dsimp only
  split
  · exact State.stopWith_wf c k (fun t => by simp) hm
  · split
    · exact State.cycleBody_wf c k hm
    · exact State.cycleBody_wf c k (by simp [hm])
    · simp [hm]

theorem State.turnOf_wf (c k : Nat) (hm : s.mem.wf = true) : (s.turnOf c k).state.mem.wf = true := by
  unfold State.turnOf
  dsimp only
  split
  · exact State.turnHandler_wf c k hm
  · split
    case h_1 h => exact State.stopWith_wf c k (s.boundaryTake_mem c k h) hm
    case h_2 =>
      split
      · exact State.stopWith_wf c k (fun t => by simp) hm
      · exact State.cycleBody_wf c k hm

/-! ### The turns of a core (R362, R375) -/

@[simp] theorem State.tryTurn_wf (c k : Nat) (hm : s.mem.wf = true) : (s.tryTurn c k).1.mem.wf = true := by
  have hturn := State.turnOf_wf (s := s.modCtxAt c k Ctx.wakeUp) c k (by simpa using hm)
  unfold State.tryTurn
  split
  · exact hm
  · split
    case h_1 e => rwa [e] at hturn
    case h_2 => exact hm

@[simp] theorem State.passSlot_wf (c : Nat) (hm : s.mem.wf = true) : (s.passSlot c).mem.wf = true := by
  unfold State.passSlot
  dsimp only
  simp only [apply_ite State.mem, State.setCore_mem, ite_self]
  refine foldl_inv (fun acc : State × Bool => acc.1.mem.wf = true) _ (fun acc k h => ?_) _ _ hm
  have hturn := State.tryTurn_wf c k h
  split
  · exact h
  · split
    case h_1 e => rw [e] at hturn; exact hturn
    case h_2 e => rw [e] at hturn; exact hturn

@[simp] theorem State.stall_mem (s : State) (c : Nat) : (s.stall c).mem = s.mem := rfl

theorem State.settleTurn_wf (c : Nat) {r : Turned} (hr : r.state.mem.wf = true) (hm : s.mem.wf = true) :
    (s.settleTurn c r).mem.wf = true := by
  cases r with
  | frozen t => exact State.passSlot_wf c (by simpa using hr)
  | stopped t n =>
    simp only [State.settleTurn]
    split
    · simpa using hr
    · simpa using hm
  | passed t n =>
    simp only [State.settleTurn]
    split
    · simpa using hr
    · simpa using hm

end

end Sys2Proof.Machine
end

section
/-! SUPPORT. What copy engines, refresh, the guard, errors and rail changes leave of memory (R234 to R244, R318 to R333, R378 to
R384, R433 to R440): untouched, or in its canonical form (log entry 2). -/

namespace Sys2Proof.Machine

/-! ### Clock time, errors and power -/

section
variable (s : State)

@[simp] theorem State.tick_mem (time : Nat) : (s.tick time).mem = s.mem := rfl

@[simp] theorem State.guardFires_mem (c k : Nat) (risk : List (Nat × Nat × Nat)) : (s.guardFires c k risk).mem = s.mem := by
  simp [State.guardFires]

@[simp] theorem State.corrected_mem (u : ErrUnit) : (s.corrected u).mem = s.mem := by
  unfold State.corrected
  dsimp only
  (repeat' split) <;> simp

@[simp] theorem State.upset_mem (p : ErrPlace) : (s.upset p).mem = s.mem := by
  unfold State.upset
  dsimp only
  (repeat' split) <;> simp

@[simp] theorem State.applyRequest_mem (r : PowerRequest) : (s.applyRequest r).mem = s.mem := by
  unfold State.applyRequest
  split
  · rfl
  · exact foldl_mem _ (fun t i => State.setCore_mem t _ _) _ _

@[simp] theorem State.unitMet_mem (c : Nat) (e : AccErr) (va : Nat) : (s.unitMet c e va).mem = s.mem := by
  unfold State.unitMet
  split <;> simp

@[simp] theorem State.reportEngine_mem (c : Nat) (want : Option Nat) (va : Word) (w : Nat) :
    (s.reportEngine c want va w).mem = s.mem := by
  unfold State.reportEngine
  dsimp only
  (repeat' split) <;> simp

end

/-! ### What an engine reads (R320 to R323) -/

theorem mem_of_pair {α : Type} {s t : State} {p : α × State} {r : α} (e : p = (r, t)) (h : p.2.mem = s.mem) : t.mem = s.mem := by
  rwa [e] at h

theorem wf_of_pair {α : Type} {s t : State} {p : α × State} {r : α} (e : p = (r, t)) (h : p.2.mem = s.mem)
    (hm : s.mem.wf = true) : t.mem.wf = true := by
  rwa [mem_of_pair e h]

section
variable (v : CopyEnv) (s : State)

@[simp] theorem CopyEnv.read_mem (va n : Nat) : (v.read s va n).2.mem = s.mem := by
  unfold CopyEnv.read
  split
  case h_1 e => exact State.readGlobal_pair e
  case h_2 e => simp [State.readGlobal_pair e]

@[simp] theorem State.engineRow_mem (c cell row : Nat) : (s.engineRow c cell row).2.mem = s.mem := by
  unfold State.engineRow
  dsimp only
  (repeat' split) <;> simp

@[simp] theorem CopyEnv.readScale_mem (fmt va : Nat) : (v.readScale s fmt va).2.mem = s.mem := by
  unfold CopyEnv.readScale
  dsimp only
  split
  case h_1 e => split <;> exact mem_of_pair e (v.read_mem s _ 1)
  case h_2 e => exact mem_of_pair e (v.read_mem s _ 1)

@[simp] theorem CopyEnv.fetch_mem (p : Nat) : (v.fetch s p).2.mem = s.mem := by
  unfold CopyEnv.fetch
  dsimp only
  split
  · split
    · rfl
    · split
      case h_1 e => exact mem_of_pair e (v.read_mem s _ 1)
      case h_2 e => exact mem_of_pair e (v.read_mem s _ 1)
  · split
    · rfl
    · split <;> simp
  · split
    case h_1 e => exact mem_of_pair e (s.engineRow_mem _ _ _)
    case h_2 e => exact mem_of_pair e (s.engineRow_mem _ _ _)

@[simp] theorem CopyEnv.readElem_mem (f : Nat) (o : Int) : (v.readElem s f o).2.mem = s.mem := by
  unfold CopyEnv.readElem
  split
  · rfl
  · split
    case h_1 e => exact mem_of_pair e (v.read_mem s _ _)
    case h_2 e =>
      have ht := mem_of_pair e (v.read_mem s _ _)
      dsimp only
      split
      · exact ht
      · split
        · exact ht
        · split
          case h_1 e' => exact (mem_of_pair e' (v.readScale_mem _ _ _)).trans ht
          case h_2 e' => exact (mem_of_pair e' (v.readScale_mem _ _ _)).trans ht

@[simp] theorem CopyEnv.readElems_mem (sf df : Nat) (ps : List Nat) : (v.readElems sf df ps s).2.2.mem = s.mem := by
  induction ps generalizing s with
  | nil => rfl
  | cons p ps ih =>
    unfold CopyEnv.readElems
    split
    case h_1 e => exact mem_of_pair e (v.readElem_mem s _ _)
    case h_2 e => exact (ih _).trans (mem_of_pair e (v.readElem_mem s _ _))

end

/-! ### What an engine writes (R321 to R323) -/

/-- Both states that an attempted write answers are canonical: the one that it writes, and the one in which it has not. -/
def BothCanonical {ε : Type} (r : Except ε State × State) : Prop := (∀ t, r.1 = .ok t → t.mem.wf = true) ∧ r.2.mem.wf = true

theorem bothCanonical_ok {ε : Type} {t u : State} :
    BothCanonical ((.ok t, u) : Except ε State × State) ↔ t.mem.wf = true ∧ u.mem.wf = true := by
  simp [BothCanonical]

theorem bothCanonical_error {ε : Type} {e : ε} {u : State} :
    BothCanonical ((.error e, u) : Except ε State × State) ↔ u.mem.wf = true := by
  simp [BothCanonical]

theorem BothCanonical.of_ok {ε : Type} {r : Except ε State × State} {t u : State} (h : BothCanonical r) (e : r = (.ok t, u)) :
    t.mem.wf = true := h.1 t (by rw [e])

theorem BothCanonical.of_pair {ε : Type} {r : Except ε State × State} {q : Except ε State} {u : State} (h : BothCanonical r)
    (e : r = (q, u)) : u.mem.wf = true := by
  rw [e] at h
  exact h.2

section
variable {s : State} {v : CopyEnv} {x : CopyAcc}

theorem CopyEnv.write_canonical (va : Nat) (bs : List Byte) (hm : s.mem.wf = true) : BothCanonical (v.write s va bs) := by
  have h : BothCanonical (s.writeGlobal v.client .write va bs) := State.writeGlobal_ok s _ _ va bs hm
  unfold CopyEnv.write
  split
  case h_1 e => exact bothCanonical_ok.2 ⟨h.of_ok e, h.of_pair e⟩
  case h_2 e => exact bothCanonical_error.2 (h.of_pair e)

theorem CopyEnv.writeScale_canonical (fmt va : Nat) (b : Byte) (hm : s.mem.wf = true) :
    BothCanonical (v.writeScale s fmt va b) := by
  have h := CopyEnv.write_canonical (v := v) (scaleAddr v fmt va) [b] hm
  unfold CopyEnv.writeScale
  dsimp only
  split
  case h_1 e =>
    split
    · exact bothCanonical_ok.2 ⟨h.of_ok e, h.of_pair e⟩
    · exact bothCanonical_error.2 (h.of_pair e)
  case h_2 e => exact bothCanonical_error.2 (h.of_pair e)

@[simp] theorem CopyAcc.stop_s (t : State) (e : CopyErr) : (x.stop t e).s = t := rfl

theorem CopyEnv.store_wf (p : Nat) (b : Byte) (hx : x.s.mem.wf = true) : (v.store x p b).s.mem.wf = true := by
  unfold CopyEnv.store
  dsimp only
  split
  · split
    · exact hx
    · split
      case h_1 e => exact (CopyEnv.write_canonical _ _ hx).of_ok e
      case h_2 e => exact (CopyEnv.write_canonical _ _ hx).of_pair e
  · split <;> simpa using hx
  · exact hx
  · exact hx

theorem CopyEnv.scale_wf (m : CopyMode) (p : Nat) (hx : x.s.mem.wf = true) : (v.scale x m p).s.mem.wf = true := by
  unfold CopyEnv.scale
  split
  case h_1 =>
    split
    · split
      case h_1 e =>
        have ht := wf_of_pair e (v.readScale_mem _ _ _) hx
        split
        case h_1 e' => exact (CopyEnv.writeScale_canonical _ _ _ ht).of_ok e'
        case h_2 e' => exact (CopyEnv.writeScale_canonical _ _ _ ht).of_pair e'
      case h_2 e => exact wf_of_pair e (v.readScale_mem _ _ _) hx
    · exact hx
  case h_2 =>
    split
    · exact hx
    · split
      · exact hx
      · split
        case h_1 e => exact wf_of_pair e (v.readScale_mem _ _ _) hx
        case h_2 e => exact wf_of_pair e (v.readScale_mem _ _ _) hx
  case h_3 =>
    split
    · exact hx
    · dsimp only
      split
      case h_1 e => exact wf_of_pair e (x.s.engineRow_mem _ _ _) hx
      case h_2 e =>
        have ht := wf_of_pair e (x.s.engineRow_mem _ _ _) hx
        split
        case h_1 e' => exact (CopyEnv.writeScale_canonical _ _ _ ht).of_ok e'
        case h_2 e' => exact (CopyEnv.writeScale_canonical _ _ _ ht).of_pair e'
  case h_4 => exact hx

theorem CopyEnv.moveByte_wf (m : CopyMode) (p : Nat) (hx : x.s.mem.wf = true) : (v.moveByte m x p).s.mem.wf = true := by
  unfold CopyEnv.moveByte
  dsimp only
  split
  · exact hx
  · split
    case h_1 e => exact wf_of_pair e (v.fetch_mem _ _) hx
    case h_2 e =>
      have ht := wf_of_pair e (v.fetch_mem _ _) hx
      generalize copyMode v.d _ _ = here
      split
      · exact ht
      · split
        · exact CopyEnv.scale_wf m p ht
        · exact CopyEnv.store_wf p _ (CopyEnv.scale_wf m p ht)

theorem CopyEnv.writePlain_wf (df : Nat) (q : ConvElem) (hx : x.s.mem.wf = true) : (v.writePlain df x q).s.mem.wf = true := by
  unfold CopyEnv.writePlain
  dsimp only
  split
  · exact hx
  · split
    · exact hx
    · split
      · exact hx
      · split
        case h_1 e => exact (CopyEnv.write_canonical _ _ hx).of_ok e
        case h_2 e => exact (CopyEnv.write_canonical _ _ hx).of_pair e

theorem CopyEnv.writeSegment_wf (df : Nat) (seg : Bool × List ConvElem) (hx : x.s.mem.wf = true) :
    (v.writeSegment df x seg).s.mem.wf = true := by
  unfold CopyEnv.writeSegment
  dsimp only
  split
  · exact hx
  · split
    · exact hx
    · split
      · exact hx
      · next q _ _ _ =>
        generalize hold : ite (q.idx % blockElems df = 0) _ _ = old
        have hread : old.2.mem.wf = true := by
          subst hold
          split
          · exact hx
          · split
            case h_1 e => exact wf_of_pair e (v.readScale_mem _ _ _) hx
            case h_2 e => exact wf_of_pair e (v.readScale_mem _ _ _) hx
        split
        · exact hread
        · generalize ite (df = 6) _ _ = b
          split
          case h_1 e => exact (CopyEnv.write_canonical _ _ hread).of_pair e
          case h_2 t _ e =>
            have ht : t.mem.wf = true := (CopyEnv.write_canonical _ _ hread).of_ok e
            split
            · simpa using hread
            · split
              case h_1 e' =>
                split at e'
                · exact (CopyEnv.writeScale_canonical _ _ _ ht).of_pair e'
                · cases e'
              case h_2 e' =>
                split at e'
                · exact (CopyEnv.writeScale_canonical _ _ _ ht).of_ok e'
                · cases e'
                  exact ht

theorem CopyEnv.convert_wf (sf df : Nat) (ps : List Nat) (hx : x.s.mem.wf = true) : (v.convert sf df x ps).s.mem.wf = true := by
  have hread : (v.readElems sf df ps x.s).2.2.mem.wf = true := by simpa using hx
  unfold CopyEnv.convert
  dsimp only
  split
  · exact hx
  · split
    · exact hx
    · generalize hwritten : ite (df < 4) _ _ = y
      have hy : y.s.mem.wf = true := by
        subst hwritten
        split
        · exact foldl_inv (fun y : CopyAcc => y.s.mem.wf = true) _ (fun _ q h => CopyEnv.writePlain_wf df q h) _ _ hread
        · generalize Bool.and _ _ = partials
          split
          · exact hread
          · exact foldl_inv (fun y : CopyAcc => y.s.mem.wf = true) _ (fun _ g h => CopyEnv.writeSegment_wf df g h) _ _ hread
      split <;> exact hy

theorem CopyEnv.moveBytes_wf (m : CopyMode) (ps : List Nat) (hx : x.s.mem.wf = true) :
    (ps.foldl (v.moveByte m) x).s.mem.wf = true :=
  foldl_inv (fun y : CopyAcc => y.s.mem.wf = true) _ (fun _ p h => CopyEnv.moveByte_wf m p h) _ _ hx

theorem CopyEnv.perform_wf (start : Nat) (hm : s.mem.wf = true) : (v.perform s start).1.s.mem.wf = true := by
  unfold CopyEnv.perform
  dsimp only
  split
  · exact CopyEnv.convert_wf _ _ _ hm
  · split
    · exact CopyEnv.moveBytes_wf _ _ hm
    · exact hm
  · exact CopyEnv.moveBytes_wf _ _ hm
  · exact CopyEnv.moveBytes_wf _ _ hm

end

/-! ### Runs of an engine (R318, R324, R328, R333) -/

section
variable (s : State)

@[simp] theorem State.sendPackets_mem (c e group : Nat) (ps : List (List (Word × Byte) × Nat)) :
    (s.sendPackets c e group ps).mem = s.mem := by
  induction ps generalizing s with
  | nil => rfl
  | cons p ps ih =>
    unfold State.sendPackets
    dsimp only
    split
    · rfl
    · split
      case h_1 => rfl
      case h_2 h => simpa [ih] using State.sendFlit_mem h

@[simp] theorem State.sendRun_mem (c e : Nat) : (s.sendRun c e).mem = s.mem := by
  unfold State.sendRun
  split
  · rfl
  · split
    · split <;> simp
    · rfl

@[simp] theorem State.sendRuns_mem (cs : List Nat) : (s.sendRuns cs).mem = s.mem := by simp [State.sendRuns]

@[simp] theorem State.columnRow_mem (c e : Nat) (r : EngineRun) (q : ColRow) (rest : List ColRow) :
    (s.columnRow c e r q rest).mem = s.mem := by
  unfold State.columnRow
  dsimp only
  (repeat' split) <;> simp

@[simp] theorem State.completeCopy_mem (c e : Nat) (r : EngineRun) : (s.completeCopy c e r).mem = s.mem := by
  unfold State.completeCopy
  dsimp only
  split <;> simp

@[simp] theorem State.stopCopy_mem (c e : Nat) (r : EngineRun) (err : CopyErr) : (s.stopCopy c e r err).mem = s.mem := by
  simp [State.stopCopy]

end

section
variable {s : State}

@[simp] theorem State.startCopy_wf (c e l : Nat) (la : Launch) (op : EngineOp) (rest : List EngineOp) (hm : s.mem.wf = true) :
    (s.startCopy c e l la op rest).mem.wf = true := by
  have hdone : ((s.copyEnv c e l la op la.scbase).perform s op.start).1.s.mem.wf = true := CopyEnv.perform_wf _ hm
  unfold State.startCopy
  dsimp only
  split
  · simpa using hm
  · split
    · simpa using hm
    · split <;> simpa using hdone

end

end Sys2Proof.Machine
end

section
/-! SUPPORT. What deliveries, the judges' queues and the starter leave of memory (R247, R287 to R303, R329 to R333, R350 to R365):
untouched, or in its canonical form (log entry 2). -/

namespace Sys2Proof.Machine

/-! ### Deliveries (R247, R330, R331) -/

theorem State.fillSlot_mem {s t : State} {c k hn : Nat} {bs : List Byte} (h : s.fillSlot c k hn bs = .done t) : t.mem = s.mem := by
  unfold State.fillSlot at h
  dsimp only at h
  (repeat' split at h) <;> cases h <;> simp

section
variable (s : State)

@[simp] theorem State.deliveryOff_mem (c k : Nat) : (s.deliveryOff c k).mem = s.mem := rfl

@[simp] theorem State.deliveryBad_mem (c k : Nat) (b : BadAt) : (s.deliveryBad c k b).mem = s.mem := by
  simp [State.deliveryBad]

@[simp] theorem State.gatherError_mem (c : Nat) (g : GatherIdx) (err : CopyErr) : (s.gatherError c g err).mem = s.mem := by
  simp [State.gatherError]

@[simp] theorem State.gatherRow_mem (c : Nat) (g : GatherIdx) (rest : List GatherIdx) : (s.gatherRow c g rest).mem = s.mem := by
  unfold State.gatherRow
  dsimp only
  split
  · simp
  · split
    · simp
    · split
      · simp
      · split
        · rfl
        · split
          case h_1 e => simp [State.readGlobal_pair e]
          case h_2 e =>
            have ht := State.readGlobal_pair e
            split
            case h_1 h => simp [State.fillSlot_mem h, ht]
            all_goals simp [ht]

@[simp] theorem State.modUnit_mem (l u : Nat) (f : Ctx → Ctx) : (s.modUnit l u f).mem = s.mem := by
  unfold State.modUnit
  split
  · rfl
  · split <;> simp

@[simp] theorem State.senderStopped_mem (l u err : Nat) : (s.senderStopped l u err).mem = s.mem := by
  unfold State.senderStopped
  dsimp only
  split
  · rfl
  · split <;> simp

@[simp] theorem State.deliverXput_mem (n : Nat) (x : Xput) : (s.deliverXput n x).mem = s.mem := by
  unfold State.deliverXput
  dsimp only
  split
  · rfl
  · split
    · rfl
    · split
      case h_5 h => exact (State.fillSlot_mem h).trans rfl
      all_goals simp

@[simp] theorem State.reportBaton_mem (b : Baton) : (s.reportBaton b).mem = s.mem := by
  unfold State.reportBaton
  split <;> simp

end

section
variable {s : State}

theorem State.dropBaton_wf {b : Baton} {t : State} (h : s.dropBaton b = some t) (hm : s.mem.wf = true) : t.mem.wf = true :=
  State.judgeDeltas_wf h (State.countLost_wf _ _ _ hm)

@[simp] theorem State.deliverBaton_wf (n : Nat) (b : Baton) (hm : s.mem.wf = true) : (s.deliverBaton n b).mem.wf = true := by
  have hdropped : ∀ t, { s with batons := s.batons.eraseIdx n }.dropBaton b = some t → t.mem.wf = true :=
    fun _ h => State.dropBaton_wf h hm
  unfold State.deliverBaton
  dsimp only
  split
  · split
    · exact getD_wf hdropped hm
    · exact hm
  · split
    · exact getD_wf hdropped hm
    · split
      case h_1 => exact hm
      case h_2 =>
        refine getD_wf (fun t h => ?_) hm
        obtain ⟨u, hu, rfl⟩ := Option.map_eq_some_iff.1 h
        simpa using hdropped u hu
      case h_3 => simpa using hm
      case h_4 => simpa using hm
      case h_5 h => simpa [State.fillSlot_mem h] using hm

/-! ### The judges' queues (R287 to R303) -/

@[simp] theorem State.countEnded_wf (id : BitVec 64) (dropped ignored : Nat) (hm : s.mem.wf = true) :
    (s.countEnded id dropped ignored).mem.wf = true := by
  unfold State.countEnded
  split <;> simp [hm]

@[simp] theorem State.refuseBaton_wf (id : BitVec 64) (st : Nat) (lap : Word) (hm : s.mem.wf = true) :
    (s.refuseBaton id st lap).mem.wf = true := by
  unfold State.refuseBaton
  split
  · dsimp only
    split
    · simp [hm]
    · exact getD_wf (fun _ h => State.judgeDeltas_wf h (by simp [hm])) (by simp [hm])
  · split <;> simp [hm]

@[simp] theorem State.releaseBaton_wf (l sender : Nat) (o : JudgeOp) (hm : s.mem.wf = true) :
    (s.releaseBaton l sender o).mem.wf = true := by
  cases o with
  | prog ds => exact hm
  | bsend st lap unit handle handler pkg payload =>
    unfold State.releaseBaton
    dsimp only
    (repeat' split) <;> simp [hm]

@[simp] theorem State.judgeHead_wf (c k l dom : Nat) (g : Graph) (o : JudgeOp) (hm : s.mem.wf = true) :
    (s.judgeHead c k l dom g o).mem.wf = true := by
  unfold State.judgeHead
  dsimp only
  split
  · exact hm
  · split
    · simp [hm]
    · split
      · simp [hm]
      · split
        case h_1 => exact hm
        case h_2 h =>
          have ht := State.applyDeltas_wf h hm
          (repeat' split) <;> simp [ht]

@[simp] theorem State.judgeReplied_wf (l u : Nat) (g : Graph) (ok : Bool) (hm : s.mem.wf = true) :
    (s.judgeReplied l u g ok).mem.wf = true := by
  unfold State.judgeReplied
  dsimp only
  (repeat' split) <;> simp [hm]

theorem State.atHome_wf {id : BitVec 64} {act : Nat → Graph → Option State} {gone t : State} (h : s.atHome id act gone = some t)
    (hact : ∀ l g u, act l g = some u → u.mem.wf = true) (hgone : gone.mem.wf = true) (hm : s.mem.wf = true) :
    t.mem.wf = true := by
  unfold State.atHome at h
  split at h
  · split at h
    · cases h
      exact hm
    · exact hact _ _ _ h
  · split at h
    · cases h
      exact hgone
    · cases h

theorem State.homeDeltas_wf {pkg : Nat} {id : BitVec 64} {unit : Nat} {prog : Bool} {ds : List ((Nat × Word) × Int)} {t : State}
    (h : s.homeDeltas pkg id unit prog ds = some t) (hm : s.mem.wf = true) : t.mem.wf = true := by
  refine State.atHome_wf h (fun l g u hu => ?_) (by simp [hm]) hm
  split at hu
  · cases hu
    simp [hm]
  · obtain ⟨w, hw, rfl⟩ := Option.map_eq_some_iff.1 hu
    simpa using State.applyDeltas_wf hw hm

/-! ### The starter (R353 to R365) -/

@[simp] theorem State.placeSelfTest_wf (ws : List Word) (image : List Byte) (hm : s.mem.wf = true) :
    (s.placeSelfTest ws image).mem.wf = true := by
  unfold State.placeSelfTest
  split
  · exact hm
  · split
    · exact State.place_wf _ hm
    · exact hm

@[simp] theorem State.skipQueue_mem (s : State) (q : Nat) : (s.skipQueue q).mem = s.mem := by
  unfold State.skipQueue
  dsimp only
  split <;> rfl

@[simp] theorem State.holdOut_mem (s : State) (l : Nat) : (s.holdOut l).mem = s.mem := rfl

@[simp] theorem foldl_modCtxAt_mem (f : Ctx → Ctx) (qs : List (Nat × Nat)) (s : State) :
    (qs.foldl (fun (t : State) (q : Nat × Nat) => t.modCtxAt q.1 q.2 f) s).mem = s.mem :=
  foldl_mem _ (fun t _ => t.modCtxAt_mem _ _ f) _ _

@[simp] theorem State.requestDrain_mem (s : State) (l : Nat) (toTail : Bool) : (s.requestDrain l toTail).mem = s.mem := by
  unfold State.requestDrain
  split <;> simp

@[simp] theorem State.requestCheckpoint_mem (s : State) (l : Nat) : (s.requestCheckpoint l).mem = s.mem := by
  unfold State.requestCheckpoint
  split <;> simp

@[simp] theorem State.takeAction_mem (s : State) (v : Nat) (a : Action) : (s.takeAction v a).mem = s.mem := by
  cases a <;> simp [State.takeAction]

@[simp] theorem State.preemptEach_mem (s : State) (rankC limit : Nat) (vs : List (Nat × Launch)) (lack t : Nat) :
    (State.preemptEach rankC limit vs lack t s).1.mem = s.mem := by
  induction vs generalizing s lack t with
  | nil => rfl
  | cons v vs ih =>
    unfold State.preemptEach
    dsimp only
    split
    · rfl
    · simp [ih]

@[simp] theorem State.preemptFor_mem (s : State) (l : Nat) (x : Launch) (rankC : Nat) : (s.preemptFor l x rankC).mem = s.mem :=
  State.preemptEach_mem s _ _ _ _ _

@[simp] theorem State.serve_mem (s : State) (q : Nat) : (s.serve q).mem = s.mem := by simp [State.serve]

@[simp] theorem State.selected_wf (q l : Nat) (x : Launch) (hm : s.mem.wf = true) : (s.selected q l x).mem.wf = true := by
  unfold State.selected
  dsimp only
  (repeat' split) <;> simp [hm]

@[simp] theorem State.committed_wf (m : Commitment) (hm : s.mem.wf = true) : (s.committed m).1.mem.wf = true := by
  unfold State.committed
  dsimp only
  (repeat' split) <;> simp [hm]

@[simp] theorem State.arbitrate_wf (boundary : Bool) (hm : s.mem.wf = true) : (s.arbitrate boundary).mem.wf = true := by
  unfold State.arbitrate
  dsimp only
  generalize hs : ite (s.starter.released = true) _ _ = t
  have ht : t.mem.wf = true := by
    subst hs
    split <;> exact hm
  split
  case h_1 m _ =>
    have hc := State.committed_wf m ht
    generalize t.committed m = r at hc ⊢
    (repeat' split) <;> simp [hc]
  case h_2 =>
    dsimp only
    (repeat' split) <;> simp [ht]

@[simp] theorem State.nextSlice_wf (hm : s.mem.wf = true) : s.nextSlice.mem.wf = true := State.arbitrate_wf true hm

@[simp] theorem State.arbitratePoint_wf (hm : s.mem.wf = true) : s.arbitratePoint.mem.wf = true := by
  unfold State.arbitratePoint
  split <;> simp [hm]

@[simp] theorem State.go_wf (l : Nat) (x : Launch) (hm : s.mem.wf = true) : (s.go l x).mem.wf = true := by
  unfold State.go
  dsimp only
  (repeat' split) <;> simp [hm]

@[simp] theorem State.killDone_wf (l : Nat) (x : Launch) (st : Nat) (z : BitVec 16) (hm : s.mem.wf = true) :
    (s.killDone l x st z).mem.wf = true :=
  State.arbitratePoint_wf (State.openRegions_wf _ (by simp [hm]))

@[simp] theorem State.wdogRecord_wf (x : Launch) (hm : s.mem.wf = true) : (s.wdogRecord x).mem.wf = true := by
  unfold State.wdogRecord
  dsimp only
  split <;> simp [hm]

@[simp] theorem State.wdogKill_wf (l : Nat) (x : Launch) (hm : s.mem.wf = true) : (s.wdogKill l x).mem.wf = true := by
  simp [State.wdogKill, hm]

@[simp] theorem State.wdogExpires_wf (l : Nat) (x : Launch) (hm : s.mem.wf = true) : (s.wdogExpires l x).mem.wf = true := by
  unfold State.wdogExpires
  dsimp only
  (repeat' split) <;> simp [hm]

@[simp] theorem State.retire_wf (l : Nat) (x : Launch) (hm : s.mem.wf = true) : (s.retire l x).mem.wf = true := by
  unfold State.retire
  dsimp only
  split <;> exact State.arbitratePoint_wf (State.openRegions_wf _ (by simp [hm]))

end

end Sys2Proof.Machine
end

section
/-! SUPPORT. What relay ports and groups leave of memory (R303, R324, R392, R403, R404, R442 to R444): untouched, or in its
canonical form (log entry 2). -/

namespace Sys2Proof.Machine

section
variable (s : State)

@[simp] theorem State.answer_mem (a : Answer) : (s.answer a).mem = s.mem := rfl

/-! ### Flits and groups (R442 to R444) -/

@[simp] theorem State.resend_mem (g : Nat) : (s.resend g).mem = s.mem := by
  unfold State.resend
  dsimp only
  split
  · simp
  · split <;> simp

@[simp] theorem State.replay_mem (g : Nat) : (s.replay g).mem = s.mem := by
  unfold State.replay
  dsimp only
  split <;> simp

@[simp] theorem State.sendAll_mem : s.sendAll.mem = s.mem := by simp [State.sendAll]

@[simp] theorem State.loseLink_mem (hit : EngineRun → Bool) : (s.loseLink hit).mem = s.mem := rfl

@[simp] theorem State.rerouted_mem (old new : Nat) : (s.rerouted old new).mem = s.mem := rfl

@[simp] theorem State.leaveGroup_mem (g : Nat) (ps : List Nat) : (s.leaveGroup g ps).mem = s.mem := by
  unfold State.leaveGroup
  dsimp only
  split
  · simp
  · split <;> simp

@[simp] theorem State.portsDown_mem (ps : List Nat) : (s.portsDown ps).mem = s.mem :=
  (foldl_mem _ (fun t g => t.leaveGroup_mem g ps) _ _).trans (by simp)

@[simp] theorem State.losePort_mem (port : Nat) (q : PortState) (lanes : BitVec 4) : (s.losePort port q lanes).mem = s.mem := by
  unfold State.losePort
  dsimp only
  split <;> simp

@[simp] theorem State.loseLane_mem (port : Nat) (lanes : BitVec 4) : (s.loseLane port lanes).mem = s.mem := by
  simp [State.loseLane]

@[simp] theorem State.laneVerdict_mem (port lane : Nat) (failed : Bool) : (s.laneVerdict port lane failed).mem = s.mem := by
  unfold State.laneVerdict
  dsimp only
  generalize or _ _ = lasting
  generalize ite (lasting = true) 3 0 = action
  split
  · simp
  · split <;> simp

@[simp] theorem State.crcFails_mem (port : Nat) : (s.crcFails port).mem = s.mem := by
  unfold State.crcFails
  dsimp only
  split <;> simp

@[simp] theorem State.packetAcked_mem (c e seq : Nat) : (s.packetAcked c e seq).mem = s.mem := by
  unfold State.packetAcked
  (repeat' split) <;> simp

@[simp] theorem State.flitAcked_mem (g : Group) (seq : Nat) : (s.flitAcked g seq).mem = s.mem := by
  unfold State.flitAcked
  split <;> simp

@[simp] theorem State.packetStopped_mem (o : Nat × Nat × Nat) (err : Nat) : (s.packetStopped o err).mem = s.mem := by
  unfold State.packetStopped
  (repeat' split) <;> simp

theorem State.stopsFlit_mem {g : Group} {err : Nat} {f : Nat × RemoteOp} {t : State} (h : s.stopsFlit g err f = some t) :
    t.mem = s.mem := by
  unfold State.stopsFlit at h
  split at h
  · cases h
    simp
  · obtain ⟨p, _, rfl⟩ := Option.map_eq_some_iff.1 h
    simp
  · cases h

@[simp] theorem State.remoteError_mem (g : Group) (err : Nat) : (s.remoteError g err).mem = s.mem := by
  unfold State.remoteError
  cases h : g.unacked.findSome? (s.stopsFlit g err) with
  | none => rfl
  | some t =>
    obtain ⟨f, _, hf⟩ := List.exists_of_findSome?_eq_some h
    exact State.stopsFlit_mem s hf

@[simp] theorem State.remoteRead_mem (port group : Nat) (addrs : List Word) : (s.remoteRead port group addrs).mem = s.mem := by
  unfold State.remoteRead
  (repeat' split) <;> simp

end

/-! ### What arrives from other packages (R303, R324, R403) -/

section
variable {s : State}

@[simp] theorem State.remoteWrites_wf (dom : Nat) (bs : List (Word × Byte)) (hm : s.mem.wf = true) :
    (s.remoteWrites dom bs).1.mem.wf = true := by
  induction bs generalizing s with
  | nil => exact hm
  | cons b bs ih =>
    unfold State.remoteWrites
    split
    case h_1 e => exact ih (State.writeGlobal_done e hm)
    case h_2 => exact hm

theorem State.remoteData_wf {c e : Nat} {bs : List Byte} {t : State} (h : s.remoteData c e bs = some t) (hm : s.mem.wf = true) :
    t.mem.wf = true := by
  have hstored : ∀ (v : CopyEnv) (ps : List (Nat × Byte)) (x : CopyAcc), x.s.mem.wf = true →
      (ps.foldl (fun (x : CopyAcc) q => if x.err.isSome then x else v.store x q.1 q.2) x).s.mem.wf = true :=
    fun v ps x hx => foldl_inv (fun y : CopyAcc => y.s.mem.wf = true) _
      (fun y q hy => by split; exacts [hy, CopyEnv.store_wf _ _ hy]) ps x hx
  unfold State.remoteData at h
  split at h
  · cases h
  · cases h
    split
    · split
      · exact hm
      · exact hstored _ _ _ hm
    · exact hm

@[simp] theorem State.remoteWrite_wf (port group : Nat) (bytes : List (Word × Byte)) (hm : s.mem.wf = true) :
    (s.remoteWrite port group bytes).mem.wf = true := by
  unfold State.remoteWrite
  split
  · simpa using hm
  · dsimp only
    split <;> simp [hm]

@[simp] theorem State.remoteBaton_wf (port group : Nat) (id : BitVec 64) (unit handle : Nat) (handler : BitVec 16)
    (bs : List Byte) (hm : s.mem.wf = true) : (s.remoteBaton port group id unit handle handler bs).mem.wf = true := by
  unfold State.remoteBaton
  dsimp only
  (repeat' split) <;> simp [hm]

@[simp] theorem State.homeCancelled_wf (id : BitVec 64) (cause : BitVec 48) (hm : s.mem.wf = true) :
    (s.homeCancelled id cause).mem.wf = true := by
  unfold State.homeCancelled
  dsimp only
  (repeat' split) <;> simp [hm]

/-- An operation that is not for this package changes nothing. -/
theorem here_wf {here : Bool} {o : Option State} {t : State} (h : (if here then o else some s) = some t)
    (ho : ∀ u, o = some u → u.mem.wf = true) (hm : s.mem.wf = true) : t.mem.wf = true := by
  cases here
  · cases h
    exact hm
  · exact ho t h

/-- An operation that is done at once leaves canonical memory where the state it leaves has it. -/
theorem some_wf {u : State} (hu : u.mem.wf = true) : ∀ t, some u = some t → t.mem.wf = true := by
  rintro t ⟨⟩
  exact hu

theorem State.remoteOp_wf {port : Nat} {op : RemoteOp} {t : State} (h : s.remoteOp port op = some t) (hm : s.mem.wf = true) :
    t.mem.wf = true := by
  unfold State.remoteOp at h
  cases op
  case writes => exact here_wf h (some_wf (by simp [hm])) hm
  case reads => exact here_wf h (some_wf (by simp [hm])) hm
  case data => exact State.remoteData_wf h hm
  case baton => exact here_wf h (some_wf (by simp [hm])) hm
  case deltas => exact here_wf h (fun u hu => State.homeDeltas_wf hu hm) hm
  case applied =>
    dsimp only at h
    split at h
    · exact here_wf h (some_wf (by simp [hm])) hm
    · exact some_wf hm t h
  case announce =>
    dsimp only at h
    split at h
    · exact some_wf (by simp [hm]) t h
    · exact some_wf hm t h
  case cancel => exact here_wf h (fun u hu => State.atHome_wf hu (fun l _ => some_wf (by simp [hm])) hm hm) hm
  case cancelled => exact some_wf (by simp [hm]) t h
  case lost => exact here_wf h (fun u hu => State.atHome_wf hu (fun l _ => some_wf (by simp [hm])) (by simp [hm]) hm) hm
  case frontAsk => exact here_wf h (fun u hu => State.atHome_wf hu (fun _ g => some_wf (by simp [hm])) (by simp [hm]) hm) hm
  case frontTell =>
    dsimp only at h
    split at h
    · exact here_wf h (some_wf (by simp [hm])) hm
    · exact some_wf hm t h
  case stopped =>
    dsimp only at h
    split at h
    · exact here_wf h (some_wf (by simp [hm])) hm
    · exact some_wf hm t h
  case part => exact some_wf hm t h

theorem State.takeFlit_wf {port parts : Nat} {op : Option RemoteOp} {t : State} {n : Nat}
    (h : s.takeFlit port parts op = (some t, n)) (hm : s.mem.wf = true) : t.mem.wf = true := by
  unfold State.takeFlit at h
  split at h
  · cases h
    exact hm
  · cases h
    exact hm
  · have hop : (ite _ _ _ : Option State) = some t := congrArg Prod.fst h
    split at hop
    · exact State.remoteOp_wf hop hm
    · exact some_wf hm t hop

end

end Sys2Proof.Machine
end

section
/-! SUPPORT. What ownership, alarms, commands, the debug path and the host's windows leave of memory (R395 to R432): untouched, or
in its canonical form (log entry 2). -/

namespace Sys2Proof.Machine

/-! ### Ownership and alarms (R405 to R410, R427 to R432) -/

section
variable (s : State)

@[simp] theorem State.refuseHalts_mem (gone : Nat → Bool) : (s.refuseHalts gone).mem = s.mem := rfl

@[simp] theorem State.lockDomains_mem (p : Nat → Bool) : (s.lockDomains p).mem = s.mem :=
  (foldl_mem _ (fun t c => State.setCore_mem t c _) _ _).trans rfl

@[simp] theorem State.unown_mem : s.unown.mem = s.mem := by simp [State.unown]

@[simp] theorem State.settleOwner_mem : s.settleOwner.mem = s.mem := by
  unfold State.settleOwner
  split <;> simp

@[simp] theorem State.own_mem (m sec : Nat) : (s.own m sec).mem = s.mem := rfl

@[simp] theorem State.drawPeer_mem : s.drawPeer.2.mem = s.mem := s.drawFree_mem

@[simp] theorem State.drawPeers_mem (ps : List Nat) : (s.drawPeers ps).2.mem = s.mem := by
  induction ps generalizing s with
  | nil => rfl
  | cons p ps ih => exact (ih s.drawPeer.2).trans s.drawPeer_mem

end

section
variable {s : State}

@[simp] theorem State.endWaiting_wf (l : Nat) (x : Launch) (st : Nat) (z : BitVec 16) (hm : s.mem.wf = true) :
    (s.endWaiting l x st z).mem.wf = true := by
  simp [State.endWaiting, hm]

@[simp] theorem State.killAny_wf (l st : Nat) (z : BitVec 16) (hm : s.mem.wf = true) : (s.killAny l st z).mem.wf = true := by
  unfold State.killAny
  (repeat' split) <;> simp [hm]

theorem foldl_killAny_wf (ls : List Nat) (st : Nat) (z : BitVec 16) (hm : s.mem.wf = true) :
    (ls.foldl (fun (t : State) l => t.killAny l st z) s).mem.wf = true :=
  foldl_ok _ (fun _ l h => State.killAny_wf l st z h) _ _ hm

@[simp] theorem State.levelTwo_wf (z : AlarmCause) (hm : s.mem.wf = true) : (s.levelTwo z).mem.wf = true := by
  simp [State.levelTwo, foldl_killAny_wf, hm]

@[simp] theorem State.levelOne_wf (z : AlarmCause) (hm : s.mem.wf = true) : (s.levelOne z).mem.wf = true := by
  unfold State.levelOne
  dsimp only
  split <;> simp [hm]

@[simp] theorem State.authFailure_wf (endpoint : Nat) (hm : s.mem.wf = true) : (s.authFailure endpoint).mem.wf = true := by
  unfold State.authFailure
  dsimp only
  split <;> simp [hm]

@[simp] theorem State.join_wf (fabric : BitVec 32) (pkg : Nat) (admission : List Byte) (ports : List Nat) (hm : s.mem.wf = true) :
    (s.join fabric pkg admission ports).mem.wf = true := by
  unfold State.join
  dsimp only
  rw [State.sendAll_mem]
  exact foldl_ok _ (fun _ p h => State.authFailure_wf _ h) _ _ (by simp [hm])

/-! ### Commands (R396, R398 to R400) -/

/-- What a command does keeps memory canonical, whatever it answers. -/
def KeepsReply (go : State → Reply) : Prop := ∀ ⦃s : State⦄, s.mem.wf = true → (go s).state.mem.wf = true

@[simp] theorem Reply.ok_state (s : State) : (Reply.ok s).state = s := rfl
@[simp] theorem Reply.bad_state (s : State) : (Reply.bad s).state = s := rfl
@[simp] theorem Reply.busy_state (s : State) : (Reply.busy s).state = s := rfl

@[simp] theorem State.reply_mem (s : State) (m code : Nat) (tag : Byte) (status : Nat) (body : List Byte) :
    (s.reply m code tag status body).mem = s.mem := rfl

theorem State.attend_wf (m code : Nat) (tag : Byte) (w : Sender) (ok : Bool) {go : State → Reply} (hgo : KeepsReply go)
    (hm : s.mem.wf = true) : (s.attend m code tag w ok go).mem.wf = true := by
  have hsettled : s.settleOwner.mem.wf = true := by simpa using hm
  unfold State.attend
  dsimp only
  split
  · simpa using hm
  · split
    · simpa using hm
    · exact hgo hsettled

theorem State.command_wf (m code : Nat) (tag : Byte) (w : Sender) (ok : Bool) {go : State → Reply} (hgo : KeepsReply go)
    (hm : s.mem.wf = true) : (s.command m code tag w ok go).mem.wf = true := by
  have hattend := State.attend_wf m code tag w ok hgo hm
  unfold State.command
  repeat' split
  all_goals simp [hm, hattend]

/-- Whatever state an outcome reaches has canonical memory. -/
def ReachesCanonical (r : Res) : Prop := ∀ t, r = .next t → t.mem.wf = true

@[simp] theorem reachesCanonical_next (t : State) : ReachesCanonical (.next t) ↔ t.mem.wf = true :=
  ⟨fun h => h t rfl, by rintro h _ ⟨⟩; exact h⟩

@[simp] theorem reachesCanonical_fault (f : Fault) : ReachesCanonical (.fault f) := fun _ h => nomatch h

theorem reachesCanonical_ite_fault {p : Prop} [Decidable p] {f : Fault} {r : Res} (h : ReachesCanonical r) :
    ReachesCanonical (if p then .fault f else r) := by
  split
  · exact reachesCanonical_fault f
  · exact h

theorem commandStep_canonical (m code : Nat) (tag : Byte) (w : Sender) (ok : State → Bool) {go : State → Reply}
    (hgo : KeepsReply go) (hm : s.mem.wf = true) : ReachesCanonical (commandStep m code tag w ok go s) :=
  reachesCanonical_ite_fault ((reachesCanonical_next _).2 (State.command_wf m code tag w (ok s) hgo hm))

/-! ### The debug path (R418, R419) -/

theorem State.dbgResume_mem {c k : Nat} {t : State} (h : s.dbgResume c k = some t) : t.mem = s.mem := by
  obtain ⟨q, _, rfl⟩ := Option.map_eq_some_iff.1 h
  rfl

@[simp] theorem State.targetMeets_mem (s : State) (t : Target) (status : Nat) : (s.targetMeets t status).mem = s.mem := by
  unfold State.targetMeets
  (repeat' split) <;> simp

@[simp] theorem State.debugSysw_wf (t : Target) (v : Word) (hm : s.mem.wf = true) : (s.debugSysw t v).mem.wf = true := by
  unfold State.debugSysw
  dsimp only
  (repeat' split) <;> simp [hm]

@[simp] theorem State.targetWrite_wf (t : Target) (bs : List Byte) (hm : s.mem.wf = true) : (s.targetWrite t bs).mem.wf = true := by
  unfold State.targetWrite
  extract_lets k c x v ctx cell holder
  have hctx : ∀ y, (ctx y).mem.wf = true := fun _ => hm
  have hcell : ∀ y, (cell y).mem.wf = true := fun _ => hm
  split
  case h_3 => exact State.debugSysw_wf _ _ hm
  case h_6 => split <;> exact hcell _
  case h_7 => exact hm
  case h_9 => split <;> exact hcell _
  case h_11 =>
    split
    · exact hm
    · exact hctx _
  case h_1 => exact hctx _
  case h_2 => exact hctx _
  all_goals exact hcell _

@[simp] theorem State.targetTouch_mem (s : State) (t : Target) : (s.targetTouch t).mem = s.mem := rfl

@[simp] theorem State.haltLater_mem (s : State) (c k m : Nat) (tag : Byte) : (s.haltLater c k m tag).mem = s.mem := by
  unfold State.haltLater
  dsimp only
  split <;> simp

/-! ### Dumps, fatal errors and reset (R420 to R423) -/

@[simp] theorem State.deviceDump_mem (s : State) (fatal : Nat) : (s.deviceDump fatal).mem = s.mem := rfl

@[simp] theorem State.lastStatus_wf (x : Launch) (hm : s.mem.wf = true) : (s.lastStatus x).mem.wf = true := by
  unfold State.lastStatus
  extract_lets w
  exact getD_wf (fun _ h => State.deviceWrite_wf h hm) hm

@[simp] theorem State.fatalEnd_wf (code : Nat) (hm : s.mem.wf = true) : (s.fatalEnd code).mem.wf = true := by
  unfold State.fatalEnd
  extract_lets told closed dumped
  have hdumped : dumped.mem.wf = true := by simp [dumped, closed, told, hm]
  refine foldl_ok _ (fun t p h => ?_) _ _ hdumped
  exact State.lastStatus_wf p.2 h

@[simp] theorem State.afterReset_mem (s : State) (verified : Bool) (fails : Nat → Bool) : (s.afterReset verified fails).mem = s.mem := rfl

@[simp] theorem State.commandReset_mem (s : State) : s.commandReset.mem = s.mem := by simp [State.commandReset]

/-! ### The host's windows (R401 to R404) -/

@[simp] theorem State.connect_mem (s : State) (p : HostPeer) (qp : Nat) : (s.connect p qp).mem = s.mem := by
  unfold State.connect
  split <;> simp

theorem State.onPair_canonical (p : HostPeer) (qp : Nat) (w : Option (Nat × Nat × List Byte)) {go : State → Res}
    (hgo : ∀ t, t.mem.wf = true → ReachesCanonical (go t)) (hm : s.mem.wf = true) : ReachesCanonical (s.onPair p qp w go) := by
  unfold State.onPair
  refine reachesCanonical_ite_fault ?_
  split
  · exact hgo _ (by simpa using hm)
  · simpa using hm

@[simp] theorem State.strangerSend_wf (endpoint : Nat) (msg : List Byte) (hm : s.mem.wf = true) :
    (s.strangerSend endpoint msg).mem.wf = true := by
  unfold State.strangerSend
  dsimp only
  split
  · exact State.command_wf _ _ _ _ _ (fun _ h => h) hm
  · split
    · exact hm
    · split
      · split
        · simpa using hm
        · split <;> simpa using hm
      · simp [hm]

@[simp] theorem State.queueWrite_wf (w : Window) (off : Nat) (data : List Byte) (hm : s.mem.wf = true) :
    (s.queueWrite w off data).mem.wf = true := State.openRegions_wf _ hm

@[simp] theorem State.retry_mem (s : State) (qp : Nat) (w : Option (Nat × Nat × List Byte)) : (s.retry qp w).mem = s.mem := rfl

@[simp] theorem State.hostWrite_wf (m qp rkey offset : Nat) (data : List Byte) (hm : s.mem.wf = true) :
    (s.hostWrite m qp rkey offset data).mem.wf = true := by
  unfold State.hostWrite
  (repeat' split) <;> simp [hm]

@[simp] theorem State.hostRead_mem (s : State) (m rkey offset len : Nat) : (s.hostRead m rkey offset len).mem = s.mem := by
  unfold State.hostRead
  (repeat' split) <;> simp

end

end Sys2Proof.Machine
end

section
/-! SUPPORT. The device's own steps and what reaches it from outside keep memory in its canonical form (log entry 2), step by
step. -/

namespace Sys2Proof.Machine

section
variable {s : State}

/-! ### Landings, streams and traps -/

@[simp] theorem State.owe_mem (s : State) (c k n : Nat) : (s.owe c k n).mem = s.mem := by simp [State.owe]

@[simp] theorem State.landOwed_mem (s : State) (c k : Nat) : (s.landOwed c k).mem = s.mem := by simp [State.landOwed]

@[simp] theorem State.oneStep_mem (s : State) (c k n : Nat) (st : Stream) : (s.oneStep c k n st).mem = s.mem := by
  simp [State.oneStep]

@[simp] theorem State.streamStep_mem (s : State) (c k n : Nat) (kind : StreamKind → Bool) :
    (s.streamStep c k n kind).mem = s.mem := by
  unfold State.streamStep
  (repeat' split) <;> simp

@[simp] theorem State.mloadNow_mem (s : State) (c k n : Nat) : (s.mloadNow c k n).mem = s.mem := by
  unfold State.mloadNow
  dsimp only
  (repeat' split) <;> simp

@[simp] theorem State.boundaryEntry_mem (s : State) (c k : Nat) : (s.boundaryEntry c k).mem = s.mem := by
  unfold State.boundaryEntry
  dsimp only
  split
  · rfl
  · split
    case h_1 h => exact s.boundaryTake_mem c k h s
    case h_2 => rfl

theorem ctxStep_canonical (c k : Nat) (ready : Bool) {t : State} (ht : t.mem = s.mem) (hm : s.mem.wf = true) :
    ReachesCanonical (ctxStep c k ready s t) := by
  unfold ctxStep
  split
  · split <;> simpa [ht] using hm
  · exact reachesCanonical_fault _

theorem execLayerPowerChange_canonical (c : Nat) (hm : s.mem.wf = true) : ReachesCanonical (execLayerPowerChange c s) :=
  reachesCanonical_ite_fault ((reachesCanonical_next _).2 (foldl_ok _ (fun t k h => by simpa using h) _ _ hm))

theorem execExpressArrival_canonical (n : Nat) (hm : s.mem.wf = true) : ReachesCanonical (execExpressArrival n s) := by
  unfold execExpressArrival
  rw [reachesCanonical_next]
  split
  · split <;> exact hm
  · exact hm

/-! ### Registers of the system space (R338 to R394) -/

theorem State.registerStep_canonical (c k : Nat) {m : State → Meaning} (h : ∀ t, t.mem.wf = true → (m t).Keeps)
    (hm : s.mem.wf = true) : ReachesCanonical (s.registerStep c k m) := by
  unfold State.registerStep
  refine reachesCanonical_ite_fault ?_
  split
  · simpa using hm
  · extract_lets t
    have ht : t.mem.wf = true := hm
    split
    case h_1 u hrun =>
      have hu : u.mem.wf = true := State.run_ok t (m t) (h t ht) ht u hrun
      exact (reachesCanonical_next _).2 hu
    case h_2 hrun => exact fun t ht => (hrun t ht).elim

theorem meanSyswOf_keeps (f : MForm) (v : Word) : (meanSyswOf f v s).Keeps :=
  memOpIf_keeps _ (memOp_keeps _ _ _ fun _ ht => State.syswEffect_wf _ _ _ _ ht)

theorem meanSysr_keeps (f : MForm) : (meanSysr f s).Keeps := memOpIf_keeps _ (memOp_keeps_of_mem _ _ _ fun t => by simp)

theorem State.writeStep_canonical (c k n : Nat) (v : Word) (hm : s.mem.wf = true) : ReachesCanonical (s.writeStep c k n v) :=
  State.registerStep_canonical c k (fun _ _ => meanSyswOf_keeps _ v) hm

theorem State.readStep_canonical (c k n : Nat) (d : BitVec 6) (hm : s.mem.wf = true) : ReachesCanonical (s.readStep c k n d) :=
  State.registerStep_canonical c k (fun _ _ => meanSysr_keeps _) hm

theorem execRgnWrite_canonical (c k n : Nat) (v : Word) (hm : s.mem.wf = true) : ReachesCanonical (execRgnWrite c k n v s) :=
  reachesCanonical_ite_fault (State.writeStep_canonical _ _ _ _ hm)

theorem execSqgeomWrite_canonical (c k : Nat) (v : Word) (hm : s.mem.wf = true) : ReachesCanonical (execSqgeomWrite c k v s) := by
  unfold execSqgeomWrite
  split
  · simpa using hm
  · exact State.writeStep_canonical _ _ _ _ hm

theorem execEvstatWrite_canonical (c : Nat) (v : Word) (hm : s.mem.wf = true) : ReachesCanonical (execEvstatWrite c v s) := by
  refine reachesCanonical_ite_fault ?_
  split
  · exact State.writeStep_canonical _ _ _ _ hm
  · simpa using hm

/-! ### The issue and the keeping of cores (R362, R375, R236 to R244) -/

theorem execBundleFetch_canonical (c k : Nat) (hm : s.mem.wf = true) : ReachesCanonical (execBundleFetch c k s) := by
  refine reachesCanonical_ite_fault ?_
  split
  · simpa using hm
  · split
    · simpa using hm
    · split
      · simp [hm]
      · have hwoken : (s.modCtxAt c k Ctx.wakeUp).mem.wf = true := by simpa using hm
        exact (reachesCanonical_next _).2 (State.settleTurn_wf c (State.turnOf_wf c k hwoken) hwoken)

theorem execRefresh_canonical (c tower group : Nat) (hm : s.mem.wf = true) : ReachesCanonical (execRefresh c tower group s) := by
  refine reachesCanonical_ite_fault ((reachesCanonical_next _).2 ?_)
  split <;> exact hm

theorem execRetentionGuard_canonical (c k time : Nat) (hm : s.mem.wf = true) :
    ReachesCanonical (execRetentionGuard c k time s) := by
  refine reachesCanonical_ite_fault ((reachesCanonical_next _).2 ?_)
  split <;> simpa using hm

theorem execControlInterval_canonical (reqs : List PowerRequest) (watts time : Nat) (hm : s.mem.wf = true) :
    ReachesCanonical (execControlInterval reqs watts time s) := by
  unfold execControlInterval
  extract_lets ticked mgmt measured
  have hmeasured : measured.mem.wf = true := hm
  rw [reachesCanonical_next]
  split
  · exact hmeasured
  · exact foldl_ok _ (fun t r h => by simpa using h) _ _ hmeasured

theorem execRailChangeEnd_canonical (cluster : Nat) (hm : s.mem.wf = true) : ReachesCanonical (execRailChangeEnd cluster s) := by
  refine reachesCanonical_ite_fault ((reachesCanonical_next _).2 ?_)
  split
  · simpa using hm
  · exact hm

theorem execIssueSlotTimeout_canonical (c : Nat) (hm : s.mem.wf = true) : ReachesCanonical (execIssueSlotTimeout c s) := by
  refine reachesCanonical_ite_fault ((reachesCanonical_next _).2 ?_)
  split <;> simp [hm]

theorem execGovernorStall_canonical (c : Nat) (hm : s.mem.wf = true) : ReachesCanonical (execGovernorStall c s) := by
  refine reachesCanonical_ite_fault ((reachesCanonical_next _).2 ?_)
  split <;> simpa using hm

theorem execSelfTest_canonical (e : TestEvent) (failed : Bool) (time : Nat) (hm : s.mem.wf = true) :
    ReachesCanonical (execSelfTest e failed time s) := by
  cases e
  case corrected u => exact reachesCanonical_ite_fault (by simpa using hm)
  case upset p => simpa [execSelfTest] using hm
  case launch ws image =>
    simp only [execSelfTest, reachesCanonical_next]
    split <;> simp [hm]
  case verdict u =>
    refine reachesCanonical_ite_fault ((reachesCanonical_next _).2 ?_)
    split
    · split <;> simpa using hm
    · simpa using hm
    · exact hm

/-! ### Engines, gathers, deliveries and the judges (R318 to R333, R287 to R303) -/

theorem execCopyOpStart_canonical (c e : Nat) (hm : s.mem.wf = true) : ReachesCanonical (execCopyOpStart c e s) := by
  refine reachesCanonical_ite_fault ?_
  split <;> simp [hm]

theorem execColumnRowWrite_canonical (c e : Nat) (hm : s.mem.wf = true) : ReachesCanonical (execColumnRowWrite c e s) := by
  refine reachesCanonical_ite_fault ?_
  split
  · split
    · rw [reachesCanonical_next]
      split <;> simpa using hm
    · simpa using hm
  · simpa using hm

theorem execCopyOpComplete_canonical (c e : Nat) (hm : s.mem.wf = true) : ReachesCanonical (execCopyOpComplete c e s) := by
  refine reachesCanonical_ite_fault ?_
  split
  · rw [reachesCanonical_next]
    split <;> simpa using hm
  · simpa using hm

theorem execCopyOpError_canonical (c e : Nat) (hm : s.mem.wf = true) : ReachesCanonical (execCopyOpError c e s) := by
  refine reachesCanonical_ite_fault ?_
  split
  · split
    · rw [reachesCanonical_next]
      split <;> simpa using hm
    · simpa using hm
  · simpa using hm

theorem execGatherRowFill_canonical (c : Nat) (hm : s.mem.wf = true) : ReachesCanonical (execGatherRowFill c s) := by
  refine reachesCanonical_ite_fault ?_
  split
  · rw [reachesCanonical_next]
    split <;> simpa using hm
  · simpa using hm

theorem execXputDelivery_canonical (n : Nat) (hm : s.mem.wf = true) : ReachesCanonical (execXputDelivery n s) := by
  unfold execXputDelivery
  rw [reachesCanonical_next]
  (repeat' split) <;> simpa using hm

theorem execBatonDelivery_canonical (n : Nat) (hm : s.mem.wf = true) : ReachesCanonical (execBatonDelivery n s) := by
  unfold execBatonDelivery
  rw [reachesCanonical_next]
  (repeat' split) <;> simp [hm]

theorem execJudgeApply_canonical (c k : Nat) (hm : s.mem.wf = true) : ReachesCanonical (execJudgeApply c k s) := by
  refine reachesCanonical_ite_fault ?_
  split
  · split
    · rw [reachesCanonical_next]
      split <;> simp [hm]
    · simpa using hm
  · simpa using hm

theorem execGraphCancel_canonical (l : Nat) (hm : s.mem.wf = true) : ReachesCanonical (execGraphCancel l s) := by
  unfold execGraphCancel
  split
  · simpa using hm
  · split
    · rw [reachesCanonical_next]
      (repeat' split) <;> simp [hm]
    · simpa using hm

/-! ### The starter (R353 to R365) -/

theorem execSliceBoundary_canonical (time : Nat) (hm : s.mem.wf = true) : ReachesCanonical (execSliceBoundary time s) := by
  unfold execSliceBoundary
  rw [reachesCanonical_next]
  split <;> simp [hm]

theorem execGoSignal_canonical (l : Nat) (hm : s.mem.wf = true) : ReachesCanonical (execGoSignal l s) := by
  unfold execGoSignal
  rw [reachesCanonical_next]
  (repeat' split) <;> simp [hm]

theorem execPlacementFail_canonical (l cause : Nat) (hm : s.mem.wf = true) : ReachesCanonical (execPlacementFail l cause s) := by
  unfold execPlacementFail
  rw [reachesCanonical_next]
  split
  · split
    · split
      · exact State.openRegions_wf _ (by simp [hm])
      · exact hm
    · exact hm
  · exact hm

theorem execDrainDone_canonical (l : Nat) (hm : s.mem.wf = true) : ReachesCanonical (execDrainDone l s) := by
  unfold execDrainDone
  rw [reachesCanonical_next]
  (repeat' split) <;> simp [hm]

theorem execCheckpointDone_canonical (l : Nat) (hm : s.mem.wf = true) : ReachesCanonical (execCheckpointDone l s) := by
  unfold execCheckpointDone
  rw [reachesCanonical_next]
  (repeat' split) <;> simp [hm]

theorem execKillComplete_canonical (l : Nat) (hm : s.mem.wf = true) : ReachesCanonical (execKillComplete l s) := by
  unfold execKillComplete
  rw [reachesCanonical_next]
  (repeat' split) <;> simp [hm]

theorem execWatchdogExpiry_canonical (l time : Nat) (hm : s.mem.wf = true) : ReachesCanonical (execWatchdogExpiry l time s) := by
  unfold execWatchdogExpiry
  rw [reachesCanonical_next]
  (repeat' split) <;> simp [hm]

theorem execWatchdogKill_canonical (l time : Nat) (hm : s.mem.wf = true) : ReachesCanonical (execWatchdogKill l time s) := by
  unfold execWatchdogKill
  rw [reachesCanonical_next]
  (repeat' split) <;> simp [hm]

theorem execContextRetire_canonical (c k : Nat) (hm : s.mem.wf = true) : ReachesCanonical (execContextRetire c k s) := by
  refine reachesCanonical_ite_fault ((reachesCanonical_next _).2 ?_)
  split <;> simpa using hm

theorem execLaunchRetire_canonical (l : Nat) (hm : s.mem.wf = true) : ReachesCanonical (execLaunchRetire l s) := by
  unfold execLaunchRetire
  rw [reachesCanonical_next]
  (repeat' split) <;> simp [hm]

/-! ### Relay ports (R442 to R444) -/

theorem execFlitReceive_canonical (port seq : Nat) (crcOk : Bool) (w : Option RemoteOp) (hm : s.mem.wf = true) :
    ReachesCanonical (execFlitReceive port seq crcOk w s) := by
  refine reachesCanonical_ite_fault ((reachesCanonical_next _).2 ?_)
  split
  · exact hm
  · split
    · simpa using hm
    · split
      · exact hm
      · dsimp only
        split
        case h_1 => exact hm
        case h_2 t _ h => simpa using State.takeFlit_wf (t := t) h hm

theorem execFlitAck_canonical (port seq : Nat) (nak : Bool) (err : Nat) (hm : s.mem.wf = true) :
    ReachesCanonical (execFlitAck port seq nak err s) := by
  refine reachesCanonical_ite_fault ((reachesCanonical_next _).2 ?_)
  have hacked : ∀ (fs : List (Nat × RemoteOp)) (t : State),
      (fs.foldl (fun t f => t.flitAcked (s.mgmt.group (s.mgmt.port port).group) f.1) t).mem = t.mem :=
    foldl_mem _ fun t f => t.flitAcked_mem _ _
  split
  · exact hm
  · dsimp only
    rw [State.sendAll_mem]
    (repeat' split) <;> simp [hacked, hm]

theorem execLaneLoss_canonical (port lane : Nat) (hm : s.mem.wf = true) : ReachesCanonical (execLaneLoss port lane s) := by
  refine reachesCanonical_ite_fault ((reachesCanonical_next _).2 ?_)
  split <;> simpa using hm

theorem execPortTestDone_canonical (port : Nat) (errors : Bool) (hm : s.mem.wf = true) :
    ReachesCanonical (execPortTestDone port errors s) := by
  refine reachesCanonical_ite_fault ((reachesCanonical_next _).2 ?_)
  have htested : ∀ (qs : List (Nat × Nat)) (t : State),
      (qs.foldl (fun t q => t.laneVerdict port q.2 false) t).mem = t.mem :=
    foldl_mem _ fun t q => t.laneVerdict_mem _ _ _
  split
  · exact hm
  · split
    · simpa using hm
    · dsimp only
      split <;> simpa [htested] using hm

theorem execPortRejoin_canonical (port : Nat) (hm : s.mem.wf = true) : ReachesCanonical (execPortRejoin port s) := by
  refine reachesCanonical_ite_fault ((reachesCanonical_next _).2 ?_)
  split
  · dsimp only
    rw [State.sendAll_mem]
    split <;> simpa using hm
  · exact hm

theorem execLinkLost_canonical (c e : Nat) (hm : s.mem.wf = true) : ReachesCanonical (execLinkLost c e s) := by
  refine reachesCanonical_ite_fault ?_
  split
  · rw [reachesCanonical_next]
    split <;> exact hm
  · simpa using hm

end

end Sys2Proof.Machine
end

section
/-! SUPPORT. Every command, and what else the host and the board send, keeps memory in its canonical form (R395 to R432; log
entry 2). -/

namespace Sys2Proof.Machine

section
variable {s : State} (m : Nat) (tag : Byte) (body : List Byte)

/-! ### Caps, ownership and trust (R396 to R410) -/

theorem execCapSet_canonical (hm : s.mem.wf = true) : ReachesCanonical (execCapSet m tag body s) := by
  unfold execCapSet
  exact commandStep_canonical _ _ _ _ _ (fun _ h => h) hm

theorem execCapGet_canonical (hm : s.mem.wf = true) : ReachesCanonical (execCapGet m tag body s) :=
  commandStep_canonical _ _ _ _ _ (fun _ h => h) hm

theorem execStatus_canonical (hm : s.mem.wf = true) : ReachesCanonical (execStatus m tag body s) :=
  commandStep_canonical _ _ _ _ _ (fun _ h => h) hm

theorem execClaim_canonical (hm : s.mem.wf = true) : ReachesCanonical (execClaim m tag body s) := by
  unfold execClaim
  exact commandStep_canonical _ _ _ _ _ (fun t h => by (repeat' split) <;> simpa using h) hm

theorem execRenew_canonical (hm : s.mem.wf = true) : ReachesCanonical (execRenew m tag body s) :=
  commandStep_canonical _ _ _ _ _ (fun _ h => h) hm

theorem execRelease_canonical (hm : s.mem.wf = true) : ReachesCanonical (execRelease m tag body s) :=
  commandStep_canonical _ _ _ _ _ (fun _ h => by simpa using h) hm

theorem execHandover_canonical (hm : s.mem.wf = true) : ReachesCanonical (execHandover m tag body s) := by
  unfold execHandover
  exact commandStep_canonical _ _ _ _ _ (fun _ h => by rw [Reply.ok_state]; split <;> simpa using h) hm

theorem execTrustSet_canonical (hm : s.mem.wf = true) : ReachesCanonical (execTrustSet m tag body s) := by
  unfold execTrustSet
  exact commandStep_canonical _ _ _ _ _ (fun _ h => h) hm

theorem settle_canonical (p : Prop) [Decidable p] (hm : s.mem.wf = true) :
    ReachesCanonical (.next (if p then s.settleOwner else s)) := by
  split <;> simpa using hm

theorem execSpdmSession_canonical (endpoint : Nat) (passed : ChainProof) (time : Nat) (hm : s.mem.wf = true) :
    ReachesCanonical (execSpdmSession endpoint passed time s) := by
  unfold execSpdmSession
  rw [reachesCanonical_next]
  (repeat' split) <;> simp [hm]

theorem execSessionEnd_canonical (hm : s.mem.wf = true) : ReachesCanonical (execSessionEnd m s) := by
  refine reachesCanonical_ite_fault ((reachesCanonical_next _).2 ?_)
  split <;> simpa using hm

theorem execMeasurementRetrieval_canonical (hm : s.mem.wf = true) : ReachesCanonical (execMeasurementRetrieval m s) := by
  refine reachesCanonical_ite_fault ((reachesCanonical_next _).2 ?_)
  (repeat' split) <;> simp [hm]

/-! ### Domains, windows and queues (R349 to R352, R390, R401 to R403) -/

theorem execDomainSet_canonical (hm : s.mem.wf = true) : ReachesCanonical (execDomainSet m tag body s) := by
  unfold execDomainSet
  exact commandStep_canonical _ _ _ _ _ (fun _ h => by dsimp only; split <;> simpa using h) hm

theorem execDomainClear_canonical (hm : s.mem.wf = true) : ReachesCanonical (execDomainClear m tag body s) := by
  unfold execDomainClear
  exact commandStep_canonical _ _ _ _ _ (fun _ h => by split <;> simpa using h) hm

theorem execWindowSet_canonical (hm : s.mem.wf = true) : ReachesCanonical (execWindowSet m tag body s) :=
  commandStep_canonical _ _ _ _ _ (fun _ h => h) hm

theorem execWindowClear_canonical (hm : s.mem.wf = true) : ReachesCanonical (execWindowClear m tag body s) := by
  unfold execWindowClear
  exact commandStep_canonical _ _ _ _ _ (fun _ h => h) hm

theorem execMemRead_canonical (hm : s.mem.wf = true) : ReachesCanonical (execMemRead m tag body s) := by
  refine reachesCanonical_ite_fault ((reachesCanonical_next _).2 ?_)
  split
  · simpa using hm
  · exact State.command_wf _ _ _ _ _ (fun _ h => by (repeat' split) <;> exact h) hm

theorem execQueueSet_canonical (hm : s.mem.wf = true) : ReachesCanonical (execQueueSet m tag body s) := by
  unfold execQueueSet
  exact commandStep_canonical _ _ _ _ _ (fun _ h => by dsimp only; (repeat' split) <;> simpa using h) hm

theorem execQueueClear_canonical (hm : s.mem.wf = true) : ReachesCanonical (execQueueClear m tag body s) := by
  unfold execQueueClear
  exact commandStep_canonical _ _ _ _ _ (fun _ h => h) hm

theorem execDoorbell_canonical (hm : s.mem.wf = true) : ReachesCanonical (execDoorbell m tag body s) := by
  unfold execDoorbell
  exact commandStep_canonical _ _ _ _ _ (fun _ h => by simp [h]) hm

theorem execKill_canonical (hm : s.mem.wf = true) : ReachesCanonical (execKill m tag body s) :=
  commandStep_canonical _ _ _ _ _ (fun _ h => by split <;> simp [h]) hm

/-! ### Keys, the fabric and the debug locks (R403, R427, R442) -/

theorem execKeyLoad_canonical (hm : s.mem.wf = true) : ReachesCanonical (execKeyLoad m tag body s) := by
  unfold execKeyLoad
  exact commandStep_canonical _ _ _ _ _ (fun _ h => h) hm

theorem execKeyClear_canonical (hm : s.mem.wf = true) : ReachesCanonical (execKeyClear m tag body s) := by
  unfold execKeyClear
  exact commandStep_canonical _ _ _ _ _ (fun _ h => h) hm

theorem execFabricJoin_canonical (hm : s.mem.wf = true) : ReachesCanonical (execFabricJoin m tag body s) := by
  unfold execFabricJoin
  exact commandStep_canonical _ _ _ _ _ (fun _ h => State.join_wf _ _ _ _ h) hm

theorem execFabricLeave_canonical (hm : s.mem.wf = true) : ReachesCanonical (execFabricLeave m tag body s) :=
  commandStep_canonical _ _ _ _ _ (fun _ h => by simpa using h) hm

theorem execFabricBind_canonical (hm : s.mem.wf = true) : ReachesCanonical (execFabricBind m tag body s) := by
  unfold execFabricBind
  exact commandStep_canonical _ _ _ _ _ (fun _ h => h) hm

theorem execDebugUnlock_canonical (hm : s.mem.wf = true) : ReachesCanonical (execDebugUnlock m tag body s) := by
  unfold execDebugUnlock
  exact commandStep_canonical _ _ _ _ _ (fun _ h => by (repeat' split) <;> simp [h]) hm

theorem execDebugLock_canonical (hm : s.mem.wf = true) : ReachesCanonical (execDebugLock m tag body s) := by
  unfold execDebugLock
  exact commandStep_canonical _ _ _ _ _ (fun _ h => by simpa using h) hm

theorem execHealthRead_canonical (hm : s.mem.wf = true) : ReachesCanonical (execHealthRead m tag body s) := by
  unfold execHealthRead
  exact commandStep_canonical _ _ _ _ _ (fun _ h => h) hm

/-! ### The debug path, dumps and reset (R418 to R426) -/

theorem execDbgHalt_canonical (hm : s.mem.wf = true) : ReachesCanonical (execDbgHalt m tag body s) := by
  unfold execDbgHalt
  obtain ⟨c, k⟩ := (ctxOfBody body).getD (0, 0)
  refine reachesCanonical_ite_fault ?_
  dsimp only
  split
  · simpa using hm
  · exact (reachesCanonical_next _).2 (State.command_wf _ _ _ _ _ (fun _ h => by simpa using h) hm)

/-- A command that lets a halted context go, where it may. -/
theorem keepsReply_dbgResume (c k : Nat) {after : State → State} (hafter : ∀ t, (after t).mem = t.mem) :
    KeepsReply fun s => if !(s.ctxAt c k).halted then ⟨9, [], s⟩
      else match s.dbgResume c k with
        | some t => .ok (after t)
        | none => .bad s := by
  intro s h
  dsimp only
  split
  · exact h
  · split
    case h_1 e => simpa [hafter, State.dbgResume_mem e] using h
    case h_2 => exact h

theorem execDbgResume_canonical (hm : s.mem.wf = true) : ReachesCanonical (execDbgResume m tag body s) := by
  unfold execDbgResume
  exact commandStep_canonical _ _ _ _ _ (keepsReply_dbgResume _ _ fun _ => rfl) hm

theorem execDbgStep_canonical (hm : s.mem.wf = true) : ReachesCanonical (execDbgStep m tag body s) := by
  unfold execDbgStep
  exact commandStep_canonical _ _ _ _ _ (keepsReply_dbgResume _ _ fun t => t.modCtxAt_mem _ _ _) hm

theorem execDbgRead_canonical (hm : s.mem.wf = true) : ReachesCanonical (execDbgRead m tag body s) := by
  unfold execDbgRead
  exact commandStep_canonical _ _ _ _ _ (fun _ h => by dsimp only; (repeat' split) <;> simpa using h) hm

theorem execDbgWrite_canonical (hm : s.mem.wf = true) : ReachesCanonical (execDbgWrite m tag body s) := by
  unfold execDbgWrite
  exact commandStep_canonical _ _ _ _ _ (fun _ h => by dsimp only; (repeat' split) <;> simp [h]) hm

theorem execDumpRead_canonical (hm : s.mem.wf = true) : ReachesCanonical (execDumpRead m tag body s) := by
  unfold execDumpRead
  exact commandStep_canonical _ _ _ _ _ (fun _ h => h) hm

theorem execDumpClear_canonical (hm : s.mem.wf = true) : ReachesCanonical (execDumpClear m tag body s) := by
  unfold execDumpClear
  exact commandStep_canonical _ _ _ _ _ (fun _ h => h) hm

theorem execReset_canonical (hm : s.mem.wf = true) : ReachesCanonical (execReset m tag body s) := by
  have hanswered := State.command_wf m 0x7E tag .owner body.isEmpty (go := Reply.ok) (fun _ h => h) hm
  unfold execReset
  extract_lets settled takes answered
  refine reachesCanonical_ite_fault ((reachesCanonical_next _).2 ?_)
  split
  · simpa using hanswered
  · exact hanswered

/-! ### Windows and commands by SEND (R398 to R404) -/

/-- What a command's code and body call for keeps memory canonical, whichever it is. -/
theorem commandOf_canonical {code : Nat} {go : State → Res} (h : commandOf m code tag body = some go) (hm : s.mem.wf = true) :
    ReachesCanonical (go s) := by
  unfold commandOf at h
  split at h <;> cases h
  case h_1 => exact execCapSet_canonical m tag body hm
  case h_2 => exact execCapGet_canonical m tag body hm
  case h_3 => exact execClaim_canonical m tag body hm
  case h_4 => exact execRenew_canonical m tag body hm
  case h_5 => exact execRelease_canonical m tag body hm
  case h_6 => exact execHandover_canonical m tag body hm
  case h_7 => exact execTrustSet_canonical m tag body hm
  case h_8 => exact execDomainSet_canonical m tag body hm
  case h_9 => exact execDomainClear_canonical m tag body hm
  case h_10 => exact execWindowSet_canonical m tag body hm
  case h_11 => exact execWindowClear_canonical m tag body hm
  case h_12 => exact execQueueSet_canonical m tag body hm
  case h_13 => exact execQueueClear_canonical m tag body hm
  case h_14 => exact execDoorbell_canonical m tag body hm
  case h_15 => exact execKill_canonical m tag body hm
  case h_16 => exact execKeyLoad_canonical m tag body hm
  case h_17 => exact execKeyClear_canonical m tag body hm
  case h_18 => exact execFabricJoin_canonical m tag body hm
  case h_19 => exact execFabricLeave_canonical m tag body hm
  case h_20 => exact execFabricBind_canonical m tag body hm
  case h_21 => exact execDebugUnlock_canonical m tag body hm
  case h_22 => exact execDebugLock_canonical m tag body hm
  case h_23 => exact execDbgHalt_canonical m tag body hm
  case h_24 => exact execDbgResume_canonical m tag body hm
  case h_25 => exact execDbgStep_canonical m tag body hm
  case h_26 => exact execDbgRead_canonical m tag body hm
  case h_27 => exact execDbgWrite_canonical m tag body hm
  case h_28 => exact execStatus_canonical m tag body hm
  case h_29 => exact execMemRead_canonical m tag body hm
  case h_30 => exact execDumpRead_canonical m tag body hm
  case h_31 => exact execDumpClear_canonical m tag body hm
  case h_32 => exact execHealthRead_canonical m tag body hm
  case h_33 => exact execReset_canonical m tag body hm

theorem execHostCommandSend_canonical (q : QueuePair) (msg : List Byte) (hm : s.mem.wf = true) :
    ReachesCanonical (execHostCommandSend q msg s) := by
  refine State.onPair_canonical _ _ _ (fun t ht => ?_) hm
  dsimp only
  split
  · simp [ht]
  · split
    · exact (reachesCanonical_next _).2 (State.command_wf _ _ _ _ _ (fun _ h => h) ht)
    · split
      case h_1 h => exact commandOf_canonical _ _ _ h ht
      case h_2 => exact (reachesCanonical_next _).2 (State.command_wf _ _ _ _ _ (fun _ h => h) hm)

theorem execUnsupportedOption_canonical (path : UnsupportedPath) (code : Nat) (hm : s.mem.wf = true) :
    ReachesCanonical (execUnsupportedOption path code s) := by
  cases path
  case option overHost =>
    simp only [execUnsupportedOption, reachesCanonical_next]
    split <;> exact hm
  case request q qp =>
    refine reachesCanonical_ite_fault ((reachesCanonical_next _).2 ?_)
    split <;> exact hm
  case command tag =>
    simp only [execUnsupportedOption, reachesCanonical_next]
    split
    · exact hm
    · exact State.command_wf _ _ _ _ _ (fun _ h => h) hm

theorem execRdmaWrite_canonical (qp rkey offset : Nat) (data : List Byte) (hm : s.mem.wf = true) :
    ReachesCanonical (execRdmaWrite m qp rkey offset data s) := by
  refine reachesCanonical_ite_fault (State.onPair_canonical _ _ _ (fun t ht => ?_) hm)
  rw [reachesCanonical_next]
  split <;> simp [ht]

theorem execRdmaRead_canonical (q : QueuePair) (rkey offset len : Nat) (hm : s.mem.wf = true) :
    ReachesCanonical (execRdmaRead q rkey offset len s) := by
  refine reachesCanonical_ite_fault (State.onPair_canonical _ _ _ (fun t ht => ?_) hm)
  rw [reachesCanonical_next]
  split <;> simpa using ht

/-! ### Alarms and failures (R420 to R432) -/

theorem execTamperDetect_canonical (kind : TamperKind) (time : Nat) (hm : s.mem.wf = true) :
    ReachesCanonical (execTamperDetect kind time s) := by
  unfold execTamperDetect
  rw [reachesCanonical_next]
  cases kind <;> exact State.levelTwo_wf _ hm

theorem execAuthLockoutExpiry_canonical (endpoint time : Nat) (hm : s.mem.wf = true) :
    ReachesCanonical (execAuthLockoutExpiry endpoint time s) := by
  unfold execAuthLockoutExpiry
  rw [reachesCanonical_next]
  split <;> exact hm

theorem execFatalError_canonical (kind : FatalKind) (time : Nat) (hm : s.mem.wf = true) :
    ReachesCanonical (execFatalError kind time s) := (reachesCanonical_next _).2 (State.fatalEnd_wf _ hm)

end

end Sys2Proof.Machine
end

section
/-! SUPPORT. Whatever the device does next keeps memory in its canonical form (log entry 2): every instruction, the bundle that it
issues, and the step that picks it. -/

namespace Sys2Proof.Machine

variable {s : State}

/-- An instruction of a slot reaches canonical memory, by its meaning. -/
theorem exec_canonical_of_slot {i : Instr} {m : Meaning} (h : slotMeaning i s = some m) (hm : s.mem.wf = true) :
    ReachesCanonical (exec i s) := by
  have hkeeps : KeepsMeaning (some m) := h ▸ slotMeaning_keeps hm
  rw [exec_slot h]
  exact State.run_ok s m hkeeps hm

theorem exec_canonical (i : Instr) (hm : s.mem.wf = true) : ReachesCanonical (exec i s) := by
  cases i
  case nop => exact (reachesCanonical_next s).2 hm
  case bundleFetch c k => exact execBundleFetch_canonical c k hm
  case resultLanding c k => exact ctxStep_canonical c k _ (by simp) hm
  case cellResultLanding c k => exact ctxStep_canonical c k _ (by simp) hm
  case mmaStep c k n => exact ctxStep_canonical c k _ (by simp) hm
  case streamRowRead c k n => exact ctxStep_canonical c k _ (by simp) hm
  case mloadPerform c k n => exact ctxStep_canonical c k _ (by simp) hm
  case fragmentArrival c k => exact ctxStep_canonical c k _ rfl hm
  case expressArrival n => exact execExpressArrival_canonical n hm
  case handlePublish c k h => exact ctxStep_canonical c k _ (by simp) hm
  case trapEntry c k => exact ctxStep_canonical c k _ (by simp) hm
  case layerWakeDone => exact reachesCanonical_ite_fault ((reachesCanonical_next _).2 hm)
  case groupWakeDone => exact reachesCanonical_ite_fault ((reachesCanonical_next _).2 hm)
  case layerPowerChange c => exact execLayerPowerChange_canonical c hm
  case refresh c tower group => exact execRefresh_canonical c tower group hm
  case tempReading => exact reachesCanonical_ite_fault ((reachesCanonical_next _).2 hm)
  case retentionGuard c k time => exact execRetentionGuard_canonical c k time hm
  case deferralExpiry => exact reachesCanonical_ite_fault ((reachesCanonical_next _).2 hm)
  case selfTest e failed time => exact execSelfTest_canonical e failed time hm
  case copyOpStart c e => exact execCopyOpStart_canonical c e hm
  case columnRowWrite c e => exact execColumnRowWrite_canonical c e hm
  case copyOpComplete c e => exact execCopyOpComplete_canonical c e hm
  case copyOpError c e => exact execCopyOpError_canonical c e hm
  case gatherRowFill c => exact execGatherRowFill_canonical c hm
  case xputDelivery n => exact execXputDelivery_canonical n hm
  case batonDelivery n => exact execBatonDelivery_canonical n hm
  case judgeApply c k => exact execJudgeApply_canonical c k hm
  case graphCancel l => exact execGraphCancel_canonical l hm
  case scbaseWrite | curstWrite | evflagsWrite | tsaveWrite | qbellWrite | stcfgWrite | ewgrantWrite =>
    exact State.writeStep_canonical _ _ _ _ hm
  case rgnWrite c k n v => exact execRgnWrite_canonical c k n v hm
  case sqgeomWrite c k v => exact execSqgeomWrite_canonical c k v hm
  case evstatWrite c v => exact execEvstatWrite_canonical c v hm
  case tcauseRead | retriskRead | engfltRead | errlastRead => exact State.readStep_canonical _ _ _ _ hm
  case sliceBoundary time => exact execSliceBoundary_canonical time hm
  case goSignal l => exact execGoSignal_canonical l hm
  case placementFail l cause => exact execPlacementFail_canonical l cause hm
  case drainDone l => exact execDrainDone_canonical l hm
  case checkpointDone l => exact execCheckpointDone_canonical l hm
  case killComplete l => exact execKillComplete_canonical l hm
  case watchdogExpiry l time => exact execWatchdogExpiry_canonical l time hm
  case watchdogKill l time => exact execWatchdogKill_canonical l time hm
  case contextRetire c k => exact execContextRetire_canonical c k hm
  case launchRetire l => exact execLaunchRetire_canonical l hm
  case issueSlotTimeout c => exact execIssueSlotTimeout_canonical c hm
  case governorStall c => exact execGovernorStall_canonical c hm
  case controlInterval reqs watts time => exact execControlInterval_canonical reqs watts time hm
  case railChangeEnd cluster => exact execRailChangeEnd_canonical cluster hm
  case nocFreqStep => exact reachesCanonical_ite_fault ((reachesCanonical_next _).2 hm)
  case leaseExpiry | handoverTimeout => exact settle_canonical _ hm
  case spdmSession endpoint passed time => exact execSpdmSession_canonical endpoint passed time hm
  case sessionEnd m => exact execSessionEnd_canonical m hm
  case rdmaWrite m qp rkey offset data => exact execRdmaWrite_canonical m qp rkey offset data hm
  case rdmaRead q rkey offset len => exact execRdmaRead_canonical q rkey offset len hm
  case hostCommandSend q msg => exact execHostCommandSend_canonical q msg hm
  case flitReceive port seq crcOk w => exact execFlitReceive_canonical port seq crcOk w hm
  case flitAck port seq nak err => exact execFlitAck_canonical port seq nak err hm
  case laneLoss port lane => exact execLaneLoss_canonical port lane hm
  case portTestDone port errors => exact execPortTestDone_canonical port errors hm
  case portRejoin port => exact execPortRejoin_canonical port hm
  case linkLost c e => exact execLinkLost_canonical c e hm
  case capSet m tag body => exact execCapSet_canonical m tag body hm
  case capGet m tag body => exact execCapGet_canonical m tag body hm
  case claim m tag body => exact execClaim_canonical m tag body hm
  case renew m tag body => exact execRenew_canonical m tag body hm
  case release m tag body => exact execRelease_canonical m tag body hm
  case handover m tag body => exact execHandover_canonical m tag body hm
  case trustSet m tag body => exact execTrustSet_canonical m tag body hm
  case domainSet m tag body => exact execDomainSet_canonical m tag body hm
  case domainClear m tag body => exact execDomainClear_canonical m tag body hm
  case windowSet m tag body => exact execWindowSet_canonical m tag body hm
  case windowClear m tag body => exact execWindowClear_canonical m tag body hm
  case queueSet m tag body => exact execQueueSet_canonical m tag body hm
  case queueClear m tag body => exact execQueueClear_canonical m tag body hm
  case doorbell m tag body => exact execDoorbell_canonical m tag body hm
  case kill m tag body => exact execKill_canonical m tag body hm
  case keyLoad m tag body => exact execKeyLoad_canonical m tag body hm
  case keyClear m tag body => exact execKeyClear_canonical m tag body hm
  case fabricJoin m tag body => exact execFabricJoin_canonical m tag body hm
  case fabricLeave m tag body => exact execFabricLeave_canonical m tag body hm
  case fabricBind m tag body => exact execFabricBind_canonical m tag body hm
  case debugUnlock m tag body => exact execDebugUnlock_canonical m tag body hm
  case debugLock m tag body => exact execDebugLock_canonical m tag body hm
  case status m tag body => exact execStatus_canonical m tag body hm
  case memRead m tag body => exact execMemRead_canonical m tag body hm
  case dumpRead m tag body => exact execDumpRead_canonical m tag body hm
  case dumpClear m tag body => exact execDumpClear_canonical m tag body hm
  case healthRead m tag body => exact execHealthRead_canonical m tag body hm
  case reset m tag body => exact execReset_canonical m tag body hm
  case dbgHalt m tag body => exact execDbgHalt_canonical m tag body hm
  case dbgResume m tag body => exact execDbgResume_canonical m tag body hm
  case dbgStep m tag body => exact execDbgStep_canonical m tag body hm
  case dbgRead m tag body => exact execDbgRead_canonical m tag body hm
  case dbgWrite m tag body => exact execDbgWrite_canonical m tag body hm
  case tamperDetect kind time => exact execTamperDetect_canonical kind time hm
  case glitchRecovered => exact (reachesCanonical_next _).2 (State.levelOne_wf _ hm)
  case authLockoutExpiry endpoint time => exact execAuthLockoutExpiry_canonical endpoint time hm
  case fatalError kind time => exact execFatalError_canonical kind time hm
  case filzanWatchdogFail => exact (reachesCanonical_next _).2 (State.fatalEnd_wf _ hm)
  case powerOnReset => exact (reachesCanonical_next _).2 hm
  case unsupportedOption path code => exact execUnsupportedOption_canonical path code hm
  case measurementRetrieval m => exact execMeasurementRetrieval_canonical m hm
  all_goals exact exec_canonical_of_slot rfl hm

/-! ### The bundle in issue and the step (R47, R49, log entry 6) -/

/-- Each instruction, run so, reaches canonical memory from canonical memory. -/
def KeepsCanonical (ex : Instr → State → Res) : Prop := ∀ i s, s.mem.wf = true → ReachesCanonical (ex i s)

theorem unlessKept_canonical {r : Res} (hr : ReachesCanonical r) (hm : s.mem.wf = true) : ReachesCanonical (s.unlessKept r) := by
  unfold State.unlessKept
  split
  case h_1 t =>
    have ht : t.mem.wf = true := (reachesCanonical_next t).1 hr
    split
    · exact hr
    · split
      · rw [reachesCanonical_next]
        split
        · exact hm
        · exact ht
      · exact hr
  case h_2 => exact hr

section
variable {ex : Instr → State → Res} (hex : KeepsCanonical ex)
include hex

theorem runSlots_canonical (slots : List (Nat × Instr)) (hm : s.mem.wf = true) : ReachesCanonical (runSlots ex slots s) := by
  induction slots generalizing s with
  | nil => exact (reachesCanonical_next s).2 hm
  | cons p rest ih =>
    obtain ⟨n, i⟩ := p
    unfold runSlots
    split
    case h_1 t h =>
      refine ih (hex i _ ?_ t h)
      exact hm
    case h_2 => exact reachesCanonical_fault _
    case h_3 => exact fun _ h => nomatch h

theorem runLast_canonical (hm : s.mem.wf = true) : ReachesCanonical (runLast ex s) := by
  unfold runLast
  split
  · split
    · exact (reachesCanonical_next s).2 hm
    · exact runSlots_canonical hex _ hm
  · exact (reachesCanonical_next s).2 hm

theorem runBundle_canonical (hm : s.mem.wf = true) : ReachesCanonical (runBundle ex s) := by
  unfold runBundle
  split
  · exact (reachesCanonical_next s).2 hm
  · split
    · split
      case h_1 t h =>
        have ht : t.mem.wf = true := runSlots_canonical hex _ hm t h
        split
        case h_1 u h' =>
          have hu : u.mem.wf = true := runLast_canonical hex ht u h'
          exact (reachesCanonical_next _).2 (by simpa using hu)
        case h_2 h' => exact fun u hu => (h' u hu).elim
      case h_2 h => exact fun t ht => (h t ht).elim
    · exact (reachesCanonical_next s).2 hm

theorem occur_canonical (i : Instr) (hm : s.mem.wf = true) : ReachesCanonical (occur ex i s) := by
  unfold occur
  split
  case h_1 t h => exact runBundle_canonical hex (hex i s hm t h)
  case h_2 h => exact fun t ht => (h t ht).elim

theorem stepWith_canonical (hm : s.mem.wf = true) : ReachesCanonical (stepWith ex s) := by
  unfold stepWith
  split
  · exact occur_canonical hex _ hm
  · split
    · exact unlessKept_canonical (occur_canonical hex _ hm) hm
    · split
      case h_1 t h =>
        have ht : t.mem.wf = true := occur_canonical hex _ hm t h
        rw [reachesCanonical_next]
        split <;> exact ht
      case h_2 h => exact fun t ht => (h t ht).elim

end

end Sys2Proof.Machine
end

section
/-! SUPPORT. The statements of memory's canonical form, from the rule that every instruction keeps it. -/

namespace Sys2Proof.Machine

/-- Settles O58, from the rule that whatever instruction is carried out keeps memory canonical: every write goes by `writeBytes`. -/
theorem memoryCanonicalStep : Obligations.MemoryCanonicalStep := by
  intro s t hm h
  exact stepWith_canonical (fun i _ => exec_canonical i) hm t h

/-- Settles O59, by evaluating the memory after reset, which lists no byte. -/
theorem memoryCanonicalReset : Obligations.MemoryCanonicalReset := by
  unfold Obligations.MemoryCanonicalReset
  decide

end Sys2Proof.Machine
end

section
/-! SUPPORT. The rules of the operations that the starter's events share: what a device write leaves unchanged (R28, R351), cores
freed and halted (R360, R365), and launches read back after a change. -/

namespace Sys2Proof.Machine

/-! ### What a device write changes (R28, R351) -/

/-- Two states that may differ in what memory holds, and in nothing else. -/
def OnlyMemory (s t : State) : Prop := ∃ m b, t = { s with mem := m, badMem := b }

section
variable {s t u : State}

theorem OnlyMemory.refl (s : State) : OnlyMemory s s := ⟨s.mem, s.badMem, rfl⟩

theorem OnlyMemory.trans (h : OnlyMemory s t) (h' : OnlyMemory t u) : OnlyMemory s u := by
  obtain ⟨m, b, rfl⟩ := h
  obtain ⟨m', b', rfl⟩ := h'
  exact ⟨m', b', rfl⟩

theorem OnlyMemory.cores (h : OnlyMemory s t) : t.cores = s.cores := by
  obtain ⟨m, b, rfl⟩ := h
  rfl

theorem OnlyMemory.launches (h : OnlyMemory s t) : t.launches = s.launches := by
  obtain ⟨m, b, rfl⟩ := h
  rfl

theorem OnlyMemory.clock (h : OnlyMemory s t) : t.clock = s.clock := by
  obtain ⟨m, b, rfl⟩ := h
  rfl

theorem OnlyMemory.ingress (h : OnlyMemory s t) : t.ingress = s.ingress := by
  obtain ⟨m, b, rfl⟩ := h
  rfl

theorem translate_device (a : Accessor) (ha : a.core = none) (va : Nat) : (s.translate a va).2 = s := by
  unfold State.translate
  rw [ha]
  split <;> rfl

theorem translateAll_device {a : Accessor} (ha : a.core = none) {need : Need} {ps : List (Nat × Nat)}
    {r : Except AccErr (List (Loc × Nat × Word))} (e : s.translateAll a need ps = (r, t)) : t = s := by
  have hkept : (s.translateAll a need ps).2 = s := by
    unfold State.translateAll
    extract_lets step
    have hfold : (ps.foldl step (.ok [], s)).2 = s := by
      refine foldl_inv (fun acc : Except AccErr (List (Loc × Nat × Word)) × State => acc.2 = s) _ (fun acc p h => ?_) _ _ rfl
      obtain ⟨q, u⟩ := acc
      obtain rfl : u = s := h
      simp only [step]
      cases q with
      | error e => rfl
      | ok xs =>
        dsimp only
        split
        case h_1 e => simpa [e] using translate_device (s := u) a ha p.1
        case h_2 e => simpa [e] using translate_device (s := u) a ha p.1
    split
    case h_1 e => rwa [e] at hfold
    case h_2 e =>
      rw [e] at hfold
      split <;> exact hfold
  rw [e] at hkept
  exact hkept

theorem writeLoc_onlyMemory (s : State) (l : Loc) (bs : List Byte) : OnlyMemory s (s.writeLoc l bs) := by
  cases l with
  | mem pa => exact ⟨_, _, rfl⟩
  | counter => exact .refl s

/-- A write that the device itself makes changes memory alone: it installs no translation and leaves no record. -/
theorem writeGlobal_onlyMemory {dom va : Nat} {need : Need} {bs : List Byte}
    (h : s.writeGlobal (deviceClient dom) need va bs = (.ok t, u)) : OnlyMemory s t := by
  unfold State.writeGlobal at h
  split at h
  case h_1 => cases h
  case h_2 xs v e =>
    obtain rfl := translateAll_device rfl e
    simp only [State.recordAll, deviceClient, Prod.mk.injEq, Except.ok.injEq] at h
    obtain ⟨rfl, -⟩ := h
    exact foldl_inv (fun acc : State × List Byte => OnlyMemory v acc.1) _
      (fun acc x h => h.trans (writeLoc_onlyMemory _ _ _)) _ _ (.refl v)

theorem deviceWrite_onlyMemory {dom va : Nat} {bs : List Byte} (h : s.deviceWrite dom va bs = some t) : OnlyMemory s t := by
  unfold State.deviceWrite at h
  split at h
  case h_1 e =>
    cases h
    exact writeGlobal_onlyMemory e
  case h_2 => cases h

theorem queueError_onlyMemory (s : State) (q ekind elaunch : Nat) (einfo eval : Word) :
    OnlyMemory s (s.queueError q ekind elaunch einfo eval) := by
  unfold State.queueError
  dsimp only
  cases h : s.deviceWrite _ _ _ with
  | none => exact .refl s
  | some t => exact deviceWrite_onlyMemory h

theorem statusAt_onlyMemory (s : State) (q dom va state : Nat) (cause : BitVec 16) :
    OnlyMemory s (s.statusAt q dom va state cause) := by
  unfold State.statusAt
  dsimp only
  split
  case h_1 h => exact deviceWrite_onlyMemory h
  case h_2 => exact queueError_onlyMemory s _ _ _ _ _

theorem setStatus_onlyMemory (s : State) (l state : Nat) (cause : BitVec 16) : OnlyMemory s (s.setStatus l state cause) := by
  unfold State.setStatus
  split
  · exact statusAt_onlyMemory s _ _ _ _ _
  · exact .refl s

@[simp] theorem setStatus_cores (s : State) (l state : Nat) (cause : BitVec 16) : (s.setStatus l state cause).cores = s.cores :=
  (setStatus_onlyMemory s l state cause).cores

@[simp] theorem setStatus_launches (s : State) (l state : Nat) (cause : BitVec 16) :
    (s.setStatus l state cause).launches = s.launches := (setStatus_onlyMemory s l state cause).launches

@[simp] theorem setStatus_ingress (s : State) (l state : Nat) (cause : BitVec 16) :
    (s.setStatus l state cause).ingress = s.ingress := (setStatus_onlyMemory s l state cause).ingress

theorem leBytes_eq_lowBytes (n : Nat) (w : Word) : leBytes n w.toNat = Claims.lowBytes n w := by
  unfold Claims.lowBytes
  generalize w.toNat = v
  induction n generalizing v with
  | zero => rfl
  | succ n ih => simp [leBytes, ih, List.range_succ_eq_map, Nat.pow_succ', Nat.div_div_eq_div_mul]

/-- The STATUS that can be written is what `setStatus` writes (R28). -/
theorem setStatus_of_withStatus {l state : Nat} {x : Launch} {cause : BitVec 16} (hl : s.launch? l = some x)
    (h : Claims.withStatus s x state cause = some u) : s.setStatus l state cause = u := by
  unfold Claims.withStatus at h
  rw [← leBytes_eq_lowBytes, ← Nat.shiftLeft_eq] at h
  simp only [State.setStatus, hl, State.statusAt, h]

/-! ### Host writes held for a region (R272) -/

theorem applyWrite_cores (s : State) (w : HostWrite) : (s.applyWrite w).cores = s.cores := by
  unfold State.applyWrite
  split
  case h_1 e => exact (writeGlobal_onlyMemory e).cores
  case h_2 => rfl

theorem applyWrite_launches (s : State) (w : HostWrite) : (s.applyWrite w).launches = s.launches := by
  unfold State.applyWrite
  split
  case h_1 e => exact (writeGlobal_onlyMemory e).launches
  case h_2 => rfl

@[simp] theorem openRegions_cores (s : State) (dom : Nat) : (s.openRegions dom).cores = s.cores := by
  unfold State.openRegions
  split
  · rfl
  · exact foldl_inv (fun t : State => t.cores = s.cores) _ (fun t w h => (applyWrite_cores t w).trans h) _ _ rfl

@[simp] theorem openRegions_launches (s : State) (dom : Nat) : (s.openRegions dom).launches = s.launches := by
  unfold State.openRegions
  split
  · rfl
  · exact foldl_inv (fun t : State => t.launches = s.launches) _ (fun t w h => (applyWrite_launches t w).trans h) _ _ rfl

/-- Where no host write is held for a domain, opening its regions writes nothing. -/
theorem openRegions_mem {dom : Nat} (h : ∀ w ∈ s.ingress, w.dom ≠ dom) : (s.openRegions dom).mem = s.mem := by
  have hnone : s.ingress.filter (fun w => w.dom == dom) = [] := List.filter_eq_nil_iff.2 fun w hw => by simpa using h w hw
  unfold State.openRegions State.applyHost
  split
  · rfl
  · simp only [hnone, List.foldl_nil]

end

/-! ### Launches read back (R360, R365) -/

section
variable {s : State} {l : Nat} {x : Launch}

theorem launch?_eq_of_launches {s t : State} (h : t.launches = s.launches) (l : Nat) : t.launch? l = s.launch? l := by
  simp [State.launch?, h]

theorem lookup_map_key (l : Nat) (x : Launch) (ps : List (Nat × Launch)) :
    (ps.map fun p => if p.1 = l then (l, x) else p).lookup l = (ps.lookup l).map fun _ => x := by
  induction ps with
  | nil => rfl
  | cons p ps ih =>
    obtain ⟨n, y⟩ := p
    by_cases h : n = l
    · simp [h]
    · simp [h, List.lookup_cons, ih, beq_eq_false_iff_ne.2 (Ne.symm h)]

theorem lookup_filter_key (l : Nat) (ps : List (Nat × Launch)) : (ps.filter fun p => p.1 != l).lookup l = none := by
  rw [List.lookup_eq_none_iff]
  intro p hp
  exact bne_iff_ne.2 (bne_iff_ne.1 (List.mem_filter.1 hp).2).symm

theorem launch?_setLaunch (h : (s.launch? l).isSome = true) (y : Launch) : (s.setLaunch l y).launch? l = some y := by
  obtain ⟨x, hx⟩ := Option.isSome_iff_exists.1 h
  exact (lookup_map_key l y s.launches).trans (congrArg (Option.map fun _ => y) hx)

theorem launch?_modLaunch (h : s.launch? l = some x) (f : Launch → Launch) : (s.modLaunch l f).launch? l = some (f x) := by
  simp only [State.modLaunch, h]
  exact launch?_setLaunch (by simp [h]) _

@[simp] theorem launch?_forget (s : State) (l : Nat) : (s.forget l).launch? l = none := by
  unfold State.forget
  exact lookup_filter_key l _

@[simp] theorem forget_cores (s : State) (l : Nat) : (s.forget l).cores = s.cores := by
  unfold State.forget State.keepEnded
  dsimp only [State.dropRecords, State.dropTraffic]
  split
  · split <;> rfl
  · rfl

@[simp] theorem forget_ingress (s : State) (l : Nat) : (s.forget l).ingress = s.ingress := by
  unfold State.forget State.keepEnded
  dsimp only [State.dropRecords, State.dropTraffic]
  split
  · split <;> rfl
  · rfl

@[simp] theorem releaseEvent_cores (s : State) : s.releaseEvent.cores = s.cores := rfl
@[simp] theorem releaseEvent_launches (s : State) : s.releaseEvent.launches = s.launches := rfl
@[simp] theorem releaseEvent_ingress (s : State) : s.releaseEvent.ingress = s.ingress := rfl

@[simp] theorem requeue_cores (s : State) (l : Nat) (toTail : Bool) : (s.requeue l toTail).cores = s.cores := by
  unfold State.requeue
  split <;> rfl

@[simp] theorem requeue_launches (s : State) (l : Nat) (toTail : Bool) : (s.requeue l toTail).launches = s.launches := by
  unfold State.requeue
  split <;> rfl

@[simp] theorem haltWaiting_launches (s : State) (x : Launch) : (s.haltWaiting x).launches = s.launches :=
  foldl_inv (fun t : State => t.launches = s.launches) _
    (fun t c h => foldl_inv (fun u : State => u.launches = s.launches) _ (fun u k h => by split; exacts [h, h]) _ _ h) _ _ rfl

end

/-! ### Cores freed and halted (R360, R365) -/

/-- What holds of the default and of each value that `f` gives holds of what a mapped table lists. -/
theorem get_map_of {α β : Type} {P : β → Prop} {d : β} {f : α → β} (hd : P d) (hf : ∀ v, P (f v)) (m : SMap α) (n : Nat) :
    P (get d (m.map fun p => (p.1, f p.2)) n) := by
  induction m with
  | nil => exact hd
  | cons p m ih =>
    simp only [List.map_cons, get]
    split
    · exact hf p.2
    · exact ih

/-- What a pass over cores gives to each core that it comes to, and takes from no other, all of them have after it. -/
theorem core_foldl_of_mem {P : Core → Prop} {f : State → Nat → State} (hset : ∀ t c, P ((f t c).core c))
    (hother : ∀ t {a c}, a ≠ c → (f t c).core a = t.core a) (cs : List Nat) (s : State) : ∀ c ∈ cs, P ((cs.foldl f s).core c) := by
  have hkept : ∀ (ds : List Nat) (t : State) (c : Nat), P (t.core c) → P ((ds.foldl f t).core c) := by
    intro ds t c h
    refine foldl_inv (fun u : State => P (u.core c)) f (fun u d hu => ?_) ds t h
    by_cases hd : c = d
    · exact hd ▸ hset u c
    · exact (hother u hd).symm ▸ hu
  induction cs generalizing s with
  | nil => simp
  | cons d ds ih =>
    intro c hc
    rcases List.mem_cons.1 hc with rfl | hc
    · exact hkept ds _ _ (hset s c)
    · exact ih _ c hc

/-- A core that holds no launch, and none of whose contexts is at work or has anything in flight. -/
def Core.Free (k : Core) : Prop :=
  k.launch = none ∧ ∀ n : Nat, (k.ctx n).run = .idle ∧ (k.ctx n).land = [] ∧ (k.ctx n).streams = [] ∧ (k.ctx n).pend = [] ∧
    (k.ctx n).issue = none ∧ (k.ctx n).judgeQ = []

/-- A core whose contexts are stopped with nothing in flight, and whose engines and gather unit are empty. -/
def Core.Halted (k : Core) : Prop :=
  k.gather = [] ∧ (∀ e : Nat, (k.engine e).run = none ∧ (k.engine e).queue = []) ∧
    ∀ n : Nat, (k.ctx n).run = .idle ∨
      ((k.ctx n).run = .stopped ∧ (k.ctx n).land = [] ∧ (k.ctx n).streams = [] ∧ (k.ctx n).pend = [])

theorem Core.settleLasting_ctxs_launch (clk : Nat) (k : Core) :
    (k.settleLasting clk).ctxs = k.ctxs ∧ (k.settleLasting clk).launch = k.launch := by
  refine foldl_inv (fun q : Core => q.ctxs = k.ctxs ∧ q.launch = k.launch) _ (fun q u h => ?_) _ _ ⟨rfl, rfl⟩
  unfold Core.applyLasting
  cases u
  case towerBank => dsimp only; split <;> exact h
  all_goals exact h

theorem Core.release_free (clk : Nat) (k : Core) : (k.release clk).Free := by
  unfold Core.release
  obtain ⟨hctxs, hlaunch⟩ := Core.settleLasting_ctxs_launch clk _
  refine ⟨hlaunch, fun n => ?_⟩
  unfold Core.ctx
  rw [hctxs]
  exact get_map_of (P := fun x : Ctx => x.run = .idle ∧ x.land = [] ∧ x.streams = [] ∧ x.pend = [] ∧ x.issue = none ∧ x.judgeQ = [])
    (by simp) (fun v => by simp [Ctx.release]) _ n

section
open Sys2Proof.Claims
variable {s t : State}

theorem freed_freeCores (s : State) (cs : List Nat) : Freed (s.freeCores cs) cs := by
  refine core_foldl_of_mem (P := Core.Free) (fun t c => ?_) (fun t a c h => State.core_setCore_other t h _) cs s
  rw [State.core_setCore_same]
  exact Core.release_free _ _

theorem freed_of_cores {cs : List Nat} (h : t.cores = s.cores) (hs : Freed s cs) : Freed t cs := by
  have hcore : ∀ c, t.core c = s.core c := fun c => by simp [State.core, h]
  intro c hc
  simpa [State.ctxAt, hcore] using hs c hc

@[simp] theorem freeCores_launches (s : State) (cs : List Nat) : (s.freeCores cs).launches = s.launches :=
  foldl_inv (fun t : State => t.launches = s.launches) (fun t c => t.setCore c ((t.core c).release t.clock)) (fun _ _ h => h) _ _ rfl

@[simp] theorem freeCores_ingress (s : State) (cs : List Nat) : (s.freeCores cs).ingress = s.ingress :=
  foldl_inv (fun t : State => t.ingress = s.ingress) (fun t c => t.setCore c ((t.core c).release t.clock)) (fun _ _ h => h) _ _ rfl

theorem Ctx.kill_halted (x : Ctx) :
    x.kill.run = .idle ∨ (x.kill.run = .stopped ∧ x.kill.land = [] ∧ x.kill.streams = [] ∧ x.kill.pend = []) := by
  unfold Ctx.kill
  split
  · exact .inl ‹_›
  · simp

theorem Core.killEngines_halted {k : Core} {ctxs : SMap Ctx} (h : k.ctxs = ctxs.map fun p => (p.1, p.2.kill)) :
    k.killEngines.Halted := by
  refine ⟨rfl, fun e => ?_, fun n => ?_⟩
  · exact get_map_of (P := fun x : Engine => x.run = none ∧ x.queue = []) (d := {}) (f := fun x => { x with queue := [], run := none })
      ⟨rfl, rfl⟩ (fun _ => ⟨rfl, rfl⟩) k.engines e
  · have hctxs : k.killEngines.ctxs = ctxs.map fun p => (p.1, p.2.kill) := h
    unfold Core.ctx
    rw [hctxs]
    exact get_map_of (P := fun x : Ctx => x.run = .idle ∨ (x.run = .stopped ∧ x.land = [] ∧ x.streams = [] ∧ x.pend = []))
      (d := {}) (.inl rfl) Ctx.kill_halted _ n

theorem halted_of_cores {cs : List Nat} (h : t.cores = s.cores) (hs : Halted s cs) : Halted t cs := by
  have hcore : ∀ c, t.core c = s.core c := fun c => by simp [State.core, h]
  intro c hc
  simpa [State.ctxAt, hcore] using hs c hc

end

end Sys2Proof.Machine
end

section
/-! SUPPORT. The starter's events, one lemma for each (R28, R36, R37, R96, R353, R354, R360, R364, R365, R371). -/

namespace Sys2Proof.Machine

open Sys2Proof.Claims

section
variable {s : State} {l : Nat} {x : Launch}

/-! ### Slices and go (R353, R36, R37) -/

theorem execSliceBoundary_early {time : Nat}
    (h : (s.tick time).clock < (s.tick time).starter.sliceEnd) : execSliceBoundary time s = .next (s.tick time) := by
  simp [execSliceBoundary, h]

theorem execSliceBoundary_due {time : Nat} (hf : s.mgmt.fatal = false)
    (h : (s.tick time).starter.sliceEnd ≤ (s.tick time).clock) : execSliceBoundary time s = .next (s.tick time).nextSlice := by
  have hfatal : (s.tick time).mgmt.fatal = false := hf
  simp [execSliceBoundary, hfatal, Nat.not_lt.2 h]

theorem nextSlice_eq (s : State) : s.nextSlice = { s with starter := { s.starter with
    sliceAt := s.starter.sliceEnd, slice := max 8 (s.starter.stcfg.toNat % 2 ^ 16) } }.arbitrate true := by
  simp [State.nextSlice, fieldN]

theorem execGoSignal_placed (hf : s.mgmt.fatal = false) (hl : s.launch? l = some x) (hp : x.phase = .placed) :
    execGoSignal l s = .next (s.go l x) := by
  simp [execGoSignal, hl, hp, hf]

theorem execGoSignal_other (hl : s.launch? l = some x) (hp : x.phase ≠ .placed) : execGoSignal l s = .next s := by
  simp [execGoSignal, hl, hp]

/-- A go of a launch whose graph was not cancelled meanwhile: its STATUS, its phase and its times. -/
theorem go_eq (hg : ∀ g, x.graph = some g → g.state ≠ 2) :
    s.go l x = (s.setStatus l 2 0).modLaunch l fun y => { y with phase := .running, runAt := s.clock, wdogAt := s.clock } := by
  unfold State.go
  cases h : x.graph with
  | none => simp
  | some g => simp [hg g h]

theorem go_of_withStatus {u : State} {y : Launch} (hl : s.launch? l = some x) (hg : ∀ g, x.graph = some g → g.state ≠ 2)
    (hu : withStatus s x 2 0 = some u) (hy : u.launch? l = some y) :
    (s.go l x).mem = u.mem ∧ (∀ c k : Nat, (s.go l x).ctxAt c k = u.ctxAt c k) ∧
      (s.go l x).launch? l = some { y with phase := .running, runAt := u.clock, wdogAt := u.clock } := by
  have hstatus := setStatus_of_withStatus hl hu
  have hclock : u.clock = s.clock := hstatus ▸ (setStatus_onlyMemory s l 2 0).clock
  rw [go_eq hg, hstatus, hclock]
  exact ⟨State.modLaunch_mem .., fun c k => by simp [State.ctxAt, State.core], launch?_modLaunch hy _⟩

/-! ### What a launch leaves (R36, R360, R365) -/

theorem killGraph_of_none (hl : s.launch? l = some x) (hg : x.graph = none) : s.killGraph l = s := by
  simp [State.killGraph, hl, hg]

/-- The memory of a launch whose STATUS is written while its cores are free: the STATUS alone. -/
theorem setStatus_freeCores_mem {st : Nat} {z : BitVec 16} {u : State} (hl : s.launch? l = some x)
    (hu : withStatus (s.freeCores x.cores) x st z = some u) : ((s.freeCores x.cores).setStatus l st z).mem = u.mem := by
  rw [setStatus_of_withStatus ((launch?_eq_of_launches (freeCores_launches _ _) l).trans hl) hu]

theorem execPlacementFail_failing {st : Nat} {z : BitVec 16} (hf : s.mgmt.fatal = false) (hl : s.launch? l = some x)
    (hp : x.phase = .failing st z) : execPlacementFail l z.toNat s =
      .next (((((s.killGraph l).freeCores x.cores).setStatus l st z).forget l).openRegions x.dom) := by
  simp [execPlacementFail, hl, hp, hf]

theorem execKillComplete_killing {st : Nat} {z : BitVec 16} (hf : s.mgmt.fatal = false) (hl : s.launch? l = some x)
    (hp : x.phase = .killing st z) : execKillComplete l s = .next (s.killDone l x st z) := by
  simp [execKillComplete, hl, hp, hf]

/-! ### Drains and checkpoints (R360, R371) -/

theorem execDrainDone_drained {tail : Bool} (hf : s.mgmt.fatal = false) (hl : s.launch? l = some x) (hp : x.phase = .draining tail)
    (h : ∀ q ∈ s.ctxsOf x, s.ctxDrained q.1 q.2 = true) : execDrainDone l s = .next (s.saveLaunch l tail).arbitratePoint := by
  have hall : (s.ctxsOf x).all (fun q => s.ctxDrained q.1 q.2) = true := List.all_eq_true.2 h
  simp only [execDrainDone, hl, hp, hall, hf]
  rfl

theorem execDrainDone_waits {tail : Bool} (hl : s.launch? l = some x) (hp : x.phase = .draining tail)
    (h : ∃ q ∈ s.ctxsOf x, s.ctxDrained q.1 q.2 = false) : execDrainDone l s = .next s := by
  have hall : (s.ctxsOf x).all (fun q => s.ctxDrained q.1 q.2) = false := List.all_eq_false.2 (by simpa using h)
  simp [execDrainDone, hl, hp, hall]

theorem execCheckpointDone_settled (hf : s.mgmt.fatal = false) (hl : s.launch? l = some x) (hp : x.phase = .checkpointing)
    (h : s.settledLaunch x = true) : execCheckpointDone l s = .next (s.saveLaunch l false).arbitratePoint := by
  simp [execCheckpointDone, hl, hp, h, hf]

theorem execCheckpointDone_waits (hl : s.launch? l = some x) (h : s.settledLaunch x = false) :
    execCheckpointDone l s = .next s := by
  simp [execCheckpointDone, hl, h]

/-- A launch that is saved: its cores are free, and it waits again with what they held. -/
theorem saveLaunch_saved (hl : s.launch? l = some x) (tail : Bool) : Freed (s.saveLaunch l tail) x.cores ∧
    ∃ y, (s.saveLaunch l tail).launch? l = some y ∧ y.phase = .queued ∧ y.cores = [] ∧ y.saved ≠ none := by
  simp only [State.saveLaunch, hl]
  generalize hfreed : State.freeCores _ x.cores = freed
  have hfree : Freed freed x.cores := hfreed ▸ freed_freeCores _ _
  have hlaunches : freed.launches = s.launches := hfreed ▸ (freeCores_launches _ _).trans (haltWaiting_launches s x)
  have hlisted : (freed.launch? l).isSome = true := by simp [launch?_eq_of_launches hlaunches, hl]
  have hqueued : ∀ y, (((freed.setLaunch l y).setStatus l 0 0).requeue l tail).launch? l = some y := fun y =>
    (launch?_eq_of_launches ((requeue_launches _ _ _).trans (setStatus_launches _ _ _ _)) l).trans (launch?_setLaunch hlisted y)
  exact ⟨freed_of_cores (by simp) hfree, _, hqueued _, rfl, rfl, Option.some_ne_none _⟩

/-! ### The watchdog (R364) -/

theorem execWatchdogExpiry_due {time : Nat} {n : State} (hn : n = s.tick time) (hl : n.launch? l = some x)
    (hruns : n.wdogRuns x = true) (hdue : x.wdogAt + n.wdogPeriod x ≤ n.clock) (hfirst : x.wdogSecond = false) :
    execWatchdogExpiry l time s = .next (n.wdogExpires l x) := by
  subst hn
  simp [execWatchdogExpiry, hl, hruns, hdue, hfirst]

theorem execWatchdogKill_due {time : Nat} {n : State} (hn : n = s.tick time) (hl : n.launch? l = some x)
    (hruns : n.wdogRuns x = true) (hdue : x.wdogAt + n.wdogPeriod x ≤ n.clock) (hsecond : x.wdogSecond = true) :
    execWatchdogKill l time s = .next (n.wdogKill l x) := by
  subst hn
  simp [execWatchdogKill, hl, hruns, hdue, hsecond]

/-- The watchdog runs in the three phases in which a launch is in state 2. -/
theorem phase_of_wdogRuns (h : s.wdogRuns x = true) :
    x.phase = .running ∨ (∃ tail, x.phase = .draining tail) ∨ x.phase = .checkpointing := by
  unfold State.wdogRuns at h
  cases hp : x.phase <;> simp_all

/-- A first expiry while the launch is already asked to stop: the second period begins. -/
theorem wdogExpires_leaving (hruns : s.wdogRuns x = true) (hp : x.phase ≠ .running) :
    s.wdogExpires l x = s.modLaunch l fun v => { v with wdogSecond := true, wdogAt := s.clock } := by
  obtain h | ⟨tail, h⟩ | h := phase_of_wdogRuns hruns
  · exact absurd h hp
  · simp [State.wdogExpires, h]
  · simp [State.wdogExpires, h]

theorem wdogExpires_room (hp : x.phase = .running) (hroom : s.roomToSave x = true) :
    s.wdogExpires l x =
      (s.requestDrain l true).modLaunch l fun v => { v with wdogSecond := true, wdogAt := (s.requestDrain l true).clock } := by
  simp [State.wdogExpires, hp, hroom]

theorem wdogExpires_noRoom (hp : x.phase = .running) (hroom : s.roomToSave x = false) :
    s.wdogExpires l x = s.wdogKill l x := by
  simp [State.wdogExpires, hp, hroom]

/-- A pass that changes contexts leaves each of them with what the change gives. -/
theorem ctxAt_foldl_of_mem {P : Ctx → Prop} {f : Ctx → Ctx} (hf : ∀ y, P (f y)) (qs : List (Nat × Nat)) (s : State) :
    ∀ q ∈ qs, P ((qs.foldl (fun (t : State) (q : Nat × Nat) => t.modCtxAt q.1 q.2 f) s).ctxAt q.1 q.2) := by
  have hone : ∀ (t : State) (r q : Nat × Nat), P (t.ctxAt q.1 q.2) ∨ q = r → P ((t.modCtxAt r.1 r.2 f).ctxAt q.1 q.2) := by
    intro t r q h
    by_cases hq : q = r
    · subst hq
      simpa using hf _
    · have hother : ¬ (q.1 = r.1 ∧ q.2 = r.2) := fun e => hq (Prod.ext e.1 e.2)
      simpa [State.modCtxAt, State.ctxAt_setCtxAt_other _ hother] using h.resolve_right hq
  have hkept : ∀ (rs : List (Nat × Nat)) (t : State) (q : Nat × Nat), P (t.ctxAt q.1 q.2) →
      P ((rs.foldl (fun (t : State) (q : Nat × Nat) => t.modCtxAt q.1 q.2 f) t).ctxAt q.1 q.2) := fun rs t q h =>
    foldl_inv (fun u : State => P (u.ctxAt q.1 q.2)) _ (fun u r hu => hone u r q (.inl hu)) rs t h
  induction qs generalizing s with
  | nil => simp
  | cons r rs ih =>
    intro q hq
    rcases List.mem_cons.1 hq with rfl | hq
    · exact hkept rs _ q (hone s q q (.inr rfl))
    · exact ih _ q hq

@[simp] theorem foldl_modCtxAt_launches (f : Ctx → Ctx) (qs : List (Nat × Nat)) (s : State) :
    (qs.foldl (fun (t : State) (q : Nat × Nat) => t.modCtxAt q.1 q.2 f) s).launches = s.launches :=
  foldl_inv (fun t : State => t.launches = s.launches) (fun t q => t.modCtxAt q.1 q.2 f) (fun _ _ h => h) qs s rfl

@[simp] theorem foldl_modCtxAt_clock (f : Ctx → Ctx) (qs : List (Nat × Nat)) (s : State) :
    (qs.foldl (fun (t : State) (q : Nat × Nat) => t.modCtxAt q.1 q.2 f) s).clock = s.clock :=
  foldl_inv (fun t : State => t.clock = s.clock) (fun t q => t.modCtxAt q.1 q.2 f) (fun _ _ h => h) qs s rfl

@[simp] theorem holdFrames_cores (s : State) (l : Nat) : (s.holdFrames l).cores = s.cores := by
  unfold State.holdFrames
  split
  · split <;> rfl
  · rfl

@[simp] theorem holdFrames_clock (s : State) (l : Nat) : (s.holdFrames l).clock = s.clock := by
  unfold State.holdFrames
  split
  · split <;> rfl
  · rfl

theorem launch?_holdFrames (hl : s.launch? l = some x) :
    ∃ fs, (s.holdFrames l).launch? l = some { x with frames := fs } := by
  unfold State.holdFrames
  rw [hl]
  dsimp only
  split
  · exact ⟨_, launch?_setLaunch (by simp [hl]) _⟩
  · exact ⟨x.frames, hl⟩

theorem requestDrain_spec (hl : s.launch? l = some x) (tail : Bool) :
    (∀ q ∈ s.ctxsOf x, ((s.requestDrain l tail).ctxAt q.1 q.2).drainReq = true) ∧ (s.requestDrain l tail).clock = s.clock ∧
      ∃ v, (s.requestDrain l tail).launch? l = some v ∧ v.phase = .draining tail := by
  simp only [State.requestDrain, hl]
  generalize hasks : List.foldl _ s (s.ctxsOf x) = asked
  have hasked : ∀ q ∈ s.ctxsOf x, (asked.ctxAt q.1 q.2).drainReq = true :=
    hasks ▸ ctxAt_foldl_of_mem (P := fun y => y.drainReq = true) (fun _ => rfl) _ s
  have hclock : asked.clock = s.clock := hasks ▸ foldl_modCtxAt_clock _ _ s
  have hlisted : asked.launch? l = some x := (launch?_eq_of_launches (hasks ▸ foldl_modCtxAt_launches _ _ s) l).trans hl
  obtain ⟨fs, hheld⟩ := launch?_holdFrames (launch?_modLaunch hlisted fun y => { y with phase := .draining tail })
  refine ⟨fun q hq => ?_, by simpa using hclock, _, hheld, rfl⟩
  simpa [State.ctxAt, State.core] using hasked q hq

theorem wdogExpires_room_spec (hl : s.launch? l = some x) (hp : x.phase = .running) (hroom : s.roomToSave x = true) :
    (∀ q ∈ s.ctxsOf x, ((s.wdogExpires l x).ctxAt q.1 q.2).drainReq = true) ∧ (s.wdogExpires l x).mem = s.mem ∧
      ∃ v, (s.wdogExpires l x).launch? l = some v ∧ v.phase = .draining true ∧ v.wdogSecond = true ∧ v.wdogAt = s.clock := by
  obtain ⟨hdrain, hclock, v, hv, hphase⟩ := requestDrain_spec hl true
  rw [wdogExpires_room hp hroom]
  refine ⟨fun q hq => ?_, by simp, _, launch?_modLaunch hv _, hphase, rfl, hclock⟩
  simpa [State.ctxAt, State.core] using hdrain q hq

/-- A kill of a launch that is in state 2: its phase, and its cores' contexts and engines stopped. -/
theorem beginKill_spec (hl : s.launch? l = some x)
    (hp : x.phase = .running ∨ (∃ tail, x.phase = .draining tail) ∨ x.phase = .checkpointing) (st : Nat) (z : BitVec 16) :
    ((s.beginKill l st z).launch? l).map (fun v => v.phase) = some (.killing st z) ∧ Halted (s.beginKill l st z) x.cores := by
  have hkills : ∀ (st' : Nat) (z' : BitVec 16), x.phase ≠ .killing st' z' ∧ x.phase ≠ .failing st' z' := by
    obtain h | ⟨_, h⟩ | h := hp <;> simp [h]
  unfold State.beginKill
  rw [hl]
  dsimp only
  split
  case h_1 h => exact absurd h (hkills _ _).1
  case h_2 h => exact absurd h (hkills _ _).2
  case h_3 =>
    refine ⟨?_, halted_of_cores (State.modLaunch_cores ..) ?_⟩
    · rw [launch?_modLaunch (x := x)]
      · rfl
      · refine (launch?_eq_of_launches (foldl_inv (fun t : State => t.launches = s.launches) _ (fun _ _ h => ?_) _ _ rfl) l).trans hl
        exact h
    · refine core_foldl_of_mem (P := Core.Halted) (fun t c => ?_) (fun t a c h => State.core_setCore_other t h _) _ s
      rw [State.core_setCore_same]
      exact Core.killEngines_halted rfl

theorem wdogRecord_onlyMemory (s : State) (x : Launch) : OnlyMemory s (s.wdogRecord x) := by
  unfold State.wdogRecord
  dsimp only
  split <;> exact queueError_onlyMemory s _ _ _ _ _

theorem wdogKill_spec (hl : s.launch? l = some x) (hruns : s.wdogRuns x = true) :
    ((s.wdogKill l x).launch? l).map (fun v => v.phase) = some (.killing 4 cWatchdog) ∧ Halted (s.wdogKill l x) x.cores :=
  beginKill_spec ((launch?_eq_of_launches (wdogRecord_onlyMemory s x).launches l).trans hl) (phase_of_wdogRuns hruns) _ _

/-! ### Retirement (R96, R365) -/

theorem execLaunchRetire_retires (hl : s.launch? l = some x)
    (hp : x.phase = .running ∨ x.phase = .checkpointing ∨ ∃ tail, x.phase = .draining tail) :
    execLaunchRetire l s = .next (if s.retires l x then s.retire l x else s) := by
  obtain h | h | ⟨_, h⟩ := hp <;> simp [execLaunchRetire, hl, h]

/-- A graph that holds nothing any more is not cancelled when its launch retires. -/
theorem retireGraph_of_empty (hl : s.launch? l = some x) (hg : ∀ g, x.graph = some g →
    if g.auth = 3 then ∀ st, st < g.stations → g.frontier st = closedLap else g.counts = []) : s.retireGraph l = s := by
  unfold State.retireGraph
  rw [hl]
  cases h : x.graph with
  | none => simp [h]
  | some g =>
    have hempty := hg g h
    by_cases ha : g.auth = 3
    · rw [if_pos ha] at hempty
      simpa [h, ha] using fun st hst hopen => absurd (hempty st hst) hopen
    · rw [if_neg ha] at hempty
      simp [h, ha, hempty]

theorem execContextRetire_quiet {c k : Nat} (hck : IsCtx c k) (hruns : s.unitsRun c = true) (hstop : (s.ctxAt c k).run = .stopped)
    (heng : (s.core c).enginesDone k = true) (hgather : ∀ g ∈ (s.core c).gather, g.ctx ≠ k) (hjudge : (s.ctxAt c k).judgeQ = []) :
    execContextRetire c k s = .next (withCtx s c k fun y => { y with run := .retired }) := by
  obtain ⟨hc, hk⟩ := hck
  have hpart : ¬ (Config.cores ≤ c ∨ Config.contexts ≤ k) := by
    rintro (h | h)
    · exact absurd hc (Nat.not_lt.2 h)
    · exact absurd hk (Nat.not_lt.2 h)
  have hquiet : (s.core c).gather.all (fun g => g.ctx != k) = true := List.all_eq_true.2 fun g hg => by simpa using hgather g hg
  simp only [execContextRetire, if_neg hpart, hstop, heng, hquiet, hjudge, hruns]
  rfl

end

end Sys2Proof.Machine
end

section
/-! SUPPORT. The statement of the starter's events, from the lemma of each. -/

namespace Sys2Proof.Machine

open Sys2Proof.Claims

section
variable {s : State} {l : Nat} {x : Launch}

/-- A failed placement or a completed kill: what is left of the launch, and what memory holds where nothing else was to be
written (R28, R36, R360). -/
theorem ended_spec {st : Nat} {z : BitVec 16} (hl : s.launch? l = some x) {t : State}
    (ht : t = (((s.killGraph l).freeCores x.cores).setStatus l st z).forget l) :
    Freed t x.cores ∧ t.launch? l = none ∧ (x.graph = none → t.ingress = s.ingress ∧
      ∀ u, withStatus (s.freeCores x.cores) x st z = some u → t.mem = u.mem) := by
  subst ht
  refine ⟨freed_of_cores (by simp) (freed_freeCores (s.killGraph l) x.cores), launch?_forget _ l, fun hg => ?_⟩
  rw [killGraph_of_none hl hg]
  exact ⟨by simp, fun u hu => by simpa using setStatus_freeCores_mem hl hu⟩

/-- The opening of a region after a launch has ended: nothing of it comes back, and no held write changes memory. -/
theorem openRegions_ended {t : State} {cs : List Nat} {dom : Nat} (hfree : Freed t cs) (hgone : t.launch? l = none) :
    (t.openRegions dom).launch? l = none ∧ Freed (t.openRegions dom) cs :=
  ⟨(launch?_eq_of_launches (openRegions_launches t dom) l).trans hgone, freed_of_cores (openRegions_cores t dom) hfree⟩

/-- A launch that retires without an engine error and with its graph's counts at rest: STATUS 3, free cores, and the end of
its record (R365). -/
theorem retire_spec (hl : s.launch? l = some x) (hengine : x.engineFault = false) (hg : ∀ g, x.graph = some g →
    if g.auth = 3 then ∀ st, st < g.stations → g.frontier st = closedLap else g.counts = []) :
    ∃ t, s.retire l x = t.arbitratePoint ∧ t.launch? l = none ∧ Freed t x.cores ∧
      ((∀ w ∈ s.ingress, w.dom ≠ x.dom) → ∀ u, withStatus s x 3 0 = some u → t.mem = u.mem) := by
  refine ⟨((((s.setStatus l 3 0).freeCores x.cores).forget l).releaseEvent).openRegions x.dom, ?_, ?_⟩
  · simp [State.retire, retireGraph_of_empty hl hg, hengine]
  · obtain ⟨hgone, hfreed⟩ := openRegions_ended (l := l) (dom := x.dom)
      (t := (((s.setStatus l 3 0).freeCores x.cores).forget l).releaseEvent)
      (freed_of_cores (by simp) (freed_freeCores (s.setStatus l 3 0) x.cores)) (launch?_forget _ l)
    refine ⟨hgone, hfreed, fun hw u hu => ?_⟩
    rw [openRegions_mem (by simpa using hw), ← setStatus_of_withStatus hl hu]
    simp

end

/-- Settles O51, by the lemma of each of the starter's events. -/
theorem launchEvents : Obligations.LaunchEvents := by
  intro s l time hf
  refine ⟨⟨execSliceBoundary_early, fun h => (execSliceBoundary_due hf h).trans (congrArg _ (nextSlice_eq _))⟩, fun x hl => ?_⟩
  refine ⟨?goStarts, execGoSignal_placed hf hl, execGoSignal_other hl, ?fails, ?drains, ?checkpoints, ?killed, ?watchdog, ?retires, ?_⟩
  case goStarts =>
    exact fun hp hg => ⟨_, execGoSignal_placed hf hl hp, fun u y hu hy => go_of_withStatus hl hg hu hy⟩
  case fails =>
    intro st z hp
    obtain ⟨hfree, hgone, hmem⟩ := ended_spec (st := st) (z := z) hl rfl
    obtain ⟨hgone', hfree'⟩ := openRegions_ended (dom := x.dom) hfree hgone
    refine ⟨_, execPlacementFail_failing hf hl hp, rfl, hgone', hfree', fun hg hw u hu => ?_⟩
    obtain ⟨hingress, hstatus⟩ := hmem hg
    exact (openRegions_mem (hingress ▸ hw)).trans (hstatus u hu)
  case drains =>
    exact fun tail hp => ⟨fun h => ⟨_, execDrainDone_drained hf hl hp h, rfl, saveLaunch_saved hl tail⟩, execDrainDone_waits hl hp⟩
  case checkpoints =>
    exact fun hp => ⟨fun h => ⟨_, execCheckpointDone_settled hf hl hp h, rfl, saveLaunch_saved hl false⟩, execCheckpointDone_waits hl⟩
  case killed =>
    intro st z hp
    obtain ⟨hfree, hgone, hmem⟩ := ended_spec (st := st) (z := z) hl rfl
    obtain ⟨hgone', hfree'⟩ := openRegions_ended (l := l) (dom := x.dom)
      (t := ((((s.killGraph l).freeCores x.cores).setStatus l st z).forget l).releaseEvent) hfree hgone
    refine ⟨_, execKillComplete_killing hf hl hp, rfl, hgone', hfree', fun hg hw u hu => ?_⟩
    obtain ⟨hingress, hstatus⟩ := hmem hg
    exact (openRegions_mem (s := State.releaseEvent _) (hingress ▸ hw)).trans (hstatus u hu)
  case watchdog =>
    intro y n hn hy hruns hdue
    refine ⟨fun hfirst => ⟨_, execWatchdogExpiry_due hn hy hruns hdue hfirst, wdogExpires_leaving hruns, wdogExpires_room_spec hy, ?_⟩,
      fun hsecond => ⟨_, execWatchdogKill_due hn hy hruns hdue hsecond, wdogKill_spec hy hruns⟩⟩
    exact fun hp hroom => (wdogExpires_noRoom hp hroom).symm ▸ wdogKill_spec hy hruns
  case retires =>
    intro hp
    refine ⟨fun hr => ⟨?_, fun hengine hg => retire_spec hl hengine hg⟩, fun hr => ?_⟩
    · exact (execLaunchRetire_retires hl hp).trans (by simp [hr])
    · exact (execLaunchRetire_retires hl hp).trans (by simp [hr])
  exact fun c k hck hruns hstop heng hgather hjudge => execContextRetire_quiet hck hruns hstop heng hgather hjudge

end Sys2Proof.Machine
end

section
/-! SUPPORT. The decoder undoes the encoder (R49 to R58). -/

namespace Sys2Proof.Machine

open Sys2Proof.Laws

/-- Settles O56, by the round trip of each slot instruction; a step of the device is not well-formed. -/
theorem decodeEncode : Obligations.DecodeEncode := by
  intro i h
  cases i with
  | nop => exact Encoding.nop h
  | add f => exact Encoding.add f h
  | addi f => exact Encoding.addi f h
  | sub f => exact Encoding.sub f h
  | mul f => exact Encoding.mul f h
  | mulh f => exact Encoding.mulh f h
  | mulhn f => exact Encoding.mulhn f h
  | div f => exact Encoding.div f h
  | divn f => exact Encoding.divn f h
  | rem f => exact Encoding.rem f h
  | remn f => exact Encoding.remn f h
  | and f => exact Encoding.and f h
  | andi f => exact Encoding.andi f h
  | or f => exact Encoding.or f h
  | ori f => exact Encoding.ori f h
  | xor f => exact Encoding.xor f h
  | xori f => exact Encoding.xori f h
  | shl f => exact Encoding.shl f h
  | shli f => exact Encoding.shli f h
  | shr f => exact Encoding.shr f h
  | shri f => exact Encoding.shri f h
  | shra f => exact Encoding.shra f h
  | shrai f => exact Encoding.shrai f h
  | rotl f => exact Encoding.rotl f h
  | clz f => exact Encoding.clz f h
  | popc f => exact Encoding.popc f h
  | min f => exact Encoding.min f h
  | max f => exact Encoding.max f h
  | minn f => exact Encoding.minn f h
  | maxn f => exact Encoding.maxn f h
  | cmp f => exact Encoding.cmp f h
  | sel f => exact Encoding.sel f h
  | mov f => exact Encoding.mov f h
  | li f => exact Encoding.li f h
  | lih f => exact Encoding.lih f h
  | addr f => exact Encoding.addr f h
  | extb f => exact Encoding.extb f h
  | exth f => exact Encoding.exth f h
  | extw f => exact Encoding.extw f h
  | bfx f => exact Encoding.bfx f h
  | bfi f => exact Encoding.bfi f h
  | pand f => exact Encoding.pand f h
  | por f => exact Encoding.por f h
  | pnot f => exact Encoding.pnot f h
  | fcvts f => exact Encoding.fcvts f h
  | fcmps f => exact Encoding.fcmps f h
  | lapset f => exact Encoding.lapset f h
  | lapadd f => exact Encoding.lapadd f h
  | lapget f => exact Encoding.lapget f h
  | br f => exact Encoding.br f h
  | brc f => exact Encoding.brc f h
  | jmp f => exact Encoding.jmp f h
  | call f => exact Encoding.call f h
  | ret f => exact Encoding.ret f h
  | loop f => exact Encoding.loop f h
  | loopi f => exact Encoding.loopi f h
  | breakl f => exact Encoding.breakl f h
  | waitb f => exact Encoding.waitb f h
  | waitt f => exact Encoding.waitt f h
  | waitf f => exact Encoding.waitf f h
  | advp f => exact Encoding.advp f h
  | advc f => exact Encoding.advc f h
  | yield f => exact Encoding.yield f h
  | endOp f => exact Encoding.endOp f h
  | sleep f => exact Encoding.sleep f h
  | trap f => exact Encoding.trap f h
  | rft f => exact Encoding.rft f h
  | ldb f => exact Encoding.ldb f h
  | ldbn f => exact Encoding.ldbn f h
  | ldh f => exact Encoding.ldh f h
  | ldhn f => exact Encoding.ldhn f h
  | ldw f => exact Encoding.ldw f h
  | ldwn f => exact Encoding.ldwn f h
  | ldd f => exact Encoding.ldd f h
  | stb f => exact Encoding.stb f h
  | sth f => exact Encoding.sth f h
  | stw f => exact Encoding.stw f h
  | std f => exact Encoding.std f h
  | amoadd f => exact Encoding.amoadd f h
  | amoand f => exact Encoding.amoand f h
  | amoor f => exact Encoding.amoor f h
  | amoxor f => exact Encoding.amoxor f h
  | amomin f => exact Encoding.amomin f h
  | amomax f => exact Encoding.amomax f h
  | amominn f => exact Encoding.amominn f h
  | amomaxn f => exact Encoding.amomaxn f h
  | amoswp f => exact Encoding.amoswp f h
  | amocas f => exact Encoding.amocas f h
  | fence f => exact Encoding.fence f h
  | tlinc f => exact Encoding.tlinc f h
  | tlread f => exact Encoding.tlread f h
  | cpgo f => exact Encoding.cpgo f h
  | cpstep f => exact Encoding.cpstep f h
  | cpstat f => exact Encoding.cpstat f h
  | gidx f => exact Encoding.gidx f h
  | gcfg f => exact Encoding.gcfg f h
  | bsend f => exact Encoding.bsend f h
  | prog f => exact Encoding.prog f h
  | front f => exact Encoding.front f h
  | gcancel f => exact Encoding.gcancel f h
  | xput f => exact Encoding.xput f h
  | tdefer f => exact Encoding.tdefer f h
  | tpwr f => exact Encoding.tpwr f h
  | vpwr f => exact Encoding.vpwr f h
  | sysr f => exact Encoding.sysr f h
  | sysw f => exact Encoding.sysw f h
  | tlbinv f => exact Encoding.tlbinv f h
  | tlbsync f => exact Encoding.tlbsync f h
  | evpop f => exact Encoding.evpop f h
  | watch f => exact Encoding.watch f h
  | tld f => exact Encoding.tld f h
  | tst f => exact Encoding.tst f h
  | tldm f => exact Encoding.tldm f h
  | vadd f => exact Encoding.vadd f h
  | vsub f => exact Encoding.vsub f h
  | vmul f => exact Encoding.vmul f h
  | vfma f => exact Encoding.vfma f h
  | vfms f => exact Encoding.vfms f h
  | vfnma f => exact Encoding.vfnma f h
  | vmin f => exact Encoding.vmin f h
  | vmax f => exact Encoding.vmax f h
  | vabs f => exact Encoding.vabs f h
  | vneg f => exact Encoding.vneg f h
  | vcps f => exact Encoding.vcps f h
  | vcmp f => exact Encoding.vcmp f h
  | vsel f => exact Encoding.vsel f h
  | vrnd f => exact Encoding.vrnd f h
  | vexf f => exact Encoding.vexf f h
  | vlgf f => exact Encoding.vlgf f h
  | vrcpf f => exact Encoding.vrcpf f h
  | vrsqf f => exact Encoding.vrsqf f h
  | vscl f => exact Encoding.vscl f h
  | viadd f => exact Encoding.viadd f h
  | visub f => exact Encoding.visub f h
  | vimul f => exact Encoding.vimul f h
  | vimad f => exact Encoding.vimad f h
  | vand f => exact Encoding.vand f h
  | vor f => exact Encoding.vor f h
  | vxor f => exact Encoding.vxor f h
  | vshl f => exact Encoding.vshl f h
  | vshr f => exact Encoding.vshr f h
  | vshra f => exact Encoding.vshra f h
  | vimin f => exact Encoding.vimin f h
  | vimax f => exact Encoding.vimax f h
  | vicmp f => exact Encoding.vicmp f h
  | vcvt f => exact Encoding.vcvt f h
  | vpack f => exact Encoding.vpack f h
  | vunpk f => exact Encoding.vunpk f h
  | vperm f => exact Encoding.vperm f h
  | vbcast f => exact Encoding.vbcast f h
  | vrsum f => exact Encoding.vrsum f h
  | vrmax f => exact Encoding.vrmax f h
  | vspar f => exact Encoding.vspar f h
  | kand f => exact Encoding.kand f h
  | kor f => exact Encoding.kor f h
  | knot f => exact Encoding.knot f h
  | kmov f => exact Encoding.kmov f h
  | kpop f => exact Encoding.kpop f h
  | shn f => exact Encoding.shn f h
  | she f => exact Encoding.she f h
  | shs f => exact Encoding.shs f h
  | shw f => exact Encoding.shw f h
  | xsnd f => exact Encoding.xsnd f h
  | xrcv f => exact Encoding.xrcv f h
  | mma f => exact Encoding.mma f h
  | mzero f => exact Encoding.mzero f h
  | mdrain f => exact Encoding.mdrain f h
  | mload f => exact Encoding.mload f h
  | mread f => exact Encoding.mread f h
  | patch f => exact Encoding.patch f h
  | lqnear f => exact Encoding.lqnear f h
  | lqdec f => exact Encoding.lqdec f h
  | lqscale f => exact Encoding.lqscale f h
  | lqmerge f => exact Encoding.lqmerge f h
  | _ => cases h

end Sys2Proof.Machine
end

section
/-! SUPPORT. A slot alone that fails its check (R49). -/

namespace Sys2Proof.Machine

variable {s : State} {m : Meaning}

theorem State.checkPassed_of_none (hi : s.cx.issue = none) : s.checkPassed = false := by
  rw [State.checkPassed, hi]

/-- A slot run alone takes the trap of the first cause that its check finds. -/
theorem State.run_of_slotCause {z : Cause} (hi : s.cx.issue = none) (hz : s.slotCause m.check = some z) :
    s.run m = .next (s.trapIssue z) := by
  rw [State.run, State.checkPassed_of_none hi, hz]
  rfl

/-- Outside a bundle a trap at issue names the context's own pc, with an empty completion mask (R412). -/
theorem State.trapIssue_of_none (hi : s.cx.issue = none) (z : Cause) :
    s.trapIssue z = (s.noteRace s.turn.core s.turn.ctx z).takeTrap s.turn.core s.turn.ctx
      { cause := z.code, fslot := s.turn.slot, fpc := s.cx.pc, info := z.info, rpc := s.cx.pc } := by
  rw [State.trapIssue, hi]

/-- Settles O14, by the run of a slot's meaning outside a bundle. -/
theorem checkedSlots : Obligations.CheckedSlots := by
  refine fun s => ⟨rfl, fun x m z hi hm hz => ?_⟩
  rw [exec_slot hm, State.run_of_slotCause hi hz, State.trapIssue_of_none hi]

end Sys2Proof.Machine
end

section
/-! SUPPORT. What a turn of a context comes to (R42, R49, R66, R362, R375): the fetch, a cycle in which nothing waits, and
the issue of a bundle that passes its check. -/

namespace Sys2Proof.Machine

open Sys2Proof.Claims

variable {s : State} {c k : Nat}

/-! ### BUNDLE_FETCH -/

theorem execBundleFetch_of_notHolder (hck : IsCtx c k) (h : (s.core c).holder ≠ k) : execBundleFetch c k s = .next s := by
  obtain ⟨hc, hk⟩ := hck
  simp [execBundleFetch, Config.cores, Config.contexts, Nat.not_le.2 hc, Nat.not_le.2 hk, h]

section
variable (hck : IsCtx c k) (hholder : (s.core c).holder = k)
include hck hholder

theorem execBundleFetch_of_stopped (hruns : s.coreRuns c = false) :
    execBundleFetch c k s = .next (s.setCore c { (s.core c).charge 0 with held := 0 }) := by
  obtain ⟨hc, hk⟩ := hck
  simp [execBundleFetch, Config.cores, Config.contexts, Nat.not_le.2 hc, Nat.not_le.2 hk, hholder, hruns]

theorem execBundleFetch_of_inactive (hruns : s.coreRuns c = true) (hactive : (s.ctxAt c k).active = false) :
    execBundleFetch c k s = .next ((s.setCore c ((s.core c).charge 0)).passSlot c) := by
  obtain ⟨hc, hk⟩ := hck
  simp [execBundleFetch, Config.cores, Config.contexts, Nat.not_le.2 hc, Nat.not_le.2 hk, hholder, hruns, hactive]

theorem execBundleFetch_of_active (hruns : s.coreRuns c = true) (hactive : (s.ctxAt c k).active = true) :
    execBundleFetch c k s = .next ((s.modCtxAt c k Ctx.wakeUp).settleTurn c ((s.modCtxAt c k Ctx.wakeUp).turnOf c k)) := by
  obtain ⟨hc, hk⟩ := hck
  simp [execBundleFetch, Config.cores, Config.contexts, Nat.not_le.2 hc, Nat.not_le.2 hk, hholder, hruns, hactive]

end

/-! ### A cycle in which nothing waits -/

theorem State.boundaryTake_none (hpend : (s.ctxAt c k).nextPending = none) (hsteps : (s.landAll c k).stepsCause c k false = none) :
    s.boundaryTake c k = none := by
  rw [State.boundaryTake, hpend, hsteps]

/-- With no step due and no tower to wake, a cycle is its landings and what follows them. -/
theorem State.cycleBody_of_noSteps (hneeds : (s.core c).landNeeds (s.ctxAt c k) = []) (hdue : (s.ctxAt c k).dueStreams = []) :
    s.cycleBody c k = s.afterSteps (((s.landAll c k).stepAll c k).modCtxAt c k fun y => { y with owed := 0 }) c k
      ((s.ctxAt c k).owed + (s.core c).landCharge (s.ctxAt c k)) := by
  simp [State.cycleBody, hneeds, hdue, State.mmasReady, State.expressRoomFor]

theorem State.afterSteps_of_running {old : State} (charge : Nat) (hrun : (s.ctxAt c k).run = .running) (hskip : (s.ctxAt c k).skip = 0) :
    old.afterSteps s c k charge = old.issueNext s c k charge := by
  simp [State.afterSteps, hrun, hskip]

/-- A turn outside handlers that nothing at the boundary takes is the context's next cycle (R413). -/
theorem State.turnOf_of_quiet (hdepth : (s.ctxAt c k).depth = 0) (htake : s.boundaryTake c k = none)
    (hhalt : (s.ctxAt c k).haltReq = false) : s.turnOf c k = s.cycleBody c k := by
  simp [State.turnOf, hdepth, htake, hhalt]

/-! ### The issue of a bundle -/

@[simp] theorem Core.mendFetch_ctx (x : Core) (pc : CodeAddr) (k : Nat) : (x.mendFetch pc).ctx k = x.ctx k := rfl

@[simp] theorem State.ctxAt_mendFetch (s : State) (c k : Nat) (pc : CodeAddr) :
    (s.setCore c ((s.core c).mendFetch pc)).ctxAt c k = s.ctxAt c k := by
  simp [State.ctxAt]

@[simp] theorem State.loadBundle_turn (s : State) (next : CodeAddr) (w : BitVec 384) (xs : List (Nat × Except DecodeError Instr)) :
    (s.loadBundle c k next w xs).turn = ⟨c, k, 0⟩ := rfl

/-- What stands in issue is the decoded slots at the pc. -/
theorem State.loadBundle_issue (s : State) (next : CodeAddr) (w : BitVec 384) (xs : List (Nat × Except DecodeError Instr))
    (hmask : (s.ctxAt c k).resumeMask = 0) : (s.loadBundle c k next w xs).cx.issue =
      some (fresh (s.ctxAt c k).evtrap (s.ctxAt c k).pc next (Header.unpack (bundleH w)) (slotAt xs 0) (slotAt xs 1) (slotAt xs 2)
        (slotAt xs 3) (slotAt xs 4)) := by
  have hcx : (s.loadBundle c k next w xs).cx = (s.modCtxAt c k fun x => { x with
      issue := some { fresh x.evtrap x.pc next (Header.unpack (bundleH w)) (slotAt xs 0) (slotAt xs 1) (slotAt xs 2) (slotAt xs 3)
        (slotAt xs 4) with done := x.resumeMask } }).ctxAt c k := rfl
  rw [hcx, State.ctxAt_modCtxAt_same, hmask]
  rfl

/-- Where no slot was complete when the bundle was left, none is masked (R420). -/
theorem masked_zero (xs : List (Nat × Except DecodeError Instr)) : masked 0 xs = xs := by
  simp [masked, bit]

/-- The slots of a bundle that decode, each with its meaning in its place. -/
def State.meanings (s : State) (s0 s1 m c f : Instr) : List (Nat × Meaning) :=
  [(0, s.slotIn 0 s0), (1, s.slotIn 1 s1), (2, s.slotIn 2 m), (3, s.slotIn 3 c), (4, s.slotIn 4 f)]

/-- Every slot keeps its encoding's rules, and one that acts is ready and meets no cause of a first stream step. -/
def AllReady (ms : List (Nat × Meaning)) : Prop :=
  ∀ q ∈ ms, q.2.check.illegal = false ∧ (q.2.taken = true → q.2.ready = true ∧ q.2.early false = none)

theorem State.firstIllegal_none {s0 s1 m cell f : Instr} {w : BitVec 384} (hok : (Header.unpack (bundleH w)).ok = true)
    (hall : AllReady (s.meanings s0 s1 m cell f)) :
    s.firstIllegal w [(0, .ok s0), (1, .ok s1), (2, .ok m), (3, .ok cell), (4, .ok f)] = none := by
  simp only [AllReady, State.meanings, List.forall_mem_cons] at hall
  simp [State.firstIllegal, hok, hall]

theorem AllReady.unready_false {ms : List (Nat × Meaning)} (hall : AllReady ms) {q : Nat × Meaning} (hq : q ∈ ms) :
    (q.2.taken && !q.2.ready) = false := by
  cases htaken : q.2.taken
  case false => rfl
  case true => simp [((hall q hq).2 htaken).1]

theorem any_unready_false {ms : List (Nat × Meaning)} (hall : AllReady ms) : (ms.any fun m => m.2.taken && !m.2.ready) = false :=
  List.any_eq_false.2 fun q hq => by simp [hall.unready_false hq]

theorem waitsOn_false {ms : List (Nat × Meaning)} (hall : AllReady ms) (f : Instr) : waitsOn f ms = false := by
  have hnone : (ms.any fun m => m.1 == 4 && m.2.taken && !m.2.ready) = false :=
    List.any_eq_false.2 fun q hq => by simp [Bool.and_assoc, hall.unready_false hq]
  rw [waitsOn, hnone, Bool.and_false]

theorem earlyCause_none {ms : List (Nat × Meaning)} (hall : AllReady ms) : earlyCause ms false = none := by
  rw [earlyCause, List.findSome?_eq_none_iff]
  intro q hq
  split
  case isTrue htaken => exact ((hall q hq).2 htaken).2
  case isFalse => rfl

/-- A bundle whose slots decode, wait for nothing and meet no cause issues. -/
theorem State.issueNext_passed {old t u : State} {charge : Nat} {next : CodeAddr} {w : BitVec 384} {s0 s1 m cell f : Instr}
    (hmask : (s.ctxAt c k).resumeMask = 0) (hfetch : s.fetchNext c k = .ok next w)
    (hslots : slotsOf w = [(0, .ok s0), (1, .ok s1), (2, .ok m), (3, .ok cell), (4, .ok f)])
    (ht : t = (s.setCore c ((s.core c).mendFetch (s.ctxAt c k).pc)).loadBundle c k next w (slotsOf w))
    (hu : u = if (Header.unpack (bundleH w)).hw then t.windowWrites c k else t)
    (hok : (Header.unpack (bundleH w)).ok = true) (hall : AllReady (u.meanings s0 s1 m cell f))
    (hgeom : old.geomWaits (s.ctxAt c k) c k m = false) (hcause : firstCause (s.ctxAt c k) (u.meanings s0 s1 m cell f) = none) :
    ∃ n, old.issueNext s c k charge = .passed u n := by
  have hms : ((List.range 5).map fun n => (n, u.slotIn n (slotAt (slotsOf w) n))) = u.meanings s0 s1 m cell f := by
    rw [hslots]; rfl
  have hm : slotAt (slotsOf w) 2 = m := by rw [hslots]; rfl
  have hill : u.firstIllegal w (slotsOf w) = none := hslots ▸ State.firstIllegal_none hok hall
  unfold State.issueNext
  simp only [hfetch, hmask, masked_zero, ← ht, ← hu, hill, hms, hm, hgeom, waitsOn_false hall, hcause, earlyCause_none hall,
    any_unready_false hall, Bool.false_eq_true, if_false]
  exact ⟨_, rfl⟩

end Sys2Proof.Machine
end

section
/-! SUPPORT. One step of the device (R43, R398, log entries 4, 6, 21, 22 and 56): the bundle in issue, slot by slot, and which
occurrence is next. -/

namespace Sys2Proof.Machine

open Sys2Proof.Claims

variable {ex : Instr → State → Res} {s t u : State} {i : Instr}

/-! ### The bundle in issue -/

theorem runSlots_cons {n : Nat} (h : ex i (atSlot s n) = .next t) (rest : List (Nat × Instr)) :
    runSlots ex ((n, i) :: rest) s = runSlots ex rest t := by
  rw [runSlots, show ({ s with turn := { s.turn with slot := n } } : State) = atSlot s n from rfl, h]

theorem runBundle_of_none (h : s.cx.issue = none) : runBundle ex s = .next s := by
  rw [runBundle, h]

/-- The four slots before F, in the order in which they act. -/
theorem runSlots_order {b : Issue} {a d e v : State} (h0 : ex b.s0 (atSlot s 0) = .next a) (h1 : ex b.s1 (atSlot a 1) = .next d)
    (hc : ex b.c (atSlot d 3) = .next e) (hm : ex b.m (atSlot e 2) = .next v) : runSlots ex b.order s = .next v := by
  rw [Issue.order, runSlots_cons h0, runSlots_cons h1, runSlots_cons hc, runSlots_cons hm, runSlots]

theorem runLast_acts {b : Issue} (hb : s.cx.issue = some b) (h : b.late = none ∨ isLast b.f = false)
    (hf : ex b.f (atSlot s 4) = .next t) : runLast ex s = .next t := by
  have hno : (b.late.isSome && isLast b.f) = false := by
    obtain h | h := h <;> simp [h]
  rw [runLast, hb]
  simp only [hno, Bool.false_eq_true, if_false]
  rw [runSlots_cons hf, runSlots]

/-- An F slot that ends a bundle's work is left where a slot has faulted (R412, log entry 21). -/
theorem runLast_waits {b : Issue} (hb : s.cx.issue = some b) (hlate : b.late ≠ none) (hlast : isLast b.f = true) :
    runLast ex s = .next s := by
  simp [runLast, hb, hlast, Option.isSome_iff_ne_none, hlate]

theorem runBundle_done {b : Issue} {c k : Nat} (hb : s.cx.issue = some b) (hrun : s.cx.run = .running) (hturn : s.turn = ⟨c, k, 0⟩)
    (hslots : runSlots ex b.order s = .next t) (hlast : runLast ex t = .next u) :
    runBundle ex s = .next { u.finishBundle c k with turn := ⟨c, k, 0⟩ } := by
  simp only [runBundle, hb, hrun, if_true, hslots, hlast, hturn]

/-! ### The next occurrence -/

theorem occur_of {r : Res} (h : ex i s = .next t) (hr : runBundle ex t = r) : occur ex i s = r := by
  rw [occur, h, ← hr]

/-- An occurrence that puts no bundle in issue is over. -/
theorem occur_of_none (h : ex i s = .next t) (hissue : t.cx.issue = none) : occur ex i s = .next t :=
  occur_of h (runBundle_of_none hissue)

theorem stepWith_keep (hkeep : s.keepNext ex = some i) : stepWith ex s = occur ex i s := by
  rw [stepWith, hkeep]

/-- What the agenda holds comes before the device's own steps. -/
theorem stepWith_agenda (hkeep : s.keepNext ex = none) {n : Nat} (hplace : s.nextPlace = n) (hi : s.agenda[n]? = some i) :
    stepWith ex s = s.unlessKept (occur ex i { s with agenda := s.agenda.eraseIdx n, together := s.together - 1 }) := by
  subst hplace
  rw [stepWith, hkeep, hi]

/-- In a quiet cycle the core whose turn it is takes it, and the next core follows. -/
theorem stepWith_turn (hkeep : s.keepNext ex = none) (hagenda : s.agenda = []) (hown : s.ownEvent ex = s.turnEvent)
    (h : occur ex s.turnEvent s = .next t) : stepWith ex s = .next t.rotate := by
  simp [stepWith, hkeep, hagenda, hown, h]

theorem State.unlessKept_next (s t : State) : s.unlessKept (.next t) = .next (unlessDue s t) := by
  by_cases h : s.clock < t.clock
  · have hle : ¬ t.clock ≤ s.clock := Nat.not_le.2 h
    cases hnext : s.nextKeep <;> simp [State.unlessKept, unlessDue, hnext, h, hle]
  · have hle : t.clock ≤ s.clock := Nat.not_lt.1 h
    cases hnext : s.nextKeep <;> simp [State.unlessKept, unlessDue, hnext, h, hle]

/-- An occurrence of the agenda that puts no bundle in issue is over, unless the clock must stop before it. -/
theorem stepWith_agenda_done (hkeep : s.keepNext ex = none) {n : Nat} (hplace : s.nextPlace = n) (hi : s.agenda[n]? = some i)
    (h : ex i { s with agenda := s.agenda.eraseIdx n, together := s.together - 1 } = .next t) (hissue : t.cx.issue = none) :
    stepWith ex s = .next (unlessDue s t) := by
  rw [stepWith_agenda hkeep hplace hi, occur_of_none h hissue, State.unlessKept_next]

/-! ### Commands that arrive together (R398) -/

theorem mem_of_firstOf {ps : List (Nat × Option Nat)} {n m : Nat} (h : firstOf ps = some (n, m)) : (n, some m) ∈ ps := by
  induction ps generalizing n m with
  | nil => cases h
  | cons p ps ih =>
    obtain ⟨j, a⟩ := p
    unfold firstOf at h
    split at h
    case h_1 => exact List.mem_cons_of_mem _ (ih h)
    case h_2 => cases h; exact List.mem_cons_self
    case h_3 hrest =>
      split at h
      · cases h; exact List.mem_cons_self
      · cases h; exact List.mem_cons_of_mem _ (ih hrest)

theorem mem_of_mem_indexed {α : Type} {xs : List α} {base : Nat} {p : Nat × α} (h : p ∈ indexed base xs) : p.2 ∈ xs := by
  induction xs generalizing base with
  | nil => cases h
  | cons x xs ih =>
    obtain rfl | h := List.mem_cons.1 h
    · exact List.mem_cons_self
    · exact List.mem_cons_of_mem _ (ih h)

/-- The least master's first place is found, whatever stands at the places around it. -/
theorem firstOf_least (f : Instr → Option Nat) {m : Nat} {xs : List Instr} {n base : Nat} (hn : xs[n]?.bind f = some m)
    (hleast : ∀ (j : Nat) q, xs[j]?.bind f = some q → m ≤ q ∧ (j < n → m < q)) :
    firstOf ((indexed base xs).map fun p => (p.1, f p.2)) = some (base + n, m) := by
  induction xs generalizing n base with
  | nil => cases hn
  | cons x xs ih =>
    cases n with
    | zero =>
      have hx : f x = some m := hn
      cases hrest : firstOf ((indexed (base + 1) xs).map fun p => (p.1, f p.2)) with
      | none => simp [indexed, firstOf, hx, hrest]
      | some r =>
        obtain ⟨p, hp, hr⟩ := List.mem_map.1 (mem_of_firstOf hrest)
        obtain ⟨j, hj⟩ := List.mem_iff_getElem?.1 (mem_of_mem_indexed hp)
        have hle : m ≤ r.2 := (hleast (j + 1) r.2 (by simp [hj, (Prod.mk.inj hr).2])).1
        simp [indexed, firstOf, hx, hrest, hle]
    | succ n =>
      have hrest := ih (base := base + 1) (n := n) hn fun j q hj =>
        ⟨(hleast (j + 1) q hj).1, fun hlt => (hleast (j + 1) q hj).2 (Nat.succ_lt_succ hlt)⟩
      have hplace : base + 1 + n = base + (n + 1) := by omega
      rw [hplace] at hrest
      cases hx : f x with
      | none => simp [indexed, firstOf, hx, hrest]
      | some a =>
        have hlt : ¬ a ≤ m := Nat.not_le.2 ((hleast 0 a hx).2 n.succ_pos)
        simp [indexed, firstOf, hx, hrest, hlt]

/-- Of commands that arrive together the first of the lowest master is next. -/
theorem State.nextPlace_of_least {n m : Nat} (hn : n < s.together) (hi : s.agenda[n]? = some i) (hm : s.commander i = some m)
    (hhead : (s.agenda.head?.bind s.commander).isSome = true)
    (hleast : ∀ (j : Nat) a q, j < s.together → s.agenda[j]? = some a → s.commander a = some q → m ≤ q ∧ (j < n → m < q)) :
    s.nextPlace = n := by
  obtain ⟨q, hq⟩ := Option.isSome_iff_exists.1 hhead
  have hfirst := firstOf_least s.commander (xs := s.agenda.take s.together) (n := n) (m := m) (base := 0)
    (by simp [hn, hi, hm]) fun j q hj => by
      simp only [List.getElem?_take] at hj
      split at hj
      case isTrue hlt =>
        obtain ⟨a, ha, hq⟩ := Option.bind_eq_some_iff.1 hj
        exact hleast j a q hlt ha hq
      case isFalse => cases hj
  rw [State.nextPlace, hq]
  simp [hfirst]

/-- Where no two occurrences arrive together, the head of the agenda is next. -/
theorem State.nextPlace_of_alone (h : s.together ≤ 1) : s.nextPlace = 0 := by
  unfold State.nextPlace
  split
  case h_1 => rfl
  case h_2 =>
    obtain h | h : s.together = 0 ∨ s.together = 1 := by omega
    · simp [h, indexed, firstOf]
    · cases hagenda : s.agenda with
      | nil => simp [indexed, firstOf]
      | cons i is => cases hi : s.commander i <;> simp [h, indexed, firstOf, hi]

/-- Settles O55, by the lemma of each outcome of a turn and of each way a step goes. -/
theorem stepRunsBundle : Obligations.StepRunsBundle := by
  intro s c k hck x hx
  subst hx
  refine ⟨execBundleFetch_of_notHolder hck, ?stopped, ?turn, ?cycle, ?issue, ?bundle, ?keep, ?agenda, ?commands⟩
  case stopped =>
    exact fun hruns hholder => execBundleFetch_of_stopped hck hholder hruns
  case turn =>
    exact fun hruns hholder => ⟨execBundleFetch_of_inactive hck hholder hruns, fun v hv hactive =>
      hv ▸ execBundleFetch_of_active hck hholder hruns hactive⟩
  case cycle =>
    intro u hu hdepth hpend hhalt hsteps hneeds hdue hrun hskip
    subst hu
    rw [State.turnOf_of_quiet hdepth (State.boundaryTake_none hpend hsteps) hhalt, State.cycleBody_of_noSteps hneeds hdue]
    exact State.afterSteps_of_running _ hrun hskip
  case issue =>
    intro old charge next w h s0 s1 m cell f hmask hfetch hh hok h0 h1 hm hc hf t u ht hu
    subst hh
    have hslots : slotsOf w = [(0, .ok s0), (1, .ok s1), (2, .ok m), (3, .ok cell), (4, .ok f)] := by
      rw [slotsOf, h0, h1, hm, hc, hf]
    refine ⟨by rw [ht, State.loadBundle_turn], ?_, ?_⟩
    · rw [ht, State.loadBundle_issue _ _ _ _ (by simpa using hmask), State.ctxAt_mendFetch]
      rfl
    · intro ms hms hall hgeom hcause
      subst hms
      exact State.issueNext_passed hmask hfetch hslots (hslots ▸ ht) hu hok hall hgeom hcause
  case bundle =>
    intro hkeep hagenda hcore hholder hown u hu
    have hturn : s.turnEvent = .bundleFetch c k := by rw [State.turnEvent, hcore, hholder]
    rw [← hturn] at hu
    refine ⟨fun hnone => stepWith_turn hkeep hagenda hown (occur_of_none hu hnone), ?_⟩
    intro i hi hrun hat a b d e h0 h1 hc hm j hj
    have hslots := runSlots_order h0 h1 hc hm
    refine ⟨fun hlast z hz => ?_, fun hlate hlast => ?_⟩
    · exact stepWith_turn hkeep hagenda hown (occur_of hu (runBundle_done hi hrun hat hslots (runLast_acts hj hlast hz)))
    · exact stepWith_turn hkeep hagenda hown (occur_of hu (runBundle_done hi hrun hat hslots (runLast_waits hj hlate hlast)))
  case keep =>
    exact fun i t hkeep ht hnone => (stepWith_keep hkeep).trans (occur_of_none ht hnone)
  case agenda =>
    intro i is t hkeep hagenda htogether ht hnone
    exact stepWith_agenda_done hkeep (State.nextPlace_of_alone htogether) (by rw [hagenda]; rfl) (by rw [hagenda]; exact ht) hnone
  case commands =>
    intro n i m t hkeep hn hi hm hhead hleast ht hnone
    exact stepWith_agenda_done hkeep (State.nextPlace_of_least hn hi hm hhead hleast) hi ht hnone

end Sys2Proof.Machine
end

section
/-! SUPPORT. The state after reset (log entry 1). -/

namespace Sys2Proof.Machine

/-- After reset no core and no context differs from another. -/
@[simp] theorem State.core_reset (c : Nat) : State.reset.core c = {} := rfl

@[simp] theorem State.launchOf_reset (c : Nat) : State.reset.launchOf c = none := rfl

@[simp] theorem Core.ctx_default (k : Nat) : Core.ctx {} k = {} := rfl

theorem State.pwrstat_reset (c : Nat) : State.reset.pwrstat c = 0x40000000 := by
  have hcore : State.reset.pwrstat c = State.reset.pwrstat 0 := rfl
  rw [hcore]
  decide

/-- Every core is available, no port group is degraded and no dump is held (R441). -/
theorem State.healthWord_reset : State.reset.healthWord = 128 := by
  simp [State.healthWord, State.available, State.degraded, State.reset, get, Config.cores, State.core]

/-- The registers that do not read zero after reset: SYS.RETLIM, SYS.OWNER, SYS.STCFG, SYS.EWGRANT, SYS.PWRSTAT and SYS.HEALTH. -/
def resetSet : List Nat := [0x025, 0x281, 0x2C1, 0x2D0, 0x2D1, 0x2E2]

/-- Every other register reads a part that is fresh, or counts what is in one. -/
theorem State.sysValue_reset_zero (c k : Nat) {n : Nat} (hn : n ∉ resetSet) : State.reset.sysValue c k n = 0 := by
  simp only [State.sysValue, State.core_reset, Core.ctx_default, State.launchOf_reset]
  split
  case h_9 | h_27 | h_30 | h_31 | h_32 | h_36 => exact absurd hn (by decide)
  case h_3 | h_17 | h_24 | h_28 | h_38 => decide
  case h_39 =>
    repeat' split
    all_goals rfl
  all_goals rfl

/-- What SYS.OWNER, SYS.STCFG and SYS.EWGRANT read after reset (R397, R353, R376). -/
theorem State.sysValue_reset_set (c k : Nat) : State.reset.sysValue c k 0x281 = 0x0000FFFF00000000 ∧
    State.reset.sysValue c k 0x2C1 = 208 ∧ State.reset.sysValue c k 0x2D0 = 0x1FFF1FFF := by
  simp only [State.sysValue, State.core_reset]
  decide

/-- Settles O60, by what SYSR reads after reset; all else that a rule names has the value of a fresh part. -/
theorem resetState : Obligations.ResetState := by
  refine ⟨fun c k _ => ?_, fun _ _ => rfl, rfl, rfl, rfl, rfl, fun _ _ => rfl⟩
  obtain ⟨howner, hstarter, hgrant⟩ := State.sysValue_reset_set c k
  refine ⟨fun n hn => State.sysValue_reset_zero c k ?_, howner, hstarter, hgrant, State.pwrstat_reset c, ?_, rfl, rfl,
    fun n _ => ⟨rfl, rfl, rfl, fun _ => rfl, fun _ _ => rfl⟩⟩
  · revert n
    decide +kernel
  · show State.reset.healthWord.extractLsb' 0 10 = 128
    rw [State.healthWord_reset]
    rfl

end Sys2Proof.Machine
end

section
/-! SUPPORT. Words as numbers: a field, an inserted field, a shift, a product's high half and a quotient by the value it has
(R5, R59, R73 to R78). -/

namespace Sys2Proof.Machine

/-! ### Fields (R5, R59) -/

theorem fieldN_eq {n : Nat} (x : BitVec n) (lo w : Nat) : fieldN x lo w = x.toNat / 2 ^ lo % 2 ^ w := by
  rw [fieldN, BitVec.extractLsb'_toNat, Nat.shiftRight_eq_div_pow]

/-- A field that ends at the top of its word. -/
theorem fieldN_top {n : Nat} (x : BitVec n) {lo w : Nat} (h : lo + w = n) : fieldN x lo w = x.toNat / 2 ^ lo := by
  subst h
  rw [fieldN_eq, Nat.mod_eq_of_lt]
  rw [Nat.div_lt_iff_lt_mul (Nat.two_pow_pos lo), Nat.mul_comm, ← Nat.pow_add]
  exact x.isLt

/-- A field that starts at bit 0. -/
theorem fieldN_low {n : Nat} (x : BitVec n) (w : Nat) : fieldN x 0 w = x.toNat % 2 ^ w := by
  rw [fieldN_eq, Nat.pow_zero, Nat.div_one]

/-- The low bits of a word with `w` bits from `lo` up replaced, the new bits and the bits above. -/
theorem setField_eq {n : Nat} (x : BitVec n) (lo w v : Nat) : setField x lo w v =
    BitVec.ofNat n (x.toNat / 2 ^ (lo + w) * 2 ^ (lo + w) + v % 2 ^ w * 2 ^ lo + x.toNat % 2 ^ lo) := by
  have hlow : x.toNat % 2 ^ lo < 2 ^ lo := Nat.mod_lt _ (Nat.two_pow_pos lo)
  have hnew : v % 2 ^ w < 2 ^ w := Nat.mod_lt _ (Nat.two_pow_pos w)
  have hsum : x.toNat / 2 ^ (lo + w) * 2 ^ (lo + w) + v % 2 ^ w * 2 ^ lo + x.toNat % 2 ^ lo =
      2 ^ lo * (2 ^ w * (x.toNat / 2 ^ (lo + w)) + v % 2 ^ w) + x.toNat % 2 ^ lo := by ring
  rw [hsum]
  apply BitVec.eq_of_getLsbD_eq
  intro j hj
  simp only [setField, BitVec.getLsbD_or, BitVec.getLsbD_and, BitVec.getLsbD_not, BitVec.getLsbD_ofNat, Nat.testBit_shiftLeft,
    Nat.testBit_two_pow_sub_one, Nat.testBit_two_pow_mul_add _ hlow, Nat.testBit_two_pow_mul_add _ hnew, hj]
  by_cases hjlo : j < lo
  · have : ¬ lo ≤ j := by omega
    simp [hjlo, this, Nat.testBit_mod_two_pow, BitVec.getLsbD]
  · by_cases hjw : j - lo < w
    · simp [hjlo, hjw, Nat.le_of_not_lt hjlo, BitVec.getLsbD]
    · have hidx : j - lo - w + (lo + w) = j := by omega
      simp [hjlo, hjw, Nat.testBit_div_two_pow, Nat.testBit_mod_two_pow, hidx, BitVec.getLsbD]

/-! ### Arithmetic (R73, R74) -/

theorem mulHiS_eq (a b : Word) : mulHiS a b = BitVec.ofInt 64 (a.toInt * b.toInt / (2 : Int) ^ 64) := by
  have hprod : a.signExtend 128 * b.signExtend 128 = BitVec.ofInt 128 (a.toInt * b.toInt) := by
    rw [BitVec.ofInt_mul]
    rfl
  rw [mulHiS, hprod]
  generalize a.toInt * b.toInt = z
  apply BitVec.eq_of_toNat_eq
  rw [field, BitVec.extractLsb'_toNat, BitVec.toNat_ofInt, BitVec.toNat_ofInt, Nat.shiftRight_eq_div_pow]
  omega

theorem mulHiU_eq (a b : Word) : mulHiU a b = BitVec.ofNat 64 (a.toNat * b.toNat / 2 ^ 64) := by
  have ha := a.isLt
  have hb := b.isLt
  apply BitVec.eq_of_toNat_eq
  rw [mulHiU, field, BitVec.extractLsb'_toNat, BitVec.toNat_mul, BitVec.toNat_setWidth, BitVec.toNat_setWidth,
    Nat.mod_eq_of_lt (by omega : a.toNat < 2 ^ 128), Nat.mod_eq_of_lt (by omega : b.toNat < 2 ^ 128),
    Nat.shiftRight_eq_div_pow, BitVec.toNat_ofNat]
  generalize a.toNat * b.toNat = z
  omega

theorem divS_eq (a b : Word) :
    divS a b = if b = 0 then 0xFFFFFFFFFFFFFFFF else BitVec.ofInt 64 (a.toInt.tdiv b.toInt) := by
  rw [divS]
  split
  · rfl
  · split
    next h =>
      obtain ⟨rfl, rfl⟩ := h
      decide
    next =>
      apply BitVec.eq_of_toInt_eq
      rw [BitVec.toInt_sdiv, BitVec.toInt_ofInt]

theorem remS_eq (a b : Word) : remS a b = if b = 0 then a else BitVec.ofInt 64 (a.toInt.tmod b.toInt) := by
  rw [remS]
  split
  · rfl
  · split
    next h =>
      obtain ⟨rfl, rfl⟩ := h
      decide
    next => rw [← BitVec.toInt_srem, BitVec.ofInt_toInt]

theorem divU_eq (a b : Word) : divU a b = if b = 0 then 0xFFFFFFFFFFFFFFFF else BitVec.ofNat 64 (a.toNat / b.toNat) := by
  rw [divU, ← BitVec.toNat_udiv, BitVec.ofNat_toNat, BitVec.setWidth_eq]

theorem remU_eq (a b : Word) : remU a b = if b = 0 then a else BitVec.ofNat 64 (a.toNat % b.toNat) := by
  rw [remU, ← BitVec.toNat_umod, BitVec.ofNat_toNat, BitVec.setWidth_eq]

/-! ### Shifts (R75) -/

theorem shiftOf_eq (b : Word) : shiftOf b = b.toNat % 64 := fieldN_low b 6

theorem shiftLeft_eq_ofNat (a : Word) (n : Nat) : a <<< n = BitVec.ofNat 64 (a.toNat * 2 ^ n) := by
  rw [← Nat.shiftLeft_eq]
  rfl

theorem shiftRight_eq_ofNat (a : Word) (n : Nat) : a >>> n = BitVec.ofNat 64 (a.toNat / 2 ^ n) := by
  apply BitVec.eq_of_toNat_eq
  rw [BitVec.toNat_ushiftRight, Nat.shiftRight_eq_div_pow, BitVec.toNat_ofNat,
    Nat.mod_eq_of_lt (Nat.lt_of_le_of_lt (Nat.div_le_self _ _) a.isLt)]

theorem sshiftRight_eq_ofInt (a : Word) (n : Nat) : a.sshiftRight n = BitVec.ofInt 64 (a.toInt / (2 : Int) ^ n) := by
  rw [← BitVec.ofInt_toInt (x := a.sshiftRight n), BitVec.toInt_sshiftRight, Int.shiftRight_eq_div_pow]
  push_cast
  rfl

/-- A rotation's two parts do not overlap. -/
theorem rotateLeft_eq_ofNat (a : Word) {n : Nat} (hn : n < 64) :
    a.rotateLeft n = BitVec.ofNat 64 (a.toNat * 2 ^ n + a.toNat / 2 ^ (64 - n)) := by
  have hpow : 2 ^ n * 2 ^ (64 - n) = 2 ^ 64 := by rw [← Nat.pow_add, Nat.add_sub_cancel' (Nat.le_of_lt hn)]
  have hlow : a.toNat / 2 ^ (64 - n) < 2 ^ n := by
    rw [Nat.div_lt_iff_lt_mul (Nat.two_pow_pos _), hpow]
    exact a.isLt
  apply BitVec.eq_of_toNat_eq
  rw [BitVec.rotateLeft_def, Nat.mod_eq_of_lt hn, BitVec.toNat_or, BitVec.toNat_shiftLeft, BitVec.toNat_ushiftRight,
    Nat.shiftRight_eq_div_pow, BitVec.toNat_ofNat, ← Nat.shiftLeft_eq, Nat.shiftLeft_add_eq_or_of_lt hlow, Nat.or_mod_two_pow,
    Nat.mod_eq_of_lt (Nat.lt_of_lt_of_le hlow (Nat.pow_le_pow_right (by decide) (Nat.le_of_lt hn)))]

/-! ### Counts and bounds (R76) -/

theorem popCount_eq {n : Nat} (x : BitVec n) : popCount x = ((List.range n).filter fun j => x.getLsbD j).length := by
  have hcount : ∀ (js : List Nat) (c : Nat),
      js.foldl (fun c j => if bit x j then c + 1 else c) c = c + (js.filter fun j => x.getLsbD j).length := by
    intro js
    induction js with
    | nil => exact fun c => rfl
    | cons j js ih =>
      intro c
      rw [List.foldl_cons, ih, List.filter_cons]
      cases hj : x.getLsbD j with
      | false => simp [bit, hj]
      | true => simp [bit, hj, Nat.add_comm, Nat.add_left_comm]
  rw [popCount, hcount, Nat.zero_add]

/-- The bits from the top of the highest one bit down hold the word. -/
theorem lt_two_pow_bitLength {n : Nat} (x : BitVec n) : x.toNat < 2 ^ bitLength x := by
  rw [bitLength]
  split
  next h => rw [h]; decide
  next => exact Nat.lt_log2_self

theorem bitLength_le {n : Nat} (x : BitVec n) : bitLength x ≤ n := by
  rw [bitLength]
  split
  next => exact Nat.zero_le n
  next h => exact (Nat.log2_lt h).2 x.isLt

theorem two_pow_bitLength_le {n : Nat} (x : BitVec n) (h : 0 < bitLength x) : 2 ^ (bitLength x - 1) ≤ x.toNat := by
  rw [bitLength] at h ⊢
  split at h
  next => exact absurd h (Nat.lt_irrefl 0)
  next hx =>
    rw [if_neg hx, Nat.add_sub_cancel]
    exact Nat.log2_self_le hx

theorem min_signed_eq (a b : Word) : (if a.slt b then a else b) = BitVec.ofInt 64 (min a.toInt b.toInt) := by
  by_cases h : a.toInt < b.toInt
  · rw [if_pos (BitVec.slt_iff_toInt_lt.2 h), min_eq_left (Int.le_of_lt h), BitVec.ofInt_toInt]
  · rw [if_neg (mt BitVec.slt_iff_toInt_lt.1 h), min_eq_right (Int.not_lt.1 h), BitVec.ofInt_toInt]

theorem max_signed_eq (a b : Word) : (if a.slt b then b else a) = BitVec.ofInt 64 (max a.toInt b.toInt) := by
  by_cases h : a.toInt < b.toInt
  · rw [if_pos (BitVec.slt_iff_toInt_lt.2 h), max_eq_right (Int.le_of_lt h), BitVec.ofInt_toInt]
  · rw [if_neg (mt BitVec.slt_iff_toInt_lt.1 h), max_eq_left (Int.not_lt.1 h), BitVec.ofInt_toInt]

theorem min_unsigned_eq (a b : Word) : (if a.ult b then a else b) = BitVec.ofNat 64 (min a.toNat b.toNat) := by
  by_cases h : a.toNat < b.toNat
  · rw [if_pos (BitVec.ult_iff_toNat_lt.2 h), min_eq_left (Nat.le_of_lt h), BitVec.ofNat_toNat, BitVec.setWidth_eq]
  · rw [if_neg (mt BitVec.ult_iff_toNat_lt.1 h), min_eq_right (Nat.not_lt.1 h), BitVec.ofNat_toNat, BitVec.setWidth_eq]

theorem max_unsigned_eq (a b : Word) : (if a.ult b then b else a) = BitVec.ofNat 64 (max a.toNat b.toNat) := by
  by_cases h : a.toNat < b.toNat
  · rw [if_pos (BitVec.ult_iff_toNat_lt.2 h), max_eq_right (Nat.le_of_lt h), BitVec.ofNat_toNat, BitVec.setWidth_eq]
  · rw [if_neg (mt BitVec.ult_iff_toNat_lt.1 h), max_eq_left (Nat.not_lt.1 h), BitVec.ofNat_toNat, BitVec.setWidth_eq]

/-! ### Extensions and bit fields (R78) -/

theorem extendLow_zero (w : Nat) (a : Word) : extendLow w false a = BitVec.ofNat 64 (a.toNat % 2 ^ w) := by
  apply BitVec.eq_of_toNat_eq
  rw [extendLow, if_neg Bool.false_ne_true, BitVec.toNat_setWidth, BitVec.toNat_setWidth, BitVec.toNat_ofNat]

theorem extendLow_sign (w : Nat) (a : Word) : extendLow w true a = BitVec.ofInt 64 ((a.toNat : Int).bmod (2 ^ w)) := by
  rw [extendLow, if_pos rfl, BitVec.signExtend, BitVec.toInt_setWidth]

/-- Sign and word agree modulo every width up to 64. -/
theorem toInt_bmod {w : Nat} (a : Word) (h : w ≤ 64) : a.toInt.bmod (2 ^ w) = (a.toNat : Int).bmod (2 ^ w) := by
  rw [BitVec.toInt_eq_toNat_bmod, Int.bmod_bmod_of_dvd (Nat.pow_dvd_pow 2 h)]

end Sys2Proof.Machine
end

section
/-! SUPPORT. What a scalar instruction of a checked bundle does, said once (R68 to R71): its result is scheduled, what it raises
is noted, and it is complete. -/

namespace Sys2Proof.Machine

open Sys2Proof.Claims

variable {s : State} {i : Issue} {x : Instr}

/-! ### Landings and events -/

/-- The bundle with the events of a slot noted. -/
def Issue.noting (i : Issue) (slot : Nat) (evs : List CellEv) : Issue :=
  { i with raises := if evs = [] then i.raises else i.raises ++ [⟨slot, evs⟩] }

theorem Issue.noting_nil (i : Issue) (slot : Nat) : i.noting slot [] = i := rfl

theorem landAt_eq_withLanding (y : Ctx) (k : LReg) (n : Nat) (v : Word) (lat : Nat) :
    y.landAt k n v lat = { y with land := withLanding y k n v lat } := by
  rw [Ctx.landAt_eq, withLanding]
  cases k <;> simp [discarded]

theorem scalarEvs_noKind : scalarEvs noKind = [] := by decide

/-- Events raised in a bundle are noted with their slot. -/
theorem State.raise_modCx (hi : s.cx.issue = some i) (evs : List CellEv) (f : Ctx → Ctx) :
    (s.raise evs).modCx f = s.setCx (f { s.cx with issue := some (i.noting s.turn.slot evs) }) := by
  cases evs with
  | nil =>
    have hsame : ({ s.cx with issue := some i } : Ctx) = s.cx := by rw [← hi]
    rw [Issue.noting_nil, hsame]
    rfl
  | cons e es => simp [State.raise, hi, Issue.noting, State.modCx]

/-- A slot whose effect ends in a change of its context that leaves a bundle without a fault in issue. -/
theorem act_of_setCx {t : State} {m : Meaning} {y : Ctx} {j : Issue} (he : m.effect s = t.setCx y) (hj : y.issue = some j)
    (hlate : j.late = none) : s.act m = t.setCx { y with issue := some { j with done := setField j.done t.turn.slot 1 1 } } := by
  rw [State.act_of he (by rw [State.cx_setCx]; exact hj) hlate, State.cx_setCx]
  exact State.setCx_setCx t y _

/-! ### A result (R68 to R71) -/

theorem landedRaising_nil (k : LReg) (n : Nat) (v : Word) (lat : Nat) : landedRaising s i k n v lat [] = landed s i k n v lat := rfl

/-- What a slot does whose effect is a result with events: the result is scheduled, the events are noted, and it is complete. -/
theorem act_of_result (hi : InIssue s i) {m : Meaning} {k : LReg} {d lat : Nat} {v : Word} {evs : List CellEv}
    (he : m.effect s = (s.raise evs).modCx fun y => y.landAt k d v lat) : s.act m = landedRaising s i k d v lat evs := by
  obtain ⟨hissue, -, hlate⟩ := hi
  have heffect : m.effect s = s.setCx { s.cx with
      land := withLanding s.cx k d v lat, issue := some (i.noting s.turn.slot evs) } := by
    rw [he, State.raise_modCx hissue, landAt_eq_withLanding]
    rfl
  exact act_of_setCx heffect rfl hlate

/-- A scalar instruction that is taken. -/
theorem exec_scalarTo (hi : InIssue s i) {k : LReg} {d lat : Nat} {v : Word} {evs : List CellEv}
    (hx : slotMeaning x s = some (scalarTo x true k d lat v evs)) : exec x s = .next (landedRaising s i k d v lat evs) := by
  rw [exec_slot hx, State.run_checked hi.1 hi.2.1, act_of_result hi rfl]
  rfl

theorem exec_aluR (hi : InIssue s i) {f : RForm} (ht : Taken s f.pr f.pn) {lat : Nat} {op : Word → Word → Word}
    (hx : slotMeaning x s = some (aluR x f lat op s)) :
    exec x s = .next (landed s i .g f.d.toNat (op (gOf s f.a) (gOf s f.b)) lat) :=
  exec_scalarTo hi (by rw [hx, aluR, ht])

theorem exec_aluI (hi : InIssue s i) {f : IForm} (ht : Taken s f.pr f.pn) {op : Word → BitVec 24 → Word}
    (hx : slotMeaning x s = some (aluI x f op s)) :
    exec x s = .next (landed s i .g f.d.toNat (op (gOf s f.a) f.imm) 1) :=
  exec_scalarTo hi (by rw [hx, aluI, ht])

theorem exec_aluL (hi : InIssue s i) {f : LForm} {op : Word → BitVec 34 → Word}
    (hx : slotMeaning x s = some (aluL x f op s)) :
    exec x s = .next (landed s i .g f.d.toNat (op (gOf s f.d) f.imm) 1) :=
  exec_scalarTo hi hx

theorem exec_predR (hi : InIssue s i) {f : RForm} (ht : Taken s f.pr f.pn) {q lat : Nat} {v : Ctx → Bool × Kinds}
    (hx : slotMeaning x s = some (predR x f q lat v s)) :
    exec x s = .next (landedRaising s i .p q (truth (v s.cx).1) lat (scalarEvs (v s.cx).2)) :=
  exec_scalarTo hi (by rw [hx, predR, ht]; rfl)

/-- A predicate result without an event. -/
theorem exec_predR_quiet (hi : InIssue s i) {f : RForm} (ht : Taken s f.pr f.pn) {q lat : Nat} {v : Ctx → Bool}
    (hx : slotMeaning x s = some (predR x f q lat (fun y => (v y, noKind)) s)) :
    exec x s = .next (landed s i .p q (truth (v s.cx)) lat) := by
  rw [exec_predR hi ht hx, scalarEvs_noKind, landedRaising_nil]

/-- Every scalar instruction has one result, with or without events. -/
theorem slotMeaning_of_isScalar (hx : IsScalar x) : ∃ m k d v lat evs, slotMeaning x s = some m ∧
    m.effect s = (s.raise evs).modCx fun y => y.landAt k d v lat := by
  cases x <;> simp only [IsScalar] at hx <;> exact ⟨_, _, _, _, _, _, rfl, rfl⟩

end Sys2Proof.Machine
end

section
/-! SUPPORT. The statements of the scalar instructions (R71 to R79). -/

namespace Sys2Proof.Machine

open Sys2Proof.Claims

/-- Settles O1, by the value of each operation on the words that the registers hold. -/
theorem arithmeticResults : Obligations.ArithmeticResults := by
  intro s i f e hi
  refine ⟨fun ht => ⟨?_, ?_, ?_, ?_, ?_⟩, fun ht => ?_⟩
  · rw [exec_aluR hi ht rfl, BitVec.ofInt_add, BitVec.ofInt_toInt, BitVec.ofInt_toInt]
  · rw [exec_aluR hi ht rfl, Int.sub_eq_add_neg, BitVec.ofInt_add, BitVec.ofInt_neg, BitVec.ofInt_toInt, BitVec.ofInt_toInt,
      ← BitVec.sub_eq_add_neg]
  · rw [exec_aluR hi ht rfl, BitVec.ofInt_mul, BitVec.ofInt_toInt, BitVec.ofInt_toInt]
  · rw [exec_aluR hi ht rfl, mulHiS_eq]
  · rw [exec_aluR hi ht rfl, mulHiU_eq]
  · rw [exec_aluI hi ht rfl, BitVec.ofInt_add, BitVec.ofInt_toInt]
    rfl

/-- Settles O2, by the four division operations. -/
theorem divisionResults : Obligations.DivisionResults := by
  intro s i f hi ht
  rw [exec_aluR hi ht rfl, exec_aluR hi ht rfl, exec_aluR hi ht rfl, exec_aluR hi ht rfl, divS_eq, divU_eq, remS_eq, remU_eq]
  exact ⟨rfl, rfl, rfl, rfl⟩

/-- Settles O3: an immediate is extended by its sign, and a shift's amount is taken modulo 64. -/
theorem logicShiftResults : Obligations.LogicShiftResults := by
  intro s i f e hi
  refine ⟨fun ht => ⟨?_, ?_, ?_, ?_, ?_, ?_, ?_⟩, fun ht => ⟨?_, ?_, ?_, ?_, ?_, ?_⟩⟩
  · rw [exec_aluR hi ht rfl]
  · rw [exec_aluR hi ht rfl]
  · rw [exec_aluR hi ht rfl]
  · rw [exec_aluR hi ht rfl, shiftLeft_eq_ofNat, shiftOf_eq]
  · rw [exec_aluR hi ht rfl, shiftRight_eq_ofNat, shiftOf_eq]
  · rw [exec_aluR hi ht rfl, sshiftRight_eq_ofInt, shiftOf_eq]
  · rw [exec_aluR hi ht rfl, shiftOf_eq, rotateLeft_eq_ofNat _ (Nat.mod_lt _ (by decide))]
  · exact exec_aluI (op := fun a m => a &&& sext64 m) hi ht rfl
  · exact exec_aluI (op := fun a m => a ||| sext64 m) hi ht rfl
  · exact exec_aluI (op := fun a m => a ^^^ sext64 m) hi ht rfl
  · rw [exec_aluI hi ht rfl, shiftLeft_eq_ofNat, fieldN_low]
    rfl
  · rw [exec_aluI hi ht rfl, shiftRight_eq_ofNat, fieldN_low]
    rfl
  · rw [exec_aluI hi ht rfl, sshiftRight_eq_ofInt, fieldN_low]
    rfl

/-- Settles O4: the zeros above the highest one bit, which the bounds of the word's length pin. -/
theorem countBoundResults : Obligations.CountBoundResults := by
  intro s i f hi ht
  refine ⟨⟨leadingZeros (gOf s f.a), Nat.sub_le _ _, ?_, fun hlt => ?_, ?_⟩, ?_, ?_, ?_, ?_, ?_⟩
  · rw [leadingZeros, Nat.sub_sub_self (bitLength_le _)]
    exact lt_two_pow_bitLength _
  · have hle := bitLength_le (gOf s f.a)
    rw [leadingZeros] at hlt ⊢
    have hidx : 63 - (64 - bitLength (gOf s f.a)) = bitLength (gOf s f.a) - 1 := by omega
    rw [hidx]
    exact two_pow_bitLength_le _ (by omega)
  · rw [exec_aluR hi ht rfl]
  · rw [exec_aluR hi ht rfl, popCount_eq]
  · rw [exec_aluR hi ht rfl, min_signed_eq]
  · rw [exec_aluR hi ht rfl, max_signed_eq]
  · rw [exec_aluR hi ht rfl, min_unsigned_eq]
  · rw [exec_aluR hi ht rfl, max_unsigned_eq]

/-- Settles O5, by the six conditions and the constant's two halves. -/
theorem compareMoveResults : Obligations.CompareMoveResults := by
  intro s i f e hi
  refine ⟨fun ht => ⟨fun r hr => ?_, ?_, ?_⟩, exec_aluL (op := fun _ m => sext64 m) hi rfl, ?_⟩
  · have hcond : cmpCond (f.fn.toNat / 2 ^ 15) (gOf s f.a) (gOf s f.b) = r := by
      rw [Bool.eq_iff_iff, hr]
      generalize f.fn.toNat / 2 ^ 15 = cc
      match cc with
      | 0 => exact beq_iff_eq
      | 1 => exact bne_iff_ne
      | 2 => exact BitVec.slt_iff_toInt_lt
      | 3 => exact BitVec.sle_iff_toInt_le
      | 4 => exact BitVec.ult_iff_toNat_lt
      | _ + 5 => exact BitVec.ule_iff_toNat_le
    have hcc : fieldN f.fn 15 3 = f.fn.toNat / 2 ^ 15 := fieldN_top f.fn rfl
    have hq : fieldN f.fn 12 3 = f.fn.toNat / 2 ^ 12 % 8 := fieldN_eq f.fn 12 3
    rw [exec_predR_quiet hi ht rfl, hcc, hq, ← hcond]
    rfl
  · rw [exec_aluR hi ht rfl, fieldN_eq]
    rfl
  · rw [exec_aluR hi ht rfl]
  · rw [exec_aluL hi rfl, setField_eq, Nat.div_eq_of_lt (gOf s e.d).isLt, Nat.zero_mul, Nat.zero_add]

/-- Settles O6, by the word that each extension and each field gives. -/
theorem bitFieldResults : Obligations.BitFieldResults := by
  intro s i f hi ht
  have hext : ∀ w : Nat, w ≤ 64 → extendLow w (!bit f.fn 0) (gOf s f.a) =
      if f.fn.getLsbD 0 then BitVec.ofNat 64 ((gOf s f.a).toNat % 2 ^ w) else BitVec.ofInt 64 ((gOf s f.a).toInt.bmod (2 ^ w)) := by
    intro w hw
    rw [bit]
    cases f.fn.getLsbD 0 with
    | true => exact extendLow_zero w _
    | false => rw [toInt_bmod _ hw]; exact extendLow_sign w _
  have hpos6 : fieldN f.fn 6 6 = f.fn.toNat / 2 ^ 6 % 64 := fieldN_eq f.fn 6 6
  have hlen6 : fieldN f.fn 0 6 = f.fn.toNat % 64 := fieldN_low f.fn 6
  refine ⟨?_, ?_, ?_, ?_, fun pos w hpos hw _ => ⟨?_, ?_⟩⟩
  · rw [exec_aluR hi ht rfl, shiftLeft_eq_ofNat, fieldN_low, BitVec.ofNat_add, BitVec.ofNat_toNat, BitVec.setWidth_eq]
    rfl
  · rw [exec_aluR hi ht rfl, hext 8 (by decide)]
  · rw [exec_aluR hi ht rfl, hext 16 (by decide)]
  · rw [exec_aluR hi ht rfl, hext 32 (by decide)]
  · have hshift : ((gOf s f.a) >>> pos).toNat = (gOf s f.a).toNat / 2 ^ pos := by
      rw [BitVec.toNat_ushiftRight, Nat.shiftRight_eq_div_pow]
    rw [exec_aluR hi ht rfl, hpos6, hlen6, ← hpos, ← hw, bitsOut, bit]
    cases f.fn.getLsbD 12 with
    | true => rw [extendLow_sign, hshift]; rfl
    | false => rw [extendLow_zero, hshift]; rfl
  · rw [exec_aluR hi ht rfl, hpos6, hlen6, ← hpos, ← hw, bitsIn, setField_eq]

/-- Settles O7: a predicate result lands its truth. -/
theorem predicateResults : Obligations.PredicateResults := by
  intro s i f hi ht
  refine ⟨?_, ?_, ?_⟩
  · rw [exec_predR_quiet hi ht rfl]
    rfl
  · rw [exec_predR_quiet hi ht rfl]
    rfl
  · rw [exec_predR_quiet hi ht rfl]
    rfl

/-- Settles O12: what a scalar instruction schedules and notes stands in its context, and memory is another part. -/
theorem scalarFrame : Obligations.ScalarFrame := by
  intro s t i x hi hx hexec
  obtain ⟨m, k, d, v, lat, evs, hm, heffect⟩ := slotMeaning_of_isScalar (s := s) hx
  rw [exec_slot hm, State.run_checked hi.1 hi.2.1, act_of_result hi heffect, State.complete_of hi.1] at hexec
  obtain rfl := Host.Outcome.next.inj hexec
  split
  · exact ⟨by rw [landedRaising, State.cx_setCx], fun a => rfl⟩
  · exact ⟨by rw [State.cx_setCx], fun a => rfl⟩

/-- Settles O13: a slot of a checked bundle that is not taken is complete. -/
theorem falsePredicate : Obligations.FalsePredicate := by
  intro s i x m hi hm hfalse
  rw [exec_slot hm, State.run_checked hi.1 hi.2.1, hfalse, if_neg Bool.false_ne_true, State.complete_of hi.1]
  rfl

/-- Settles O57, by running the decoder on each word. -/
theorem decodeWords : Obligations.DecodeWords := by
  unfold Obligations.DecodeWords
  decide +kernel

end Sys2Proof.Machine
end

section
/-! SUPPORT. Scalar results that land (R68): what each register file reads after the landings of a cycle. -/

namespace Sys2Proof.Machine

open Sys2Proof.Claims

/-- A part of what a fold builds: it changes at the entries that name it, in their order. -/
theorem read_foldl {α β γ : Type} {w : β → γ → β} {r : β → α} {hit : γ → Bool} {upd : α → γ → α}
    (hmiss : ∀ y e, hit e = false → r (w y e) = r y) (hhit : ∀ y e, hit e = true → r (w y e) = upd (r y) e)
    (es : List γ) (y : β) :
    r (es.foldl w y) = (es.filter hit).foldl upd (r y) := by
  induction es generalizing y with
  | nil => rfl
  | cons e es ih =>
    rw [List.foldl_cons, ih, List.filter_cons]
    cases h : hit e with
    | false => simp [hmiss y e h]
    | true => simp [hhit y e h]

/-- A scalar result lands on its register. -/
def landOn (y : Ctx) (e : Landing) : Ctx := y.writeReg e.kind e.idx e.val

theorem landOn_land (y : Ctx) (e : Landing) : (landOn y e).land = y.land := by
  obtain ⟨g, p, lap, heq, -⟩ := Ctx.writeReg_frame y e.kind e.idx e.val
  rw [landOn, heq]

theorem foldl_landOn_land (es : List Landing) (y : Ctx) : (es.foldl landOn y).land = y.land := by
  rw [read_foldl (r := Ctx.land) (hit := fun _ => false) (upd := fun l _ => l) (fun y e _ => landOn_land y e) (by simp)]
  simp

/-- The entries of a list for register `n` of a file. -/
def landingsOn (file : LReg) (n : Nat) (es : List Landing) : List Landing := es.filter fun e => e.kind == file && e.idx == n

theorem foldl_landOn_greg {n : Nat} (hn : n ≠ 0) (es : List Landing) (y : Ctx) :
    (es.foldl landOn y).greg n = (landingsOn .g n es).foldl (fun _ e => e.val) (y.greg n) := by
  refine read_foldl (r := fun y => Ctx.greg y n) ?_ ?_ es y
  · rintro y ⟨k, m, v, due⟩ h
    cases k with
    | g =>
      have hne : n ≠ m := fun heq => by simp [heq] at h
      rw [landOn, Ctx.greg_writeReg, if_neg hn, if_neg hne]
    | p => simp only [landOn, Ctx.writeReg]; split <;> rfl
    | lap => rfl
  · rintro y ⟨k, m, v, due⟩ h
    obtain ⟨rfl, rfl⟩ : k = .g ∧ m = n := by simpa using h
    rw [landOn, Ctx.greg_writeReg, if_neg hn, if_pos rfl]

theorem foldl_landOn_preg {n : Nat} (hn : n ≠ 0) (es : List Landing) (y : Ctx) :
    (es.foldl landOn y).preg n = (landingsOn .p n es).foldl (fun _ e => e.val != 0) (y.preg n) := by
  refine read_foldl (r := fun y => Ctx.preg y n) ?_ ?_ es y
  · rintro y ⟨k, m, v, due⟩ h
    cases k with
    | p =>
      have hne : n ≠ m := fun heq => by simp [heq] at h
      rw [landOn, Ctx.preg_writeReg, if_neg hn, if_neg hne]
    | g => simp only [landOn, Ctx.writeReg]; split <;> rfl
    | lap => rfl
  · rintro y ⟨k, m, v, due⟩ h
    obtain ⟨rfl, rfl⟩ : k = .p ∧ m = n := by simpa using h
    rw [landOn, Ctx.preg_writeReg, if_neg hn, if_pos rfl]

theorem foldl_landOn_lapReg (n : Nat) (es : List Landing) (y : Ctx) :
    (es.foldl landOn y).lapReg n = (landingsOn .lap n es).foldl (fun _ e => e.val) (y.lapReg n) := by
  refine read_foldl (r := fun y => Ctx.lapReg y n) ?_ ?_ es y
  · rintro y ⟨k, m, v, due⟩ h
    cases k with
    | lap =>
      have hne : n ≠ m := fun heq => by simp [heq] at h
      rw [landOn, Ctx.lapReg_writeReg, if_neg hne]
    | g => simp only [landOn, Ctx.writeReg]; split <;> rfl
    | p => simp only [landOn, Ctx.writeReg]; split <;> rfl
  · rintro y ⟨k, m, v, due⟩ h
    obtain ⟨rfl, rfl⟩ : k = .lap ∧ m = n := by simpa using h
    rw [landOn, Ctx.lapReg_writeReg, if_pos rfl]

theorem Ctx.landDue_eq (x : Ctx) : x.landDue =
    (x.land.filter fun e => e.due ≤ x.vt).foldl landOn { x with land := x.land.filter fun e => x.vt < e.due } := rfl

theorem Ctx.landDue_land (x : Ctx) : x.landDue.land = x.land.filter fun e => x.vt < e.due := by
  rw [Ctx.landDue_eq, foldl_landOn_land]

/-- The entries that are due for a register. -/
theorem landingsOn_due (x : Ctx) (file : LReg) (n : Nat) : landingsOn file n (x.land.filter fun e => e.due ≤ x.vt) =
    x.land.filter (fun e => decide (e.due ≤ x.vt) && e.kind == file && e.idx == n) := by
  rw [landingsOn, List.filter_filter]
  refine List.filter_congr fun e _ => ?_
  rw [Bool.and_comm, Bool.and_assoc]

theorem isCtx_of_lt {c k : Nat} (hc : c < 128) (hk : k < 4) : isCtx c k = true := by
  rw [isCtx, decide_eq_true (show c < Config.cores from hc), decide_eq_true (show k < Config.contexts from hk)]
  rfl

/-- A part of a virtual cycle of a context that exists. -/
theorem ctxStep_of_lt {c k : Nat} (hc : c < 128) (hk : k < 4) (ready : Bool) (s t : State) :
    ctxStep c k ready s t = .next (if ready then t else s) := by
  rw [ctxStep, if_pos (isCtx_of_lt hc hk)]

theorem execResultLanding_of_passes {s : State} {c k : Nat} (hc : c < 128) (hk : k < 4) (hp : s.passes c k = true) :
    execResultLanding c k s = .next (s.modCtxAt c k Ctx.landDue) := by
  rw [execResultLanding, ctxStep_of_lt hc hk, hp, if_pos rfl]

/-- Settles O11, register file by register file. -/
theorem landingsDue : Obligations.LandingsDue := by
  intro s c k hc hk hp
  refine ⟨_, execResultLanding_of_passes hc hk hp, rfl, by rw [State.ctxAt_modCtxAt_same, Ctx.landDue_land], ?_⟩
  rintro file n es rfl
  rw [State.ctxAt_modCtxAt_same, ← landingsOn_due, Ctx.landDue_eq]
  cases file with
  | g =>
    intro hn
    rw [foldl_landOn_greg hn]
    exact ⟨fun h => by rw [h]; rfl, fun e h => by rw [h]; rfl⟩
  | p =>
    intro hn
    rw [foldl_landOn_preg hn]
    exact ⟨fun h => by rw [h]; rfl, fun e h => by rw [h]; rfl⟩
  | lap =>
    dsimp only
    rw [foldl_landOn_lapReg]
    exact ⟨fun h => by rw [h]; rfl, fun e h => by rw [h]; rfl⟩

end Sys2Proof.Machine
end

section
/-! SUPPORT. What a flow instruction of a checked bundle does (R82 to R99, R299), by what its effect makes of the context and
of the bundle in issue. -/

namespace Sys2Proof.Machine

open Sys2Proof.Claims

variable {s : State} {i : Issue} {x : Instr} {m : Meaning}

/-! ### The effects of the flow instructions -/

theorem State.modIssue_of_issue (hi : s.cx.issue = some i) (f : Issue → Issue) :
    s.modIssue f = s.setCx { s.cx with issue := some (f i) } := by
  simp [State.modIssue, hi, State.modCx]

theorem State.transferTo_of_issue (hi : s.cx.issue = some i) (w : Word) :
    s.transferTo w = s.setCx { s.cx with issue := some { i with target := some w } } := by
  simp only [State.transferTo, hi, State.modIssue_of_issue hi]

/-- A transfer after a change of the context that leaves the bundle in issue. -/
theorem State.transferTo_setCx {y : Ctx} (hy : y.issue = some i) (w : Word) :
    (s.setCx y).transferTo w = s.setCx { y with issue := some { i with target := some w } } := by
  rw [State.transferTo_of_issue (by rw [State.cx_setCx]; exact hy), State.setCx_setCx, State.cx_setCx]

theorem unwind_eq_dropWhile (t : Nat) (es : List LoopEntry) :
    unwind t es = es.dropWhile fun e => decide (t < e.start.toNat) || decide (e.fin.toNat < t) := by
  induction es with
  | nil => rfl
  | cons e es ih =>
    rw [unwind, List.dropWhile_cons, ih]
    simp only [Bool.or_eq_true, decide_eq_true_eq]

/-- A transfer that unwinds, after a change of the context that leaves the bundle in issue. -/
theorem State.branchTo_setCx {y : Ctx} (hy : y.issue = some i) (w : Word) : (s.setCx y).branchTo w =
    s.setCx { y with loops := unwound y w, issue := some { i with target := some w } } := by
  have hloops : (s.setCx y).branchTo w = (s.setCx { y with loops := unwound y w }).transferTo w := by
    rw [State.branchTo, State.modCx, State.setCx_setCx, State.cx_setCx, unwind_eq_dropWhile]
    rfl
  exact hloops.trans (State.transferTo_setCx (y := { y with loops := unwound y w }) hy w)

theorem State.branchTo_modCx {f : Ctx → Ctx} (hf : (f s.cx).issue = some i) (w : Word) : (s.modCx f).branchTo w =
    s.setCx { f s.cx with loops := unwound (f s.cx) w, issue := some { i with target := some w } } :=
  State.branchTo_setCx hf w

theorem State.branchTo_of_issue (hi : s.cx.issue = some i) (w : Word) : s.branchTo w =
    s.setCx { s.cx with loops := unwound s.cx w, issue := some { i with target := some w } } := by
  rw [State.branchTo, State.modCx, unwind_eq_dropWhile]
  exact State.transferTo_setCx (y := { s.cx with loops := unwound s.cx w }) hi w

theorem State.afterBundle_of_issue (hi : s.cx.issue = some i) (r : RunState) :
    s.afterBundle r = s.setCx { s.cx with issue := some { i with ending := r } } := by
  simp only [State.afterBundle, hi, State.modIssue_of_issue hi]

theorem State.pushLoop_of_issue (hi : s.cx.issue = some i) (t : Nat) (count : BitVec 32) : s.pushLoop t count =
    s.setCx { s.cx with loops := s.cx.loops ++ [⟨i.next, BitVec.ofNat 17 t, count⟩] } := by
  have hnext : s.cx.issueNext = i.next := by rw [Ctx.issueNext, hi]
  rw [State.pushLoop, State.modCx, hnext]

theorem State.setLaunch_setCore (s : State) (l c : Nat) (y : Launch) (k : Core) :
    (s.setCore c k).setLaunch l y = (s.setLaunch l y).setCore c k := rfl

theorem State.cores_progress (s : State) (c : Nat) : (s.progress c).cores = s.cores := by
  unfold State.progress
  split
  · rfl
  · exact State.modLaunch_cores ..

theorem State.turn_progress (s : State) (c : Nat) : (s.progress c).turn = s.turn := by
  unfold State.progress
  split
  · rfl
  · exact State.modLaunch_turn ..

theorem State.cx_progress (s : State) (c : Nat) : (s.progress c).cx = s.cx := by
  simp only [State.cx, State.ctxAt, State.core, State.cores_progress, State.turn_progress]

/-- The launch's progress does not depend on the context. -/
theorem State.progress_setCx (s : State) (y : Ctx) (c : Nat) : (s.setCx y).progress c = (s.progress c).setCx y := by
  have hlaunch : ((s.setCx y).core c).launch = (s.core c).launch := by
    by_cases h : c = s.turn.core
    · subst h
      rw [State.setCx, State.setCtxAt, State.core_setCore_same]
      rfl
    · rw [State.setCx, State.setCtxAt, State.core_setCore_other _ h]
  unfold State.progress
  rw [hlaunch]
  cases (s.core c).launch with
  | none => rfl
  | some l =>
    show (s.setCx y).modLaunch l _ = (s.modLaunch l _).setCx y
    unfold State.modLaunch
    show (match s.launch? l with | some _ => _ | none => _) = _
    cases s.launch? l <;> rfl

/-! ### A flow instruction in its bundle -/

theorem exec_of_taken (hi : InIssue s i) (hx : slotMeaning x s = some m) (ht : m.taken = true) : exec x s = .next (s.act m) := by
  rw [exec_slot hx, State.run_checked hi.1 hi.2.1, if_pos ht]

/-- One that changes the context and leaves a bundle without a fault in issue. -/
theorem exec_of_setCx (hi : InIssue s i) (hx : slotMeaning x s = some m) (ht : m.taken = true) {y : Ctx} {j : Issue}
    (he : m.effect s = s.setCx y) (hj : y.issue = some j) (hlate : j.late = none) :
    exec x s = .next (s.setCx { y with issue := some { j with done := setField j.done s.turn.slot 1 1 } }) := by
  rw [exec_of_taken hi hx ht, act_of_setCx he hj hlate]

/-- One that only completes. -/
theorem exec_of_id (hi : InIssue s i) (hx : slotMeaning x s = some m) (ht : m.taken = true) (he : m.effect s = s) :
    exec x s = .next (changed s i id) := by
  rw [exec_of_taken hi hx ht, State.act_id hi.1 hi.2.2 he, State.complete_of hi.1]
  rfl

/-- One outside a bundle that passes its check and is not ready starts what it waits for. -/
theorem exec_of_unready (hissue : s.cx.issue = none) (hx : slotMeaning x s = some m) (hcause : s.slotCause m.check = none)
    (ht : m.taken = true) (hearly : m.early false = none) (hready : m.ready = false) : exec x s = .next (m.prepare s) := by
  rw [exec_slot hx, State.run, State.checkPassed_of_none hissue]
  simp [hcause, ht, hearly, hready]

/-- A legal slot without a result or a cause of its own passes its check where the landing buffer is not over-full. -/
theorem State.slotCause_none (hroom : s.cx.land.length ≤ 24) : s.slotCause { illegal := false, other := none } = none := by
  have : ¬ 24 < s.cx.land.length := Nat.not_lt.2 hroom
  simp [State.slotCause, landTwice, this]

/-- A wait outside a bundle that is not met. -/
theorem exec_wait (hissue : s.cx.issue = none) (hroom : s.cx.land.length ≤ 24) {f : FForm} (ht : Taken s f.pr f.pn)
    {ready : Bool} (hready : ready = false) (hlegal : legal x = true)
    (hx : slotMeaning x s = some { flowOp x f none id s with ready := ready }) : exec x s = .next s := by
  refine exec_of_unready hissue hx ?_ ht rfl hready
  have hcheck : (flowOp x f none id s).check = { illegal := false, other := none } := by
    simp [flowOp, hlegal]
  rw [hcheck]
  exact State.slotCause_none hroom

theorem fTarget_eq (f : FForm) : fTarget f = f.tgt.toNat % 2 ^ 16 := fieldN_low f.tgt 16

theorem fHandle_eq (f : FForm) : fHandle f = f.a.toNat % 16 := fieldN_low f.a 4

theorem fCount_eq (f : FForm) : fCount f = f.tgt.toNat % 2 ^ 16 := fieldN_low f.tgt 16

end Sys2Proof.Machine
end

section
/-! SUPPORT. The statements of the flow instructions (R82 to R99, R299). -/

namespace Sys2Proof.Machine

open Sys2Proof.Claims

/-- Settles O15, by the transfer that each makes. -/
theorem transferResults : Obligations.TransferResults := by
  intro s i f hi ht
  have hbranch : ∀ w, s.branchTo w =
      s.setCx { s.cx with loops := unwound s.cx w, issue := some { i with target := some w } } :=
    State.branchTo_of_issue hi.1
  have htgt : BitVec.ofNat 64 (fTarget f) = targetOfF f := by rw [fTarget_eq, targetOfF]
  refine ⟨?_, fun r hr => ?_, ?_, ?_, ?_⟩
  · rw [← htgt]
    exact exec_of_setCx (m := meanBr f s) hi rfl ht (hbranch _) rfl hi.2.2
  · have hcond : brcCond (fieldN f.b 3 3) (gOf s f.a) = r := by
      have hcc : fieldN f.b 3 3 = f.b.toNat / 8 := fieldN_top f.b rfl
      rw [Bool.eq_iff_iff, hr, hcc]
      generalize f.b.toNat / 8 = cc
      match cc with
      | 0 => exact beq_iff_eq
      | 1 => exact bne_iff_ne
      | 2 => exact BitVec.slt_iff_toInt_lt
      | 3 => exact BitVec.sle_iff_toInt_le
      | 4 => exact BitVec.slt_iff_toInt_lt
      | _ + 5 => exact BitVec.sle_iff_toInt_le
    cases r with
    | true =>
      rw [← htgt]
      exact exec_of_setCx (m := meanBrc f s) hi rfl ht ((if_pos hcond).trans (hbranch _)) rfl hi.2.2
    | false => exact exec_of_id (m := meanBrc f s) hi rfl ht (if_neg (Bool.eq_false_iff.1 hcond))
  · exact exec_of_setCx (m := meanJmp f s) hi rfl ht (hbranch _) rfl hi.2.2
  · exact exec_of_setCx (m := meanRet f s) hi rfl ht (State.transferTo_of_issue hi.1 _) rfl hi.2.2
  · have hlink : s.cx.issueNext = i.next := by rw [Ctx.issueNext, hi.1]
    have heffect : (meanCall f s).effect s = s.setCx { s.cx with
        land := withLanding s.cx .g f.a.toNat (i.next.setWidth 64) 1, issue := some { i with target := some (targetOfF f) } } := by
      show (s.modCx fun y => y.landAt .g f.a.toNat (s.cx.issueNext.setWidth 64) 1).transferTo _ = _
      rw [State.modCx, landAt_eq_withLanding, hlink, htgt]
      exact State.transferTo_setCx (y := { s.cx with land := withLanding s.cx .g f.a.toNat (i.next.setWidth 64) 1 }) hi.1 (targetOfF f)
    rw [exec_of_setCx (m := meanCall f s) hi rfl ht heffect rfl hi.2.2, jumped, State.setCx_setCx, State.cx_setCx]
    rfl

/-- Settles O16, by what each makes of the loop stack. -/
theorem loopResults : Obligations.LoopResults := by
  intro s i f hi ht
  refine ⟨?_, ?_, ?_, ?_⟩
  · intro hpos _
    have hne : (gOf s f.a).toNat ≠ 0 := Nat.pos_iff_ne_zero.1 hpos
    rw [← fTarget_eq]
    exact exec_of_setCx (m := meanLoop f s) hi rfl ht ((if_neg hne).trans (State.pushLoop_of_issue hi.1 _ _)) hi.1 hi.2.2
  · intro hzero
    have hz : (gOf s f.a).toNat = 0 := by rw [hzero]; rfl
    rw [← fTarget_eq]
    exact exec_of_setCx (m := meanLoop f s) hi rfl ht ((if_pos hz).trans (State.transferTo_of_issue hi.1 _)) rfl hi.2.2
  · rw [← fTarget_eq]
    exact exec_of_setCx (m := meanLoopi f s) hi rfl ht (State.pushLoop_of_issue hi.1 _ _) hi.1 hi.2.2
  · intro _
    have htgt : BitVec.ofNat 64 (fTarget f) = targetOfF f := by rw [fTarget_eq, targetOfF]
    rw [← htgt]
    have heffect : (meanBreakl f s).effect s =
        (s.modCx fun x => { x with loops := x.loops.dropLast }).branchTo (BitVec.ofNat 64 (fTarget f)) := by
      rw [meanBreakl, flowOp]
    rw [State.branchTo_modCx hi.1] at heffect
    rw [exec_of_setCx (m := meanBreakl f s) hi rfl ht heffect rfl hi.2.2]
    dsimp only [jumped, ticked]

/-- Settles O18: a wait has no effect; alone it is not ready where its condition fails. -/
theorem waitResults : Obligations.WaitResults := by
  intro s f ht
  refine ⟨fun i hi => ⟨exec_of_id (m := meanWaitb f s) hi rfl ht rfl, exec_of_id (m := meanWaitt f s) hi rfl ht rfl,
    exec_of_id (m := meanWaitf f s) hi rfl ht rfl⟩, fun hissue hroom => ⟨?_, ?_, ?_⟩⟩
  · intro h hlegal hh hcount hunmet
    rw [← fHandle_eq] at hh
    rw [← fCount_eq] at hcount hunmet
    have hfits : ¬ h.count < fCount f := Nat.not_lt.2 hcount
    refine exec_wait (x := .waitb f) (f := f) (ready := waitbMet f s) hissue hroom ht ?_ hlegal ?_
    · rw [waitbMet, hh]
      dsimp only
      rw [if_neg hfits, bit]
      split at hunmet
      next hfree => rw [if_pos hfree, decide_eq_false (Nat.not_le.2 hunmet)]
      next hfill => rw [if_neg hfill, decide_eq_false (Nat.not_le.2 hunmet)]
    · show some (meanWaitb f s) = _
      rw [meanWaitb, hh]
      dsimp only
      rw [if_neg hfits]
  · intro e hlegal he hunmet
    have he' : s.cx.timeline? (fieldN f.a 0 3) = some e := by rw [fieldN_low]; exact he
    refine exec_wait (x := .waitt f) (f := f) (ready := waittMet f s) hissue hroom ht ?_ hlegal ?_
    · rw [waittMet, he']
      dsimp only
      rw [BitVec.toNat_add, zext64, BitVec.toNat_setWidth_of_le (by decide)]
      exact decide_eq_false (Nat.not_le.2 hunmet)
    · show some (meanWaitt f s) = _
      rw [meanWaitt, he']
      rfl
  · intro g hlegal hg hstation hunmet
    have hst : waitfStation f = f.tgt.toNat % 2 ^ 8 := fieldN_low f.tgt 8
    have hlap : fieldN f.a 0 2 = f.a.toNat % 4 := fieldN_low f.a 2
    rw [← hst] at hstation hunmet
    have hin : ¬ g.stations ≤ waitfStation f := Nat.not_le.2 hstation
    refine exec_wait (x := .waitf f) (f := f) (ready := waitfMet f s) hissue hroom ht ?_ hlegal ?_
    · rw [waitfMet, hg]
      dsimp only
      rw [hlap, decide_eq_false hin, Bool.false_or]
      exact decide_eq_false (Nat.not_lt.2 hunmet)
    · show some (meanWaitf f s) = _
      rw [meanWaitf, hg, stationCause]
      dsimp only
      rw [if_neg hin]

/-- Settles O19, by what an advance makes of its handle. -/
theorem advanceResults : Obligations.AdvanceResults := by
  rintro s i f n h hi ht rfl hh
  rw [← fHandle_eq] at hh ⊢
  rw [← fCount_eq]
  have hnone : ∀ fill, fCount f = 0 → s.advanceHandle (fHandle f) fill (fCount f) = s := by
    intro fill hzero
    rw [State.advanceHandle, hh]
    exact if_pos hzero
  have hsome : ∀ fill, 0 < fCount f → s.advanceHandle (fHandle f) fill (fCount f) = s.setCx { s.cx with
      h := set 0 (fHandle f) (if fill then h.advanceFill (fCount f) else h.advanceDrain (fCount f)).word s.cx.h
      advances := s.cx.advances ++
        [⟨fHandle f, fill, fCount f, (s.cc.publishAt s.cx h fill).1, (s.cc.publishAt s.cx h fill).2⟩] } := by
    intro fill hpos
    rw [State.advanceHandle, hh]
    exact if_neg (Nat.pos_iff_ne_zero.1 hpos)
  refine ⟨fun hzero => ⟨?_, ?_⟩, fun hpos _ => ?_, fun hpos _ => ?_⟩
  · exact exec_of_id (m := meanAdvp f s) hi rfl ht (hnone true hzero)
  · exact exec_of_id (m := meanAdvc f s) hi rfl ht (hnone false hzero)
  · exact exec_of_setCx (m := meanAdvp f s) hi rfl ht (hsome true hpos) hi.1 hi.2.2
  · exact exec_of_setCx (m := meanAdvc f s) hi rfl ht (hsome false hpos) hi.1 hi.2.2

/-- What the context does after a bundle whose F slot sets it. -/
theorem act_of_afterBundle {s t : State} {i : Issue} {m : Meaning} (hi : InIssue t i) {r : RunState}
    (he : m.effect s = t.afterBundle r) : s.act m = ends t i r := by
  have hissue : (t.setCx { t.cx with issue := some { i with ending := r } }).cx.issue = some { i with ending := r } := by
    rw [State.cx_setCx]
  rw [State.afterBundle_of_issue hi.1] at he
  rw [State.act_of he hissue hi.2.2, State.cx_setCx]
  exact State.setCx_setCx t _ _

/-- A context that has declared its next yield point, `n` cycles on (R95, R359). -/
def yielded (x : Ctx) (n : Nat) : Ctx :=
  { x with yieldPt := some (if n = 0xFFFFFFFF then none else some (x.vt + n)), yieldLevel := x.depth, yieldEnd := n == 0 }

/-- YIELD's effect: progress, the yield point and, under a drain request, the stop after the bundle. -/
theorem meanYield_effect {s : State} {i : Issue} (hi : s.cx.issue = some i) (f : FForm) :
    (meanYield f s).effect s = (s.progress s.turn.core).setCx { yielded s.cx (fieldN f.tgt 0 32) with
      issue := some { i with ending := if s.cx.drainReq && s.cx.depth == 0 then .drained else i.ending } } := by
  have hy : (s.modCx fun x => yielded x (fieldN f.tgt 0 32)).progress s.turn.core =
      (s.progress s.turn.core).setCx (yielded s.cx (fieldN f.tgt 0 32)) := State.progress_setCx s _ _
  have hcx : ((s.progress s.turn.core).setCx (yielded s.cx (fieldN f.tgt 0 32))).cx = yielded s.cx (fieldN f.tgt 0 32) :=
    State.cx_setCx ..
  have hend : (yielded s.cx (fieldN f.tgt 0 32)).issue = some i := hi
  have heffect : (meanYield f s).effect s =
      let u := (s.modCx fun x => yielded x (fieldN f.tgt 0 32)).progress s.turn.core
      if u.cx.drainReq && u.cx.depth == 0 then u.afterBundle .drained else u := rfl
  rw [heffect, hy]
  dsimp only
  rw [hcx, show (yielded s.cx (fieldN f.tgt 0 32)).drainReq = s.cx.drainReq from rfl,
    show (yielded s.cx (fieldN f.tgt 0 32)).depth = s.cx.depth from rfl]
  cases hdrain : (s.cx.drainReq && s.cx.depth == 0) with
  | true =>
    rw [if_pos rfl, State.afterBundle_of_issue (hcx ▸ hend), State.setCx_setCx, hcx]
    rfl
  | false =>
    rw [if_neg Bool.false_ne_true, if_neg Bool.false_ne_true]
    have hsame : ({ yielded s.cx (fieldN f.tgt 0 32) with issue := some i } : Ctx) = yielded s.cx (fieldN f.tgt 0 32) := by
      rw [← hend]
    exact congrArg _ hsame.symm

/-- Settles O20, by what each sets for the bundle's end. -/
theorem endingResults : Obligations.EndingResults := by
  intro s i f hi ht
  have hprog : InIssue (s.progress s.turn.core) i := ⟨by rw [State.cx_progress]; exact hi.1, hi.2⟩
  refine ⟨?_, ?_, ?_, ?_, ?_⟩
  · rw [exec_of_taken (m := meanEndOp f s) hi rfl ht, act_of_afterBundle hprog rfl]
  · rw [exec_of_taken (m := meanSleep f s) hi rfl ht, act_of_afterBundle hprog rfl]
  · rw [exec_of_taken (m := meanRft f s) hi rfl ht, act_of_afterBundle hi rfl]
  · have heffect : (meanTrap f s).effect s =
        s.setCx { s.cx with issue := some { i with user := some (BitVec.ofNat 16 (f.tgt.toNat % 2 ^ 16)) } } := by
      have hcode : (field f.tgt 0 16 : BitVec 16) = BitVec.ofNat 16 (f.tgt.toNat % 2 ^ 16) := by
        apply BitVec.eq_of_toNat_eq
        rw [field, BitVec.extractLsb'_toNat, BitVec.toNat_ofNat, Nat.shiftRight_zero, Nat.mod_mod]
      show (match s.cx.issue with | some _ => s.modIssue _ | none => _) = _
      rw [hi.1]
      dsimp only
      rw [State.modIssue_of_issue hi.1, hcode]
    exact exec_of_setCx (m := meanTrap f s) hi rfl ht heffect rfl hi.2.2
  · rintro n rfl
    have hn : fieldN f.tgt 0 32 = f.tgt.toNat % 2 ^ 32 := fieldN_low f.tgt 32
    rw [exec_of_taken (m := meanYield f s) hi rfl ht, act_of_setCx (meanYield_effect hi.1 f) rfl hi.2.2, hn, State.turn_progress]
    rfl

end Sys2Proof.Machine
end

section
/-! SUPPORT. Numeric events on record (R121 to R123): what noting the events of slots and streams appends to a core's event
queue and adds to its context's sticky flags. -/

namespace Sys2Proof.Machine

open Sys2Proof.Claims

variable {s : State} {c k : Nat}

/-! ### Records (R122) -/

theorem foldl_count_eq_sum (evs : List CellEv) :
    evs.foldl (fun n e => n + e.item.count) 0 = (evs.map fun e => e.item.count).sum := by
  rw [List.sum_eq_foldl_nat, List.foldl_map]

theorem foldl_min_eq (evs : List CellEv) (a : Nat) :
    evs.foldl (fun m e => min m e.cell) a = (evs.map fun e => e.cell).foldl min a := by
  rw [List.foldl_map]

/-- A kind that was raised has the record of R122. -/
theorem eventRecord_eq {pc : CodeAddr} {slot : Nat} {vt : Word} {evs : List CellEv} {kind : Nat} :
    eventRecord (((pc.toNat % 65536) <<< 48) + (slot <<< 45) + (k <<< 34) + vt.toNat % 2 ^ 32) (slot < 2) evs kind =
      if evs.any (fun e => e.item.kind == kind) then some (recordOf k pc slot vt evs kind) else none := by
  rw [eventRecord, recordOf]
  cases hhit : evs.filter fun e => e.item.kind == kind with
  | nil =>
    have hany : ¬ evs.any (fun e => e.item.kind == kind) = true := by
      simpa [List.filter_eq_nil_iff] using hhit
    rw [if_neg hany]
  | cons e es =>
    have hany : evs.any (fun e => e.item.kind == kind) = true := by
      have hmem : e ∈ evs.filter fun e => e.item.kind == kind := by rw [hhit]; exact List.mem_cons_self
      exact List.any_eq_true.2 ⟨e, List.mem_filter.1 hmem⟩
    have hcell : (e :: es).foldl (fun m x => min m x.cell) e.cell = ((e :: es).map fun e => e.cell).min?.getD 0 := by
      rw [foldl_min_eq, List.map_cons, List.min?_cons', List.foldl_cons, min_self]
      rfl
    have hword : ((pc.toNat % 65536) <<< 48) + (slot <<< 45) + (k <<< 34) + vt.toNat % 2 ^ 32 + (kind <<< 40) =
        pc.toNat % 2 ^ 16 * 2 ^ 48 + slot * 2 ^ 45 + kind * 2 ^ 40 + k * 2 ^ 34 + vt.toNat % 2 ^ 32 := by
      simp only [Nat.shiftLeft_eq]
      omega
    rw [if_pos hany]
    dsimp only
    rw [hcell, hword, foldl_count_eq_sum, squadMask, ← List.sum_eq_foldl_nat, List.foldl_map]
    simp only [Nat.shiftLeft_eq, decide_eq_true_eq]
    split <;> rfl

theorem filterMap_ite_some {α β : Type} (p : α → Bool) (f : α → β) (xs : List α) :
    (xs.filterMap fun a => if p a then some (f a) else none) = (xs.filter p).map f := by
  induction xs with
  | nil => rfl
  | cons a xs ih =>
    rw [List.filterMap_cons, List.filter_cons]
    cases p a <;> simp [ih]

theorem recordsOf_eq (pc : CodeAddr) (slot : Nat) (vt : Word) (evs : List CellEv) :
    ((List.range 8).filterMap fun kind =>
      eventRecord (((pc.toNat % 65536) <<< 48) + (slot <<< 45) + (k <<< 34) + vt.toNat % 2 ^ 32) (slot < 2) evs kind) =
      recordsOf k pc slot vt evs := by
  simp only [eventRecord_eq]
  exact filterMap_ite_some _ _ _

theorem recordsOf_nil (pc : CodeAddr) (slot : Nat) (vt : Word) : recordsOf k pc slot vt [] = [] := rfl

/-! ### Sticky flags (R123) -/

/-- The bits of SYS.EVFLAGS that events set. -/
def flagWord (evs : List CellEv) : Word := BitVec.ofNat 64 ((kindsOf evs).foldl (fun n kind => n + 2 ^ kind) 0)

theorem sum_two_pow_testBit (p : Nat → Bool) (q : Nat) : ∀ n : Nat,
    (((List.range n).filter p).map fun j => 2 ^ j).sum < 2 ^ n ∧
    (((List.range n).filter p).map fun j => 2 ^ j).sum.testBit q = (decide (q < n) && p q) := by
  intro n
  induction n with
  | zero => simp
  | succ n ih =>
    obtain ⟨hlt, hbit⟩ := ih
    rw [List.range_succ, List.filter_append, List.map_append, List.sum_append]
    cases hp : p n with
    | false =>
      have hkeep : (decide (q < n + 1) && p q) = (decide (q < n) && p q) := by
        rcases Nat.lt_trichotomy q n with h | rfl | h
        · simp [h, Nat.lt_succ_of_lt h]
        · simp [hp]
        · simp [Nat.not_lt.2 (Nat.le_of_lt h), Nat.not_lt.2 h]
      simp only [List.filter_cons, hp, Bool.false_eq_true, if_false, List.filter_nil, List.map_nil, List.sum_nil, Nat.add_zero]
      exact ⟨Nat.lt_of_lt_of_le hlt (Nat.pow_le_pow_right (by decide) (Nat.le_succ n)), hbit.trans hkeep.symm⟩
    | true =>
      simp only [List.filter_cons, hp, if_true, List.filter_nil, List.map_cons, List.map_nil, List.sum_cons, List.sum_nil,
        Nat.add_zero]
      refine ⟨by rw [Nat.pow_succ]; omega, ?_⟩
      have hadd := Nat.testBit_two_pow_mul_add 1 hlt q
      rw [Nat.mul_one, Nat.add_comm] at hadd
      rw [hadd]
      rcases Nat.lt_trichotomy q n with h | rfl | h
      · simp [h, hbit, Nat.lt_succ_of_lt h]
      · simp [hp]
      · have hone : Nat.testBit 1 (q - n) = false := Nat.testBit_lt_two_pow (Nat.one_lt_two_pow (by omega))
        simp [Nat.not_lt.2 (Nat.le_of_lt h), Nat.not_lt.2 h, hone]

theorem flagWord_getLsbD (evs : List CellEv) (q : Nat) :
    (flagWord evs).getLsbD q = (decide (q < 8) && evs.any fun e => e.item.kind == q) := by
  have hsum : (kindsOf evs).foldl (fun n kind => n + 2 ^ kind) 0 = ((kindsOf evs).map fun j => 2 ^ j).sum := by
    rw [List.sum_eq_foldl_nat, List.foldl_map]
  rw [flagWord, hsum, BitVec.getLsbD_ofNat, kindsOf, (sum_two_pow_testBit _ q 8).2]
  by_cases h : q < 8
  · rw [decide_eq_true (Nat.lt_trans h (by decide)), Bool.true_and]
  · simp [h]

/-! ### Noting events -/

/-- Core `c` with records appended to its queue, and its context `k` as given. -/
def State.recording (s : State) (c k : Nat) (recs : List (Word × Word)) (y : Ctx) : State :=
  s.setCore c ((recs.foldl Core.appendEvent (s.core c)).setCtx k y)

theorem Core.appendEvent_setCtx (x : Core) (k : Nat) (y : Ctx) (r : Word × Word) :
    (x.setCtx k y).appendEvent r = (x.appendEvent r).setCtx k y := by
  unfold Core.appendEvent
  show (if x.evq.length < 64 then _ else _) = _
  split <;> rfl

theorem Core.foldl_appendEvent_setCtx (x : Core) (k : Nat) (y : Ctx) (recs : List (Word × Word)) :
    recs.foldl Core.appendEvent (x.setCtx k y) = (recs.foldl Core.appendEvent x).setCtx k y := by
  induction recs generalizing x with
  | nil => rfl
  | cons r recs ih => rw [List.foldl_cons, Core.appendEvent_setCtx, ih, List.foldl_cons]

theorem Core.foldl_appendEvent_ctxs (x : Core) (recs : List (Word × Word)) : (recs.foldl Core.appendEvent x).ctxs = x.ctxs := by
  induction recs generalizing x with
  | nil => rfl
  | cons r recs ih =>
    rw [List.foldl_cons, ih, Core.appendEvent]
    split <;> rfl

@[simp] theorem State.ctxAt_recording (s : State) (c k : Nat) (recs : List (Word × Word)) (y : Ctx) :
    (s.recording c k recs y).ctxAt c k = y := by
  simp [State.recording, State.ctxAt]

theorem State.core_recording (s : State) (c k : Nat) (recs : List (Word × Word)) (y : Ctx) :
    (s.recording c k recs y).core c = (recs.foldl Core.appendEvent (s.core c)).setCtx k y :=
  State.core_setCore_same ..

theorem State.recording_recording (s : State) (c k : Nat) (r r' : List (Word × Word)) (y z : Ctx) :
    (s.recording c k r y).recording c k r' z = s.recording c k (r ++ r') z := by
  rw [State.recording, State.core_recording, Core.foldl_appendEvent_setCtx, Core.setCtx_setCtx, ← List.foldl_append,
    State.recording, State.setCore_setCore]
  rfl

theorem State.modCtxAt_recording (s : State) (c k : Nat) (r : List (Word × Word)) (y : Ctx) (f : Ctx → Ctx) :
    (s.recording c k r y).modCtxAt c k f = s.recording c k r (f y) := by
  rw [State.modCtxAt, State.ctxAt_recording, State.setCtxAt, State.core_recording, Core.setCtx_setCtx, State.recording,
    State.setCore_setCore]
  rfl

/-- The events of one slot or stream, with what names them in their records. -/
structure Noted where
  pc : CodeAddr
  slot : Nat
  vt : Word
  evs : List CellEv

/-- Their records. -/
def Noted.records (n : Noted) (k : Nat) : List (Word × Word) := recordsOf k n.pc n.slot n.vt n.evs

/-- What noting them does: nothing where there are none. -/
def Noted.note (c k : Nat) (s : State) (n : Noted) : State :=
  if n.evs.isEmpty then s else s.events c k n.pc n.slot n.vt n.evs

/-- A context whose sticky flags have gained those of noted events. -/
def Ctx.flagged (x : Ctx) (ns : List Noted) : Ctx := { x with evflags := ns.foldl (fun w n => w ||| flagWord n.evs) x.evflags }

theorem Ctx.flagged_nil (x : Ctx) : x.flagged [] = x := rfl

theorem Ctx.flagged_flagged (x : Ctx) (ns ms : List Noted) : (x.flagged ns).flagged ms = x.flagged (ns ++ ms) := by
  simp only [Ctx.flagged, List.foldl_append]

theorem State.events_eq (s : State) (c k : Nat) (n : Noted) : s.events c k n.pc n.slot n.vt n.evs =
    s.recording c k (n.records k) ((s.ctxAt c k).flagged [n]) := by
  have hctx : (s.setCore c ((n.records k).foldl Core.appendEvent (s.core c))).ctxAt c k = s.ctxAt c k := by
    rw [State.ctxAt, State.core_setCore_same, Core.ctx, Core.foldl_appendEvent_ctxs]
    rfl
  rw [State.events, recordsOf_eq, ← Noted.records, State.modCtxAt, hctx, State.setCtxAt, State.core_setCore_same,
    State.setCore_setCore]
  rfl

/-- Noting events and then changing the context. -/
theorem State.modCtxAt_foldl_note (ns : List Noted) (s : State) (f : Ctx → Ctx) : (ns.foldl (Noted.note c k) s).modCtxAt c k f =
    s.recording c k (ns.map fun n => n.records k).flatten (f ((s.ctxAt c k).flagged ns)) := by
  induction ns generalizing s with
  | nil => rfl
  | cons n ns ih =>
    rw [List.foldl_cons, ih, Noted.note]
    cases hevs : n.evs with
    | nil =>
      have hflag : (s.ctxAt c k).flagged (n :: ns) = (s.ctxAt c k).flagged ns := by
        simp [Ctx.flagged, hevs, flagWord, kindsOf]
      rw [if_pos List.isEmpty_nil, hflag, List.map_cons, List.flatten_cons, Noted.records, hevs, recordsOf_nil]
      rfl
    | cons e es =>
      rw [← hevs, if_neg (by rw [hevs]; simp), State.events_eq, State.recording_recording, State.ctxAt_recording, Ctx.flagged_flagged]
      rfl

/-! ### The queue (R121) -/

/-- Records fill the queue up to 64 entries; the others are counted. -/
theorem Core.foldl_appendEvent (recs : List (Word × Word)) (x : Core) {room : Nat} (hroom : room = 64 - x.evq.length) :
    (recs.foldl Core.appendEvent x).evq = x.evq ++ recs.take room ∧
    (recs.foldl Core.appendEvent x).evOvf = (x.evOvf || decide (room < recs.length)) ∧
    (recs.foldl Core.appendEvent x).evDrop.toNat = min (x.evDrop.toNat + (recs.length - room)) (2 ^ 32 - 1) := by
  induction recs generalizing x room with
  | nil =>
    have := x.evDrop.isLt
    simp only [List.foldl_nil, List.take_nil, List.append_nil, List.length_nil, Nat.not_lt_zero, decide_false, Bool.or_false,
      Nat.zero_sub, Nat.add_zero]
    exact ⟨trivial, trivial, by omega⟩
  | cons r recs ih =>
    rw [List.foldl_cons, Core.appendEvent]
    by_cases hfull : x.evq.length < 64
    · rw [if_pos hfull]
      obtain ⟨n, rfl⟩ : ∃ n, room = n + 1 := ⟨room - 1, by omega⟩
      obtain ⟨hq, ho, hd⟩ := ih { x with evq := x.evq ++ [r] } (room := n) (by simp; omega)
      refine ⟨by rw [hq]; simp, by rw [ho]; simp, by rw [hd]; simp⟩
    · rw [if_neg hfull]
      obtain rfl : room = 0 := by omega
      obtain ⟨hq, ho, hd⟩ := ih { x with evOvf := true, evDrop := BitVec.ofNat 32 (satAdd 32 x.evDrop.toNat 1) } (room := 0)
        (by simpa using hroom)
      refine ⟨by rw [hq]; simp, by rw [ho]; simp, ?_⟩
      rw [hd, satAdd, BitVec.toNat_ofNat, List.length_cons]
      have := x.evDrop.isLt
      omega

end Sys2Proof.Machine
end

section
/-! SUPPORT. The end of a bundle (R82, R86, R94, R98, R121 to R124, R412, R426): the loop-end test, the next bundle, and what the
context and its core are after the bundle's events and causes are noted. -/

namespace Sys2Proof.Machine

open Sys2Proof.Claims

variable {s : State} {c k : Nat} {x : Ctx} {i : Issue}

/-! ### The next bundle (R82, R86) -/

theorem Ctx.loopEndTest_eq (x : Ctx) (pc : CodeAddr) : x.loopEndTest pc =
    ((loopEnd pc x.loops.reverse).1, { x with loops := (loopEnd pc x.loops.reverse).2.reverse }) := rfl

theorem Ctx.withLoops_self {ls : List LoopEntry} (h : x.loops = ls) : ({ x with loops := ls } : Ctx) = x := by
  subst h
  rfl

theorem Ctx.loopEndTest_concat {rest : List LoopEntry} {e : LoopEntry} (hx : x.loops = rest ++ [e]) (pc : CodeAddr) :
    x.loopEndTest pc = if e.fin = pc then
        if e.count - 1 = 0 then { x with loops := rest }.loopEndTest pc
        else (some e.start, { x with loops := rest ++ [{ e with count := e.count - 1 }] })
      else (none, x) := by
  have hrev : x.loops.reverse = e :: rest.reverse := by rw [hx, List.reverse_append]; rfl
  rw [Ctx.loopEndTest_eq, hrev, loopEnd]
  split
  · split
    · rfl
    · rw [List.reverse_cons, List.reverse_reverse]
  · rw [List.reverse_cons, List.reverse_reverse, Ctx.withLoops_self hx]

theorem Ctx.loopEndTest_nil (hx : x.loops = []) (pc : CodeAddr) : x.loopEndTest pc = (none, x) := by
  rw [Ctx.loopEndTest_eq, hx]
  exact congrArg _ (Ctx.withLoops_self hx)

theorem Ctx.chooseNext_resumed {a : CodeAddr} (h : x.resumeNpc = some a) (i : Issue) :
    x.chooseNext i = (a, .transfer i.pc (a.setWidth 64), x) := by
  rw [Ctx.resumeNpc] at h
  rw [Ctx.chooseNext, h]

theorem Ctx.chooseNext_target (h : x.resumeNpc = none) {w : Word} (hw : i.target = some w) :
    x.chooseNext i = (BitVec.ofNat 17 w.toNat, .transfer i.pc w, x) := by
  rw [Ctx.resumeNpc] at h
  rw [Ctx.chooseNext, h, hw]
  rfl

theorem Ctx.chooseNext_again (h : x.resumeNpc = none) (hw : i.target = none) {a : CodeAddr} {y : Ctx}
    (ht : x.loopEndTest i.pc = (some a, y)) : x.chooseNext i = (a, .transfer i.pc (a.setWidth 64), y) := by
  rw [Ctx.resumeNpc] at h
  rw [Ctx.chooseNext, h, hw]
  simp only [ht]

theorem Ctx.chooseNext_onward (h : x.resumeNpc = none) (hw : i.target = none) {y : Ctx}
    (ht : x.loopEndTest i.pc = (none, y)) : x.chooseNext i = (i.next, .fell i.pc, y) := by
  rw [Ctx.resumeNpc] at h
  rw [Ctx.chooseNext, h, hw]
  simp only [ht]

/-- The choice reads the resume point and the loop stack, and changes the loop stack alone. -/
theorem Ctx.chooseNext_of_same {y : Ctx} (hresume : y.resume = x.resume) (hloops : y.loops = x.loops) (i : Issue) :
    y.chooseNext i = ((x.chooseNext i).1, (x.chooseNext i).2.1, { y with loops := (x.chooseNext i).2.2.loops }) := by
  have hself := Ctx.withLoops_self hloops
  have hnpc : y.resumeNpc = x.resumeNpc := by rw [Ctx.resumeNpc, Ctx.resumeNpc, hresume]
  cases hx : x.resumeNpc with
  | some a =>
    rw [Ctx.chooseNext_resumed hx, Ctx.chooseNext_resumed (hnpc.trans hx)]
    dsimp only
    rw [hself]
  | none =>
    cases hw : i.target with
    | some w =>
      rw [Ctx.chooseNext_target hx hw, Ctx.chooseNext_target (hnpc.trans hx) hw]
      dsimp only
      rw [hself]
    | none =>
      have htest : y.loopEndTest i.pc = ((x.loopEndTest i.pc).1, { y with loops := (x.loopEndTest i.pc).2.loops }) := by
        rw [Ctx.loopEndTest_eq, Ctx.loopEndTest_eq, hloops]
      cases ht : (x.loopEndTest i.pc).1 with
      | some a =>
        rw [ht] at htest
        rw [Ctx.chooseNext_again hx hw (Prod.ext ht rfl), Ctx.chooseNext_again (hnpc.trans hx) hw htest]
      | none =>
        rw [ht] at htest
        rw [Ctx.chooseNext_onward hx hw (Prod.ext ht rfl), Ctx.chooseNext_onward (hnpc.trans hx) hw htest]

/-! ### What a bundle leaves on record -/

/-- A stream's events with what names them. -/
def Stream.noted (st : Stream) : Noted := ⟨st.pc, 3, st.evVt, st.evs⟩

/-- A slot's settled events with what names them. -/
def Ctx.slotNoted (x : Ctx) (i : Issue) (n : Nat) : Noted := ⟨i.pc, n, x.shownVt, settledBy x i n⟩

/-- What a bundle's end notes: the streams that have ended, then the slots. -/
def Ctx.bundleNoted (x : Ctx) (i : Issue) : List Noted :=
  (endedStreams x).map Stream.noted ++ (List.range 5).map (x.slotNoted i)

/-- The context's streams, those that have ended with their events on record. -/
def Ctx.settledStreams (x : Ctx) : List Stream :=
  x.streams.map fun st => if st.level == x.depth && st.left == 0 && !x.ownStream st then { st with evs := [] } else st

theorem bundleNoted_records (k : Nat) (x : Ctx) (i : Issue) :
    ((x.bundleNoted i).map fun n => n.records k).flatten = bundleRecords k x i := by
  rw [Ctx.bundleNoted, bundleRecords, List.map_append, List.flatten_append, List.map_map, List.map_map]
  rfl

theorem bundleNoted_evs (x : Ctx) (i : Issue) : ((x.bundleNoted i).map fun n => n.evs).flatten = bundleEvents x i := by
  rw [Ctx.bundleNoted, bundleEvents, List.map_append, List.flatten_append, List.map_map, List.map_map]
  rfl

theorem endedStreams_eq (x : Ctx) : endedStreams x =
    x.streams.filter fun st => st.level == x.depth && st.left == 0 && !x.ownStream st := by
  refine List.filter_congr fun st _ => ?_
  rw [Bool.eq_iff_iff]
  simp only [Ctx.ownStream, decide_eq_true_eq, Bool.and_eq_true, Bool.not_eq_true', Bool.and_eq_false_iff, beq_iff_eq,
    beq_eq_false_iff_ne]
  constructor
  · rintro ⟨hlevel, hleft, hstart⟩
    exact ⟨⟨hlevel, hleft⟩, .inr hstart⟩
  · rintro ⟨⟨hlevel, hleft⟩, hown⟩
    exact ⟨hlevel, hleft, hown.resolve_left fun h => h hlevel⟩

/-- The context with the events of its ended streams on record. -/
def Ctx.streamsNoted (x : Ctx) : Ctx :=
  { x.flagged ((endedStreams x).map Stream.noted) with streams := x.settledStreams }

/-- The streams of other bundles that have ended go on record. -/
theorem State.flushDone_own (s : State) (c k : Nat) : s.flushDone c k (s.ctxAt c k).ownStream =
    s.recording c k (((endedStreams (s.ctxAt c k)).map Stream.noted).map fun n => n.records k).flatten
      (s.ctxAt c k).streamsNoted := by
  have hfold : ∀ sts : List Stream, sts.foldl (flushStream c k) s = (sts.map Stream.noted).foldl (Noted.note c k) s := by
    intro sts
    rw [List.foldl_map]
    rfl
  rw [State.flushDone, ← endedStreams_eq, hfold, State.modCtxAt_foldl_note]
  rfl

/-! ### The bundle's own stream (R189) -/

theorem settledStreams_own (x : Ctx) : x.settledStreams.filter x.ownStream = x.streams.filter x.ownStream := by
  rw [Ctx.settledStreams, List.filter_map]
  have hsame : (x.ownStream ∘ fun st => if st.level == x.depth && st.left == 0 && !x.ownStream st then { st with evs := [] } else st) =
      x.ownStream := by
    funext st
    dsimp only [Function.comp]
    split <;> rfl
  rw [hsame]
  refine (List.map_congr_left fun st hst => ?_).trans (List.map_id _)
  rw [(List.mem_filter.1 hst).2, Bool.not_true, Bool.and_false, if_neg Bool.false_ne_true, id]

theorem ownStream_iff (x : Ctx) (st : Stream) : x.ownStream st = true ↔ st.level = x.depth ∧ st.start = (x.vt : Int) := by
  simp [Ctx.ownStream]

theorem ownStreams_eq (x : Ctx) :
    (x.streams.filter fun st => decide (st.level = x.depth ∧ st.start = (x.vt : Int))) = x.streams.filter x.ownStream := by
  refine List.filter_congr fun st _ => ?_
  rw [Bool.eq_iff_iff, ownStream_iff, decide_eq_true_eq]

theorem slotRecords_eq (x : Ctx) (i : Issue) (n : Nat) : x.slotRecords i n = settledBy x i n := by
  have hall : ((x.streams.filter x.ownStream).all fun st => st.left == 0) = true ↔
      ∀ st ∈ x.streams.filter x.ownStream, st.left = 0 := by
    simp only [List.all_eq_true, beq_iff_eq]
  rw [Ctx.slotRecords, settledBy, Ctx.slotEvents, ownStreams_eq]
  by_cases hover : ∀ st ∈ x.streams.filter x.ownStream, st.left = 0
  · rw [if_pos (hall.2 hover)]
    by_cases hn : n = 3
    · rw [if_pos hn, if_pos ⟨hn, hover⟩]
      rfl
    · rw [if_neg hn, if_neg fun h => hn h.1]
      rfl
  · rw [if_neg (mt hall.1 hover), if_neg fun h => hover h.2, List.append_nil]
    rfl

/-- With its ended streams on record a context has the same streams of its own. -/
theorem streamsNoted_own (x : Ctx) :
    x.streamsNoted.streams.filter x.streamsNoted.ownStream = x.streams.filter x.ownStream := settledStreams_own x

theorem slotEvents_streamsNoted (x : Ctx) (i : Issue) : x.streamsNoted.slotEvents i = x.slotEvents i := by
  funext n
  rw [Ctx.slotEvents, streamsNoted_own, Ctx.slotEvents]

theorem slotRecords_streamsNoted (x : Ctx) (i : Issue) (n : Nat) : x.streamsNoted.slotRecords i n = settledBy x i n := by
  rw [Ctx.slotRecords, streamsNoted_own, slotEvents_streamsNoted, ← slotRecords_eq, Ctx.slotRecords]

theorem shownVt_streamsNoted (x : Ctx) : x.streamsNoted.shownVt = x.shownVt := rfl

/-! ### The context at the end of its bundle -/

/-- The context once what its bundle and its ended streams have raised is on record. -/
def Ctx.afterEvents (x : Ctx) (i : Issue) : Ctx := (x.streamsNoted.flagged ((List.range 5).map (x.slotNoted i))).recorded

/-- The first slot that has raised an enabled kind (R124). -/
def Ctx.numericSlot (x : Ctx) (i : Issue) : Option Nat :=
  (List.range 5).find? fun n => (kindsOf (x.slotEvents i n)).any fun q => bit i.evtrap q

/-- What waits as NUMERIC_EVENT of slot `n`, with every kind that the bundle has raised. -/
def Ctx.numericEvent (x : Ctx) (i : Issue) (n : Nat) : Pending :=
  ⟨cNumericEvent, n, some i.pc, BitVec.ofNat 64
    (((kindsOf (((List.range 5).map (x.slotEvents i)).flatten)).map fun q => 2 ^ q).foldl (· + ·) 0), false, false⟩

/-- NUMERIC_EVENT waits where a slot has raised an enabled kind. -/
def Ctx.pendNumeric (y x : Ctx) (i : Issue) : Ctx :=
  match x.numericSlot i with
  | some n => y.pending (x.numericEvent i n)
  | none => y

/-- The context with what its bundle has left: events on record and causes waiting. -/
def Ctx.bundleDone (x : Ctx) (i : Issue) : Ctx := (((x.afterEvents i).pendNumeric x i).pendBundle i).haltAfter

/-- The context goes on to its next bundle. -/
def Ctx.leaveBundle (x : Ctx) (i : Issue) : Ctx :=
  Ctx.endCycle { (x.chooseNext i).2.2 with
    pc := (x.chooseNext i).1, via := (x.chooseNext i).2.1, skip := i.hdr.2.toNat, resume := none, run := i.ending
    issue := if i.ending = .returning then some i else none }

theorem State.flushRaises_eq (s : State) (c k : Nat) (i : Issue) : s.flushRaises c k i =
    s.recording c k (bundleRecords k (s.ctxAt c k) i) (((s.ctxAt c k).afterEvents i).pendNumeric (s.ctxAt c k) i) := by
  have hfold : ∀ u : State, (List.range 5).foldl (fun s' n => if (settledBy (s.ctxAt c k) i n).isEmpty then s'
      else s'.events c k i.pc n (s.ctxAt c k).shownVt (settledBy (s.ctxAt c k) i n)) u =
      ((List.range 5).map ((s.ctxAt c k).slotNoted i)).foldl (Noted.note c k) u := by
    intro u
    rw [List.foldl_map]
    rfl
  have hrecords : (((endedStreams (s.ctxAt c k)).map Stream.noted).map fun n => n.records k).flatten ++
      (((List.range 5).map ((s.ctxAt c k).slotNoted i)).map fun n => n.records k).flatten = bundleRecords k (s.ctxAt c k) i := by
    rw [← bundleNoted_records, Ctx.bundleNoted, List.map_append, List.flatten_append]
  rw [State.flushRaises, State.flushDone_own, State.ctxAt_recording]
  simp only [slotRecords_streamsNoted, slotEvents_streamsNoted, shownVt_streamsNoted, hfold, State.modCtxAt_foldl_note,
    State.recording_recording, State.ctxAt_recording, hrecords, State.modCtxAt_recording]
  rw [Ctx.pendNumeric, Ctx.numericSlot]
  cases (List.range 5).find? fun n => (kindsOf ((s.ctxAt c k).slotEvents i n)).any fun q => bit i.evtrap q <;> rfl

/-- The end of a bundle that no slot has faulted. -/
theorem State.finishBundle_eq (hx : x = s.ctxAt c k) (hi : x.issue = some i) (hlate : i.late = none) :
    s.finishBundle c k = s.recording c k (bundleRecords k x i) ((x.bundleDone i).leaveBundle i) := by
  subst hx
  rw [State.finishBundle, hi]
  dsimp only
  rw [hlate]
  dsimp only
  rw [State.flushRaises_eq, State.modCtxAt_recording, State.modCtxAt_recording]
  rfl

/-! ### What waits after a bundle (R98, R124, R426) -/

theorem Ctx.pending_eq (x : Ctx) (p : Pending) : x.pending p = { x with pend := (x.pending p).pend } := by
  unfold Ctx.pending
  split <;> rfl

theorem Ctx.mem_pending {x : Ctx} {p : Pending} (h : ∀ q ∈ x.pend, q.cause ≠ p.cause) : p ∈ (x.pending p).pend := by
  have hany : ¬ (x.pend.any fun q => q.cause == p.cause) = true := by
    simpa using h
  rw [Ctx.pending, if_neg hany]
  exact List.mem_append_right _ List.mem_cons_self

theorem Ctx.pend_subset_pending {x : Ctx} {p q : Pending} (h : q ∈ x.pend) : q ∈ (x.pending p).pend := by
  unfold Ctx.pending
  split
  · exact h
  · exact List.mem_append_left _ h

theorem Ctx.pending_without {x : Ctx} {p : Pending} {z : BitVec 16} (hx : ∀ q ∈ x.pend, q.cause ≠ z) (hp : p.cause ≠ z) :
    ∀ q ∈ (x.pending p).pend, q.cause ≠ z := by
  intro q hq
  unfold Ctx.pending at hq
  split at hq
  · exact hx q hq
  · rcases List.mem_append.1 hq with h | h
    · exact hx q h
    · rw [List.mem_singleton.1 h]
      exact hp

/-- The end of a bundle changes of its context the streams' and the sticky events, what waits, and the debugger's requests. -/
theorem Ctx.bundleDone_frame (x : Ctx) (i : Issue) : ∃ P hr sr, x.bundleDone i =
    { x.afterEvents i with pend := P, haltReq := hr, stepReq := sr } := by
  have hpending : ∀ (y : Ctx) (p : Pending), ∃ P, y.pending p = { y with pend := P } := fun y p => ⟨_, y.pending_eq p⟩
  have hnumeric : ∃ P, (x.afterEvents i).pendNumeric x i = { x.afterEvents i with pend := P } := by
    unfold Ctx.pendNumeric
    split
    · exact hpending _ _
    · exact ⟨(x.afterEvents i).pend, rfl⟩
  have hbundle : ∀ y : Ctx, ∃ P, y.pendBundle i = { y with pend := P } := by
    intro y
    unfold Ctx.pendBundle
    cases i.user with
    | none =>
      cases i.watch with
      | none => exact ⟨y.pend, rfl⟩
      | some w => exact hpending y _
    | some code =>
      obtain ⟨P, hP⟩ := hpending y ⟨cUserTrap, 4, some i.pc, code.setWidth 64, false, false⟩
      cases i.watch with
      | none => exact ⟨P, hP⟩
      | some w =>
        dsimp only
        rw [hP]
        exact hpending _ _
  obtain ⟨P, hP⟩ := hnumeric
  obtain ⟨Q, hQ⟩ := hbundle ((x.afterEvents i).pendNumeric x i)
  exact ⟨Q, _, _, by rw [Ctx.bundleDone, hQ, hP]; rfl⟩

theorem flagged_getLsbD (x : Ctx) (ns : List Noted) (q : Nat) : (x.flagged ns).evflags.getLsbD q =
    (x.evflags.getLsbD q || (decide (q < 8) && ((ns.map fun n => n.evs).flatten).any fun e => e.item.kind == q)) := by
  induction ns generalizing x with
  | nil => simp [Ctx.flagged]
  | cons n ns ih =>
    have hcons : x.flagged (n :: ns) = (x.flagged [n]).flagged ns := (x.flagged_flagged [n] ns).symm
    rw [hcons, ih, List.map_cons, List.flatten_cons, List.any_append]
    show ((x.evflags ||| flagWord n.evs).getLsbD q || _) = _
    rw [BitVec.getLsbD_or, flagWord_getLsbD, Bool.and_or_distrib_left, Bool.or_assoc]

theorem afterEvents_getLsbD (x : Ctx) (i : Issue) (q : Nat) : (x.afterEvents i).evflags.getLsbD q =
    (x.evflags.getLsbD q || (decide (q < 8) && (bundleEvents x i).any fun e => e.item.kind == q)) := by
  rw [← bundleNoted_evs, ← flagged_getLsbD, Ctx.bundleNoted, ← Ctx.flagged_flagged]
  rfl

/-! ### Which causes wait -/

theorem slotEvents_of_noOwnStream (h : NoOwnStream x) (i : Issue) (n : Nat) : x.slotEvents i n = raisedBy i n := by
  have hown : x.streams.filter x.ownStream = [] :=
    List.filter_eq_nil_iff.2 fun st hst hown => h st hst ((ownStream_iff x st).1 hown)
  rw [Ctx.slotEvents, hown]
  split <;> exact List.append_nil _

theorem kindsOf_any (evs : List CellEv) (w : Word) :
    (kindsOf evs).any (fun q => bit w q) = true ↔ ∃ e ∈ evs, e.item.kind < 8 ∧ w.getLsbD e.item.kind = true := by
  simp only [kindsOf, List.any_eq_true, List.mem_filter, List.mem_range, beq_iff_eq, bit]
  constructor
  · rintro ⟨q, ⟨hq, e, he, rfl⟩, hbit⟩
    exact ⟨e, he, hq, hbit⟩
  · rintro ⟨e, he, hq, hbit⟩
    exact ⟨e.item.kind, ⟨hq, e, he, rfl⟩, hbit⟩

theorem numericSlot_of_first (h : NoOwnStream x) {n : Nat} (hn : n < 5) (hfirst : FirstEnabled i n) : x.numericSlot i = some n := by
  obtain ⟨hsome, hnone⟩ := hfirst
  rw [Ctx.numericSlot, List.find?_range_eq_some]
  refine ⟨?_, List.mem_range.2 hn, fun m hm => ?_⟩
  · rw [slotEvents_of_noOwnStream h]
    exact (kindsOf_any _ _).2 hsome
  · rw [slotEvents_of_noOwnStream h, Bool.not_eq_true', Bool.eq_false_iff, Ne, kindsOf_any]
    rintro ⟨e, he, hkind, hbit⟩
    rw [hnone m hm e he hkind] at hbit
    exact Bool.false_ne_true hbit

theorem numericSlot_of_noRaises (h : NoOwnStream x) (hr : i.raises = []) : x.numericSlot i = none := by
  rw [Ctx.numericSlot, List.find?_eq_none]
  intro n _
  rw [slotEvents_of_noOwnStream h, raisedBy, hr, kindsOf_any]
  rintro ⟨e, he, -⟩
  exact absurd he List.not_mem_nil

theorem afterEvents_pend (x : Ctx) (i : Issue) : (x.afterEvents i).pend = x.pend := rfl

theorem numericEvent_mem_pendNumeric (h : NoOwnStream x) {n : Nat} (hn : n < 5) (hfirst : FirstEnabled i n)
    (hnone : ∀ p ∈ x.pend, p.cause ≠ cNumericEvent) : x.numericEvent i n ∈ ((x.afterEvents i).pendNumeric x i).pend := by
  rw [Ctx.pendNumeric, numericSlot_of_first h hn hfirst]
  exact Ctx.mem_pending (by rw [afterEvents_pend]; exact hnone)

/-- A cause other than NUMERIC_EVENT that does not wait before the bundle's events do not make wait. -/
theorem pendNumeric_without {z : BitVec 16} (hz : cNumericEvent ≠ z) (hx : ∀ p ∈ x.pend, p.cause ≠ z) :
    ∀ p ∈ ((x.afterEvents i).pendNumeric x i).pend, p.cause ≠ z := by
  rw [← afterEvents_pend x i] at hx
  unfold Ctx.pendNumeric
  split
  · exact Ctx.pending_without hx hz
  · exact hx

theorem pendBundle_pendNumeric_none (h : NoOwnStream x) (hu : i.user = none) (hw : i.watch = none) (hr : i.raises = []) :
    (((x.afterEvents i).pendNumeric x i).pendBundle i).pend = x.pend := by
  rw [Ctx.pendNumeric, numericSlot_of_noRaises h hr, Ctx.pendBundle, hu, hw]
  exact afterEvents_pend x i

theorem pendBundle_user {y : Ctx} {code : BitVec 16} (hu : i.user = some code) (hy : ∀ p ∈ y.pend, p.cause ≠ cUserTrap) :
    ⟨cUserTrap, 4, some i.pc, code.setWidth 64, false, false⟩ ∈ (y.pendBundle i).pend := by
  rw [Ctx.pendBundle, hu]
  cases i.watch with
  | none => exact Ctx.mem_pending hy
  | some w => exact Ctx.pend_subset_pending (Ctx.mem_pending hy)

theorem pendBundle_watch {y : Ctx} {n : Nat} {info : Word} (hw : i.watch = some (n, info))
    (hy : ∀ p ∈ y.pend, p.cause ≠ cWatchpoint) :
    ⟨cWatchpoint, n, some i.pc, info, false, false⟩ ∈ (y.pendBundle i).pend := by
  rw [Ctx.pendBundle, hw]
  cases i.user with
  | none => exact Ctx.mem_pending hy
  | some code =>
    have hother : cUserTrap ≠ cWatchpoint := by decide
    exact Ctx.mem_pending (Ctx.pending_without hy hother)

theorem pend_subset_pendBundle {y : Ctx} {p : Pending} (h : p ∈ y.pend) : p ∈ (y.pendBundle i).pend := by
  unfold Ctx.pendBundle
  cases i.user with
  | none =>
    cases i.watch with
    | none => exact h
    | some w => exact Ctx.pend_subset_pending h
  | some code =>
    cases i.watch with
    | none => exact Ctx.pend_subset_pending h
    | some w => exact Ctx.pend_subset_pending (Ctx.pend_subset_pending h)

/-! ### The context after its bundle -/

theorem bundleDone_pend (x : Ctx) (i : Issue) :
    (x.bundleDone i).pend = (((x.afterEvents i).pendNumeric x i).pendBundle i).pend := rfl

/-- The choice of the next bundle is not changed by what its predecessor leaves on record or waiting. -/
theorem bundleDone_chooseNext (x : Ctx) (i : Issue) : (x.bundleDone i).chooseNext i =
    ((x.chooseNext i).1, (x.chooseNext i).2.1, { x.bundleDone i with loops := (x.chooseNext i).2.2.loops }) := by
  obtain ⟨P, hr, sr, hdone⟩ := x.bundleDone_frame i
  exact Ctx.chooseNext_of_same (by rw [hdone]; rfl) (by rw [hdone]; rfl) i

theorem leaveBundle_eq (x : Ctx) (i : Issue) : (x.bundleDone i).leaveBundle i = Ctx.endCycle { x.bundleDone i with
    loops := (x.chooseNext i).2.2.loops, pc := (x.chooseNext i).1, via := (x.chooseNext i).2.1
    skip := i.hdr.2.toNat, resume := none, run := i.ending, issue := if i.ending = .returning then some i else none } := by
  rw [Ctx.leaveBundle, bundleDone_chooseNext]

theorem leaveBundle_pend (x : Ctx) (i : Issue) :
    ((x.bundleDone i).leaveBundle i).pend = (((x.afterEvents i).pendNumeric x i).pendBundle i).pend := by
  rw [leaveBundle_eq, ← bundleDone_pend]
  rfl

/-- Putting events on record changes no register, no landing and no advance. -/
theorem afterEvents_kept (x : Ctx) (i : Issue) : (x.afterEvents i).g = x.g ∧ (x.afterEvents i).p = x.p ∧
    (x.afterEvents i).lap = x.lap ∧ (x.afterEvents i).land = x.land ∧ (x.afterEvents i).depth = x.depth ∧
    (x.afterEvents i).vt = x.vt ∧ (x.afterEvents i).advances = x.advances := by
  simp only [Ctx.afterEvents, Ctx.streamsNoted, Ctx.flagged, Ctx.recorded, and_self]

/-- The bundle's end keeps the registers, the landings and the level, and counts a cycle. -/
theorem leaveBundle_kept (x : Ctx) (i : Issue) : ((x.bundleDone i).leaveBundle i).g = x.g ∧
    ((x.bundleDone i).leaveBundle i).p = x.p ∧ ((x.bundleDone i).leaveBundle i).lap = x.lap ∧
    ((x.bundleDone i).leaveBundle i).land = x.land ∧ ((x.bundleDone i).leaveBundle i).depth = x.depth ∧
    ((x.bundleDone i).leaveBundle i).vt = x.vt + 1 := by
  obtain ⟨P, hr, sr, hdone⟩ := x.bundleDone_frame i
  obtain ⟨hg, hp, hlap, hland, hdepth, hvt, -⟩ := afterEvents_kept x i
  rw [leaveBundle_eq, hdone]
  simp only [Ctx.endCycle, Ctx.publish, hg, hp, hlap, hland, hdepth, hvt, and_self]

/-- The bundle's end leads to the next bundle. -/
theorem leaveBundle_flow (x : Ctx) (i : Issue) : ((x.bundleDone i).leaveBundle i).pc = (x.chooseNext i).1 ∧
    ((x.bundleDone i).leaveBundle i).via = (x.chooseNext i).2.1 ∧
    ((x.bundleDone i).leaveBundle i).loops = (x.chooseNext i).2.2.loops ∧
    ((x.bundleDone i).leaveBundle i).skip = i.hdr.2.toNat ∧ ((x.bundleDone i).leaveBundle i).resume = none ∧
    ((x.bundleDone i).leaveBundle i).run = i.ending ∧
    ((x.bundleDone i).leaveBundle i).issue = if i.ending = .returning then some i else none := by
  rw [leaveBundle_eq]
  simp only [Ctx.endCycle, Ctx.publish, and_self]

theorem leaveBundle_evflags (x : Ctx) (i : Issue) : ((x.bundleDone i).leaveBundle i).evflags = (x.afterEvents i).evflags := by
  obtain ⟨P, hr, sr, hdone⟩ := x.bundleDone_frame i
  rw [leaveBundle_eq, hdone]
  simp only [Ctx.endCycle, Ctx.publish]

/-- The bundle's end publishes the advances that are due (R94). -/
theorem leaveBundle_advances (x : Ctx) (i : Issue) : ((x.bundleDone i).leaveBundle i).advances =
    x.advances.filter fun a => !(decide (x.depth < a.level) || (a.level == x.depth && decide (a.due ≤ x.vt))) := by
  obtain ⟨P, hr, sr, hdone⟩ := x.bundleDone_frame i
  obtain ⟨-, -, -, -, hdepth, hvt, hadv⟩ := afterEvents_kept x i
  rw [leaveBundle_eq, hdone]
  simp only [Ctx.endCycle, Ctx.publish, Ctx.over, hdepth, hvt, hadv]

end Sys2Proof.Machine
end

section
/-! SUPPORT. The statement of a bundle's end (R82, R86, R121 to R124, R412). -/

namespace Sys2Proof.Machine

open Sys2Proof.Claims

/-- Settles O17: the loop-end test, the choice of the next bundle, and the context and queue that the bundle's end leaves. -/
theorem loopEndTest : Obligations.LoopEndTest := by
  refine ⟨fun x pc rest e hx => ?_, fun x i => ?_, ?_⟩
  · rw [Ctx.loopEndTest_concat hx]
    refine ⟨fun hfin => if_neg hfin, fun hfin hcount => ?_, fun hfin hcount => ?_⟩
    · rw [if_pos hfin, if_neg fun h => hcount (sub_eq_zero.1 h)]
    · rw [if_pos hfin, if_pos (sub_eq_zero.2 hcount)]
  · refine ⟨fun a h => Ctx.chooseNext_resumed h i, fun h => ⟨fun w hw => Ctx.chooseNext_target h hw, fun hw => ⟨fun hl => ?_,
      fun a y ht => Ctx.chooseNext_again h hw ht, fun y ht => Ctx.chooseNext_onward h hw ht⟩⟩⟩
    exact Ctx.chooseNext_onward h hw (Ctx.loopEndTest_nil hl i.pc)
  · rintro s t c k i x y hx hi hlate ht hy
    rw [State.finishBundle_eq hx hi hlate] at ht
    have hyeq : y = (x.bundleDone i).leaveBundle i := by rw [hy, ht, State.ctxAt_recording]
    have hcore : t.core c = ((bundleRecords k x i).foldl Core.appendEvent (s.core c)).setCtx k ((x.bundleDone i).leaveBundle i) := by
      rw [ht, State.core_recording]
    have hmem : t.mem = s.mem := by
      rw [ht]
      rfl
    obtain ⟨hg, hp, hlap, hland, hdepth, hvt⟩ := hyeq ▸ leaveBundle_kept x i
    obtain ⟨hpc, hvia, hloops, hskip, hresume, hrun, hissue⟩ := hyeq ▸ leaveBundle_flow x i
    have hflags : y.evflags = (x.afterEvents i).evflags := by rw [hyeq, leaveBundle_evflags]
    have hadv := hyeq ▸ leaveBundle_advances x i
    have hpend : y.pend = (((x.afterEvents i).pendNumeric x i).pendBundle i).pend := by rw [hyeq, leaveBundle_pend]
    refine ⟨hmem, hg, hp, hlap, hland, hdepth, hpc, hvia, hloops, hskip, hresume, hrun, hvt,
      fun h => hissue.trans (if_neg h), ?_, ?_, hadv, ?_, ?_, ?_, ?_⟩
    · rintro room recs hroom rfl
      rw [hcore]
      exact Core.foldl_appendEvent _ _ hroom
    · intro q
      rw [hflags, afterEvents_getLsbD]
    · intro hu hw hraises hown
      rw [hpend, pendBundle_pendNumeric_none hown hu hw hraises]
    · intro code hu hnone
      rw [hpend]
      exact ⟨_, pendBundle_user hu (pendNumeric_without (by decide) hnone), rfl, rfl, rfl,
        BitVec.toNat_setWidth_of_le (by decide)⟩
    · intro n info hw hnone
      rw [hpend]
      exact ⟨_, pendBundle_watch hw (pendNumeric_without (by decide) hnone), rfl, rfl, rfl, rfl⟩
    · intro n hown hn hfirst hnone
      rw [hpend]
      exact ⟨_, pend_subset_pendBundle (numericEvent_mem_pendNumeric hown hn hfirst hnone), rfl, rfl, rfl⟩

end Sys2Proof.Machine
end

section
/-! SUPPORT. Rounding of exact magnitudes to a spacing (R103, R108). -/

namespace Sys2Proof.Machine

open Sys2Proof.Claims

/-! ### The neighbour that a mode takes -/

theorem neighbour_exact (M : RMode) (neg : Bool) {X S lo : Nat} (h : X = lo * S) : neighbour M neg X S lo = lo := by
  rw [neighbour.eq_def, if_pos h]

/-- Whether a magnitude of `lo` spacings `S` and a rest `rem` rounds away from zero. -/
def upFrom (M : RMode) (neg : Bool) (S lo rem : Nat) : Bool :=
  match M with
  | .rne => decide (S < 2 * rem) || (decide (2 * rem = S) && lo % 2 == 1)
  | .rtz => false
  | .rup => decide (rem ≠ 0) && !neg
  | .rdn => decide (rem ≠ 0) && neg

theorem upFrom_zero (M : RMode) (neg : Bool) {S lo : Nat} (hS : 0 < S) : upFrom M neg S lo 0 = false := by
  cases M <;> simp [upFrom, hS.ne]

/-- Below half a spacing the nearest neighbour is the lower one. -/
theorem upFrom_rne_low (neg : Bool) {S lo rem : Nat} (h : 2 * rem < S) : upFrom .rne neg S lo rem = false := by
  simp [upFrom, h.le, h.ne]

theorem neighbour_eq_upFrom (M : RMode) (neg : Bool) {X S lo rem : Nat} (hS : 0 < S) (hX : X = lo * S + rem) :
    neighbour M neg X S lo = if upFrom M neg S lo rem then lo + 1 else lo := by
  by_cases hrem : rem = 0
  · subst hrem
    rw [neighbour_exact M neg hX, upFrom_zero M neg hS, if_neg (by decide)]
  have hmid : (2 * lo + 1) * S = 2 * (lo * S) + S := by ring
  rw [neighbour.eq_def, if_neg (by omega)]
  cases M with
  | rne =>
    have hdown : 2 * X < (2 * lo + 1) * S ↔ 2 * rem < S := by omega
    have hup : (2 * lo + 1) * S < 2 * X ↔ S < 2 * rem := by omega
    simp only [hdown, hup, upFrom]
    rcases lt_trichotomy (2 * rem) S with h | h | h
    · simp [h, h.le, h.ne]
    · rcases Nat.mod_two_eq_zero_or_one lo with hlo | hlo <;> simp [h, hlo]
    · simp [h, h.ne', h.not_gt]
  | rtz => rfl
  | rup => cases neg <;> simp [upFrom, hrem]
  | rdn => cases neg <;> simp [upFrom, hrem]

theorem neighbour_bounds (M : RMode) (neg : Bool) {X S lo : Nat} (hS : 0 < S) (h : lo * S ≤ X) :
    lo ≤ neighbour M neg X S lo ∧ neighbour M neg X S lo ≤ lo + 1 := by
  rw [neighbour_eq_upFrom M neg hS (rem := X - lo * S) (by omega)]
  split <;> omega

/-- The neighbour does not depend on the unit in which magnitude and spacing are counted. -/
theorem neighbour_scale (M : RMode) (neg : Bool) (X S lo : Nat) {t : Nat} (ht : 0 < t) :
    neighbour M neg (X * t) (S * t) lo = neighbour M neg X S lo := by
  simp only [neighbour.eq_def, ← Nat.mul_assoc, Nat.mul_left_inj ht.ne', Nat.mul_lt_mul_right ht]

/-- A rounded magnitude differs from the magnitude exactly where it is no multiple of the spacing. -/
theorem neighbour_inexact_iff (M : RMode) (neg : Bool) (X S : Nat) :
    X ≠ neighbour M neg X S (X / S) * S ↔ X % S ≠ 0 := by
  refine not_congr ⟨fun h => ?_, fun h => ?_⟩
  · rw [h, Nat.mul_mod_left]
  · rw [neighbour_exact M neg (Nat.div_mul_cancel (Nat.dvd_of_mod_eq_zero h)).symm, Nat.div_mul_cancel (Nat.dvd_of_mod_eq_zero h)]

/-! ### Shifts of a mantissa -/

theorem lt_two_pow_of_log2_lt {m sh : Nat} (h : m.log2 + 1 < sh) : 2 * m < 2 ^ sh := by
  have hm : m < 2 ^ (m.log2 + 1) := Nat.lt_log2_self
  have hpow : 2 ^ (m.log2 + 2) ≤ 2 ^ sh := Nat.pow_le_pow_right (by decide) h
  rw [Nat.pow_succ] at hpow
  omega

/-- The shortcut for a mantissa far below the spacing gives the quotient. -/
theorem lowPart_eq (m sh : Nat) : (if m.log2 + 1 < sh then 0 else m >>> sh) = m / 2 ^ sh := by
  split
  next h => rw [Nat.div_eq_of_lt (by have := lt_two_pow_of_log2_lt h; omega)]
  next => rw [Nat.shiftRight_eq_div_pow]

theorem restPart_eq (m sh : Nat) : (if m.log2 + 1 < sh then m else m - (m / 2 ^ sh) <<< sh) = m % 2 ^ sh := by
  split
  next h => rw [Nat.mod_eq_of_lt (by have := lt_two_pow_of_log2_lt h; omega)]
  next => rw [Nat.shiftLeft_eq, Nat.mod_eq_sub_div_mul]

/-- The shortcut does not change how a mantissa rounds to the nearest. -/
theorem far_rne (m sh lo : Nat) :
    (!decide (m.log2 + 1 < sh) && (decide (2 ^ sh < 2 * (m % 2 ^ sh)) || (decide (2 * (m % 2 ^ sh) = 2 ^ sh) && lo % 2 == 1))) =
      (decide (2 ^ sh < 2 * (m % 2 ^ sh)) || (decide (2 * (m % 2 ^ sh) = 2 ^ sh) && lo % 2 == 1)) := by
  by_cases h : m.log2 + 1 < sh
  · have hlow := lt_two_pow_of_log2_lt h
    have hmod := Nat.mod_le m (2 ^ sh)
    have hrest : 2 * (m % 2 ^ sh) < 2 ^ sh := by omega
    simp [h, hrest.le, hrest.ne]
  · simp [h]

theorem pow_toNat_split {a b c : Int} (hab : a ≤ b) (hbc : b ≤ c) :
    (2 : Nat) ^ (c - a).toNat = 2 ^ (c - b).toNat * 2 ^ (b - a).toNat := by
  rw [← Nat.pow_add]
  congr 1
  omega

end Sys2Proof.Machine
end

section
/-! SUPPORT. What the rounding operations of the model do to a magnitude (R103, R108). -/

namespace Sys2Proof.Machine

open Sys2Proof.Claims

/-- A code before its sign, with `k` spacings 2^Q as its magnitude. -/
def FloatSpec.codeAt (q : FloatSpec) (Q : Int) (k : Nat) : Nat := (Q - q.qmin).toNat * 2 ^ q.mbits + k

/-- What rounding delivers of a magnitude that has become `k` spacings 2^Q. -/
def FloatSpec.deliver (q : FloatSpec) (M : RMode) (neg : Bool) (Q : Int) (k : Nat) (ev : Kinds) : Nat × Kinds :=
  if q.maxCode < q.codeAt Q k then (q.overflow neg M, ev ||| kOverflow) else (q.signed neg (q.codeAt Q k), ev)

/-- Where the spacing is not above the mantissa's unit, nothing is lost. -/
theorem FloatSpec.round_fine (q : FloatSpec) (M : RMode) (neg : Bool) {m : Nat} {e Q : Int} (hm : m ≠ 0)
    (hQ : Q = max (m.log2 + e) (1 - (q.bias : Int)) - q.mbits) (h : Q ≤ e) :
    q.round M neg m e = q.deliver M neg Q (m * 2 ^ (e - Q).toNat) noKind := by
  simp only [FloatSpec.round, if_neg hm, ← hQ, decide_eq_true h, if_true, Nat.shiftLeft_eq]
  cases M <;> simp [FloatSpec.deliver, FloatSpec.codeAt] <;> rfl

/-- Where the spacing is above the mantissa's unit, the quotient is rounded. -/
theorem FloatSpec.round_coarse (q : FloatSpec) (M : RMode) (neg : Bool) {m : Nat} {e Q : Int} (hm : m ≠ 0)
    (hQ : Q = max (m.log2 + e) (1 - (q.bias : Int)) - q.mbits) (h : ¬ Q ≤ e) :
    q.round M neg m e = q.deliver M neg Q (neighbour M neg m (2 ^ (Q - e).toNat) (m / 2 ^ (Q - e).toNat))
      (if m.log2 + e < 1 - (q.bias : Int) ∧ m % 2 ^ (Q - e).toNat ≠ 0 then kUnderflow else noKind) := by
  rw [neighbour_eq_upFrom M neg (Nat.two_pow_pos _) (Nat.div_add_mod' m _).symm]
  simp only [FloatSpec.round, if_neg hm, ← hQ, decide_eq_false h, decide_eq_true_eq, Bool.false_eq_true, if_false, lowPart_eq,
    restPart_eq, Bool.not_false, Bool.true_and, far_rne]
  cases M <;> rfl

/-- Rounding, with magnitude and spacing counted in any unit that divides both. -/
theorem FloatSpec.round_eq_deliver (q : FloatSpec) (M : RMode) (neg : Bool) {m X S : Nat} {e Q b : Int} (hm : m ≠ 0)
    (hQ : Q = max (m.log2 + e) (1 - (q.bias : Int)) - q.mbits) (hbe : b ≤ e) (hbQ : b ≤ Q)
    (hX : X = m * 2 ^ (e - b).toNat) (hS : S = 2 ^ (Q - b).toNat) :
    q.round M neg m e = q.deliver M neg Q (neighbour M neg X S (X / S))
      (if m.log2 + e < 1 - (q.bias : Int) ∧ X % S ≠ 0 then kUnderflow else noKind) := by
  by_cases h : Q ≤ e
  · have hXS : X = m * 2 ^ (e - Q).toNat * S := by rw [hX, hS, pow_toNat_split hbQ h, Nat.mul_assoc]
    have hdiv : X / S = m * 2 ^ (e - Q).toNat := by rw [hXS, Nat.mul_div_cancel _ (hS ▸ Nat.two_pow_pos _)]
    have hmod : X % S = 0 := by rw [hXS, Nat.mul_mod_left]
    rw [q.round_fine M neg hm hQ h, hdiv, neighbour_exact M neg hXS, hmod, if_neg fun hc => hc.2 rfl]
  · have hSs : S = 2 ^ (Q - e).toNat * 2 ^ (e - b).toNat := by rw [hS, pow_toNat_split hbe (not_le.1 h).le]
    have hpos : 0 < 2 ^ (e - b).toNat := Nat.two_pow_pos _
    have hzero : m * 2 ^ (e - b).toNat % S = 0 ↔ m % 2 ^ (Q - e).toNat = 0 := by
      rw [hSs, Nat.mul_mod_mul_right, Nat.mul_eq_zero, or_iff_left hpos.ne']
    rw [q.round_coarse M neg hm hQ h, hX]
    simp only [Ne, hzero]
    rw [hSs, Nat.mul_div_mul_right _ _ hpos, neighbour_scale _ _ _ _ _ hpos]

/-! ### Rounding to an integer -/

/-- The exact value of a magnitude with its sign. -/
def FVal.signedDy (neg : Bool) (m : Nat) (e : Int) : Dy := ⟨if neg then -(m : Int) else m, e⟩

theorem FVal.dy_fin (neg : Bool) (m : Nat) (e : Int) : (FVal.fin neg m e).dy = signedDy neg m e := rfl

theorem FVal.signedDy_natAbs (neg : Bool) (m : Nat) (e : Int) : (signedDy neg m e).m.natAbs = m := by
  cases neg <;> simp [signedDy]

theorem FVal.signedDy_neg (neg : Bool) {m : Nat} (hm : m ≠ 0) (e : Int) : (signedDy neg m e).m < 0 ↔ neg = true := by
  cases neg <;> simp [signedDy]; omega

theorem FVal.signedDy_pos (neg : Bool) {m : Nat} (hm : m ≠ 0) (e : Int) : 0 < (signedDy neg m e).m ↔ (!neg) = true := by
  cases neg <;> simp [signedDy]; omega

theorem Dy.toInt_zero (M : RMode) (e : Int) : (Dy.mk 0 e).toInt M = 0 := by
  have hlow : ∀ sh : Nat, (0 : Nat) >>> sh = 0 := Nat.zero_shiftRight
  have hpow : ∀ sh : Nat, 0 ≠ (2 : Nat) ^ sh := fun sh => (Nat.two_pow_pos sh).ne
  cases M <;> simp [Dy.toInt, hlow, hpow]

/-- A value whose exponent is not negative is an integer already. -/
theorem Dy.toInt_whole (M : RMode) (neg : Bool) (m : Nat) {e : Int} (h : 0 ≤ e) :
    (FVal.signedDy neg m e).toInt M = (if neg then -1 else 1) * ((m * 2 ^ e.toNat : Nat) : Int) := by
  have hexp : 0 ≤ (FVal.signedDy neg m e).e := h
  rw [Dy.toInt.eq_def, if_pos hexp]
  cases neg <;> simp [FVal.signedDy]

/-- A value with a fraction rounds as its magnitude does. -/
theorem Dy.toInt_fraction (M : RMode) (neg : Bool) {m : Nat} (hm : m ≠ 0) {e : Int} (h : ¬ 0 ≤ e) :
    (FVal.signedDy neg m e).toInt M =
      (if neg then -1 else 1) * (neighbour M neg m (2 ^ (-e).toNat) (m / 2 ^ (-e).toNat) : Int) := by
  have hexp : ¬ 0 ≤ (FVal.signedDy neg m e).e := h
  have hneg := FVal.signedDy_neg neg hm e
  have hpos := FVal.signedDy_pos neg hm e
  have hsh : (FVal.signedDy neg m e).e = e := rfl
  rw [neighbour_eq_upFrom M neg (Nat.two_pow_pos _) (Nat.div_add_mod' m _).symm, Dy.toInt.eq_def, if_neg hexp]
  have hsign : ∀ u : Nat, (if neg then -1 else 1) * (u : Int) = if neg then -(u : Int) else u := by
    intro u
    cases neg <;> simp
  rw [hsign]
  simp only [FVal.signedDy_natAbs, hneg, hpos, hsh, lowPart_eq, restPart_eq, far_rne, Bool.decide_eq_true, Nat.cast_ite, Nat.cast_add,
    Nat.cast_one]
  cases M <;> rfl

/-- A finite value rounded to an integer, with its magnitude and 1 counted in any unit that divides both. -/
theorem toInt_eq_neighbour (M : RMode) (neg : Bool) {m X S : Nat} {e b : Int} (hbe : b ≤ e) (hb : b ≤ 0)
    (hX : X = m * 2 ^ (e - b).toNat) (hS : S = 2 ^ (-b).toNat) :
    (FVal.fin neg m e).dy.toInt M = (if neg then -1 else 1) * (neighbour M neg X S (X / S) : Int) := by
  rw [FVal.dy_fin]
  by_cases hm : m = 0
  · have hzero : X = 0 := by rw [hX, hm, Nat.zero_mul]
    have hval : FVal.signedDy neg 0 e = ⟨0, e⟩ := by cases neg <;> rfl
    rw [hm, hval, Dy.toInt_zero, hzero, Nat.zero_div, neighbour_exact M neg (Nat.zero_mul S).symm]
    simp
  by_cases h : 0 ≤ e
  · have hXS : X = m * 2 ^ e.toNat * S := by
      rw [hX, hS, pow_toNat_split hb h, Int.sub_zero, Int.zero_sub, Nat.mul_assoc]
    have hdiv : X / S = m * 2 ^ e.toNat := by rw [hXS, Nat.mul_div_cancel _ (hS ▸ Nat.two_pow_pos _)]
    rw [Dy.toInt_whole M neg m h, hdiv, neighbour_exact M neg hXS]
  · have hpos : 0 < 2 ^ (e - b).toNat := Nat.two_pow_pos _
    have hSs : S = 2 ^ (-e).toNat * 2 ^ (e - b).toNat := by
      rw [hS, ← Int.zero_sub, pow_toNat_split hbe (not_le.1 h).le, Int.zero_sub]
    rw [Dy.toInt_fraction M neg hm h, hX, hSs, Nat.mul_div_mul_right _ _ hpos, neighbour_scale _ _ _ _ _ hpos]

end Sys2Proof.Machine
end

section
/-! SUPPORT. Codes of the floating-point layouts and their magnitudes (R100, R108, R109). -/

namespace Sys2Proof.Machine

open Sys2Proof.Claims

variable {q : FloatSpec} {neg : Bool} {code : Nat}

/-! ### Magnitudes -/

/-- The magnitude `m × 2^e`. -/
def magOf (m : Nat) (e : Int) : ℚ := m * 2 ^ e

theorem magOf_unit (m : Nat) {e c : Int} (h : c ≤ e) : ((m * 2 ^ (e - c).toNat : Nat) : ℚ) = magOf m e * 2 ^ (-c) := by
  have hexp : (((e - c).toNat : Nat) : Int) = e + -c := by omega
  rw [magOf, mul_assoc, ← zpow_add₀ (by norm_num), ← hexp, zpow_natCast]
  push_cast
  rfl

theorem magOf_lt_iff {m m' : Nat} {e e' c : Int} (h : c ≤ e) (h' : c ≤ e') :
    m * 2 ^ (e - c).toNat < m' * 2 ^ (e' - c).toNat ↔ magOf m e < magOf m' e' := by
  rw [← Nat.cast_lt (α := ℚ), magOf_unit m h, magOf_unit m' h']
  exact mul_lt_mul_iff_left₀ (by positivity)

theorem magOf_eq_iff {m m' : Nat} {e e' c : Int} (h : c ≤ e) (h' : c ≤ e') :
    m * 2 ^ (e - c).toNat = m' * 2 ^ (e' - c).toNat ↔ magOf m e = magOf m' e' := by
  rw [← Nat.cast_inj (R := ℚ), magOf_unit m h, magOf_unit m' h']
  exact mul_left_inj' (by positivity)

/-! ### The magnitude of a code -/

/-- The mantissa that a code without its sign decodes to. -/
def FloatSpec.mantOf (q : FloatSpec) (code : Nat) : Nat :=
  if code / 2 ^ q.mbits = 0 then code % 2 ^ q.mbits else code % 2 ^ q.mbits + 2 ^ q.mbits

/-- The exponent that a code without its sign decodes to. -/
def FloatSpec.expOf (q : FloatSpec) (code : Nat) : Int := q.qmin + ((code / 2 ^ q.mbits - 1 : Nat) : Int)

/-- The magnitude of a code in units of the smallest one. -/
def FloatSpec.units (q : FloatSpec) (code : Nat) : Nat := q.mantOf code * 2 ^ (code / 2 ^ q.mbits - 1)

theorem FloatSpec.magOf_code (q : FloatSpec) (code : Nat) :
    magOf (q.mantOf code) (q.expOf code) = q.units code * (2 : ℚ) ^ q.qmin := by
  rw [magOf, expOf, units, zpow_add₀ (by norm_num), zpow_natCast]
  push_cast
  ring

/-- The next code has the next larger magnitude. -/
theorem FloatSpec.units_strictMono (q : FloatSpec) : StrictMono q.units := by
  refine strictMono_nat_of_lt_succ fun code => ?_
  obtain ⟨P, hP⟩ : ∃ P, P = 2 ^ q.mbits := ⟨_, rfl⟩
  have hpos : 0 < P := hP ▸ Nat.two_pow_pos _
  have hlow := Nat.mod_lt code hpos
  have hsucc : code + 1 = P * (code / P) + (code % P + 1) := by rw [← Nat.add_assoc, Nat.div_add_mod]
  simp only [units, mantOf, ← hP]
  by_cases hnext : code % P + 1 < P
  · have hdiv : (code + 1) / P = code / P := by
      rw [hsucc, Nat.mul_add_div hpos, Nat.div_eq_of_lt hnext, Nat.add_zero]
    have hmod : (code + 1) % P = code % P + 1 := by
      rw [hsucc, Nat.mul_add_mod, Nat.mod_eq_of_lt hnext]
    rw [hdiv, hmod]
    split <;> exact Nat.mul_lt_mul_of_pos_right (by omega) (Nat.two_pow_pos _)
  · have hcarry : code % P + 1 = P := by omega
    have hdiv : (code + 1) / P = code / P + 1 := by
      rw [hsucc, hcarry, Nat.mul_add_div hpos, Nat.div_self hpos]
    have hmod : (code + 1) % P = 0 := by
      rw [hsucc, hcarry, Nat.mul_add_mod, Nat.mod_self]
    rw [hdiv, hmod, if_neg (Nat.succ_ne_zero _), Nat.add_sub_cancel, Nat.zero_add]
    split
    next h => rw [h]; simpa using hlow
    next h =>
      obtain ⟨a, ha⟩ := Nat.exists_eq_succ_of_ne_zero h
      rw [ha, Nat.succ_sub_one, Nat.succ_eq_add_one, Nat.pow_succ, Nat.mul_comm _ 2, ← Nat.mul_assoc]
      exact Nat.mul_lt_mul_of_pos_right (by omega) (Nat.two_pow_pos _)

/-- The code that rounding builds from `k` spacings has their magnitude, also where a carry has left the mantissa. -/
theorem FloatSpec.units_step (q : FloatSpec) {step k : Nat} (hk : k ≤ 2 * 2 ^ q.mbits) (hstep : step ≠ 0 → 2 ^ q.mbits ≤ k) :
    q.units (step * 2 ^ q.mbits + k) = k * 2 ^ step := by
  simp only [units, mantOf]
  obtain ⟨P, hP⟩ : ∃ P, P = 2 ^ q.mbits := ⟨_, rfl⟩
  have hpos : 0 < P := hP ▸ Nat.two_pow_pos _
  rw [← hP] at hk hstep ⊢
  rw [Nat.mul_comm step P, Nat.mul_add_div hpos, Nat.mul_add_mod]
  rcases Nat.lt_or_ge k P with hlt | hge
  · have hzero : step = 0 := by
      by_contra h
      exact absurd (hstep h) (not_le.2 hlt)
    simp [hzero, Nat.div_eq_of_lt hlt, Nat.mod_eq_of_lt hlt]
  rcases Nat.lt_or_ge k (2 * P) with hlt | hge'
  · have hdiv : k / P = 1 := Nat.div_eq_of_lt_le (by omega) (by omega)
    have hmod : k % P = k - P := by rw [Nat.mod_eq_sub_mod hge, Nat.mod_eq_of_lt (by omega)]
    rw [hdiv, hmod, if_neg (Nat.succ_ne_zero _), Nat.add_sub_cancel, Nat.sub_add_cancel hge]
  · obtain rfl : k = 2 * P := by omega
    rw [Nat.mul_div_cancel _ hpos, Nat.mul_mod_left, if_neg (by omega)]
    rw [Nat.zero_add, show step + 2 - 1 = step + 1 from rfl, Nat.pow_succ]
    ring

/-! ### Decoding -/

theorem FloatSpec.signBit_signed (q : FloatSpec) (neg : Bool) (h : code < 2 ^ (q.mbits + q.ebits)) :
    q.signBit (q.signed neg code) = neg := by
  cases neg <;> simp [signBit, signed, Nat.div_eq_of_lt h]

/-- The exponent field of a signed code. -/
theorem FloatSpec.expField_signed (q : FloatSpec) (neg : Bool) (h : code < 2 ^ (q.mbits + q.ebits)) :
    q.signed neg code / 2 ^ q.mbits % 2 ^ q.ebits = code / 2 ^ q.mbits := by
  have hlt : code / 2 ^ q.mbits < 2 ^ q.ebits := Nat.div_lt_of_lt_mul (by rwa [← Nat.pow_add])
  cases neg with
  | false => exact Nat.mod_eq_of_lt hlt
  | true =>
    rw [signed, if_pos rfl, Nat.pow_add, Nat.add_mul_div_left _ _ (Nat.two_pow_pos _), Nat.add_mod_right, Nat.mod_eq_of_lt hlt]

theorem FloatSpec.mantField_signed (q : FloatSpec) (neg : Bool) (code : Nat) :
    q.signed neg code % 2 ^ q.mbits = code % 2 ^ q.mbits := by
  cases neg with
  | false => rfl
  | true => rw [signed, if_pos rfl, Nat.pow_add, Nat.add_mul_mod_self_left]

/-- A code without its sign that is none of the special ones of its layout. -/
def FloatSpec.IsNumber (q : FloatSpec) (code : Nat) : Prop :=
  (q.special = .ieee → code / 2 ^ q.mbits ≠ 2 ^ q.ebits - 1) ∧
  (q.special = .nanOnly → ¬(code / 2 ^ q.mbits = 2 ^ q.ebits - 1 ∧ code % 2 ^ q.mbits = 2 ^ q.mbits - 1))

theorem FloatSpec.decode_number (neg : Bool) (h : code < 2 ^ (q.mbits + q.ebits)) (hn : q.IsNumber code) :
    q.decode (q.signed neg code) = .fin neg (q.mantOf code) (q.expOf code) := by
  have hnumber : (if code / 2 ^ q.mbits = 0 then FVal.fin neg (code % 2 ^ q.mbits) (1 - (q.bias : Int) - q.mbits)
      else .fin neg (code % 2 ^ q.mbits + 2 ^ q.mbits) (1 - (q.bias : Int) - q.mbits + (code / 2 ^ q.mbits : Nat) - 1)) =
      .fin neg (q.mantOf code) (q.expOf code) := by
    generalize hE : code / 2 ^ q.mbits = E
    rw [mantOf, expOf, qmin, hE]
    split
    next h0 => rw [h0]; simp
    next h0 => congr 1; omega
  obtain ⟨hieee, hnan⟩ := hn
  cases hs : q.special with
  | ieee => simp only [decode, hs, q.signBit_signed neg h, q.expField_signed neg h, q.mantField_signed, hnumber, if_neg (hieee hs)]
  | nanOnly => simp only [decode, hs, q.signBit_signed neg h, q.expField_signed neg h, q.mantField_signed, hnumber, if_neg (hnan hs)]
  | none => simp only [decode, hs, q.signBit_signed neg h, q.expField_signed neg h, q.mantField_signed, hnumber]

/-- The all-ones exponent of a layout with infinities. -/
theorem FloatSpec.decode_special (neg : Bool) (h : code < 2 ^ (q.mbits + q.ebits)) (hs : q.special = .ieee)
    (htop : code / 2 ^ q.mbits = 2 ^ q.ebits - 1) : q.decode (q.signed neg code) =
      if code % 2 ^ q.mbits = 0 then .inf neg
      else .nan neg (code % 2 ^ q.mbits / 2 ^ (q.mbits - 1) == 1) (code % 2 ^ q.mbits % 2 ^ (q.mbits - 1)) (q.mbits - 1) := by
  simp only [decode, hs, q.signBit_signed neg h, q.expField_signed neg h, q.mantField_signed, if_pos htop]

/-- The one NaN of a layout without infinities. -/
theorem FloatSpec.decode_onlyNan (neg : Bool) (h : code < 2 ^ (q.mbits + q.ebits)) (hs : q.special = .nanOnly)
    (htop : code / 2 ^ q.mbits = 2 ^ q.ebits - 1 ∧ code % 2 ^ q.mbits = 2 ^ q.mbits - 1) :
    q.decode (q.signed neg code) = .nan neg true 0 0 := by
  simp only [decode, hs, q.signBit_signed neg h, q.expField_signed neg h, q.mantField_signed, if_pos htop]

/-- Every layout of the machine has its largest finite code among its codes, and no special one below it. -/
theorem Fmt.maxCode_lt (g : Fmt) : g.spec.maxCode < 2 ^ (g.spec.mbits + g.spec.ebits) := by
  cases g <;> decide

theorem Fmt.isNumber_of_le_maxCode (g : Fmt) (hc : code ≤ g.spec.maxCode) : g.spec.IsNumber code := by
  cases g <;> simp [FloatSpec.IsNumber, FloatSpec.maxCode, Fmt.spec] at hc ⊢ <;> omega

/-- A code up to the largest finite one decodes to its magnitude. -/
theorem Fmt.decode_finite (g : Fmt) (neg : Bool) (hc : code ≤ g.spec.maxCode) :
    g.spec.decode (g.spec.signed neg code) = .fin neg (g.spec.mantOf code) (g.spec.expOf code) :=
  FloatSpec.decode_number neg (hc.trans_lt g.maxCode_lt) (g.isNumber_of_le_maxCode hc)

end Sys2Proof.Machine
end

section
/-! SUPPORT. What the shared floating-point operations do, and the statement of the scalar ones (R80, R81, R100 to R113, R148, R157). -/

namespace Sys2Proof.Machine

open Sys2Proof.Claims

/-! ### Decoding -/

theorem FloatSpec.fields_of_code (q : FloatSpec) {E M : Nat} (hM : M < 2 ^ q.mbits) :
    (E * 2 ^ q.mbits + M) / 2 ^ q.mbits = E ∧ (E * 2 ^ q.mbits + M) % 2 ^ q.mbits = M := by
  rw [Nat.mul_comm, Nat.mul_add_div (Nat.two_pow_pos _), Nat.mul_add_mod, Nat.div_eq_of_lt hM, Nat.mod_eq_of_lt hM]
  exact ⟨Nat.add_zero E, rfl⟩

theorem FloatSpec.code_lt (q : FloatSpec) {E M : Nat} (hE : E < 2 ^ q.ebits) (hM : M < 2 ^ q.mbits) :
    E * 2 ^ q.mbits + M < 2 ^ (q.mbits + q.ebits) := by
  have hstep : (E + 1) * 2 ^ q.mbits ≤ 2 ^ q.ebits * 2 ^ q.mbits := Nat.mul_le_mul_right _ hE
  rw [Nat.pow_add, Nat.mul_comm (2 ^ q.mbits)]
  rw [Nat.add_mul] at hstep
  omega

/-- The upper half of a mantissa's values is that with its top bit. -/
theorem topBit_eq {m M : Nat} (hm : 0 < m) (hM : M < 2 ^ m) : (M / 2 ^ (m - 1) == 1) = decide (2 ^ (m - 1) ≤ M) := by
  obtain ⟨a, rfl⟩ := Nat.exists_eq_succ_of_ne_zero hm.ne'
  rw [Nat.succ_eq_add_one, Nat.pow_succ] at hM
  rw [Nat.succ_sub_one, beq_eq_decide]
  refine decide_eq_decide.2 ⟨fun h => ?_, fun h => Nat.div_eq_of_lt_le (by omega) (by omega)⟩
  by_contra hlow
  rw [Nat.div_eq_of_lt (by omega)] at h
  exact absurd h (by decide)

/-- The layouts with their parameters (R100). -/
theorem layout_of_mem {g : Fmt} {m eb bias : Nat} (h : (g, m, eb, bias) ∈
    [(Fmt.fp32, 23, 8, 127), (.fp16, 10, 5, 15), (.bf16, 7, 8, 127), (.e4m3, 3, 4, 7), (.e5m2, 2, 5, 15)]) :
    g.spec = ⟨m, eb, bias, if g = .e4m3 then .nanOnly else .ieee⟩ ∧ 0 < m ∧ 2 ≤ 2 ^ eb ∧ (g = .e4m3 → m = 3) := by
  simp only [List.mem_cons, Prod.mk.injEq, List.not_mem_nil, or_false] at h
  rcases h with ⟨rfl, rfl, rfl, rfl⟩ | ⟨rfl, rfl, rfl, rfl⟩ | ⟨rfl, rfl, rfl, rfl⟩ | ⟨rfl, rfl, rfl, rfl⟩ | ⟨rfl, rfl, rfl, rfl⟩
    <;> decide

theorem decodesAs : DecodesAs := by
  intro g m eb bias neg E M x hg hE hM hx
  obtain ⟨hspec, hm, heb2, h3⟩ := layout_of_mem hg
  obtain ⟨q, hq⟩ : ∃ q, q = g.spec := ⟨_, rfl⟩
  have hmb : q.mbits = m := by rw [hq, hspec]
  have heb : q.ebits = eb := by rw [hq, hspec]
  have hbias : q.bias = bias := by rw [hq, hspec]
  have hspecial : q.special = if g = .e4m3 then .nanOnly else .ieee := by rw [hq, hspec]
  rw [← hq]
  subst hmb heb hbias
  obtain ⟨hdiv, hmod⟩ := q.fields_of_code (E := E) hM
  have hlt := q.code_lt hE hM
  have hcode : x = q.signed neg (E * 2 ^ q.mbits + M) := by
    rw [hx, FloatSpec.signed, Nat.add_comm q.ebits]
    cases neg <;> simp; omega
  rw [hcode]
  have hnumber : (E < 2 ^ q.ebits - 1 ∨ g = .e4m3 ∧ M < 7) → q.IsNumber (E * 2 ^ q.mbits + M) := by
    intro h
    rw [FloatSpec.IsNumber, hdiv, hmod, hspecial]
    by_cases hg4 : g = .e4m3
    · simp [hg4, h3 hg4] at h ⊢
      omega
    · simp [hg4] at h ⊢
      omega
  refine ⟨fun h0 => ?_, fun hpos htop => ?_, fun htop hg4 h7 => ?_, fun htop hg4 => ?_⟩
  · rw [FloatSpec.decode_number neg hlt (hnumber (.inl (by omega))), FloatSpec.mantOf, FloatSpec.expOf, hdiv, hmod, if_pos h0, h0,
      FloatSpec.qmin]
    simp
  · have hexp : 1 - (q.bias : Int) - q.mbits + ((E - 1 : Nat) : Int) = (E : Int) - q.bias - q.mbits := by omega
    rw [FloatSpec.decode_number neg hlt (hnumber htop), FloatSpec.mantOf, FloatSpec.expOf, hdiv, hmod, if_neg hpos.ne',
      FloatSpec.qmin, hexp, Nat.add_comm M]
  · rw [FloatSpec.decode_onlyNan neg hlt (by rw [hspecial, if_pos hg4]) ⟨by rw [hdiv, htop], by rw [hmod, h7, h3 hg4]; rfl⟩]
  · rw [FloatSpec.decode_special neg hlt (by rw [hspecial, if_neg hg4]) (by rw [hdiv, htop]), hmod, topBit_eq hm hM]

/-! ### Rounding into a layout -/

/-- The binary order of a magnitude, seen in any unit that divides it. -/
theorem log2_eq_of_bounds {m X : Nat} {e E b : Int} (hm : 0 < m) (hbe : b ≤ e) (hbE : b ≤ E) (hX : X = m * 2 ^ (e - b).toNat)
    (hlow : 2 ^ (E - b).toNat ≤ X) (hhigh : X < 2 * 2 ^ (E - b).toNat) : (m.log2 : Int) + e = E := by
  have hX0 : X ≠ 0 := by
    have := Nat.two_pow_pos (E - b).toNat
    omega
  have hE : X.log2 = (E - b).toNat := (Nat.log2_eq_iff hX0).2 ⟨hlow, by rw [Nat.pow_succ]; omega⟩
  have hshift : X.log2 = m.log2 + (e - b).toNat := by
    refine (Nat.log2_eq_iff hX0).2 ⟨?_, ?_⟩
    · rw [hX, Nat.pow_add]
      exact Nat.mul_le_mul_right _ (Nat.log2_self_le hm.ne')
    · rw [hX, Nat.add_right_comm, Nat.pow_add]
      exact Nat.mul_lt_mul_of_pos_right Nat.lt_log2_self (Nat.two_pow_pos _)
  omega

/-- The magnitude of the code that rounding builds is that of the spacings it holds. -/
theorem FloatSpec.magOf_codeAt (q : FloatSpec) {Q : Int} {k : Nat} (hQ : q.qmin ≤ Q) (hk : k ≤ 2 * 2 ^ q.mbits)
    (hnormal : q.qmin < Q → 2 ^ q.mbits ≤ k) :
    magOf (q.mantOf (q.codeAt Q k)) (q.expOf (q.codeAt Q k)) = magOf k Q := by
  have hstep : (((Q - q.qmin).toNat : Nat) : Int) = Q - q.qmin := by omega
  have hunits : q.units (q.codeAt Q k) = k * 2 ^ (Q - q.qmin).toNat := q.units_step hk fun h => hnormal (by omega)
  rw [q.magOf_code, hunits, magOf]
  push_cast
  rw [mul_assoc, ← zpow_natCast, hstep, ← zpow_add₀ (by norm_num), sub_add_cancel]

theorem FloatSpec.code_lt_iff (q : FloatSpec) (a b : Nat) :
    a < b ↔ magOf (q.mantOf a) (q.expOf a) < magOf (q.mantOf b) (q.expOf b) := by
  rw [q.magOf_code, q.magOf_code, mul_lt_mul_iff_left₀ (by positivity), Nat.cast_lt, q.units_strictMono.lt_iff_lt]

theorem FloatSpec.signed_lt (q : FloatSpec) (neg : Bool) {code : Nat} (h : code < 2 ^ (q.mbits + q.ebits)) :
    q.signed neg code < 2 ^ (q.mbits + q.ebits + 1) := by
  rw [Nat.pow_succ]
  cases neg <;> simp [signed] <;> omega

/-- The spacings of a rounded magnitude fit a code: at most one carry, and no fewer than a normal mantissa has above 2^emin. -/
theorem spacings_bounds {mb X S lo k : Nat} {E Q emin b : Int} (hbE : b ≤ E) (hbQ : b ≤ Q) (hlow : 2 ^ (E - b).toNat ≤ X)
    (hhigh : X < 2 * 2 ^ (E - b).toNat) (hQ : Q = max E emin - mb) (hS : S = 2 ^ (Q - b).toNat) (hlo : lo * S ≤ X)
    (hlo' : X < (lo + 1) * S) (hk : lo ≤ k ∧ k ≤ lo + 1) : k ≤ 2 * 2 ^ mb ∧ (emin - mb < Q → 2 ^ mb ≤ k) := by
  have hSpos : 0 < S := hS ▸ Nat.two_pow_pos _
  have htop : 2 ^ (E - b).toNat ≤ 2 ^ mb * S := by
    rw [hS, ← Nat.pow_add]
    exact Nat.pow_le_pow_right (by decide) (by omega)
  refine ⟨?_, fun hnormal => ?_⟩
  · have hlt : lo * S < 2 * 2 ^ mb * S := by
      rw [Nat.mul_assoc]
      omega
    have := Nat.lt_of_mul_lt_mul_right hlt
    omega
  · have hbase : 2 ^ mb * S = 2 ^ (E - b).toNat := by
      rw [hS, ← Nat.pow_add]
      congr 1
      omega
    have hlt : 2 ^ mb * S < (lo + 1) * S := by omega
    have := Nat.lt_of_mul_lt_mul_right hlt
    omega

theorem mem_specials {g : Fmt} {top : Nat} (h : (g, top) ∈ [(Fmt.e4m3, 0x7E), (.mxfp8, 0x7E), (.mxfp4, 7)]) (M : RMode) (neg : Bool) :
    g.spec.maxCode = top ∧ g.spec.overflow neg M = (if neg then 2 ^ (g.width - 1) else 0) + top := by
  simp only [List.mem_cons, Prod.mk.injEq, List.not_mem_nil, or_false] at h
  rcases h with ⟨rfl, rfl⟩ | ⟨rfl, rfl⟩ | ⟨rfl, rfl⟩ <;> cases neg <;> cases M <;> decide

theorem roundsAs : RoundsAs := by
  refine ⟨fun g q M neg e _ => rfl, ?_, ?_, fun g top M neg h => mem_specials h M neg⟩
  · rintro g q M neg m X S lo k top e E Q b et ev rfl hm hbe hbE hbQ hX hlow hhigh hQ hS hlo hlo' rfl rfl htop c hce hcQ
    have hSpos : 0 < S := hS ▸ Nat.two_pow_pos _
    have hlog := log2_eq_of_bounds hm hbe hbE hX hlow hhigh
    have hdiv : X / S = lo := Nat.div_eq_of_lt_le hlo hlo'
    obtain ⟨hk, hnormal⟩ := spacings_bounds hbE hbQ hlow hhigh hQ hS hlo hlo' (neighbour_bounds M neg hSpos hlo)
    have hinexact := neighbour_inexact_iff M neg X S
    have hround := g.spec.round_eq_deliver M neg hm.ne' (by rw [hlog]; exact hQ) hbe hbQ hX hS
    rw [hdiv] at hround hinexact
    simp only [hlog, ← hinexact] at hround
    generalize neighbour M neg X S lo = k at *
    have hmag := g.spec.magOf_codeAt (Q := Q) (k := k) (by rw [FloatSpec.qmin]; omega) hk hnormal
    have hlargest : FVal.fin false (g.spec.mantOf g.spec.maxCode) (g.spec.expOf g.spec.maxCode) = .fin false top et :=
      (g.decode_finite false le_rfl).symm.trans htop
    obtain ⟨-, rfl, rfl⟩ := FVal.fin.inj hlargest
    have hover : g.spec.maxCode < g.spec.codeAt Q k ↔ g.spec.mantOf g.spec.maxCode *
        2 ^ (g.spec.expOf g.spec.maxCode - c).toNat < k * 2 ^ (Q - c).toNat := by
      rw [g.spec.code_lt_iff, hmag, magOf_lt_iff hce hcQ]
    refine ⟨fun h => ?_, fun h => ?_⟩
    · rw [hround, FloatSpec.deliver, if_pos (hover.2 h)]
    · have hfit : ¬ g.spec.maxCode < g.spec.codeAt Q k := fun hc => absurd (hover.1 hc) (not_lt.2 h)
      refine ⟨_, _, _, by rw [hround, FloatSpec.deliver, if_neg hfit], g.spec.signed_lt neg ((not_lt.1 hfit).trans_lt g.maxCode_lt),
        g.decode_finite neg (not_lt.1 hfit), fun d hd hdQ => ?_⟩
      rw [magOf_eq_iff hd hdQ, hmag]
  · intro g inf top M neg h
    simp only [List.mem_cons, Prod.mk.injEq, List.not_mem_nil, or_false] at h
    rcases h with ⟨rfl, rfl, rfl⟩ | ⟨rfl, rfl, rfl⟩ | ⟨rfl, rfl, rfl⟩ | ⟨rfl, rfl, rfl⟩ <;> cases neg <;> cases M <;> decide

/-! ### Conversion -/

/-- The bounds of the integer formats (R103). -/
theorem intRange_of_mem {g : Fmt} {lo hi : Int} (h : (g, lo, hi) ∈
    [(Fmt.i8, -128, 127), (.n8, 0, 255), (.i16, -32768, 32767), (.i32, -2147483648, 2147483647)]) :
    g.intRange = (lo, hi) ∧ lo ≤ hi := by
  simp only [List.mem_cons, Prod.mk.injEq, List.not_mem_nil, or_false] at h
  rcases h with ⟨rfl, rfl, rfl⟩ | ⟨rfl, rfl, rfl⟩ | ⟨rfl, rfl, rfl⟩ | ⟨rfl, rfl, rfl⟩ <;> decide

theorem saturate_eq {g : Fmt} {lo hi : Int} {put : Int → Nat} (h : (g, lo, hi) ∈
    [(Fmt.i8, -128, 127), (.n8, 0, 255), (.i16, -32768, 32767), (.i32, -2147483648, 2147483647)])
    (hput : put = fun y => (y % (2 : Int) ^ g.width).toNat) (v : Int) :
    saturate g v = (put (max lo (min hi v)), if v < lo ∨ hi < v then kInvalid else noKind) := by
  have hbits : ∀ y, g.intBits y = put y := by
    intro y
    rw [hput, Fmt.intBits]
    push_cast
    rfl
  obtain ⟨hg, hle⟩ := intRange_of_mem h
  simp only [saturate, hg, hbits]
  rcases lt_or_ge v lo with hlow | hlow
  · rw [if_pos hlow, if_pos (.inl hlow), max_eq_left (by omega)]
  · rw [if_neg (not_lt.2 hlow)]
    rcases lt_or_ge hi v with hhigh | hhigh
    · rw [if_pos hhigh, if_pos (.inr hhigh), min_eq_left hhigh.le, max_eq_right hle]
    · rw [if_neg (not_lt.2 hhigh), if_neg (by omega), min_eq_right hhigh, max_eq_right hlow]

theorem convert_toFloat {src dst : Fmt} {M : RMode} {x : Nat} (h : dst.isInt = false) :
    convert src dst M x = toFloatFmt dst.spec M (src.value x) := by
  simp [convert, h]

/-- The layouts without infinities. -/
theorem Fmt.special_ieee_iff {g : Fmt} (h : g.isInt = false) :
    g.spec.special = .ieee ↔ ¬(g = .e4m3 ∨ g = .mxfp8 ∨ g = .mxfp4) := by
  revert h
  cases g <;> decide

theorem toInt_ofInt (M : RMode) (v : Int) : (FVal.ofInt v).dy.toInt M = v := by
  rw [FVal.ofInt, FVal.dy_fin, Dy.toInt_whole M _ _ le_rfl]
  rcases lt_or_ge v 0 with h | h
  · simp [h, abs_of_neg h]
  · simp [not_lt.2 h, abs_of_nonneg h]

/-- A conversion into an integer format: an integer saturates as it is, as a value does that is one. -/
theorem convert_toInt {src dst : Fmt} {M : RMode} {x : Nat} (h : dst.isInt = true) :
    convert src dst M x = toIntFmt dst M (src.value x) := by
  cases hs : src.isInt with
  | false => simp [convert, h, hs]
  | true =>
    have hval := toInt_ofInt M (src.intValue x)
    simp only [convert, h, hs, Bool.and_self, if_true, Fmt.value, toIntFmt, FVal.ofInt] at hval ⊢
    rw [hval]

theorem convertsAs : ConvertsAs := by
  intro src dst M x v hv
  have hvalue : src.value x = v := hv.symm
  refine ⟨?_, ?_⟩
  · rintro hdst q rfl
    rw [convert_toFloat hdst, hvalue]
    refine ⟨?_, ?_, ?_⟩
    · rintro neg m e rfl
      rfl
    · rintro neg rfl
      simp only [toFloatFmt, Fmt.special_ieee_iff hdst, ite_not]
    · rintro neg quiet pay bits rfl
      rfl
  · intro hdst lo hi put hmem hput
    rw [convert_toInt hdst, hvalue]
    refine ⟨?_, ?_, ?_⟩
    · rintro neg quiet pay bits rfl
      rfl
    · rintro neg rfl
      obtain ⟨hrange, hle⟩ := intRange_of_mem hmem
      have hinf : toIntFmt dst M (.inf neg) = saturate dst (if neg then lo - 1 else hi + 1) := by rw [toIntFmt, hrange]
      rw [hinf, saturate_eq hmem hput]
      cases neg with
      | false =>
        rw [if_neg Bool.false_ne_true, if_neg Bool.false_ne_true, if_pos (.inr (by omega)), min_eq_left (by omega), max_eq_right hle]
      | true => rw [if_pos rfl, if_pos rfl, if_pos (.inl (by omega)), max_eq_left (by omega)]
    · rintro neg m e b X S n y rfl hbe hb hX hS hn hn' rfl
      have hdiv : X / S = n := Nat.div_eq_of_lt_le hn hn'
      rw [← hdiv, ← toInt_eq_neighbour M neg hbe hb hX hS, ← saturate_eq hmem hput]
      rfl

/-! ### Comparison -/

/-- An exact value seen at a lower exponent still. -/
theorem Dy.at_lower (x : Dy) {c e : Int} (hc : c ≤ e) (he : e ≤ x.e) : x.at c = x.at e * (2 ^ (e - c).toNat : Nat) := by
  rw [Dy.at, Dy.at, pow_toNat_split hc he, Nat.cast_mul, Int.mul_assoc]

theorem Dy.at_neg (x : Dy) (c : Int) : x.neg.at c = -x.at c := Int.neg_mul _ _

theorem Dy.at_zero {x : Dy} (h : x.m = 0) (c : Int) : x.at c = 0 := by
  rw [Dy.at, h, Int.zero_mul]

/-- The sign of an exact value is that of its integer at any lower exponent. -/
theorem Dy.at_neg_iff (x : Dy) (c : Int) : x.at c < 0 ↔ x.m < 0 := by
  rw [Dy.at]
  have h := mul_lt_mul_iff_left₀ (b := x.m) (c := 0) (a := ((2 ^ (x.e - c).toNat : Nat) : Int)) (by positivity)
  rwa [zero_mul] at h

/-- The order of two exact values is that of their integers at any exponent that divides both. -/
theorem Dy.lt_iff_at (x y : Dy) {c : Int} (hx : c ≤ x.e) (hy : c ≤ y.e) : x.lt y = decide (x.at c < y.at c) := by
  have hpos : (0 : Int) < ((2 : Nat) ^ (min x.e y.e - c).toNat : Nat) := by positivity
  rw [Dy.lt]
  refine decide_eq_decide.2 ?_
  rw [Dy.sub, Dy.add]
  split
  next h => rw [Dy.at_zero h, ← Dy.at_neg_iff _ c, Dy.at_neg, Int.neg_lt_zero_iff]
  split
  next h =>
    have hzero : y.m = 0 := Int.neg_eq_zero.1 h
    rw [Dy.at_zero hzero, Dy.at_neg_iff]
  next =>
    rw [x.at_lower (le_min hx hy) (min_le_left _ _), y.at_lower (le_min hx hy) (min_le_right _ _), mul_lt_mul_iff_left₀ hpos]
    show x.at (min x.e y.e) + y.neg.at (min x.e y.e) < 0 ↔ _
    rw [Dy.at_neg]
    omega

theorem scaledAt_eq (neg : Bool) (m : Nat) (e c : Int) : scaledAt neg m e c = (FVal.fin neg m e).dy.at c := by
  rw [scaledAt, FVal.dy_fin, Dy.at, FVal.signedDy]
  cases neg <;> simp

/-- The relations, by the two orders of the operands. -/
theorem FRel.eval_numbers {a b : FVal} (ha : a.isNan = false) (hb : b.isNan = false) :
    FRel.eq.eval a b = (!a.below b && !b.below a, noKind) ∧ FRel.ne.eval a b = (!(!a.below b && !b.below a), noKind) ∧
    FRel.lt.eval a b = (a.below b, noKind) ∧ FRel.le.eval a b = (!b.below a, noKind) ∧ FRel.un.eval a b = (false, noKind) := by
  simp [FRel.eval, FVal.same, ha, hb]

theorem comparesAs : ComparesAs := by
  refine ⟨fun a b h => by simp [FRel.eval, h], fun a b less same ha hb h => ?_⟩
  obtain ⟨heq, hne, hlt, hle, hun⟩ := FRel.eval_numbers ha hb
  have horder : a.below b = less ∧ (!a.below b && !b.below a) = same ∧ (!b.below a) = (less || same) := by
    cases a with
    | nan => simp [FVal.isNan] at ha
    | inf n =>
      cases b with
      | nan => simp [FVal.isNan] at hb
      | inf n' =>
        obtain ⟨rfl, rfl⟩ := h
        cases n <;> cases n' <;> decide
      | fin n' m' e' =>
        obtain ⟨rfl, rfl⟩ := h
        cases less <;> simp [FVal.below]
    | fin n m e =>
      cases b with
      | nan => simp [FVal.isNan] at hb
      | inf n' =>
        obtain ⟨rfl, rfl⟩ := h
        cases n' <;> simp [FVal.below]
      | fin n' m' e' =>
        obtain ⟨c, hce, hce', rfl, rfl⟩ := h
        have hab : (FVal.fin n m e).below (.fin n' m' e') = decide (scaledAt n m e c < scaledAt n' m' e' c) := by
          rw [scaledAt_eq, scaledAt_eq]
          exact Dy.lt_iff_at _ _ hce hce'
        have hba : (FVal.fin n' m' e').below (.fin n m e) = decide (scaledAt n' m' e' c < scaledAt n m e c) := by
          rw [scaledAt_eq, scaledAt_eq]
          exact Dy.lt_iff_at _ _ hce' hce
        rw [hab, hba]
        refine ⟨rfl, ?_, ?_⟩
        · rw [Bool.eq_iff_iff]
          simp
          omega
        · rw [Bool.eq_iff_iff]
          simp
          omega
  obtain ⟨hless, hsame, hnotAbove⟩ := horder
  rw [heq, hne, hlt, hle, hsame, hless, hnotAbove]
  exact ⟨rfl, rfl, rfl, rfl, hun⟩

/-! ### The scalar instructions -/

variable {s : State} {i : Issue} {f : RForm}

theorem scalarFmt_of_code {c : Nat} {g : Fmt} (h : Fmt.ofCode c = some g) : scalarFmt c = g := by
  rw [scalarFmt, h]
  rfl

/-- FCVTS by the formats that its fields name (R80). -/
theorem fcvtsValue_eq {src dst : Fmt} {fn : BitVec 18} (a : Word) (hsrc : Fmt.ofCode (fn.toNat / 2 ^ 14 % 16) = some src)
    (hdst : Fmt.ofCode (fn.toNat / 2 ^ 10 % 16) = some dst) {v : Nat} {ev : Kinds}
    (hv : convert src dst (RMode.ofCode (fn.toNat / 2 ^ 7 % 8)) (scalarBits src a) = (v, ev)) :
    fcvtsValue fn a = (if dst = .i32 then (BitVec.ofNat 32 v).signExtend 64 else BitVec.ofNat 64 v, ev) := by
  rw [scalarBits] at hv
  have hs : scalarFmt (fieldN fn 14 4) = src := by rw [fieldN_eq]; exact scalarFmt_of_code hsrc
  have hd : scalarFmt (fieldN fn 10 4) = dst := by rw [fieldN_eq]; exact scalarFmt_of_code hdst
  have hm : fieldN fn 7 3 = fn.toNat / 2 ^ 7 % 8 := fieldN_eq fn 7 3
  simp only [fcvtsValue, hs, hd, hm, hv]

/-- FCMPS by the format that its field names (R81). -/
theorem fcmpsValue_eq {g : Fmt} {fn : BitVec 18} (a b : Word) (hg : Fmt.ofCode (fn.toNat / 2 ^ 8 % 16) = some g) :
    fcmpsValue fn a b =
      (fcmpsRel (fn.toNat / 2 ^ 15)).eval (g.spec.decode (scalarBits g a)) (g.spec.decode (scalarBits g b)) := by
  have hs : scalarFmt (fieldN fn 8 4) = g := by rw [fieldN_eq]; exact scalarFmt_of_code hg
  have hr : fieldN fn 15 3 = fn.toNat / 2 ^ 15 := fieldN_top fn rfl
  simp only [fcmpsValue, hs, hr, scalarBits]

theorem exec_fcmps (hi : InIssue s i) (ht : Taken s f.pr f.pn) {g : Fmt} (hg : Fmt.ofCode (f.fn.toNat / 2 ^ 8 % 16) = some g)
    {r : Bool × Kinds} (hr : (fcmpsRel (f.fn.toNat / 2 ^ 15)).eval (g.spec.decode (scalarBits g (gOf s f.a)))
      (g.spec.decode (scalarBits g (gOf s f.b))) = r) :
    exec (.fcmps f) s = .next (landedRaising s i .p (f.fn.toNat / 2 ^ 12 % 8) (truth r.1) 2 (scalarEvs r.2)) := by
  have hq : fieldN f.fn 12 3 = f.fn.toNat / 2 ^ 12 % 8 := fieldN_eq f.fn 12 3
  rw [← hr, ← fcmpsValue_eq _ _ hg, ← hq]
  exact exec_predR (v := fun x => fcmpsValue f.fn (x.greg f.a.toNat) (x.greg f.b.toNat)) hi ht rfl

/-- A comparison that records nothing only lands. -/
theorem exec_fcmps_quiet (hi : InIssue s i) (ht : Taken s f.pr f.pn) {g : Fmt}
    (hg : Fmt.ofCode (f.fn.toNat / 2 ^ 8 % 16) = some g) {a b : FVal} (ha : a = g.spec.decode (scalarBits g (gOf s f.a)))
    (hb : b = g.spec.decode (scalarBits g (gOf s f.b))) {rel : FRel} (hrel : fcmpsRel (f.fn.toNat / 2 ^ 15) = rel)
    (hquiet : (rel.eval a b).2 = noKind) :
    exec (.fcmps f) s = .next (landed s i .p (f.fn.toNat / 2 ^ 12 % 8) (truth (rel.eval a b).1) 2) := by
  rw [exec_fcmps hi ht hg rfl, hrel, ← ha, ← hb, hquiet, scalarEvs_noKind, landedRaising_nil]

/-- Settles O8: the shared operations by the lemmas above, the two instructions by the values they land. -/
theorem scalarFloatResults : Obligations.ScalarFloatResults := by
  refine ⟨decodesAs, roundsAs, convertsAs, comparesAs, fun s i f hi ht => ⟨?_, ?_⟩⟩
  · intro src dst v ev hsrc hdst hv
    have hmean : slotMeaning (.fcvts f) s = some (meanFcvts f s) := rfl
    refine exec_scalarTo hi ?_
    rw [hmean, meanFcvts, ht]
    exact congrArg some (by rw [← gOf.eq_def, fcvtsValue_eq (gOf s f.a) hsrc hdst hv])
  · rintro g a b hg ha hb q rfl
    obtain ⟨hnan, -⟩ := comparesAs
    refine ⟨fun hcc => ?_, fun hna hnb hcc => ?_, fun hn hcc => ?_, fun hn hcc => ?_⟩
    · exact exec_fcmps_quiet hi ht hg ha hb (rel := .un) (by rw [hcc]; rfl) rfl
    · obtain ⟨-, -, hlt, hle, -⟩ := FRel.eval_numbers hna hnb
      obtain h | h | h : f.fn.toNat / 2 ^ 15 = 0 ∨ f.fn.toNat / 2 ^ 15 = 1 ∨ f.fn.toNat / 2 ^ 15 = 2 := by omega
      · have hexec := exec_fcmps_quiet hi ht hg ha hb (rel := .eq) (by rw [h]; rfl) rfl
        rw [h]
        exact hexec
      · have hexec := exec_fcmps_quiet hi ht hg ha hb (rel := .lt) (by rw [h]; rfl) (congrArg Prod.snd hlt)
        rw [h]
        exact hexec
      · have hexec := exec_fcmps_quiet hi ht hg ha hb (rel := .le) (by rw [h]; rfl) (congrArg Prod.snd hle)
        rw [h]
        exact hexec
    · obtain ⟨heq, -⟩ := hnan a b hn
      rw [exec_fcmps_quiet hi ht hg ha hb (rel := .eq) (by rw [hcc]; rfl) rfl, heq]
      rfl
    · obtain ⟨-, -, hlt, hle, -⟩ := hnan a b hn
      rcases hcc with hcc | hcc
      · exact exec_fcmps hi ht hg (r := (false, kInvalid)) (by rw [hcc, ← ha, ← hb]; exact hlt)
      · exact exec_fcmps hi ht hg (r := (false, kInvalid)) (by rw [hcc, ← ha, ← hb]; exact hle)

end Sys2Proof.Machine
end

section
/-! SUPPORT. Results that land in the cells and towers of a context's squads (R133, R136, R334). -/

namespace Sys2Proof.Machine

open Sys2Proof.Claims

/-! ### Parts of the state -/

/-- A part that no step of a fold changes. -/
theorem foldl_keeps {α β γ : Type} {w : β → γ → β} {r : β → α} (h : ∀ y e, r (w y e) = r y) (es : List γ) (y : β) :
    r (es.foldl w y) = r y := by
  induction es generalizing y with
  | nil => rfl
  | cons e es ih => rw [List.foldl_cons, ih, h]

@[simp] theorem Core.ctx_setTower (k : Core) (n a : Nat) (t : Tower) : (k.setTower n t).ctx a = k.ctx a := by
  rw [Core.ctx, Core.ctxs_setTower, Core.ctx]

@[simp] theorem Core.usesSpare_setCell (k : Core) (n m : Nat) (y : Cell) : (k.setCell n y).usesSpare m = k.usesSpare m := rfl

@[simp] theorem Core.remap_setTower (k : Core) (n : Nat) (t : Tower) : (k.setTower n t).remap = k.remap := by
  unfold Core.setTower
  split <;> rfl

theorem Core.usesSpare_of_remap {k k' : Core} (h : k'.remap = k.remap) (n : Nat) : k'.usesSpare n = k.usesSpare n := by
  rw [Core.usesSpare, Core.remapWord, h, Core.usesSpare, Core.remapWord]

theorem Core.tower_setTower (k : Core) (n : Nat) (t : Tower) : (k.setTower n t).tower n = t := by
  rw [Core.tower, Core.usesSpare_of_remap (k.remap_setTower n t), Core.setTower]
  split
  · simp [Core.spare]
  · simp

/-- What putting back a tower leaves of a cell. -/
theorem Core.cell_setTower (k : Core) (n m : Nat) (t : Tower) :
    (k.setTower n t).cell m = { k.cell m with tower := ((k.setTower n t).cell m).tower } := by
  by_cases h : m = n
  · rw [Core.setTower]
    split
    · rfl
    · simp [h]
  · rw [Core.cell_setTower_ne h]

theorem Core.tower_of_noSpare {k : Core} (h : ∀ q, k.usesSpare q = false) (n : Nat) : k.tower n = (k.cell n).tower := by
  simp [Core.tower, h]

/-! ### A write of bits of a row -/

/-- What a core keeps while rows of a tower are written: its contexts, CMEM, and every cell but for the tower named. -/
structure Core.RowsOf (k' k : Core) (n : Nat) : Prop where
  ctxs : k'.ctxs = k.ctxs
  cmem : k'.cmem = k.cmem
  remap : k'.remap = k.remap
  others : ∀ m, m ≠ n → k'.cell m = k.cell m
  same : k'.cell n = { k.cell n with tower := (k'.cell n).tower }

theorem Core.RowsOf.refl (k : Core) (n : Nat) : k.RowsOf k n := ⟨rfl, rfl, rfl, fun _ _ => rfl, rfl⟩

theorem Core.RowsOf.trans {a b c : Core} {n : Nat} (h : a.RowsOf b n) (h' : b.RowsOf c n) : a.RowsOf c n where
  ctxs := h.ctxs.trans h'.ctxs
  cmem := h.cmem.trans h'.cmem
  remap := h.remap.trans h'.remap
  others m hm := (h.others m hm).trans (h'.others m hm)
  same := by rw [h.same, h'.same]

theorem Core.rowsOf_setTower (k : Core) (n : Nat) (t : Tower) : (k.setTower n t).RowsOf k n where
  ctxs := k.ctxs_setTower n t
  cmem := by unfold Core.setTower; split <;> rfl
  remap := k.remap_setTower n t
  others _ hm := Core.cell_setTower_ne hm t
  same := k.cell_setTower n n t

/-- Counting an error changes the error records of the core only. -/
theorem Core.countUncorr_eq (k : Core) (b : BadAt) (clk : Nat) :
    ∃ w es ts, k.countUncorr b clk = { k with errcnt := w, errs := es, tests := ts } := by
  unfold Core.countUncorr
  split <;> exact ⟨_, _, _, rfl⟩

/-- Records of errors are all that a core has changed. -/
def Core.Counted (k' k : Core) : Prop := ∃ w es ts, k' = { k with errcnt := w, errs := es, tests := ts }

theorem Core.counted_countOld (k : Core) (clk n r : Nat) : (k.countOld clk n r).Counted k := by
  unfold Core.countOld
  simp only
  split
  · exact ⟨_, _, _, rfl⟩
  split
  · exact k.countCorr_eq _ clk
  · exact k.countUncorr_eq _ clk

theorem Core.Counted.trans {a b c : Core} (h : a.Counted b) (h' : b.Counted c) : a.Counted c := by
  obtain ⟨w, es, ts, rfl⟩ := h
  obtain ⟨w', es', ts', rfl⟩ := h'
  exact ⟨_, _, _, rfl⟩

theorem Core.Counted.rowsOf {k' k : Core} (h : k'.Counted k) (n : Nat) : k'.RowsOf k n := by
  obtain ⟨w, es, ts, rfl⟩ := h
  exact ⟨rfl, rfl, rfl, fun _ _ => rfl, rfl⟩

/-- A write of a row counts the errors that it finds and puts the tower back. -/
theorem Core.writeRow_eq (k : Core) (clk n r : Nat) (v bits : Row) :
    ∃ k' : Core, k'.Counted k ∧ k.writeRow clk n r v bits = k'.setTower n ((k.tower n).writeBits clk r v bits) := by
  unfold Core.writeRow
  simp only
  have hold : Core.Counted (if bits = 0 then k else k.countOld clk n r) k := by
    split
    · exact ⟨_, _, _, rfl⟩
    · exact k.counted_countOld clk n r
  split
  · obtain ⟨w, es, ts, hcorr⟩ := Core.countCorr_eq (if bits = 0 then k else k.countOld clk n r) (.towerBank 0 n (rowLayer r) 8) clk
    exact ⟨_, Core.Counted.trans ⟨w, es, ts, hcorr⟩ hold, rfl⟩
  · exact ⟨_, hold, rfl⟩

/-- A tower takes a write of bits of a row (R136, R137, R436). -/
def Tower.landBits (t : Tower) (clk r : Nat) (v bits : Row) : Tower :=
  if bits = 0 || t.layer (rowLayer r) == .off || (bits != BitVec.allOnes 256 && t.uncorrectable r) then t
  else t.writeBits clk r v bits

/-- A tower takes a scale byte: its row, its place and its value (R218). -/
def Tower.landScale (clk : Nat) (t : Tower) (q : Nat × Nat × Byte) : Tower :=
  t.landBits clk q.1 (BitVec.ofNat 256 (q.2.2.toNat <<< (8 * q.2.1))) (byteBits q.2.1)

/-- A tower takes a write with its scale bytes (R136). -/
def Tower.landWrite (clk : Nat) (t : Tower) (w : TowerWrite) : Tower :=
  w.scales.foldl (Tower.landScale clk) (t.landBits clk w.row w.val w.bits)

theorem Core.landRow_spec (k : Core) (clk n r : Nat) (v bits : Row) :
    (k.landRow clk n r v bits).RowsOf k n ∧ (k.landRow clk n r v bits).tower n = (k.tower n).landBits clk r v bits := by
  unfold Core.landRow Tower.landBits
  simp only
  split
  · exact ⟨Core.RowsOf.refl k n, rfl⟩
  · obtain ⟨k', hk', heq⟩ := k.writeRow_eq clk n r v bits
    rw [heq]
    exact ⟨(k'.rowsOf_setTower n _).trans (hk'.rowsOf n), Core.tower_setTower _ _ _⟩

/-- Steps that each write one tower, in a row. -/
theorem Core.foldl_spec {α : Type} {f : Core → α → Core} {g : Tower → α → Tower} {n : Nat}
    (h : ∀ k a, (f k a).RowsOf k n ∧ (f k a).tower n = g (k.tower n) a) (as : List α) (k : Core) :
    (as.foldl f k).RowsOf k n ∧ (as.foldl f k).tower n = as.foldl g (k.tower n) := by
  induction as generalizing k with
  | nil => exact ⟨Core.RowsOf.refl k n, rfl⟩
  | cons a as ih =>
    obtain ⟨hrows, htower⟩ := ih (f k a)
    obtain ⟨hone, hval⟩ := h k a
    exact ⟨hrows.trans hone, by rw [List.foldl_cons, List.foldl_cons, htower, hval]⟩

theorem Core.landWrite_spec (k : Core) (clk n : Nat) (w : TowerWrite) :
    (k.landWrite clk n w).RowsOf k n ∧ (k.landWrite clk n w).tower n = (k.tower n).landWrite clk w := by
  obtain ⟨hrow, htower⟩ := k.landRow_spec clk n w.row w.val w.bits
  obtain ⟨hscales, hscale⟩ := Core.foldl_spec
    (f := fun k (q : Nat × Nat × Byte) => k.landRow clk n q.1 (BitVec.ofNat 256 (q.2.2.toNat <<< (8 * q.2.1))) (byteBits q.2.1))
    (g := Tower.landScale clk) (fun k (q : Nat × Nat × Byte) =>
    k.landRow_spec clk n q.1 (BitVec.ofNat 256 (q.2.2.toNat <<< (8 * q.2.1))) (byteBits q.2.1)) w.scales
    (k.landRow clk n w.row w.val w.bits)
  exact ⟨hscales.trans hrow, by rw [Core.landWrite, Tower.landWrite, hscale, htower]⟩

/-! ### The landings of one cell -/

/-- What is due at a level in a cycle. -/
def dueBy (level vt l d : Nat) : Bool := l == level && decide (d ≤ vt)

/-- The queues of a cell without what is due. -/
def Cell.settled (x : Cell) (level vt : Nat) : Cell :=
  { x with
    frags := x.frags.filter fun e => !dueBy level vt e.level e.due
    land := x.land.filter fun e => !dueBy level vt e.level e.due
    writes := x.writes.filter fun e => !dueBy level vt e.level e.due
    power := x.power.filter fun e => !dueBy level vt e.level e.due
    past := x.past.filter fun p => !(p.level == level && decide (p.cycle + 3 ≤ vt)) }

/-- A cell after the landings of its registers and latches. -/
def Cell.landed (x : Cell) (level vt : Nat) : Cell :=
  (x.land.filter fun e => dueBy level vt e.level e.due).foldl Cell.takeLanding
    ((x.frags.filter fun e => dueBy level vt e.level e.due).foldl Cell.takeFrag (x.settled level vt))

/-- The tower of a cell after the writes and changes of power that the cell holds for a cycle. -/
def Tower.landed (t : Tower) (clk : Nat) (x : Cell) (level vt : Nat) : Tower :=
  (x.power.filter fun e => dueBy level vt e.level e.due).foldl (fun t p => t.powerTo p.layer p.target)
    ((x.writes.filter fun e => dueBy level vt e.level e.due).foldl (Tower.landWrite clk) t)

theorem Cell.takeLanding_tower (x : Cell) (e : CellLanding) : (x.takeLanding e).tower = x.tower := by
  unfold Cell.takeLanding Cell.setM
  split <;> [split; skip] <;> rfl

theorem Cell.landed_tower (x : Cell) (level vt : Nat) : (x.landed level vt).tower = x.tower := by
  rw [Cell.landed, foldl_keeps (r := Cell.tower) Cell.takeLanding_tower, foldl_keeps (r := Cell.tower) (w := Cell.takeFrag) fun _ _ => rfl]
  rfl

/-- The landings of a cell: its registers and latches, then its tower; no other cell changes. -/
theorem Core.landCell_spec (k : Core) (clk n level vt : Nat) :
    (k.landCell clk n level vt).RowsOf (k.setCell n ((k.cell n).landed level vt)) n ∧
    (k.landCell clk n level vt).tower n = (k.tower n).landed clk (k.cell n) level vt := by
  have hstart : (k.setCell n ((k.cell n).landed level vt)).tower n = k.tower n := by
    simp only [Core.tower, Core.usesSpare_setCell, Core.cell_setCell_same, Cell.landed_tower]
    rfl
  obtain ⟨hwrites, hrows⟩ := Core.foldl_spec (fun k w => k.landWrite_spec clk n w)
    ((k.cell n).writes.filter fun e => dueBy level vt e.level e.due) (k.setCell n ((k.cell n).landed level vt))
  obtain ⟨hpower, hlayers⟩ := Core.foldl_spec (f := fun k (p : PowerChange) => k.setTower n ((k.tower n).powerTo p.layer p.target))
    (g := fun t p => t.powerTo p.layer p.target) (fun k p => ⟨k.rowsOf_setTower n _, k.tower_setTower n _⟩)
    ((k.cell n).power.filter fun e => dueBy level vt e.level e.due)
    (((k.cell n).writes.filter fun e => dueBy level vt e.level e.due).foldl (fun k w => k.landWrite clk n w)
      (k.setCell n ((k.cell n).landed level vt)))
  rw [hrows, hstart] at hlayers
  exact ⟨hpower.trans hwrites, hlayers⟩

/-! ### What a landing keeps of a cell -/

theorem Cell.takeLanding_keeps (x : Cell) (e : CellLanding) : (x.takeLanding e).land = x.land ∧
    (x.takeLanding e).writes = x.writes ∧ (x.takeLanding e).power = x.power ∧ (x.takeLanding e).frags = x.frags ∧
    (x.takeLanding e).a0 = x.a0 ∧ (x.takeLanding e).a1 = x.a1 := by
  unfold Cell.takeLanding Cell.setM
  split <;> [split; skip] <;> exact ⟨rfl, rfl, rfl, rfl, rfl, rfl⟩

/-- A part of a cell that neither a result nor a fragment changes is that of the settled cell. -/
theorem Cell.landed_part {α : Type} {r : Cell → α} (hland : ∀ y e, r (Cell.takeLanding y e) = r y)
    (hfrag : ∀ y f, r (Cell.takeFrag y f) = r y) (x : Cell) (level vt : Nat) : r (x.landed level vt) = r (x.settled level vt) := by
  rw [Cell.landed, foldl_keeps hland, foldl_keeps hfrag]

theorem Cell.landed_land (x : Cell) (level vt : Nat) :
    (x.landed level vt).land = x.land.filter fun e => !dueBy level vt e.level e.due :=
  Cell.landed_part (r := Cell.land) (fun y e => (y.takeLanding_keeps e).1) (fun _ _ => rfl) x level vt

theorem Cell.landed_writes (x : Cell) (level vt : Nat) :
    (x.landed level vt).writes = x.writes.filter fun e => !dueBy level vt e.level e.due :=
  Cell.landed_part (r := Cell.writes) (fun y e => (y.takeLanding_keeps e).2.1) (fun _ _ => rfl) x level vt

theorem Cell.landed_power (x : Cell) (level vt : Nat) :
    (x.landed level vt).power = x.power.filter fun e => !dueBy level vt e.level e.due :=
  Cell.landed_part (r := Cell.power) (fun y e => (y.takeLanding_keeps e).2.2.1) (fun _ _ => rfl) x level vt

theorem Cell.landed_frags (x : Cell) (level vt : Nat) :
    (x.landed level vt).frags = x.frags.filter fun e => !dueBy level vt e.level e.due :=
  Cell.landed_part (r := Cell.frags) (fun y e => (y.takeLanding_keeps e).2.2.2.1) (fun _ _ => rfl) x level vt

theorem Cell.landed_acc (x : Cell) (level vt a : Nat) : (x.landed level vt).acc a = x.acc a :=
  Cell.landed_part (r := fun y => Cell.acc y a)
    (fun y e => by
      obtain ⟨-, -, -, -, ha0, ha1⟩ := y.takeLanding_keeps e
      rw [Cell.acc, ha0, ha1, Cell.acc])
    (fun _ _ => rfl) x level vt

theorem Cell.takeLanding_vreg (x : Cell) (e : CellLanding) (n : Nat) : (x.takeLanding e).vreg n =
    if !e.isMask && e.idx == n then mergeBits (x.vreg n) e.val e.bits else x.vreg n := by
  unfold Cell.takeLanding
  cases e.isMask with
  | true =>
    rw [if_pos rfl, Cell.setM]
    split <;> rfl
  | false =>
    by_cases h : e.idx = n
    · simp [Cell.vreg, Cell.mend, Cell.setV, h]
    · simp [Cell.vreg, Cell.mend, Cell.setV, h, get_set_other _ (Ne.symm h)]

theorem Cell.takeLanding_mreg (x : Cell) (e : CellLanding) {n : Nat} (hn : n ≠ 0) : (x.takeLanding e).mreg n =
    if e.isMask && e.idx == n then mergeBits (x.mreg n) (e.val.setWidth 16) (e.bits.setWidth 16) else x.mreg n := by
  unfold Cell.takeLanding
  cases e.isMask with
  | false => rfl
  | true =>
    by_cases h : e.idx = n
    · simp [Cell.mreg, Cell.mend, Cell.setM, h, hn]
    · by_cases h0 : e.idx = 0
      · simp [Cell.mreg, Cell.mend, Cell.setM, h0, Ne.symm hn]
      · simp [Cell.mreg, Cell.mend, Cell.setM, h, h0, hn, get_set_other _ (Ne.symm h)]

/-- A vector register takes the results that name it, in their order. -/
theorem Cell.landed_vreg (x : Cell) (level vt n : Nat) : (x.landed level vt).vreg n =
    (x.land.filter fun e => dueBy level vt e.level e.due && !e.isMask && e.idx == n).foldl
      (fun v e => mergeBits v e.val e.bits) (x.vreg n) := by
  have hfold := read_foldl (w := Cell.takeLanding) (r := fun y => Cell.vreg y n) (hit := fun e => !e.isMask && e.idx == n)
    (upd := fun v e => mergeBits v e.val e.bits) (fun y e h => by rw [y.takeLanding_vreg, h]; rfl)
    (fun y e h => by rw [y.takeLanding_vreg, if_pos h])
  rw [Cell.landed, hfold, List.filter_filter, foldl_keeps (r := fun y => Cell.vreg y n) (w := Cell.takeFrag) fun _ _ => rfl]
  refine congrArg (List.foldl _ _) (List.filter_congr fun e _ => ?_)
  rw [Bool.and_comm, Bool.and_assoc]

/-- A mask register but m0 takes the results that name it, in their order. -/
theorem Cell.landed_mreg (x : Cell) (level vt : Nat) {n : Nat} (hn : n ≠ 0) : (x.landed level vt).mreg n =
    (x.land.filter fun e => dueBy level vt e.level e.due && e.isMask && e.idx == n).foldl
      (fun v e => mergeBits v (e.val.setWidth 16) (e.bits.setWidth 16)) (x.mreg n) := by
  have hfold := read_foldl (w := Cell.takeLanding) (r := fun y => Cell.mreg y n) (hit := fun e => e.isMask && e.idx == n)
    (upd := fun v e => mergeBits v (e.val.setWidth 16) (e.bits.setWidth 16))
    (fun y e h => by rw [y.takeLanding_mreg e hn, h]; rfl) (fun y e h => by rw [y.takeLanding_mreg e hn, if_pos h])
  rw [Cell.landed, hfold, List.filter_filter, foldl_keeps (r := fun y => Cell.mreg y n) (w := Cell.takeFrag) fun _ _ => rfl]
  refine congrArg (List.foldl _ _) (List.filter_congr fun e _ => ?_)
  rw [Bool.and_comm, Bool.and_assoc]

/-! ### A cell with nothing due -/

/-- Nothing is due in a cell. -/
structure Cell.NoneDue (x : Cell) (level vt : Nat) : Prop where
  frags : ∀ e ∈ x.frags, dueBy level vt e.level e.due = false
  land : ∀ e ∈ x.land, dueBy level vt e.level e.due = false
  writes : ∀ e ∈ x.writes, dueBy level vt e.level e.due = false
  power : ∀ e ∈ x.power, dueBy level vt e.level e.due = false

theorem filter_none {α : Type} {p : α → Bool} {xs : List α} (h : ∀ e ∈ xs, p e = false) : xs.filter p = [] :=
  List.filter_eq_nil_iff.2 fun e he => by simp [h e he]

theorem filter_rest {α : Type} {p : α → Bool} {xs : List α} (h : ∀ e ∈ xs, p e = false) : (xs.filter fun e => !p e) = xs :=
  List.filter_eq_self.2 fun e he => by simp [h e he]

theorem Cell.noneDue_landed (x : Cell) (level vt : Nat) : (x.landed level vt).NoneDue level vt where
  frags e he := by
    rw [x.landed_frags level vt] at he
    simpa using (List.mem_filter.1 he).2
  land e he := by
    rw [x.landed_land level vt] at he
    simpa using (List.mem_filter.1 he).2
  writes e he := by
    rw [x.landed_writes level vt] at he
    simpa using (List.mem_filter.1 he).2
  power e he := by
    rw [x.landed_power level vt] at he
    simpa using (List.mem_filter.1 he).2

theorem Cell.landed_of_noneDue {x : Cell} {level vt : Nat} (h : x.NoneDue level vt) :
    ∃ p, x.landed level vt = { x with past := p } := by
  rw [Cell.landed, filter_none h.land, filter_none h.frags]
  simp only [List.foldl_nil, Cell.settled, filter_rest h.land, filter_rest h.frags, filter_rest h.writes, filter_rest h.power]
  exact ⟨_, rfl⟩

theorem Core.landCell_of_noneDue {k : Core} {clk n level vt : Nat} (h : (k.cell n).NoneDue level vt) :
    ∃ p, k.landCell clk n level vt = k.setCell n { k.cell n with past := p } := by
  obtain ⟨p, hp⟩ := Cell.landed_of_noneDue h
  refine ⟨p, ?_⟩
  have hstart : k.landCell clk n level vt =
      ((k.cell n).power.filter fun e => dueBy level vt e.level e.due).foldl
        (fun k p => k.setTower n ((k.tower n).powerTo p.layer p.target))
        (((k.cell n).writes.filter fun e => dueBy level vt e.level e.due).foldl (fun k w => k.landWrite clk n w)
          (k.setCell n ((k.cell n).landed level vt))) := rfl
  rw [hstart, filter_none h.power, filter_none h.writes, hp]
  rfl

/-- A cell with nothing due keeps all but what its accumulators were, whatever lands where. -/
theorem Core.cell_landFold_of_noneDue {n level vt : Nat} (clk : Nat) (cs : List Nat) {k : Core} (h : (k.cell n).NoneDue level vt) :
    ∃ p, (cs.foldl (fun k c => k.landCell clk c level vt) k).cell n = { k.cell n with past := p } := by
  induction cs generalizing k with
  | nil => exact ⟨_, rfl⟩
  | cons c cs ih =>
    rw [List.foldl_cons]
    by_cases hc : c = n
    · subst hc
      obtain ⟨p, hp⟩ := Core.landCell_of_noneDue (clk := clk) h
      have hcell : (k.landCell clk c level vt).cell c = { k.cell c with past := p } := by rw [hp, Core.cell_setCell_same]
      obtain ⟨p', hp'⟩ := ih (k := k.landCell clk c level vt) (by rw [hcell]; exact ⟨h.frags, h.land, h.writes, h.power⟩)
      exact ⟨p', by rw [hp', hcell]⟩
    · have hcell : (k.landCell clk c level vt).cell n = k.cell n := by
        rw [(k.landCell_spec clk c level vt).1.others n (Ne.symm hc), Core.cell_setCell_other _ (Ne.symm hc)]
      obtain ⟨p, hp⟩ := ih (k := k.landCell clk c level vt) (by rw [hcell]; exact h)
      exact ⟨p, by rw [hp, hcell]⟩

/-! ### The landings of a context's cells -/

theorem Core.remap_landCell (k : Core) (clk n level vt : Nat) : (k.landCell clk n level vt).remap = k.remap :=
  (k.landCell_spec clk n level vt).1.remap

theorem Core.remap_landCells (k : Core) (clk : Nat) (x : Ctx) : (k.landCells clk x).remap = k.remap :=
  foldl_keeps (r := Core.remap) (fun k c => k.remap_landCell clk c x.depth x.vt) (k.heldCells x.sqm) k

theorem Core.ctxs_landCells (k : Core) (clk : Nat) (x : Ctx) : (k.landCells clk x).ctxs = k.ctxs :=
  foldl_keeps (r := Core.ctxs) (fun k c => (k.landCell_spec clk c x.depth x.vt).1.ctxs) (k.heldCells x.sqm) k

/-- A cell of the list lands once, whatever else the list names. -/
theorem Core.cell_landFold (clk level vt : Nat) {n : Nat} {cs : List Nat} (hn : n ∈ cs) (k : Core) :
    ∃ p t, (cs.foldl (fun k c => k.landCell clk c level vt) k).cell n =
        { (k.cell n).landed level vt with past := p, tower := t } ∧
      ((∀ q, k.usesSpare q = false) → t = (k.cell n).tower.landed clk (k.cell n) level vt) := by
  induction cs generalizing k with
  | nil => exact absurd hn List.not_mem_nil
  | cons c cs ih =>
    obtain ⟨hrows, htower⟩ := k.landCell_spec clk c level vt
    rw [List.foldl_cons]
    by_cases hc : c = n
    · subst hc
      have hcell := hrows.same
      rw [Core.cell_setCell_same] at hcell
      have hnone := (k.cell c).noneDue_landed level vt
      obtain ⟨p, hp⟩ := Core.cell_landFold_of_noneDue clk cs (k := k.landCell clk c level vt)
        (by rw [hcell]; exact ⟨hnone.frags, hnone.land, hnone.writes, hnone.power⟩)
      refine ⟨p, ((k.landCell clk c level vt).cell c).tower, by rw [hp, hcell], fun hspare => ?_⟩
      have hspare' : ∀ q, (k.landCell clk c level vt).usesSpare q = false := fun q => by
        rw [Core.usesSpare_of_remap (k.remap_landCell clk c level vt), hspare]
      rw [← Core.tower_of_noSpare hspare', htower, Core.tower_of_noSpare hspare]
    · have hcell : (k.landCell clk c level vt).cell n = k.cell n := by
        rw [hrows.others n (Ne.symm hc), Core.cell_setCell_other _ (Ne.symm hc)]
      obtain ⟨p, t, hp, ht⟩ := ih ((List.mem_cons.1 hn).resolve_left (Ne.symm hc)) (k.landCell clk c level vt)
      rw [hcell] at hp ht
      exact ⟨p, t, hp, fun hspare => ht fun q => by
        rw [Core.usesSpare_of_remap (k.remap_landCell clk c level vt), hspare]⟩

/-- A cell that holds nothing is as after reset. -/
theorem Core.cell_of_not_held {k : Core} {n : Nat} {sqm : BitVec 4} (hsq : bit sqm (squadOf n) = true) (h : n ∉ k.heldCells sqm) :
    k.cell n = {} := by
  have hkey : ∀ p ∈ k.cells, p.1 ≠ n := fun p hp heq =>
    h (List.mem_filter.2 ⟨List.mem_map.2 ⟨p, hp, heq⟩, hsq⟩)
  rw [Core.cell]
  generalize k.cells = m at hkey
  induction m with
  | nil => rfl
  | cons p m ih =>
    rw [get, if_neg (hkey p List.mem_cons_self)]
    exact ih fun q hq => hkey q (List.mem_cons_of_mem p hq)

/-- What the landings of a cycle make of a cell of the context's squads. -/
theorem Core.cell_landCells (k : Core) (clk : Nat) {x : Ctx} {n : Nat} (hsq : bit x.sqm (squadOf n) = true) :
    ∃ p t, (k.landCells clk x).cell n = { (k.cell n).landed x.depth x.vt with past := p, tower := t } ∧
      ((∀ q, k.usesSpare q = false) → t = (k.cell n).tower.landed clk (k.cell n) x.depth x.vt) := by
  by_cases hn : n ∈ k.heldCells x.sqm
  · exact Core.cell_landFold clk x.depth x.vt hn k
  · have hempty := Core.cell_of_not_held hsq hn
    have hnone : (k.cell n).NoneDue x.depth x.vt := by
      rw [hempty]
      constructor <;> exact fun e he => absurd he List.not_mem_nil
    obtain ⟨p, hp⟩ := Core.cell_landFold_of_noneDue clk (k.heldCells x.sqm) hnone
    obtain ⟨p', hp'⟩ := Cell.landed_of_noneDue hnone
    refine ⟨p, (k.cell n).tower, by rw [hp']; exact hp, fun _ => ?_⟩
    rw [Tower.landed, filter_none hnone.power, filter_none hnone.writes]
    rfl

end Sys2Proof.Machine
end

section
/-! SUPPORT. The landings of a cycle, as the statement of a virtual cycle reads them (R133, R136, R334). -/

namespace Sys2Proof.Machine

open Sys2Proof.Claims

/-- A single result merges its bits, and none leaves the register. -/
theorem foldl_of_single {α β : Type} {f : β → α → β} {y : β} {es : List α} :
    (es = [] → es.foldl f y = y) ∧ ∀ e, es = [e] → es.foldl f y = f y e := by
  constructor
  · rintro rfl
    rfl
  · rintro e rfl
    rfl

/-- The landings of a cell's registers. -/
theorem cellLanded_of_landed (x : Ctx) (old : Cell) (p : List AccPast) (t : Tower) :
    CellLanded x old { old.landed x.depth x.vt with past := p, tower := t } := by
  refine ⟨old.landed_land x.depth x.vt, old.landed_writes x.depth x.vt, old.landed_power x.depth x.vt, ?_, ?_⟩
  · rintro r es rfl
    have hreg : Cell.vreg { old.landed x.depth x.vt with past := p, tower := t } r = (old.landed x.depth x.vt).vreg r := rfl
    rw [hreg, old.landed_vreg x.depth x.vt r]
    exact foldl_of_single
  · rintro r es hr rfl
    have hreg : Cell.mreg { old.landed x.depth x.vt with past := p, tower := t } r = (old.landed x.depth x.vt).mreg r := rfl
    rw [hreg, old.landed_mreg x.depth x.vt hr]
    exact foldl_of_single

/-! ### Rows and layers of a tower -/

/-- A whole row written changes the row, its errors and the times of touch. -/
theorem Tower.write_eq (t : Tower) (clk r : Nat) (v : Row) : ∃ bx tc, t.write clk r v =
    { t with rows := set 0 r v t.rows, bad := t.bad.filter fun q => q != r, badXor := bx, touch := tc } := by
  have hsettle : ∀ u : Tower, ∃ bx, u.settleXor r = { u with badXor := bx } := by
    intro u
    unfold Tower.settleXor
    split <;> exact ⟨_, rfl⟩
  obtain ⟨bx, hbx⟩ := hsettle { t with
    rows := set 0 r v t.rows
    bad := t.bad.filter fun q => q != r
    badXor := if t.uncorrectable r && !t.badXor.contains (xorRow r) then xorRow r :: t.badXor else t.badXor }
  exact ⟨bx, _, by rw [Tower.write, hbx]; rfl⟩

theorem Tower.writeBits_layers (t : Tower) (clk r : Nat) (v bits : Row) :
    (t.writeBits clk r v bits).layers = t.layers ∧ (t.writeBits clk r v bits).wakes = t.wakes := by
  unfold Tower.writeBits
  split
  · exact ⟨rfl, rfl⟩
  · obtain ⟨bx, tc, h⟩ := t.write_eq clk r (mergeBits (t.row r) v bits)
    rw [h]
    exact ⟨rfl, rfl⟩

theorem Tower.writeBits_rows (t : Tower) (clk r : Nat) (v : Row) {bits : Row} (h : bits ≠ 0) :
    (t.writeBits clk r v bits).rows = set 0 r (mergeBits (t.row r) v bits) t.rows := by
  obtain ⟨bx, tc, heq⟩ := t.write_eq clk r (mergeBits (t.row r) v bits)
  rw [Tower.writeBits, if_neg h, heq]

theorem Tower.writeBits_bad (t : Tower) (clk r : Nat) (v bits : Row) (h : t.bad = []) : (t.writeBits clk r v bits).bad = [] := by
  unfold Tower.writeBits
  split
  · exact h
  · obtain ⟨bx, tc, heq⟩ := t.write_eq clk r (mergeBits (t.row r) v bits)
    rw [heq, h]
    rfl

theorem Tower.landBits_layers (t : Tower) (clk r : Nat) (v bits : Row) :
    (t.landBits clk r v bits).layers = t.layers ∧ (t.landBits clk r v bits).wakes = t.wakes := by
  unfold Tower.landBits
  split
  · exact ⟨rfl, rfl⟩
  · exact t.writeBits_layers clk r v bits

theorem Tower.landBits_bad (t : Tower) (clk r : Nat) (v bits : Row) (h : t.bad = []) : (t.landBits clk r v bits).bad = [] := by
  unfold Tower.landBits
  split
  · exact h
  · exact t.writeBits_bad clk r v bits h

theorem mergeBits_zero {n : Nat} (old new : BitVec n) : mergeBits old new 0 = old := by
  ext j hj
  simp [mergeBits]

theorem Tower.landBits_row_ne (t : Tower) (clk : Nat) {r a : Nat} (h : a ≠ r) (v bits : Row) :
    (t.landBits clk r v bits).row a = t.row a := by
  unfold Tower.landBits
  split
  · rfl
  next hc =>
    have hbits : bits ≠ 0 := fun h0 => hc (by simp [h0])
    rw [Tower.row, t.writeBits_rows clk r v hbits, get_set_other _ h, Tower.row]

/-- Where the layer holds and the tower has no error, a row takes the bits. -/
theorem Tower.landBits_row (t : Tower) (clk r : Nat) (v bits : Row) (hbad : t.bad = []) (hoff : t.layer (rowLayer r) ≠ .off) :
    (t.landBits clk r v bits).row r = mergeBits (t.row r) v bits := by
  by_cases h0 : bits = 0
  · subst h0
    rw [mergeBits_zero]
    rfl
  · have hgood : t.uncorrectable r = false := by simp [Tower.uncorrectable, Tower.isBad, hbad]
    rw [Tower.landBits, if_neg (by simpa [hoff, hgood] using h0), Tower.row, t.writeBits_rows clk r v h0, get_set_same, Tower.row]

theorem Tower.landBits_off (t : Tower) (clk : Nat) {r : Nat} (v bits : Row) (hoff : t.layer (rowLayer r) = .off) :
    t.landBits clk r v bits = t := by
  rw [Tower.landBits, if_pos (by simp [hoff])]

theorem Tower.landWrite_noScales (clk : Nat) (t : Tower) {w : TowerWrite} (h : w.scales = []) :
    t.landWrite clk w = t.landBits clk w.row w.val w.bits := by
  rw [Tower.landWrite, h, List.foldl_nil]

/-- What writes without scale bytes make of a row: those that name it, in their order, where its layer holds. -/
theorem Tower.landWrites_row (clk r : Nat) (ws : List TowerWrite) (hscales : ∀ w ∈ ws, w.scales = []) {t : Tower}
    (hbad : t.bad = []) : (ws.foldl (Tower.landWrite clk) t).row r = (ws.filter fun w => w.row == r).foldl
      (fun v w => if t.layer (rowLayer r) = .off then v else mergeBits v w.val w.bits) (t.row r) := by
  induction ws generalizing t with
  | nil => rfl
  | cons w ws ih =>
    have hlayer : (t.landBits clk w.row w.val w.bits).layer (rowLayer r) = t.layer (rowLayer r) := by
      rw [Tower.layer, (t.landBits_layers clk w.row w.val w.bits).1, Tower.layer]
    rw [List.foldl_cons, Tower.landWrite_noScales clk t (hscales w List.mem_cons_self),
      ih (fun v hv => hscales v (List.mem_cons_of_mem w hv)) (t.landBits_bad clk w.row w.val w.bits hbad), hlayer, List.filter_cons]
    by_cases hr : w.row = r
    · subst hr
      rw [if_pos (beq_self_eq_true _), List.foldl_cons]
      by_cases hoff : t.layer (rowLayer w.row) = .off
      · rw [if_pos hoff, t.landBits_off clk w.val w.bits hoff]
      · rw [if_neg hoff, t.landBits_row clk w.row w.val w.bits hbad hoff]
    · rw [if_neg (by simpa using hr), t.landBits_row_ne clk (Ne.symm hr) w.val w.bits]

theorem Tower.landWrite_layers (clk : Nat) (t : Tower) (w : TowerWrite) :
    (t.landWrite clk w).layers = t.layers ∧ (t.landWrite clk w).wakes = t.wakes := by
  obtain ⟨hlayers, hwakes⟩ := t.landBits_layers clk w.row w.val w.bits
  have hscale : ∀ (t : Tower) (q : Nat × Nat × Byte), (t.landScale clk q).layers = t.layers ∧ (t.landScale clk q).wakes = t.wakes :=
    fun t q => t.landBits_layers clk q.1 _ _
  exact ⟨(foldl_keeps (fun t q => (hscale t q).1) w.scales _).trans hlayers,
    (foldl_keeps (fun t q => (hscale t q).2) w.scales _).trans hwakes⟩

/-- Writes change no layer and no wake. -/
theorem Tower.landWrites_layers (clk : Nat) (ws : List TowerWrite) (t : Tower) (l : Nat) :
    (ws.foldl (Tower.landWrite clk) t).layer l = t.layer l ∧ (ws.foldl (Tower.landWrite clk) t).waking l = t.waking l :=
  ⟨foldl_keeps (r := fun t => Tower.layer t l) (fun t w => by rw [Tower.layer, (t.landWrite_layers clk w).1, Tower.layer]) ws t,
    foldl_keeps (r := fun t => Tower.waking t l) (fun t w => by rw [Tower.waking, (t.landWrite_layers clk w).2, Tower.waking]) ws t⟩

theorem Tower.setLayer_eq (t : Tower) (l : Nat) (p : LayerPower) :
    (t.setLayer l p).layers = set .on l p t.layers ∧ (t.setLayer l p).wakes = t.wakes := by
  unfold Tower.setLayer
  simp only
  split <;> exact ⟨rfl, rfl⟩

theorem Tower.powerTo_same {t : Tower} {l : Nat} (h : t.waking l = false) (p : LayerPower) :
    (t.powerTo l p).layer l = p ∧ (t.powerTo l p).waking l = false := by
  obtain ⟨hlayers, hwakes⟩ := t.setLayer_eq l p
  have hset : t.powerTo l p = t.setLayer l p := by rw [Tower.powerTo, h, if_neg Bool.false_ne_true]
  rw [hset]
  exact ⟨by rw [Tower.layer, hlayers, get_set_same], by rw [Tower.waking, hwakes]; exact h⟩

theorem Tower.powerTo_other (t : Tower) {a l : Nat} (h : l ≠ a) (p : LayerPower) :
    (t.powerTo a p).layer l = t.layer l ∧ (t.powerTo a p).waking l = t.waking l := by
  obtain ⟨hlayers, hwakes⟩ := t.setLayer_eq a p
  unfold Tower.powerTo
  split
  · refine ⟨rfl, ?_⟩
    simp only [Tower.waking, List.any_map]
    refine congrArg (fun f => List.any t.wakes f) (funext fun w => ?_)
    by_cases hw : w.layer = a <;> simp [hw]
  · exact ⟨by rw [Tower.layer, hlayers, get_set_other _ h, Tower.layer], by rw [Tower.waking, hwakes, Tower.waking]⟩

/-- A layer that is not waking takes the states that the changes name, in their order. -/
theorem Tower.powerTo_layer (l : Nat) (ps : List PowerChange) {t : Tower} (h : t.waking l = false) :
    (ps.foldl (fun t p => t.powerTo p.layer p.target) t).layer l =
      (ps.filter fun p => p.layer == l).foldl (fun _ p => p.target) (t.layer l) := by
  induction ps generalizing t with
  | nil => rfl
  | cons p ps ih =>
    rw [List.foldl_cons, List.filter_cons]
    by_cases hl : p.layer = l
    · subst hl
      obtain ⟨hlayer, hwaking⟩ := Tower.powerTo_same h p.target
      rw [ih hwaking, hlayer, if_pos (beq_self_eq_true _), List.foldl_cons]
    · obtain ⟨hlayer, hwaking⟩ := t.powerTo_other (Ne.symm hl) p.target
      rw [ih (hwaking.trans h), hlayer, if_neg (by simpa using hl)]

/-- The landings of a tower that no spare serves. -/
theorem towerLanded_of_landed {x : Ctx} {n clk : Nat} {old new : Core}
    (hnew : new.tower n = (old.tower n).landed clk (old.cell n) x.depth x.vt) (hbad : (old.tower n).bad = []) : TowerLanded x n old new := by
  refine ⟨fun hpower hscales r ws hws => ?_, fun l ps hwake hps => ?_⟩
  · have hrow : new.towerRow n r = ws.foldl
        (fun v w => if (old.tower n).layer (rowLayer r) = .off then v else mergeBits v w.val w.bits) (old.towerRow n r) := by
      have hnone : ((old.cell n).power.filter fun e => dueBy x.depth x.vt e.level e.due) = [] := hpower
      have hplain : ∀ w ∈ (old.cell n).writes.filter (fun e => dueBy x.depth x.vt e.level e.due), w.scales = [] := fun w hw =>
        hscales w (List.mem_filter.1 hw).1 (List.mem_filter.1 hw).2
      rw [Core.towerRow, hnew, Tower.landed, hnone, List.foldl_nil, Tower.landWrites_row clk r _ hplain hbad, List.filter_filter, hws]
      refine congrArg (List.foldl _ _) (List.filter_congr fun w _ => ?_)
      exact Bool.and_comm _ _
    rw [hrow]
    obtain ⟨hnone, hone⟩ := foldl_of_single
      (f := fun v w => if (old.tower n).layer (rowLayer r) = .off then v else mergeBits v w.val w.bits) (y := old.towerRow n r) (es := ws)
    exact ⟨hnone, fun w hw hoff => by rw [hone w hw, if_neg hoff]; rfl⟩
  · have hlayer : (new.tower n).layer l = ps.foldl (fun _ p => p.target) ((old.tower n).layer l) := by
      obtain ⟨hkeep, hwaking⟩ := Tower.landWrites_layers clk
        ((old.cell n).writes.filter fun e => dueBy x.depth x.vt e.level e.due) (old.tower n) l
      rw [hnew, Tower.landed, Tower.powerTo_layer l _ (hwaking.trans hwake), hkeep, List.filter_filter, hps]
      refine congrArg (List.foldl _ _) (List.filter_congr fun p _ => ?_)
      exact Bool.and_comm _ _
    rw [hlayer]
    exact foldl_of_single

/-- A state whose core has the landings of a context's cells. -/
theorem landed_of_landCells {s t : State} {c clk : Nat} {x : Ctx} (hmem : t.mem = s.mem)
    (hcell : ∀ n, (t.core c).cell n = ((s.core c).landCells clk x).cell n) (hremap : (t.core c).remap = (s.core c).remap) :
    Landed s t c x := by
  refine ⟨hmem, fun n _ hsq => ?_⟩
  obtain ⟨p, u, hnew, htower⟩ := (s.core c).cell_landCells clk hsq
  rw [← hcell n] at hnew
  refine ⟨by rw [hnew]; exact cellLanded_of_landed x _ p u, fun hspare hbad => ?_⟩
  have hspare' : ∀ q, (t.core c).usesSpare q = false := fun q => by rw [Core.usesSpare_of_remap hremap, hspare]
  refine towerLanded_of_landed (clk := clk) ?_ hbad
  rw [Core.tower_of_noSpare hspare', Core.tower_of_noSpare hspare, hnew, ← htower hspare]

/-- The landings of a context's cells in its core. -/
theorem landed_landOwed (s : State) (c k : Nat) : Landed s (s.landOwed c k) c (s.ctxAt c k) := by
  have hcore : ((s.landOwed c k).core c).cells = ((s.core c).landCells s.clock (s.ctxAt c k)).cells ∧
      ((s.landOwed c k).core c).remap = ((s.core c).landCells s.clock (s.ctxAt c k)).remap := by
    simp [State.landOwed, State.owe, State.modCtxAt, State.setCtxAt, Core.setCtx]
  obtain ⟨hcells, hremap⟩ := hcore
  refine landed_of_landCells (clk := s.clock) (by simp [State.landOwed, State.owe, State.modCtxAt, State.setCtxAt])
    (fun n => by rw [Core.cell, hcells, Core.cell]) ?_
  rw [hremap, Core.remap_landCells]

/-! ### Fragments -/

/-- A latch takes the fragments that arrive on its side. -/
theorem latch_takeFrags (d : Nat) (fs : List FragMove) (y : Cell) : get {} (fs.foldl Cell.takeFrag y).latch d =
    (fs.filter fun e => e.side == d).foldl (fun _ e => ⟨e.val, true⟩) (get {} y.latch d) := by
  refine read_foldl (r := fun y => get {} (Cell.latch y) d) (fun y e h => ?_) (fun y e h => ?_) fs y
  · exact get_set_other _ (fun heq => by simp [heq] at h) _ _
  · have hside : e.side = d := by simpa using h
    rw [Cell.takeFrag, hside]
    exact get_set_same _ _ _ _

theorem Cell.landFrags_frags (y : Cell) (level vt : Nat) :
    (y.landFrags level vt).frags = y.frags.filter fun e => !dueBy level vt e.level e.due := by
  rw [Cell.landFrags, foldl_keeps (r := Cell.frags) (w := Cell.takeFrag) fun _ _ => rfl]
  rfl

theorem Cell.landFrags_latch (y : Cell) (level vt d : Nat) : get {} (y.landFrags level vt).latch d =
    (y.frags.filter fun e => dueBy level vt e.level e.due && e.side == d).foldl (fun _ e => ⟨e.val, true⟩) (get {} y.latch d) := by
  rw [Cell.landFrags, latch_takeFrags, List.filter_filter]
  refine congrArg (List.foldl _ _) (List.filter_congr fun e _ => ?_)
  exact Bool.and_comm _ _

theorem Cell.landFrags_of_none {y : Cell} {level vt : Nat} (h : ∀ e ∈ y.frags, dueBy level vt e.level e.due = false) :
    y.landFrags level vt = y := by
  have hnone : (y.frags.filter fun e => dueBy level vt e.level e.due) = [] := filter_none h
  have hrest : (y.frags.filter fun e => !dueBy level vt e.level e.due) = y.frags := filter_rest h
  calc y.landFrags level vt
      = (y.frags.filter fun e => dueBy level vt e.level e.due).foldl Cell.takeFrag
          { y with frags := y.frags.filter fun e => !dueBy level vt e.level e.due } := rfl
    _ = y := by rw [hnone, hrest]; rfl

/-- A fragment that has landed does not land again. -/
theorem Cell.landFrags_twice (y : Cell) (level vt : Nat) : (y.landFrags level vt).landFrags level vt = y.landFrags level vt := by
  refine Cell.landFrags_of_none fun e he => ?_
  rw [y.landFrags_frags level vt] at he
  simpa using (List.mem_filter.1 he).2

/-- Every held cell of the squads takes its fragments, others keep theirs. -/
theorem cell_fragFold (level vt n : Nat) (cs : List Nat) (q : Core) :
    (cs.foldl (fun q n => q.setCell n ((q.cell n).landFrags level vt)) q).cell n =
      if n ∈ cs then (q.cell n).landFrags level vt else q.cell n := by
  induction cs generalizing q with
  | nil => rfl
  | cons a cs ih =>
    rw [List.foldl_cons, ih, Core.cell_setCell]
    by_cases h : n = a
    · subst h
      simp [Cell.landFrags_twice]
    · simp [h]

theorem cell_fragsLanded {k : Core} {sqm : BitVec 4} {n : Nat} (hsq : bit sqm (squadOf n) = true) (level vt : Nat) :
    ((k.heldCells sqm).foldl (fun q n => q.setCell n ((q.cell n).landFrags level vt)) k).cell n = (k.cell n).landFrags level vt := by
  rw [cell_fragFold]
  split
  · rfl
  next h => rw [Core.cell_of_not_held hsq h]; rfl

end Sys2Proof.Machine
end

section
/-! SUPPORT. A step of a stream, as its core and its context show it (R143, R179, R212). -/

namespace Sys2Proof.Machine

open Sys2Proof.Claims

/-! ### What stays while a step is performed -/

@[simp] theorem State.cell_modCtxAt (s : State) (c k : Nat) (f : Ctx → Ctx) (n : Nat) :
    ((s.modCtxAt c k f).core c).cell n = (s.core c).cell n := by
  rw [State.modCtxAt, State.setCtxAt, State.core_setCore_same]
  rfl

@[simp] theorem State.core_sendExpress (s : State) (c : Nat) (w : Word) (cell : Nat) (e : Express) (a : Nat) :
    (s.sendExpress c w cell e).core a = s.core a := by
  unfold State.sendExpress
  split <;> rfl

theorem State.pendNumeric_keeps (s : State) (c k : Nat) (st : Stream) (evs : List CellEv) :
    (∀ n, ((s.pendNumeric c k st evs).core c).cell n = (s.core c).cell n) ∧
    ((s.pendNumeric c k st evs).ctxAt c k).streams = (s.ctxAt c k).streams := by
  unfold State.pendNumeric
  simp only
  split
  · refine ⟨fun n => s.cell_modCtxAt c k _ n, ?_⟩
    rw [State.ctxAt_modCtxAt_same, Ctx.pending_eq]
  · exact ⟨fun _ => rfl, rfl⟩

theorem Ctx.landDue_streams (x : Ctx) : x.landDue.streams = x.streams := by
  have hland : ∀ (y : Ctx) (e : Landing), (landOn y e).streams = y.streams := by
    intro y e
    obtain ⟨g, p, lap, heq, -⟩ := Ctx.writeReg_frame y e.kind e.idx e.val
    rw [landOn, heq]
  rw [Ctx.landDue_eq, foldl_keeps hland]

/-- The landings before a step keep the context's streams. -/
theorem State.streams_landOwed (s : State) (c k : Nat) :
    (((s.modCtxAt c k Ctx.landDue).landOwed c k).ctxAt c k).streams = (s.ctxAt c k).streams := by
  have hctx : ∀ t : State, ((t.landOwed c k).ctxAt c k).streams = (t.ctxAt c k).streams := by
    intro t
    rw [State.landOwed, State.owe, State.ctxAt_modCtxAt_same, State.ctxAt, State.core_setCore_same, Core.ctx, Core.ctxs_landCells]
    rfl
  rw [hctx, State.ctxAt_modCtxAt_same, Ctx.landDue_streams]

/-- Serving the reads of a step keeps all that a step takes, and the contexts. -/
theorem Stream.serveStep_like (st : Stream) (k : Core) (clk v : Nat) (before : List Stream) :
    (st.serveStep k clk v before).Like k ∧ (st.serveStep k clk v before).ctxs = k.ctxs :=
  ⟨Core.like_serveFold clk _ _ _ k, Core.ctxs_serveFold clk _ _ _ k⟩

/-! ### The stream after its step -/

/-- What a step keeps of its stream. -/
def Stream.SameStream (a b : Stream) : Prop := a.kind = b.kind ∧ a.form = b.form ∧ a.start = b.start

/-- The rows that a step reads, put away. -/
theorem Stream.sameStream_keepRows (st : Stream) (k : Core) (c : Nat) (base : Nat) (rows : List Nat) :
    (rows.foldl (fun (t : Stream) r => t.keepRow c (r - base) (k.towerRow c r)) st).SameStream st :=
  ⟨foldl_keeps (r := Stream.kind) (by intros; rfl) rows st, foldl_keeps (r := Stream.form) (by intros; rfl) rows st,
    foldl_keeps (r := Stream.start) (by intros; rfl) rows st⟩

theorem Stream.sameStream_keepCells (st : Stream) (k : Core) (rows : Nat → List Nat) (base : Nat) (cs : List Nat) :
    (cs.foldl (fun t c => (rows c).foldl (fun (t : Stream) r => t.keepRow c (r - base) (k.towerRow c r)) t) st).SameStream st :=
  ⟨foldl_keeps (r := Stream.kind) (fun t c => (t.sameStream_keepRows k c base (rows c)).1) cs st,
    foldl_keeps (r := Stream.form) (fun t c => (t.sameStream_keepRows k c base (rows c)).2.1) cs st,
    foldl_keeps (r := Stream.start) (fun t c => (t.sameStream_keepRows k c base (rows c)).2.2) cs st⟩

theorem latticeDone_keeps (k : Core) (st : Stream) : (latticeDone k st).core.ctxs = k.ctxs ∧ (latticeDone k st).st = st := by
  unfold latticeDone
  constructor
  · refine foldl_keeps (r := fun o : StepOut => o.core.ctxs) (fun o c => ?_) (cellsOf st.form.sq) _
    simp only
    split
    · split <;> rfl
    · rfl
  · refine foldl_keeps (r := fun o : StepOut => o.st) (fun o c => ?_) (cellsOf st.form.sq) _
    simp only
    split
    · split <;> rfl
    · rfl

theorem stepMma_ctxs (k : Core) (st : Stream) : (stepMma k st).core.ctxs = k.ctxs := by
  unfold stepMma
  simp only
  rw [foldl_keeps (r := Core.ctxs), foldl_keeps (r := Core.ctxs)]
  · exact fun _ _ => rfl
  · intro q m
    split <;> rfl

theorem stepTldm_ctxs (k : Core) (st : Stream) : (stepTldm k st).core.ctxs = k.ctxs :=
  foldl_keeps (r := Core.ctxs) (by intros; rfl) (cellsOf st.form.sq) k

theorem stepMload_sameStream (k : Core) (st : Stream) : (stepMload k st).st.SameStream st :=
  st.sameStream_keepCells k (fun c => (st.rowsAt c st.done).map fun r : RowRead => r.row) st.form.ta.toNat (cellsOf st.form.sq)

theorem stepLattice_keeps (k : Core) (st : Stream) :
    (stepLattice k st).core.ctxs = k.ctxs ∧ (stepLattice k st).st.SameStream st := by
  have hsame := st.sameStream_keepCells k (fun c => (st.rowsAt c st.done).map fun r : RowRead => r.row) st.form.ta.toNat
    (cellsOf st.form.sq)
  unfold stepLattice
  generalize (cellsOf st.form.sq).foldl _ st = kept at hsame ⊢
  simp only
  split
  · obtain ⟨hctxs, hst⟩ := latticeDone_keeps k kept
    rw [hst]
    exact ⟨hctxs, hsame⟩
  · exact ⟨rfl, hsame⟩

/-- A step of any stream keeps the contexts and goes on with its stream. -/
theorem stepOf_keeps (k : Core) (st : Stream) : (stepOf st k st).core.ctxs = k.ctxs ∧ (stepOf st k st).st.SameStream st := by
  cases h : st.kind with
  | mma =>
    have hstep : stepOf st = stepMma := by rw [stepOf, h]
    rw [hstep]
    exact ⟨stepMma_ctxs k st, rfl, rfl, rfl⟩
  | tldm =>
    have hstep : stepOf st = stepTldm := by rw [stepOf, h]
    rw [hstep]
    exact ⟨stepTldm_ctxs k st, rfl, rfl, rfl⟩
  | mload =>
    have hstep : stepOf st = stepMload := by rw [stepOf, h]
    rw [hstep]
    exact ⟨rfl, stepMload_sameStream k st⟩
  | lattice =>
    have hstep : stepOf st = stepLattice := by rw [stepOf, h]
    rw [hstep]
    exact stepLattice_keeps k st

/-- The stream after a step that gave `o`. -/
def Stream.stepped (st : Stream) (o : StepOut) : Stream := { o.st with done := st.done + 1, left := st.left - 1, evs := st.evs ++ o.evs }

theorem State.core_foldl_sends (c : Nat) (w : Word) (a : Nat) (ps : List (Nat × Express)) (s : State) :
    (ps.foldl (fun s p => s.sendExpress c w p.1 p.2) s).core a = s.core a := by
  induction ps generalizing s with
  | nil => rfl
  | cons p ps ih => rw [List.foldl_cons, ih, State.core_sendExpress]

/-- What performing a step makes of the core and the stream. -/
theorem State.performStep_spec (s : State) (c : Nat) (st : Stream) (before : List Stream) (step : Core → Stream → StepOut) :
    ∃ q : Core, q.Like (s.core c) ∧ q.ctxs = (s.core c).ctxs ∧
      (s.performStep c st before step).1.core c = (step q st).core ∧
      (s.performStep c st before step).2.1 = st.stepped (step q st) := by
  obtain ⟨hlike, hctxs⟩ := st.serveStep_like (s.core c) s.clock (st.start + st.done).toNat before
  generalize hq : st.serveStep (s.core c) s.clock (st.start + st.done).toNat before = q at hlike hctxs
  have heq : s.performStep c st before step = ((step q st).sends.foldl (fun s p => s.sendExpress c st.chan p.1 p.2)
      (s.setCore c (step q st).core), st.stepped (step q st), (step q st).evs) := by
    rw [State.performStep, hq, Stream.stepped]
  rw [heq]
  refine ⟨q, hlike, hctxs, ?_, rfl⟩
  rw [State.core_foldl_sends, State.core_setCore_same]

/-- A step after the issue cycle: its events that wait change neither cells nor streams. -/
theorem State.laterStep_spec (s : State) (c k : Nat) (st : Stream) (before : List Stream) :
    ∃ q : Core, q.Like (s.core c) ∧
      (∀ m, ((s.laterStep c k st before (stepOf st)).1.core c).cell m = (stepOf st q st).core.cell m) ∧
      ((s.laterStep c k st before (stepOf st)).1.ctxAt c k).streams = (s.ctxAt c k).streams ∧
      (s.laterStep c k st before (stepOf st)).2 = st.stepped (stepOf st q st) := by
  obtain ⟨q, hlike, hctxs, hcore, hout⟩ := s.performStep_spec c st before (stepOf st)
  obtain ⟨hcells, hstreams⟩ := (s.performStep c st before (stepOf st)).1.pendNumeric_keeps c k st
    (s.performStep c st before (stepOf st)).2.2
  obtain ⟨hkept, -⟩ := stepOf_keeps q st
  refine ⟨q, hlike, fun m => (hcells m).trans (by rw [hcore]), hstreams.trans ?_, hout⟩
  rw [State.ctxAt, hcore, Core.ctx, hkept, hctxs]
  rfl

theorem State.owe_like (s : State) (c k n : Nat) : ((s.owe c k n).core c).Like (s.core c) := by
  rw [State.owe, State.modCtxAt, State.setCtxAt, State.core_setCore_same]
  exact ⟨fun _ => rfl, fun _ _ => rfl, rfl, rfl⟩

/-- The step of a stream that is due: taken from a core that reads like the one with the landings of its cycle. -/
theorem State.oneStep_spec (s : State) (c k n : Nat) (st : Stream) :
    ∃ q : Core, q.Like (((s.modCtxAt c k Ctx.landDue).landOwed c k).core c) ∧
      ((s.oneStep c k n st).ctxAt c k).streams = (s.ctxAt c k).streams.set n (st.stepped (stepOf st q st)) ∧
      ∀ m, ((s.oneStep c k n st).core c).cell m = (stepOf st q st).core.cell m := by
  have hkept := s.streams_landOwed c k
  rw [State.oneStep]
  generalize (s.modCtxAt c k Ctx.landDue).landOwed c k = v at hkept ⊢
  generalize List.filter _ _ = before
  obtain ⟨q, hlike, hcells, hstreams, hout⟩ := (v.owe c k st.stepCharge).laterStep_spec c k st before
  refine ⟨q, hlike.trans (v.owe_like c k _), ?_, fun m => (State.cell_modCtxAt _ c k _ m).trans (hcells m)⟩
  rw [State.ctxAt_modCtxAt_same, hout, hstreams, State.owe, State.ctxAt_modCtxAt_same, hkept]

end Sys2Proof.Machine
end

section
/-! SUPPORT. A step of a matrix stream and the update of an MLOAD, element by element (R175, R177, R179, R194). -/

namespace Sys2Proof.Machine

open Sys2Proof.Claims

/-! ### Fragments taken -/

/-- What a step takes does not depend on the towers' bookkeeping. -/
theorem Stream.takeBoth_of_like (st : Stream) {k k0 : Core} (h : k.Like k0) (step c : Nat) :
    st.takeBoth k step c = st.takeBoth k0 step c := by
  have htake : ∀ isB, st.take k c isB step = st.take k0 c isB step := by
    intro isB
    have hrx : (k.cell c).rx = (k0.cell c).rx := by rw [h.cell c]
    have hlatch : (k.cell c).latch = (k0.cell c).latch := by rw [h.cell c]
    simp only [Stream.take, Stream.towerFrag, Core.scaleUnder, h.row, hrx, hlatch]
  rw [Stream.takeBoth, htake, htake, Stream.takeBoth]

theorem Core.Like.acc {k k0 : Core} (h : k.Like k0) (n a : Nat) : (k.cell n).acc a = (k0.cell n).acc a := by
  rw [h.cell n]
  rfl

/-- The results for one cell among those of cells that each occur once. -/
theorem filter_filterMap_key {β : Type} (g : Nat → Option β) {q : Nat} {cs : List Nat} (hcs : cs.Nodup) (hq : q ∈ cs) :
    (cs.filterMap fun c => (g c).map fun p => (c, p)).filter (fun t => t.1 == q) = ((g q).map fun p => (q, p)).toList := by
  induction cs with
  | nil => exact absurd hq List.not_mem_nil
  | cons c cs ih =>
    obtain ⟨hc, hcs'⟩ := List.nodup_cons.1 hcs
    by_cases h : c = q
    · subst h
      have hrest : (cs.filterMap fun a => (g a).map fun p => (a, p)).filter (fun t => t.1 == c) = [] := by
        refine filter_none fun t ht => ?_
        obtain ⟨a, ha, hat⟩ := List.mem_filterMap.1 ht
        obtain ⟨p, -, rfl⟩ := Option.map_eq_some_iff.1 hat
        exact beq_eq_false_iff_ne.2 fun heq => hc (heq ▸ ha)
      cases hg : g c with
      | none => simpa [hg] using hrest
      | some p => simpa [hg] using hrest
    · have hq' := (List.mem_cons.1 hq).resolve_left (Ne.symm h)
      cases hg : g c with
      | none => simpa [hg] using ih hcs' hq'
      | some p => simpa [hg, h] using ih hcs' hq'

/-! ### The step of a matrix stream -/

/-- What each cell that has both fragments makes of its accumulator, with its events. -/
def Stream.mmaResults (st : Stream) (k : Core) : List ((Nat × FragVal × FragVal) × Acc × List EvItem) :=
  ((cellsOf st.form.sq).filterMap fun c => (st.takeBoth k st.done c).map fun p => (c, p)).map fun t =>
    (t, stepAcc st.pair ((Fmt.ofCode st.fa).getD .bf16) ((Fmt.ofCode st.fb).getD .bf16) st.form.co.toNat (st.limit t.2.1.num)
      t.2.1 t.2.2 ((k.cell t.1).acc (st.form.d.toNat % 2)))

theorem Stream.mmaResults_of_cell (st : Stream) (k : Core) {q : Nat} (hq : q ∈ cellsOf st.form.sq) :
    (st.mmaResults k).filter (fun r => r.1.1 == q) = (st.takeBoth k st.done q).toList.map fun p =>
      ((q, p), stepAcc st.pair ((Fmt.ofCode st.fa).getD .bf16) ((Fmt.ofCode st.fb).getD .bf16) st.form.co.toNat (st.limit p.1.num)
        p.1 p.2 ((k.cell q).acc (st.form.d.toNat % 2))) := by
  rw [Stream.mmaResults, List.filter_map]
  refine (congrArg (List.map _) (filter_filterMap_key (fun c => st.takeBoth k st.done c) (cellsOf_nodup st.form.sq) hq)).trans ?_
  cases st.takeBoth k st.done q <;> rfl

theorem updateAcc_acc (x : Cell) (a level : Nat) (cycle : Int) (g : Acc → Acc) : (x.updateAcc a level cycle g).acc a = g (x.acc a) := by
  unfold Cell.updateAcc
  simp only
  split
  next h => simp [Cell.acc, h]
  next h => simp [Cell.acc, h]

theorem consumeSources_acc (st : Stream) (cell : Nat) (x : Cell) (a : Nat) : (st.consumeSources cell x).acc a = x.acc a := by
  unfold Stream.consumeSources
  simp only
  repeat' split
  all_goals rfl

/-- The step's results reach the accumulators of their cells. -/
theorem stepMma_acc (k : Core) (st : Stream) (q : Nat) : ((stepMma k st).core.cell q).acc (st.form.d.toNat % 2) =
    ((st.mmaResults k).filter fun r => r.1.1 == q).foldl (fun old r => if st.limit r.1.2.1.num = 0 then old else r.2.1)
      ((k.cell q).acc (st.form.d.toNat % 2)) := by
  refine (foldl_keeps (r := fun k => (Core.cell k q).acc (st.form.d.toNat % 2)) ?_ _ _).trans
    (read_foldl (r := fun k => (Core.cell k q).acc (st.form.d.toNat % 2)) (hit := fun r => r.1.1 == q)
      (upd := fun old r => if st.limit r.1.2.1.num = 0 then old else r.2.1) ?_ ?_ (st.mmaResults k) k)
  · intro y m
    split
    next c d _ =>
      rw [Core.cell_setCell]
      split
      next h => rw [h]; rfl
      next => rfl
    next => rfl
  · intro y r h
    have hne : q ≠ r.1.1 := fun heq => by simp [heq] at h
    exact congrArg (fun y => Cell.acc y (st.form.d.toNat % 2)) (Core.cell_setCell_other y hne _)
  · intro y r h
    have heq : r.1.1 = q := by simpa using h
    simp only [heq, Core.cell_setCell_same]
    split
    · exact consumeSources_acc st q (y.cell q) _
    · rw [updateAcc_acc]

theorem stepMma_evs (k : Core) (st : Stream) :
    (stepMma k st).evs = ((st.mmaResults k).map fun r => cellEvents r.1.1 r.2.2).flatten := rfl

/-- The events of one cell among those of all. -/
theorem events_of_cell (q : Nat) (rs : List ((Nat × FragVal × FragVal) × Acc × List EvItem)) :
    ((((rs.map fun r => cellEvents r.1.1 r.2.2).flatten).filter fun e => e.cell == q).map fun e => e.item) =
      ((rs.filter fun r => r.1.1 == q).map fun r => r.2.2).flatten := by
  induction rs with
  | nil => rfl
  | cons r rs ih =>
    have hone : ((cellEvents r.1.1 r.2.2).filter fun e => e.cell == q).map (fun e => e.item) =
        if r.1.1 == q then r.2.2 else [] := by
      rw [cellEvents, List.filter_map, List.map_map]
      cases h : r.1.1 == q with
      | true => exact (congrArg (List.map _) (List.filter_eq_self.2 fun _ _ => h)).trans (List.map_id _)
      | false => exact congrArg (List.map _) (filter_none fun _ _ => h)
    rw [List.map_cons, List.flatten_cons, List.filter_append, List.map_append, ih, hone, List.filter_cons]
    split <;> rfl

/-! ### Records of a step -/

theorem getLsbD_laneUnion {j : Nat} (hj : j < 16) (ls : List Nat) (m : BitVec 16) :
    (ls.foldl (fun (m : BitVec 16) l => m ||| (1#16 <<< l)) m).getLsbD j = (m.getLsbD j || ls.any fun l => l == j) := by
  induction ls generalizing m with
  | nil => simp
  | cons l ls ih =>
    rw [List.foldl_cons, ih, List.any_cons, BitVec.getLsbD_or, Bool.or_assoc]
    have hbit : (1#16 <<< l).getLsbD j = (l == j) := by
      rw [BitVec.getLsbD_shiftLeft, BitVec.getLsbD_one, Bool.eq_iff_iff]
      simp
      omega
    rw [hbit]

/-- Records gathered from lanes of a cell name a kind and a lane. -/
theorem gatherEvents_valid {xs : List (Nat × Kinds)} (h : ∀ x ∈ xs, x.1 < 16) :
    ∀ e ∈ gatherEvents xs, e.kind < 8 ∧ e.lanes ≠ 0 := by
  intro e he
  unfold gatherEvents at he
  simp only at he
  split at he
  · exact absurd he List.not_mem_nil
  · obtain ⟨k, hk, hsome⟩ := List.mem_filterMap.1 he
    split at hsome
    · exact absurd hsome (by simp)
    next hne =>
      obtain rfl := (Option.some.inj hsome).symm
      refine ⟨List.mem_range.1 hk, fun h0 => ?_⟩
      simp only at h0
      have hof : ∀ x ∈ (xs.filter fun x => x.2 != 0).filter fun x => bit x.2 k, x.1 < 16 := fun x hx =>
        h x (List.mem_filter.1 (List.mem_filter.1 hx).1).1
      generalize (xs.filter fun x => x.2 != 0).filter (fun x => bit x.2 k) = hit at hne h0 hof
      obtain ⟨x, hx⟩ := List.exists_mem_of_ne_nil hit fun hnil => hne (by rw [hnil]; rfl)
      have hmem : (hit.map Prod.fst).any (fun l => l == x.1) = true :=
        List.any_eq_true.2 ⟨x.1, List.mem_map_of_mem hx, beq_self_eq_true _⟩
      have hset : (laneUnion (hit.map Prod.fst)).getLsbD x.1 = true := by
        rw [laneUnion, getLsbD_laneUnion (hof x hx), hmem, Bool.or_true]
      rw [h0] at hset
      simp at hset

theorem stepAcc_events_valid (p : MmaPair) (ga gb : Fmt) (co lim : Nat) (a b : FragVal) (old : Acc) :
    ∀ e ∈ (stepAcc p ga gb co lim a b old).2, e.kind < 8 ∧ e.lanes ≠ 0 := by
  unfold stepAcc
  generalize List.range 512 = ns
  simp only
  split
  · exact fun e he => absurd he List.not_mem_nil
  · refine gatherEvents_valid fun x hx => ?_
    obtain ⟨r, -, rfl⟩ := List.mem_map.1 hx
    exact Nat.mod_lt _ (by decide)

/-! ### The update of an MLOAD -/

/-- Each cell of the squads changes once. -/
theorem Core.cell_modCells (k : Core) (sq : BitVec 4) (f : Nat → Cell → Cell) (n : Nat) :
    (k.modCells sq f).cell n = if n ∈ cellsOf sq then f n (k.cell n) else k.cell n := by
  have hfold : ∀ (cs : List Nat), cs.Nodup → ∀ k : Core, (cs.foldl (fun k n => k.setCell n (f n (k.cell n))) k).cell n =
      if n ∈ cs then f n (k.cell n) else k.cell n := by
    intro cs
    induction cs with
    | nil => exact fun _ _ => rfl
    | cons c cs ih =>
      intro hcs k
      obtain ⟨hc, hcs'⟩ := List.nodup_cons.1 hcs
      rw [List.foldl_cons, ih hcs', Core.cell_setCell]
      by_cases h : n = c
      · subst h
        simp [hc]
      · simp [h]
  exact hfold _ (cellsOf_nodup sq) k

theorem accOf_at (tag : AccTag) (g : Nat → BitVec 32) {n : Nat} (hn : n < 512) : (accOf tag g).at_ n = g n := by
  have hget : ∀ ns : List Nat, get 0 ((ns.map fun n => (n, g n)).filter fun p => p.2 != 0) n = if n ∈ ns then g n else 0 := by
    intro ns
    induction ns with
    | nil => rfl
    | cons a ns ih =>
      rw [List.map_cons, List.filter_cons]
      by_cases ha : a = n
      · subst ha
        by_cases h0 : g a = 0
        · rw [if_neg (by simp [h0]), ih, if_pos List.mem_cons_self, h0, ite_self]
        · rw [if_pos (by simpa using h0), get, if_pos rfl, if_pos List.mem_cons_self]
      · have hmem : n ∈ a :: ns ↔ n ∈ ns := by simp [Ne.symm ha]
        simp only [hmem]
        split
        · rw [get, if_neg ha, ih]
        · exact ih
  rw [Acc.at_, accOf, hget, if_pos (List.mem_range.2 hn)]

theorem nth_map_range {α : Type} (d : α) (f : Nat → α) {n i : Nat} (h : i < n) : nth d ((List.range n).map f) i = f i := by
  have hnth : ∀ (xs : List α) (j : Nat), nth d xs j = xs.getD j d := by
    intro xs
    induction xs with
    | nil => exact fun _ => rfl
    | cons x xs ih =>
      intro j
      cases j with
      | zero => rfl
      | succ j => rw [nth, ih, List.getD_cons_succ]
  rw [hnth]
  simp [h]

/-- The landings of a cycle keep the accumulators of every cell. -/
theorem Core.acc_landCells (k : Core) (clk : Nat) (x : Ctx) (n a : Nat) : ((k.landCells clk x).cell n).acc a = (k.cell n).acc a := by
  refine foldl_keeps (r := fun k => (Core.cell k n).acc a) (fun k c => ?_) (k.heldCells x.sqm) k
  obtain ⟨hrows, -⟩ := k.landCell_spec clk c x.depth x.vt
  by_cases h : n = c
  · subst h
    rw [hrows.same, Core.cell_setCell_same]
    exact (k.cell n).landed_acc x.depth x.vt a
  · rw [hrows.others n h, Core.cell_setCell_other _ h]

end Sys2Proof.Machine
end

section
/-! SUPPORT. The statement of the parts of a virtual cycle (R94, R133, R143, R175, R179, R181, R194, R334). -/

namespace Sys2Proof.Machine

open Sys2Proof.Claims

variable {s : State} {c k : Nat}

/-! ### The parts as steps -/

theorem execCellResultLanding_of_passes (hc : c < 128) (hk : k < 4) (hp : s.passes c k = true) :
    execCellResultLanding c k s = .next (s.landOwed c k) := by
  rw [execCellResultLanding, ctxStep_of_lt hc hk, hp, if_pos rfl]

/-- Where one context's cycle passes, the changes of power come with its landings. -/
theorem execLayerPowerChange_of_passes (hc : c < 128) (hk : k < 4) (hp : s.passes c k = true)
    (hothers : ∀ q : Nat, q < 4 → q ≠ k → s.passes c q = false) : execLayerPowerChange c s = .next (s.landOwed c k) := by
  have hone : (List.range Config.contexts).filter (s.passes c) = [k] := by
    have hpasses : ∀ q ∈ List.range Config.contexts, s.passes c q = (q == k) := by
      intro q hq
      by_cases h : q = k
      · rw [h, hp, beq_self_eq_true]
      · rw [hothers q (List.mem_range.1 hq) h, beq_eq_false_iff_ne.2 h]
    rw [List.filter_congr hpasses]
    interval_cases k <;> rfl
  rw [execLayerPowerChange, if_neg (show ¬ Config.cores ≤ c from not_le.2 hc), hone]
  rfl

theorem execLayerPowerChange_of_none (hc : c < 128) (hnone : ∀ q : Nat, q < 4 → s.passes c q = false) :
    execLayerPowerChange c s = .next s := by
  have hempty : (List.range Config.contexts).filter (s.passes c) = [] :=
    filter_none fun q hq => hnone q (List.mem_range.1 hq)
  rw [execLayerPowerChange, if_neg (show ¬ Config.cores ≤ c from not_le.2 hc), hempty]
  rfl

/-- The fragments that arrive change latches and queues of fragments, and nothing else. -/
theorem fragmentArrival_result (hc : c < 128) (hk : k < 4) (hp : s.passes c k = true) :
    ∃ t, exec (.fragmentArrival c k) s = .next t ∧ Quiet s t ∧ ∀ n : Nat, bit (s.ctxAt c k).sqm (squadOf n) = true →
      (t.core c).cell n = ((s.core c).cell n).landFrags (s.ctxAt c k).depth (s.ctxAt c k).vt := by
  obtain ⟨q, hq⟩ : ∃ q, q = ((s.core c).heldCells (s.ctxAt c k).sqm).foldl
    (fun q n => q.setCell n ((q.cell n).landFrags (s.ctxAt c k).depth (s.ctxAt c k).vt)) (s.core c) := ⟨_, rfl⟩
  have hexec : execFragmentArrival c k s = .next (s.setCore c q) := by
    rw [execFragmentArrival, ctxStep_of_lt hc hk, hp, if_pos rfl, hq]
  have hcmem : q.cmem = (s.core c).cmem := by rw [hq, foldl_keeps (r := Core.cmem) (by intros; rfl)]
  have hctxs : q.ctxs = (s.core c).ctxs := by rw [hq, foldl_keeps (r := Core.ctxs) (by intros; rfl)]
  refine ⟨_, hexec, ⟨rfl, fun a b => ?_⟩, fun n hsq => ?_⟩
  · by_cases h : a = c
    · subst h
      rw [State.ctxAt, State.core_setCore_same, Core.ctx, hctxs]
      exact ⟨hcmem, rfl⟩
    · rw [State.ctxAt, State.core_setCore_other s h]
      exact ⟨rfl, rfl⟩
  · rw [State.core_setCore_same, hq, cell_fragsLanded hsq]

/-- A step that is due, of a stream of the running level. -/
theorem streamStep_of_due {n : Nat} {st : Stream} {kind : StreamKind → Bool} (hst : (s.ctxAt c k).streams[n]? = some st)
    (hkind : kind st.kind = true) (hlevel : st.level = (s.ctxAt c k).depth) (hleft : 0 < st.left)
    (hdue : st.start + st.done ≤ (s.ctxAt c k).vt) (hp : s.passes c k = true) :
    s.streamStep c k n kind = s.oneStep c k n st := by
  have hstep : (s.ctxAt c k).stepDue n kind = some st := by
    simp [Ctx.stepDue, hst, hkind, hlevel, hleft, hdue]
  rw [State.streamStep, hstep]
  exact if_pos hp

theorem exec_streamStep (hc : c < 128) (hk : k < 4) {n : Nat} {st : Stream} (hst : (s.ctxAt c k).streams[n]? = some st)
    (hlevel : st.level = (s.ctxAt c k).depth) (hleft : 0 < st.left) (hdue : st.start + st.done ≤ (s.ctxAt c k).vt)
    (hp : s.passes c k = true) :
    exec (if st.kind = .mma then .mmaStep c k n else .streamRowRead c k n) s = .next (s.oneStep c k n st) := by
  split
  next h =>
    exact (ctxStep_of_lt hc hk true s _).trans (congrArg _ (streamStep_of_due hst (by simp [h]) hlevel hleft hdue hp))
  next h =>
    exact (ctxStep_of_lt hc hk true s _).trans (congrArg _ (streamStep_of_due hst (by simp [h]) hlevel hleft hdue hp))

/-- What a cell makes of its accumulator in a step of an MMA, and the events that the stream keeps for it. -/
theorem mmaStep_cell {st : Stream} {k0 q : Core} (hlike : q.Like k0) (hkind : st.kind = .mma) {ga gb : Fmt}
    (hga : Fmt.ofCode st.fa = some ga) (hgb : Fmt.ofCode st.fb = some gb) {n : Nat} (hn : n ∈ cellsOf st.form.sq) {met : List EvItem}
    {old new : Acc} (hmet : met = ((stepOf st q st).evs.filter fun e => e.cell == n).map fun e => e.item)
    (hold : old = (k0.cell n).acc (st.form.d.toNat % 2)) (hnew : new = ((stepOf st q st).core.cell n).acc (st.form.d.toNat % 2)) :
    (st.takeBoth k0 st.done n = none → new = old ∧ met = []) ∧
    ∀ a b r, st.takeBoth k0 st.done n = some (a, b) → r = stepAcc st.pair ga gb st.form.co.toNat (st.limit a.num) a b old →
      new = (if st.limit a.num = 0 then old else r.1) ∧ SameEvents met r.2 := by
  have hstep : stepOf st = stepMma := by rw [stepOf, hkind]
  rw [hstep, stepMma_acc, st.mmaResults_of_cell q hn, st.takeBoth_of_like hlike, hlike.acc, ← hold, hga, hgb] at hnew
  rw [hstep, stepMma_evs, events_of_cell, st.mmaResults_of_cell q hn, st.takeBoth_of_like hlike, hlike.acc, ← hold, hga, hgb] at hmet
  refine ⟨fun hnone => ?_, fun a b r hsome hr => ?_⟩
  · rw [hnone] at hnew hmet
    exact ⟨hnew, hmet⟩
  · rw [hsome] at hnew hmet
    have hevs : met = r.2 := by
      rw [hmet, hr]
      exact List.append_nil _
    refine ⟨by rw [hnew, hr]; rfl, ?_⟩
    rw [hevs, hr]
    exact ⟨stepAcc_events_valid _ _ _ _ _ _ _ _, fun _ _ => ⟨rfl, fun _ _ => rfl⟩⟩

/-- The update of an MLOAD that is due. -/
theorem mloadNow_of_due {n : Nat} {st : Stream} (hst : (s.ctxAt c k).streams[n]? = some st) (hkind : st.kind = .mload)
    (hlevel : st.level = (s.ctxAt c k).depth) (hleft : st.left = 0) (hloaded : st.loaded = false)
    (hdue : st.start + st.done + 1 = (s.ctxAt c k).vt) (hp : s.passes c k = true) :
    s.mloadNow c k n = (((s.modCtxAt c k Ctx.landDue).landOwed c k).setCore c
      (performMload (((s.modCtxAt c k Ctx.landDue).landOwed c k).core c) st)).modCtxAt c k fun x =>
        { x with streams := x.streams.set n { st with loaded := true } } := by
  have hloads : st.loadsAt (s.ctxAt c k).vt = true := by
    simp [Stream.loadsAt, Stream.endCycle, hkind, hleft, hloaded, hdue]
  rw [State.mloadNow, hst]
  exact if_pos (by simp [hlevel, hloads, hp])

theorem performMload_ctxs (q : Core) (st : Stream) : (performMload q st).ctxs = q.ctxs :=
  foldl_keeps (r := Core.ctxs) (by intros; rfl) (cellsOf st.form.sq) q

theorem State.streams_performMload (t : State) (c k : Nat) (st : Stream) :
    ((t.setCore c (performMload (t.core c) st)).ctxAt c k).streams = (t.ctxAt c k).streams := by
  rw [State.ctxAt, State.core_setCore_same, Core.ctx, performMload_ctxs]
  rfl

/-- An MLOAD's update of a cell's accumulator. -/
theorem performMload_acc {q : Core} {st : Stream} {g : Fmt} (hg : Fmt.ofCode st.form.fp1.toNat = some g) {n : Nat}
    (hn : n ∈ cellsOf st.form.sq) {old new : Acc} {per : Nat} (hold : old = (q.cell n).acc (st.form.d.toNat % 2))
    (hnew : new = ((performMload q st).cell n).acc (st.form.d.toNat % 2)) (hper : per = 256 / g.width) :
    new.tag = (if g = .i32 then .int else .fp) ∧ ∀ j : Nat, j < 512 → new.at_ j =
      if j < 32 * st.form.cn.toNat then
        BitVec.ofNat 32 (mloadElem g (elemN (get 0 st.rows (n * 64 + j / per)) g.width (j % per))).1
      else old.at_ j := by
  subst hold hper
  have hfmt : st.mloadFmt = g := by rw [Stream.mloadFmt, hg, Option.getD_some]
  rw [performMload, Core.cell_modCells, if_pos hn, updateAcc_acc, hfmt] at hnew
  subst hnew
  refine ⟨rfl, fun j hj => ?_⟩
  rw [accOf_at _ _ hj]
  split
  next h =>
    rw [mloadElems, nth_map_range _ _ h]
    rfl
  next => rfl

/-- Settles O46: each part of a virtual cycle by what it makes of the cells, the towers and the streams. -/
theorem cycleEvents : Obligations.CycleEvents := by
  rintro s c k x ⟨hc, hk⟩ rfl
  refine ⟨fun hp => ⟨?_, fun hothers => ?_, ?_⟩, fun hnone => execLayerPowerChange_of_none hc hnone, ?_, ?_, ?_⟩
  · exact ⟨_, execCellResultLanding_of_passes hc hk hp, landed_landOwed s c k⟩
  · exact ⟨_, execLayerPowerChange_of_passes hc hk hp hothers, landed_landOwed s c k⟩
  · obtain ⟨t, hexec, hquiet, hcell⟩ := fragmentArrival_result hc hk hp
    refine ⟨t, hexec, hquiet, fun n _ hsq => ?_⟩
    rw [hcell n hsq]
    refine ⟨Cell.landFrags_frags _ _ _, fun d e he => ?_⟩
    rw [Cell.landFrags_latch]
    exact foldl_of_single.2 e he
  · intro n st hst hlevel hleft hdue hp
    obtain ⟨q, hlike, hstreams, hcells⟩ := s.oneStep_spec c k n st
    obtain ⟨-, hkind, hform, hstart⟩ := stepOf_keeps q st
    refine ⟨_, st.stepped (stepOf st q st), exec_streamStep hc hk hst hlevel hleft hdue hp, ?_, hkind, hform, hstart, rfl, rfl, ?_⟩
    · rw [hstreams, List.getElem?_set_self (List.getElem?_eq_some_iff.1 hst).1]
    · intro u ga gb hu hmma hga hgb v hv hpu
      have hu' : u = s.modCtxAt c k Ctx.landDue :=
        Host.Outcome.next.inj (hu.symm.trans (execResultLanding_of_passes hc hk hp))
      have hv' : v = u.landOwed c k :=
        Host.Outcome.next.inj (hv.symm.trans (execCellResultLanding_of_passes hc hk hpu))
      subst hu' hv'
      refine ⟨(stepOf st q st).evs, rfl, fun m hm hsq => ?_⟩
      exact mmaStep_cell hlike hmma hga hgb (mem_cellsOf.2 ⟨hm, hsq⟩) rfl rfl (by rw [hcells])
  · intro n st g hst hkind hlevel hleft hloaded hdue hp hg
    have hstreams := s.streams_landOwed c k
    have haccs : ∀ m a, ((((s.modCtxAt c k Ctx.landDue).landOwed c k).core c).cell m).acc a = ((s.core c).cell m).acc a := by
      intro m a
      rw [State.landOwed, State.owe, State.cell_modCtxAt, State.core_setCore_same, Core.acc_landCells, State.cell_modCtxAt]
    refine ⟨_, (ctxStep_of_lt hc hk true s _).trans (congrArg _ (mloadNow_of_due hst hkind hlevel hleft hloaded hdue hp)), ?_,
      fun m hm hsq => ?_⟩
    · rw [State.ctxAt_modCtxAt_same]
      dsimp only
      rw [State.streams_performMload, hstreams, List.getElem?_set_self (List.getElem?_eq_some_iff.1 hst).1]
    · intro old new per
      have hnew : new = ((performMload (((s.modCtxAt c k Ctx.landDue).landOwed c k).core c) st).cell m).acc (st.form.d.toNat % 2) :=
        congrArg (fun y => Cell.acc y (st.form.d.toNat % 2))
          ((State.cell_modCtxAt _ c k _ m).trans (congrArg (fun q => Core.cell q m) (State.core_setCore_same _ _ _)))
      exact performMload_acc hg (mem_cellsOf.2 ⟨hm, hsq⟩) (haccs m _).symm hnew rfl
  · intro h
    exact ctxStep_of_lt hc hk true s _

end Sys2Proof.Machine
end

section
/-! SUPPORT. Records of cells by what they say (R121, R122, R139): for each kind its lanes and its count, whatever the way they
are gathered and merged. -/

namespace Sys2Proof.Machine

open Sys2Proof.Claims

/-! ### Lanes and counts -/

/-- The elements of one kind that records count. -/
def kindCount (q : Nat) (xs : List EvItem) : Nat := ((xs.filter fun e => e.kind == q).map fun e => e.count).sum

/-- Whether records of one kind name a lane. -/
def kindLane (q l : Nat) (xs : List EvItem) : Bool := xs.any fun e => e.kind == q && e.lanes.getLsbD l

/-- Every record names a kind and a lane. -/
def ItemsValid (xs : List EvItem) : Prop := ∀ e ∈ xs, e.kind < 8 ∧ e.lanes ≠ 0

/-- Records that name the same lanes and the same counts. -/
def Alike (xs ys : List EvItem) : Prop :=
  ∀ q : Nat, q < 8 → kindCount q xs = kindCount q ys ∧ ∀ l : Nat, l < 16 → kindLane q l xs = kindLane q l ys

theorem sameEvents_iff (xs ys : List EvItem) : SameEvents xs ys ↔ ItemsValid xs ∧ Alike xs ys := Iff.rfl

theorem Alike.refl (xs : List EvItem) : Alike xs xs := fun _ _ => ⟨rfl, fun _ _ => rfl⟩

theorem Alike.symm {xs ys : List EvItem} (h : Alike xs ys) : Alike ys xs :=
  fun q hq => ⟨(h q hq).1.symm, fun l hl => ((h q hq).2 l hl).symm⟩

theorem Alike.trans {xs ys zs : List EvItem} (h : Alike xs ys) (h' : Alike ys zs) : Alike xs zs :=
  fun q hq => ⟨(h q hq).1.trans (h' q hq).1, fun l hl => ((h q hq).2 l hl).trans ((h' q hq).2 l hl)⟩

@[simp] theorem kindCount_nil (q : Nat) : kindCount q [] = 0 := rfl

@[simp] theorem kindLane_nil (q l : Nat) : kindLane q l [] = false := rfl

theorem kindCount_cons (q : Nat) (e : EvItem) (xs : List EvItem) :
    kindCount q (e :: xs) = (if e.kind = q then e.count else 0) + kindCount q xs := by
  by_cases h : e.kind = q <;> simp [kindCount, h]

theorem kindLane_cons (q l : Nat) (e : EvItem) (xs : List EvItem) :
    kindLane q l (e :: xs) = (e.kind == q && e.lanes.getLsbD l || kindLane q l xs) := rfl

@[simp] theorem kindCount_append (q : Nat) (xs ys : List EvItem) : kindCount q (xs ++ ys) = kindCount q xs + kindCount q ys := by
  simp [kindCount]

@[simp] theorem kindLane_append (q l : Nat) (xs ys : List EvItem) :
    kindLane q l (xs ++ ys) = (kindLane q l xs || kindLane q l ys) := by
  simp [kindLane]

theorem Alike.append {xs xs' ys ys' : List EvItem} (h : Alike xs xs') (h' : Alike ys ys') : Alike (xs ++ ys) (xs' ++ ys') := by
  intro q hq
  obtain ⟨hc, hl⟩ := h q hq
  obtain ⟨hc', hl'⟩ := h' q hq
  exact ⟨by rw [kindCount_append, kindCount_append, hc, hc'],
    fun l hlt => by rw [kindLane_append, kindLane_append, hl l hlt, hl' l hlt]⟩

/-- Record by record. -/
theorem Alike.flatten_map {α : Type} {f g : α → List EvItem} {as : List α} (h : ∀ a ∈ as, Alike (f a) (g a)) :
    Alike (as.map f).flatten (as.map g).flatten := by
  induction as with
  | nil => exact Alike.refl []
  | cons a as ih =>
    rw [List.map_cons, List.map_cons, List.flatten_cons, List.flatten_cons]
    exact (h a List.mem_cons_self).append (ih fun b hb => h b (List.mem_cons_of_mem _ hb))

theorem ItemsValid.append {xs ys : List EvItem} (h : ItemsValid xs) (h' : ItemsValid ys) : ItemsValid (xs ++ ys) :=
  fun e he => (List.mem_append.1 he).elim (h e) (h' e)

theorem itemsValid_flatten {xss : List (List EvItem)} (h : ∀ xs ∈ xss, ItemsValid xs) : ItemsValid xss.flatten := by
  intro e he
  obtain ⟨xs, hxs, hmem⟩ := List.mem_flatten.1 he
  exact h xs hxs e hmem

/-! ### Merged records -/

theorem foldl_lanes_getLsbD (l : Nat) (xs : List EvItem) (m : BitVec 16) :
    (xs.foldl (fun m i => m ||| i.lanes) m).getLsbD l = (m.getLsbD l || xs.any fun e => e.lanes.getLsbD l) := by
  induction xs generalizing m with
  | nil => simp
  | cons x xs ih => rw [List.foldl_cons, ih, BitVec.getLsbD_or, List.any_cons, Bool.or_assoc]

theorem foldl_counts (xs : List EvItem) (n : Nat) : xs.foldl (fun n i => n + i.count) n = n + (xs.map fun e => e.count).sum := by
  induction xs generalizing n with
  | nil => rfl
  | cons x xs ih => rw [List.foldl_cons, ih, List.map_cons, List.sum_cons, Nat.add_assoc]

/-- The one record that a cell's records of a kind are merged into. -/
def mergedItem (xs : List EvItem) (k : Nat) : Option EvItem :=
  match xs.filter fun i => i.kind == k with
  | [] => none
  | h :: hs => some ⟨k, hs.foldl (fun m i => m ||| i.lanes) h.lanes, hs.foldl (fun n i => n + i.count) h.count⟩

theorem mergeItems_eq (xs : List EvItem) : mergeItems xs = (List.range 8).filterMap (mergedItem xs) := rfl

theorem mergedItem_kind {xs : List EvItem} {k : Nat} {e : EvItem} (h : mergedItem xs k = some e) : e.kind = k := by
  unfold mergedItem at h
  split at h
  · cases h
  · cases h
    rfl

theorem filter_kind_filterMap {f : Nat → Option EvItem} (hf : ∀ k e, f k = some e → e.kind = k) {q n : Nat} (hq : q < n) :
    ((List.range n).filterMap f).filter (fun e => e.kind == q) = (f q).toList := by
  have hskip : ∀ (ks : List Nat), ks.Nodup →
      (ks.filterMap f).filter (fun e => e.kind == q) = if q ∈ ks then (f q).toList else [] := by
    intro ks
    induction ks with
    | nil => exact fun _ => rfl
    | cons k ks ih =>
      intro hks
      obtain ⟨hk, hks'⟩ := List.nodup_cons.1 hks
      by_cases h : k = q
      · subst h
        cases hfk : f k with
        | none => simp [hfk, ih hks', hk]
        | some e => simp [hfk, ih hks', hk, hf k e hfk]
      · cases hfk : f k with
        | none => simp [hfk, ih hks', Ne.symm h]
        | some e => simp [hfk, ih hks', Ne.symm h, hf k e hfk, h]
  rw [hskip _ List.nodup_range, if_pos (List.mem_range.2 hq)]

theorem kindCount_eq_of_filter {xs ys : List EvItem} {q : Nat}
    (h : ys = xs.filter fun e => e.kind == q) : kindCount q xs = (ys.map fun e => e.count).sum := by rw [h, kindCount]

theorem kindLane_eq_of_filter {xs ys : List EvItem} {q l : Nat}
    (h : ys = xs.filter fun e => e.kind == q) : kindLane q l xs = ys.any fun e => e.lanes.getLsbD l := by
  rw [h, List.any_filter, kindLane]

/-- Merging changes neither lanes nor counts. -/
theorem alike_mergeItems (xs : List EvItem) : Alike (mergeItems xs) xs := by
  intro q hq
  have hone := filter_kind_filterMap (f := mergedItem xs) (fun _ _ => mergedItem_kind) hq
  rw [← mergeItems_eq] at hone
  have hsplit : ∀ hs, hs = xs.filter (fun e => e.kind == q) → (mergedItem xs q).toList =
      match hs with
      | [] => []
      | h :: hs => [⟨q, hs.foldl (fun m i => m ||| i.lanes) h.lanes, hs.foldl (fun n i => n + i.count) h.count⟩] := by
    rintro hs rfl
    unfold mergedItem
    cases xs.filter fun i => i.kind == q <;> rfl
  refine ⟨?_, fun l _ => ?_⟩
  · rw [kindCount_eq_of_filter hone.symm, kindCount_eq_of_filter rfl, hsplit _ rfl]
    cases xs.filter fun e => e.kind == q with
    | nil => rfl
    | cons h hs => simp [foldl_counts]
  · rw [kindLane_eq_of_filter hone.symm, kindLane_eq_of_filter rfl, hsplit _ rfl]
    cases xs.filter fun e => e.kind == q with
    | nil => rfl
    | cons h hs => simp [foldl_lanes_getLsbD]

theorem or_ne_zero {w : Nat} {a : BitVec w} (b : BitVec w) (h : a ≠ 0) : a ||| b ≠ 0 := by
  intro h0
  refine h (BitVec.eq_of_getLsbD_eq fun j _ => ?_)
  have hj : (a ||| b).getLsbD j = (0#w).getLsbD j := by rw [h0]; rfl
  simp only [BitVec.getLsbD_or, BitVec.getLsbD_zero, Bool.or_eq_false_iff] at hj
  simpa using hj.1

theorem itemsValid_mergeItems {xs : List EvItem} (h : ItemsValid xs) : ItemsValid (mergeItems xs) := by
  intro e he
  obtain ⟨k, hk, hsome⟩ := List.mem_filterMap.1 he
  refine ⟨by rw [mergedItem_kind hsome]; exact List.mem_range.1 hk, ?_⟩
  change mergedItem xs k = some e at hsome
  unfold mergedItem at hsome
  split at hsome
  · cases hsome
  next a as heq =>
    cases hsome
    have ha : a.lanes ≠ 0 := (h a (List.mem_of_mem_filter (heq ▸ List.mem_cons_self))).2
    have hfold : ∀ (as : List EvItem) (m : BitVec 16), m ≠ 0 → as.foldl (fun m i => m ||| i.lanes) m ≠ 0 := by
      intro as
      induction as with
      | nil => exact fun _ hm => hm
      | cons b bs ih => exact fun m hm => ih _ (or_ne_zero _ hm)
    exact hfold as _ ha

/-! ### Records of elements -/

theorem kindCount_itemsOf {q : Nat} (hq : q < 8) (es : List (Nat × Kinds)) :
    kindCount q (itemsOf es) = es.countP fun p => p.2.getLsbD q := by
  have hone : ∀ (p : Nat × Kinds) (ks : List Nat), ks.Nodup →
      kindCount q ((ks.filter fun k => p.2.getLsbD k).map fun k => ⟨k, 1#16 <<< p.1, 1⟩) =
        if q ∈ ks ∧ p.2.getLsbD q = true then 1 else 0 := by
    intro p ks
    induction ks with
    | nil => exact fun _ => rfl
    | cons k ks ih =>
      intro hks
      obtain ⟨hk, hks'⟩ := List.nodup_cons.1 hks
      by_cases hkq : k = q
      · subst hkq
        by_cases hb : p.2.getLsbD k = true <;> simp [hb, ih hks', hk, kindCount_cons]
      · by_cases hb : p.2.getLsbD k = true <;> simp [hb, ih hks', hkq, Ne.symm hkq, kindCount_cons]
  induction es with
  | nil => rfl
  | cons p es ih =>
    rw [itemsOf, List.map_cons, List.flatten_cons, kindCount_append, hone p _ List.nodup_range, List.countP_cons, Nat.add_comm]
    simp only [List.mem_range, hq, true_and]
    exact congrArg (· + _) ih

theorem one_shiftLeft_getLsbD {l : Nat} (hl : l < 16) (n : Nat) : (1#16 <<< n).getLsbD l = (n == l) := by
  have := getLsbD_laneUnion hl [n] 0
  simpa using this

theorem kindLane_itemsOf {q l : Nat} (hq : q < 8) (hl : l < 16) (es : List (Nat × Kinds)) :
    kindLane q l (itemsOf es) = es.any fun p => p.2.getLsbD q && p.1 == l := by
  induction es with
  | nil => rfl
  | cons p es ih =>
    have hone : kindLane q l (((List.range 8).filter fun k => p.2.getLsbD k).map fun k => ⟨k, 1#16 <<< p.1, 1⟩) =
        (p.2.getLsbD q && p.1 == l) := by
      rw [kindLane, List.any_map, List.any_filter, Bool.eq_iff_iff]
      simp only [Function.comp_apply, one_shiftLeft_getLsbD hl, List.any_eq_true, List.mem_range, Bool.and_eq_true, beq_iff_eq]
      constructor
      · rintro ⟨k, -, hk, rfl, h⟩
        exact ⟨hk, h⟩
      · rintro ⟨hk, h⟩
        exact ⟨q, hq, hk, rfl, h⟩
    rw [itemsOf, List.map_cons, List.flatten_cons, kindLane_append, hone, List.any_cons]
    exact congrArg (_ || ·) ih

theorem itemsOf_append (xs ys : List (Nat × Kinds)) : itemsOf (xs ++ ys) = itemsOf xs ++ itemsOf ys := by
  simp [itemsOf]

theorem itemsOf_flatten (xss : List (List (Nat × Kinds))) : itemsOf xss.flatten = (xss.map itemsOf).flatten := by
  induction xss with
  | nil => rfl
  | cons xs xss ih => rw [List.flatten_cons, itemsOf_append, ih, List.map_cons, List.flatten_cons]

/-- The order of elements does not show in their records. -/
theorem alike_itemsOf_perm {xs ys : List (Nat × Kinds)} (h : xs.Perm ys) : Alike (itemsOf xs) (itemsOf ys) := by
  intro q hq
  refine ⟨by rw [kindCount_itemsOf hq, kindCount_itemsOf hq, h.countP_eq], fun l hl => ?_⟩
  rw [kindLane_itemsOf hq hl, kindLane_itemsOf hq hl, Bool.eq_iff_iff, List.any_eq_true, List.any_eq_true]
  simp only [h.mem_iff]

theorem itemsOf_filter_noKind (xs : List (Nat × Kinds)) : itemsOf (xs.filter fun x => x.2 != 0) = itemsOf xs := by
  induction xs with
  | nil => rfl
  | cons x xs ih =>
    rw [List.filter_cons]
    split
    · rw [itemsOf, List.map_cons, List.flatten_cons]
      exact congrArg _ ih
    next h =>
      have h0 : x.2 = 0 := by simpa using h
      rw [ih, itemsOf, itemsOf, List.map_cons, List.flatten_cons, h0]
      simp

/-- An element without an event has no record. -/
theorem itemsOf_map_noKind {α : Type} (f : α → Nat × Kinds) (xs : List α) (h : ∀ a ∈ xs, (f a).2 = noKind) :
    itemsOf (xs.map f) = [] := by
  have hnone : (xs.map f).filter (fun x => x.2 != 0) = [] := by
    refine filter_none fun x hx => ?_
    obtain ⟨a, ha, rfl⟩ := List.mem_map.1 hx
    rw [h a ha]
    rfl
  rw [← itemsOf_filter_noKind, hnone]
  rfl

/-- The one record of a kind that gathering makes of elements. -/
def gatheredItem (ys : List (Nat × Kinds)) (k : Nat) : Option EvItem :=
  if (ys.filter fun x => bit x.2 k).isEmpty then none
  else some ⟨k, laneUnion ((ys.filter fun x => bit x.2 k).map Prod.fst), (ys.filter fun x => bit x.2 k).length⟩

theorem gatherEvents_eq (xs : List (Nat × Kinds)) : gatherEvents xs =
    if (xs.filter fun x => x.2 != 0).isEmpty then []
    else (List.range 8).filterMap (gatheredItem (xs.filter fun x => x.2 != 0)) := rfl

theorem gatheredItem_kind {ys : List (Nat × Kinds)} {k : Nat} {e : EvItem} (h : gatheredItem ys k = some e) : e.kind = k := by
  unfold gatheredItem at h
  split at h
  · cases h
  · cases h
    rfl

theorem gatheredItem_toList (ys : List (Nat × Kinds)) (k : Nat) : (gatheredItem ys k).toList =
    if (ys.filter fun x => bit x.2 k).isEmpty then []
    else [⟨k, laneUnion ((ys.filter fun x => bit x.2 k).map Prod.fst), (ys.filter fun x => bit x.2 k).length⟩] := by
  unfold gatheredItem
  split <;> rfl

/-- Gathering makes one record of a kind's elements. -/
theorem alike_gatherEvents (xs : List (Nat × Kinds)) : Alike (gatherEvents xs) (itemsOf xs) := by
  rw [← itemsOf_filter_noKind, gatherEvents_eq]
  generalize xs.filter (fun x => x.2 != 0) = ys
  split
  next h => rw [List.isEmpty_iff.1 h]; exact Alike.refl _
  next =>
    intro q hq
    have hone := filter_kind_filterMap (f := gatheredItem ys) (fun _ _ => gatheredItem_kind) hq
    refine ⟨?_, fun l hl => ?_⟩
    · rw [kindCount_eq_of_filter hone.symm, gatheredItem_toList, kindCount_itemsOf hq, List.countP_eq_length_filter]
      change _ = (ys.filter fun x => bit x.2 q).length
      cases ys.filter fun x => bit x.2 q <;> simp
    · rw [kindLane_eq_of_filter hone.symm, gatheredItem_toList, kindLane_itemsOf hq hl, ← List.any_filter]
      change _ = (ys.filter fun x => bit x.2 q).any fun p => p.1 == l
      cases hys : ys.filter fun x => bit x.2 q with
      | nil => rfl
      | cons z zs =>
        rw [← hys, if_neg (by simp [hys])]
        simp [laneUnion, getLsbD_laneUnion hl]

end Sys2Proof.Machine
end

section
/-! SUPPORT. Rows by their elements (R125 to R127): what a row joined from elements holds, the bits that a lane mask selects, and
the records of the elements that it selects (R121, R139). -/

namespace Sys2Proof.Machine

open Sys2Proof.Claims

/-! ### Elements of a row (R125) -/

theorem elemN_eq {n : Nat} (x : BitVec n) (w j : Nat) : elemN x w j = x.toNat / 2 ^ (w * j) % 2 ^ w := fieldN_eq x (w * j) w

theorem elemN_lt {n : Nat} (x : BitVec n) (w j : Nat) : elemN x w j < 2 ^ w := by
  rw [elemN_eq]
  exact Nat.mod_lt _ (Nat.two_pow_pos w)

/-- Elements written one above the other. -/
theorem joined_div_mod (w : Nat) (es : List Nat) (j : Nat) :
    es.foldr (fun e acc => e % 2 ^ w + (acc <<< w)) 0 / 2 ^ (w * j) % 2 ^ w = es.getD j 0 % 2 ^ w := by
  induction es generalizing j with
  | nil => simp
  | cons e es ih =>
    have hlow : e % 2 ^ w < 2 ^ w := Nat.mod_lt _ (Nat.two_pow_pos w)
    rw [List.foldr_cons, Nat.shiftLeft_eq]
    cases j with
    | zero => simp [Nat.add_mul_mod_self_right]
    | succ j =>
      rw [Nat.mul_succ, Nat.add_comm (w * j), Nat.pow_add, ← Nat.div_div_eq_div_mul,
        Nat.add_mul_div_right _ _ (Nat.two_pow_pos w), Nat.div_eq_of_lt hlow, Nat.zero_add, ih, List.getD_cons_succ]

theorem mod_two_pow_field {n lo w : Nat} (h : lo + w ≤ n) (x : Nat) : x % 2 ^ n / 2 ^ lo % 2 ^ w = x / 2 ^ lo % 2 ^ w := by
  refine Nat.eq_of_testBit_eq fun i => ?_
  simp only [Nat.testBit_mod_two_pow, Nat.testBit_div_two_pow]
  by_cases hi : i < w
  · have : i + lo < n := by omega
    simp [hi, this]
  · simp [hi]

/-- A row joined from elements holds each in its place, and zero above them. -/
theorem elemN_joinElems {n w j : Nat} (h : w * j + w ≤ n) (es : List Nat) : elemN (joinElems n w es) w j = es.getD j 0 % 2 ^ w := by
  rw [elemN_eq, joinElems, BitVec.toNat_ofNat, mod_two_pow_field h, joined_div_mod]

theorem getD_map_range {α : Type} (d : α) (f : Nat → α) {n j : Nat} (h : j < n) : ((List.range n).map f).getD j d = f j := by
  simp [h]

theorem elemN_allOnes {n w j : Nat} (h : w * j + w ≤ n) : elemN (BitVec.allOnes n) w j = 2 ^ w - 1 := by
  refine Nat.eq_of_testBit_eq fun i => ?_
  rw [elemN_eq, BitVec.toNat_allOnes, Nat.testBit_mod_two_pow, Nat.testBit_div_two_pow, Nat.testBit_two_pow_sub_one,
    Nat.testBit_two_pow_sub_one]
  by_cases hi : i < w
  · have : i + w * j < n := by omega
    simp [hi, this]
  · simp [hi]

/-- The widths of the elements that lanes govern (R126). -/
def LaneWidth (w : Nat) : Prop := w = 8 ∨ w = 16 ∨ w = 32

theorem LaneWidth.fits {w j : Nat} (hw : LaneWidth w) (hj : j < 256 / w) : w * j + w ≤ 256 := by
  rcases hw with rfl | rfl | rfl <;> omega

theorem LaneWidth.lane_lt {w j : Nat} (hw : LaneWidth w) (hj : j < 256 / w) : laneAt w j < 16 := by
  unfold laneAt
  rcases hw with rfl | rfl | rfl
  · rw [if_pos rfl]
    omega
  · rw [if_neg (by decide)]
    omega
  · rw [if_neg (by decide)]
    omega

theorem allLanes_getLsbD {l : Nat} (hl : l < 16) : (0xFFFF : BitVec 16).getLsbD l = true := by
  interval_cases l <;> rfl

/-- The bits that a lane mask selects, element by element. -/
theorem elemN_laneBits {w j : Nat} (hw : LaneWidth w) (m : BitVec 16) (hj : j < 256 / w) :
    elemN (laneBits w m) w j = if m.getLsbD (laneAt w j) then 2 ^ w - 1 else 0 := by
  have hlt : 2 ^ w - 1 < 2 ^ w := Nat.sub_lt (Nat.two_pow_pos w) Nat.one_pos
  unfold laneBits
  split
  next h => rw [elemN_allOnes (hw.fits hj), h, allLanes_getLsbD (hw.lane_lt hj), if_pos rfl]
  next =>
    rw [elemN_joinElems (hw.fits hj), getD_map_range _ _ (show j < elemsOf w from hj)]
    change (if m.getLsbD (laneAt w j) = true then _ else _) % 2 ^ w = _
    split
    · exact Nat.mod_eq_of_lt hlt
    · exact Nat.zero_mod _

/-! ### Results under a lane mask (R127, R133) -/

theorem mapLanes_elem {w j : Nat} (hw : LaneWidth w) {m : BitVec 16} (op : Nat → Nat × Kinds) (hj : j < 256 / w)
    (hm : m.getLsbD (laneAt w j) = true) : elemN (mapLanes w m op).1 w j = (op j).1 % 2 ^ w := by
  have hbit : bit m (laneOf w j) = true := hm
  rw [mapLanes]
  dsimp only
  rw [elemN_joinElems (hw.fits hj), List.map_map, getD_map_range _ _ (show j < elemsOf w from hj)]
  simp only [Function.comp_apply, if_pos hbit]

/-- A result under a lane mask. -/
theorem toV_masked {s : State} {reg lat w : Nat} (hw : LaneWidth w) {m : BitVec 16} {v : Row} {val : Nat → Nat}
    (hv : ∀ j : Nat, j < 256 / w → m.getLsbD (laneAt w j) = true → elemN v w j = val j % 2 ^ w) :
    ToV s reg lat w m val (s.cx.toV reg lat v (laneBits w m)) := by
  refine ⟨rfl, rfl, rfl, rfl, rfl, fun j hj => ?_⟩
  have hbits := elemN_laneBits hw m hj
  change if m.getLsbD (laneAt w j) then _ else _
  split
  next h => exact ⟨by rw [Ctx.toV, hbits, if_pos h], hv j hj h⟩
  next h => rw [Ctx.toV, hbits, if_neg h]

/-! ### Records under a lane mask -/

theorem mem_selectedElems {w j : Nat} {m : BitVec 16} : j ∈ selectedElems w m ↔ j < 256 / w ∧ m.getLsbD (laneAt w j) = true := by
  rw [selectedElems, List.mem_filter, List.mem_range]
  rfl

/-- The elements that the mask leaves out have no record. -/
theorem itemsOf_selected (w : Nat) (m : BitVec 16) (op : Nat → Nat × Kinds) :
    itemsOf ((List.range (elemsOf w)).map fun j =>
      if bit m (laneOf w j) then (laneOf w j, (op j).2) else (0, noKind)) =
    itemsOf ((selectedElems w m).map fun j => (laneAt w j, (op j).2)) := by
  rw [selectedElems]
  induction List.range (elemsOf w) with
  | nil => rfl
  | cons j js ih =>
    rw [List.filter_cons, List.map_cons]
    split
    next h => rw [itemsOf, List.map_cons, List.flatten_cons, List.map_cons, itemsOf, List.map_cons, List.flatten_cons]
              exact congrArg _ ih
    next h => rw [← ih, itemsOf, List.map_cons, List.flatten_cons]
              simp [noKind, itemsOf]

theorem mapLanes_events (w : Nat) (m : BitVec 16) (op : Nat → Nat × Kinds) :
    (mapLanes w m op).2 = gatherEvents ((List.range (elemsOf w)).map fun j =>
      if bit m (laneOf w j) then (laneOf w j, (op j).2) else (0, noKind)) := by
  rw [mapLanes]
  dsimp only
  rw [List.map_map]
  refine congrArg gatherEvents (List.map_congr_left fun j _ => ?_)
  dsimp only [Function.comp_apply]
  split <;> rfl

theorem alike_mapLanes (w : Nat) (m : BitVec 16) (op : Nat → Nat × Kinds) :
    Alike (mapLanes w m op).2 (itemsOf ((selectedElems w m).map fun j => (laneAt w j, (op j).2))) := by
  rw [mapLanes_events, ← itemsOf_selected]
  exact alike_gatherEvents _

theorem itemsValid_mapLanes {w : Nat} (hw : LaneWidth w) (m : BitVec 16) (op : Nat → Nat × Kinds) : ItemsValid (mapLanes w m op).2 := by
  rw [mapLanes_events]
  refine gatherEvents_valid fun x hx => ?_
  obtain ⟨j, hj, rfl⟩ := List.mem_map.1 hx
  split
  · exact hw.lane_lt (List.mem_range.1 hj)
  · exact Nat.zero_lt_succ _

/-! ### Reads of gated registers (R139) -/

/-- A gated read counts once for each of the elements whose lanes it names. -/
theorem alike_gatedItem {lane : Nat → Nat} {lanes : BitVec 16} {js : List Nat}
    (h : ∀ l : Nat, l < 16 → lanes.getLsbD l = js.any fun j => lane j == l) :
    Alike (gatedItem lanes js.length) (itemsOf (js.map fun j => (lane j, kGated))) := by
  intro q hq
  have hbit : kGated.getLsbD q = (q == 7) := by interval_cases q <;> rfl
  have hlane : ∀ l, l < 16 → kindLane q l (itemsOf (js.map fun j => (lane j, kGated))) = (q == 7 && lanes.getLsbD l) := by
    intro l hl
    rw [kindLane_itemsOf hq hl, List.any_map, h l hl]
    simp only [Function.comp_def, hbit]
    cases q == 7 <;> simp
  have hcount : kindCount q (itemsOf (js.map fun j => (lane j, kGated))) = if q = 7 then js.length else 0 := by
    rw [kindCount_itemsOf hq, List.countP_map]
    simp only [Function.comp_def, hbit]
    by_cases h7 : q = 7
    · simp [h7]
    · simp [h7]
  rw [hcount]
  refine ⟨?_, fun l hl => (Eq.symm (hlane l hl)).symm ▸ ?_⟩
  · cases js <;> simp [gatedItem, kindCount_cons, eq_comm]
  · cases js with
    | nil => simp [gatedItem, h l hl]
    | cons j js => simp [gatedItem, kindLane_cons, Bool.beq_comm]

theorem itemsValid_gatedItem {lanes : BitVec 16} {count : Nat} (h : count ≠ 0 → lanes ≠ 0) : ItemsValid (gatedItem lanes count) := by
  intro e he
  unfold gatedItem at he
  split at he
  · exact absurd he List.not_mem_nil
  next hne =>
    obtain rfl := List.mem_singleton.1 he
    exact ⟨show 7 < 8 by decide, h hne⟩

theorem ne_zero_of_getLsbD {w l : Nat} {x : BitVec w} (h : x.getLsbD l = true) : x ≠ 0 := by
  rintro rfl
  simp at h

/-- The lanes of the selected elements. -/
theorem lanesOf_getLsbD {w l : Nat} (hw : LaneWidth w) (m : BitVec 16) (hl : l < 16) :
    (lanesOf w m).getLsbD l = (selectedElems w m).any fun j => laneAt w j == l := by
  have hmem : ((selectedElems w m).any fun j => laneAt w j == l) = true ↔
      ∃ j, (j < 256 / w ∧ m.getLsbD (laneAt w j) = true) ∧ laneAt w j = l := by
    simp only [List.any_eq_true, mem_selectedElems, beq_iff_eq]
  rw [Bool.eq_iff_iff, hmem]
  have hlow : ∀ l, l < 16 → ((m &&& 0x00FF).getLsbD l = true ↔ m.getLsbD l = true ∧ l < 8) := by
    intro l hl
    rw [BitVec.getLsbD_and, Bool.and_eq_true]
    refine and_congr_right fun _ => ?_
    interval_cases l <;> decide
  rcases hw with rfl | rfl | rfl
  · have hlane : laneAt 8 (2 * l) = l := by simp [laneAt]
    exact ⟨fun h => ⟨2 * l, ⟨by omega, hlane.symm ▸ h⟩, hlane⟩, fun ⟨j, ⟨_, hm⟩, hj⟩ => hj ▸ hm⟩
  · exact ⟨fun h => ⟨l, ⟨by omega, h⟩, rfl⟩, fun ⟨j, ⟨_, hm⟩, hj⟩ => hj ▸ hm⟩
  · rw [lanesOf, if_pos rfl, hlow l hl]
    exact ⟨fun h => ⟨l, ⟨by omega, h.1⟩, rfl⟩, fun ⟨j, ⟨hj8, hm⟩, hj⟩ => by
      change j = l at hj
      subst hj
      exact ⟨hm, by omega⟩⟩

theorem lanesOf_ne_zero {w : Nat} (hw : LaneWidth w) {m : BitVec 16} (h : selectedElems w m ≠ []) : lanesOf w m ≠ 0 := by
  obtain ⟨j, hj⟩ := List.exists_mem_of_ne_nil _ h
  have hlane := hw.lane_lt (mem_selectedElems.1 hj).1
  refine ne_zero_of_getLsbD (l := laneAt w j) ?_
  rw [lanesOf_getLsbD hw m hlane, List.any_eq_true]
  exact ⟨j, hj, beq_self_eq_true _⟩

variable {s : State} {f : CForm} {n w : Nat}

theorem selectedElems_maskIn (s : State) (f : CForm) (w n : Nat) : selectedElems w (maskIn s f n) = picked s f w n := rfl

theorem itemsOf_gatedBy (r : Nat) (js : List Nat) : itemsOf (gatedBy s w n r js) =
    if (s.cc.cell n).group (r / 8) = .gated then itemsOf (js.map fun j => (laneAt w j, kGated)) else [] := by
  unfold gatedBy
  split <;> rfl

theorem alike_gatedRead (hw : LaneWidth w) (r : Nat) :
    Alike ((s.cc.cell n).gatedRead r (lanesOf w (maskIn s f n)) (picked s f w n).length)
      (itemsOf (gatedBy s w n r (picked s f w n))) := by
  rw [itemsOf_gatedBy, Cell.gatedRead]
  split
  · exact alike_gatedItem fun l hl => lanesOf_getLsbD hw (maskIn s f n) hl
  · exact Alike.refl []

theorem itemsValid_gatedRead (y : Cell) (r : Nat) {lanes : BitVec 16} {count : Nat} (h : count ≠ 0 → lanes ≠ 0) :
    ItemsValid (y.gatedRead r lanes count) := by
  unfold Cell.gatedRead
  split
  · exact itemsValid_gatedItem h
  · exact fun e he => absurd he List.not_mem_nil

theorem alike_gatedReads (hw : LaneWidth w) (regs : List Nat) :
    Alike ((s.cc.cell n).gatedReads regs w (maskIn s f n))
      (itemsOf (regs.map fun r => gatedBy s w n r (picked s f w n)).flatten) := by
  rw [itemsOf_flatten, List.map_map]
  exact Alike.flatten_map fun r _ => alike_gatedRead hw r

theorem itemsValid_gatedReads (hw : LaneWidth w) (y : Cell) (regs : List Nat) (m : BitVec 16) : ItemsValid (y.gatedReads regs w m) := by
  refine itemsValid_flatten fun xs hxs => ?_
  obtain ⟨r, -, rfl⟩ := List.mem_map.1 hxs
  exact itemsValid_gatedRead y r fun h => lanesOf_ne_zero hw fun h0 => h (by rw [h0]; rfl)

/-- The records of an element-wise instruction: its elements' and its gated reads'. -/
theorem sameEvents_elementEvents (hw : LaneWidth w) {regs : List Nat} {K : Nat → Nat → Kinds} {evs : List EvItem}
    (hvalid : ItemsValid evs) (hevs : Alike evs (itemsOf ((picked s f w n).map fun j => (laneAt w j, K n j)))) :
    SameEvents (mergeItems (evs ++ (s.cc.cell n).gatedReads regs w (maskIn s f n))) (elementEvents s f w regs K n) := by
  refine ⟨itemsValid_mergeItems (hvalid.append (itemsValid_gatedReads hw _ _ _)), ?_⟩
  rw [elementEvents, itemsOf_append]
  exact (alike_mergeItems _).trans (hevs.append (alike_gatedReads hw regs))

/-- Gated reads alone. -/
theorem sameEvents_reads (hw : LaneWidth w) (regs : List Nat) :
    SameEvents (mergeItems ((s.cc.cell n).gatedReads regs w (maskIn s f n))) (elementEvents s f w regs (fun _ _ => noKind) n) := by
  refine sameEvents_elementEvents hw (evs := []) (fun e he => absurd he List.not_mem_nil) ?_
  rw [itemsOf_map_noKind _ _ fun _ _ => rfl]
  exact Alike.refl []

end Sys2Proof.Machine
end

section
/-! SUPPORT. A cell instruction of a checked bundle with its records (R121, R129 to R142, R438): the bundle notes what each
selected cell records, and the cells are as their results leave them. -/

namespace Sys2Proof.Machine

open Sys2Proof.Claims

/-! ### The events on the bundle -/

/-- The numeric events that the bundle in issue has noted. -/
def State.noted (s : State) : Option (List Raise) := s.cx.issue.map fun i => i.raises

theorem State.noted_of {s : State} {i : Issue} (h : s.cx.issue = some i) : s.noted = some i.raises := by
  rw [State.noted, h]
  rfl

theorem Ctx.noteWatch_raises (x : Ctx) (n : Nat) (w : Word) :
    (x.noteWatch n w).issue.map (fun i => i.raises) = x.issue.map fun i => i.raises := by
  unfold Ctx.noteWatch
  cases h : x.issue <;> simp [h]

theorem State.noted_watchCells (s : State) (kind : Nat) (acc : List (Nat × Nat)) : (s.watchCells kind acc).noted = s.noted := by
  unfold State.watchCells
  split
  · rw [State.noted, State.cx_modCx, Ctx.noteWatch_raises]
    rfl
  · rfl

theorem State.cx_serveUse (s : State) (u : CellUse) : (s.serveUse u).cx = s.cx := by
  unfold State.serveUse
  dsimp only
  rw [State.cx_modCore, Core.ctx, Core.ctxs_serveFold]
  rfl

theorem State.noted_serveUse (s : State) (u : CellUse) : (s.serveUse u).noted = s.noted := by
  rw [State.noted, State.cx_serveUse]
  rfl

/-- The events that the cells of a slot record together. -/
def slotEvs (cells : List Nat) (evs : Nat → List EvItem) : List CellEv := (cells.map fun c => cellEvents c (evs c)).flatten

theorem State.noted_raise {s : State} {i : Issue} (h : s.cx.issue = some i) (evs : List CellEv) :
    (s.raise evs).noted = some (if evs = [] then i.raises else i.raises ++ [⟨s.turn.slot, evs⟩]) := by
  unfold State.raise
  cases evs with
  | nil => exact State.noted_of h
  | cons e es =>
    rw [List.isEmpty_cons, if_neg Bool.false_ne_true, if_neg (List.cons_ne_nil e es), h]
    exact congrArg (fun y => y.issue.map fun i => i.raises) (State.cx_modCx s _)

/-- What a slot's cells record enters the bundle. -/
theorem State.noted_cellsDo {s : State} {i : Issue} (h : s.cx.issue = some i) (sq : BitVec 4) {out : Core → Nat → CellOut}
    (hnow : ∀ k c y, ((out k c).now y).tower = y.tower) :
    (s.cellsDo (cellsOf sq) out).noted = some (if slotEvs (cellsOf sq) (fun c => (out s.cc c).evs) = [] then i.raises
      else i.raises ++ [⟨s.turn.slot, slotEvs (cellsOf sq) fun c => (out s.cc c).evs⟩]) := by
  have hctxs := (Core.keeps_acceptAll (out s.cc) (hnow s.cc) (cellsOf sq) s.cc).1
  have hevs : (((cellsOf sq).map fun c => (c, out s.cc c)).map fun r => cellEvents r.1 r.2.evs).flatten =
      slotEvs (cellsOf sq) fun c => (out s.cc c).evs := by
    rw [List.map_map]
    rfl
  unfold State.cellsDo
  dsimp only
  rw [hevs]
  refine State.noted_raise ?_ _
  rw [State.cx_modCore, Core.ctx, hctxs]
  exact h

theorem State.noted_complete (s : State) : s.complete.noted = s.noted := by
  unfold State.complete
  split
  next i h =>
    rw [State.noted, State.cx_modCx, State.noted, h]
    rfl
  next => rfl

theorem State.noted_completeUnless (s : State) : s.completeUnless.noted = s.noted := by
  unfold State.completeUnless
  split
  · split
    · split
      · rfl
      · exact s.noted_complete
    · exact s.noted_complete
  · rfl

/-! ### The records of one cell among a slot's -/

theorem mem_slotEvs {cells : List Nat} {evs : Nat → List EvItem} {e : CellEv} (h : e ∈ slotEvs cells evs) : e.cell ∈ cells := by
  obtain ⟨es, hes, he⟩ := List.mem_flatten.1 h
  obtain ⟨c, hc, rfl⟩ := List.mem_map.1 hes
  obtain ⟨i, -, rfl⟩ := List.mem_map.1 he
  exact hc

theorem slotEvs_of_cell {cells : List Nat} (hcells : cells.Nodup) (evs : Nat → List EvItem) {n : Nat} (hn : n ∈ cells) :
    ((slotEvs cells evs).filter fun e => e.cell == n).map (fun e => e.item) = evs n := by
  have hcell : ∀ c, ((cellEvents c (evs c)).filter fun e => e.cell == n).map (fun e => e.item) = if c = n then evs n else [] := by
    intro c
    rw [cellEvents, List.filter_map, List.map_map]
    by_cases h : c = n
    · subst h
      rw [if_pos rfl]
      exact (congrArg (List.map _) (List.filter_eq_self.2 fun _ _ => beq_self_eq_true _)).trans (List.map_id _)
    · rw [if_neg h]
      exact congrArg (List.map _) (filter_none fun _ _ => beq_eq_false_iff_ne.2 h)
  induction cells with
  | nil => exact absurd hn List.not_mem_nil
  | cons c cs ih =>
    obtain ⟨hc, hcs⟩ := List.nodup_cons.1 hcells
    rw [slotEvs, List.map_cons, List.flatten_cons, List.filter_append, List.map_append, hcell]
    by_cases h : c = n
    · subst h
      have hrest : (slotEvs cs evs).filter (fun e => e.cell == c) = [] :=
        filter_none fun e he => beq_eq_false_iff_ne.2 fun heq => hc (heq ▸ mem_slotEvs he)
      rw [if_pos rfl]
      exact (congrArg (fun z => evs c ++ List.map _ z) hrest).trans (List.append_nil _)
    · rw [if_neg h]
      exact ih hcs ((List.mem_cons.1 hn).resolve_left (Ne.symm h))

/-! ### Nothing that is read is beyond correction (R433, R438) -/

variable {s : State} {i : Issue} {f : CForm}

theorem taken_sound (h : Sound s f) {n : Nat} (hn : Sel f n) (sels : List (BitVec 4)) :
    ∀ p ∈ (s.cc.cell n).taken sels, p.2 = false := by
  obtain ⟨-, -, hlatch, hrx⟩ := h n hn
  have hin : ∀ v : FragVal, v.bad = [] → v.badIn 1 = false := fun v hv => by rw [FragVal.badIn, hv]; rfl
  intro p hp
  obtain ⟨sel, -, hsel⟩ := List.mem_filterMap.1 hp
  split at hsel
  · obtain ⟨e, he, rfl⟩ := Option.map_eq_some_iff.1 hsel
    exact hin _ (hrx e (List.mem_of_mem_head? he))
  · split at hsel
    · cases hsel
      exact hin _ (hlatch _)
    · cases hsel

/-- Where all is sound, no instruction consumes bad data. -/
theorem consumed_of_sound (h : Sound s f) {u : CellUse} (hform : u.form = f)
    (hentries : ∀ n : Nat, Sel f n → ∀ p ∈ u.entries (s.cc.cell n), p.2 = false) : u.consumed s.cc = none := by
  unfold CellUse.consumed
  dsimp only
  rw [List.head?_eq_none_iff, List.flatten_eq_nil_iff]
  intro xs hxs
  obtain ⟨n, hn, rfl⟩ := List.mem_map.1 hxs
  have hsel : Sel f n := by
    rw [CellUse.cells, hform] at hn
    exact mem_cellsOf.1 hn
  obtain ⟨hbad, hrow, -, -⟩ := h n hsel
  rw [List.append_eq_nil_iff, List.append_eq_nil_iff, List.map_eq_nil_iff, List.map_eq_nil_iff, List.map_eq_nil_iff]
  refine ⟨⟨filter_none fun r _ => hrow r, filter_none fun r _ => ?_⟩, filter_none fun p hp => hentries n hsel p hp⟩
  rw [Cell.badReg, hbad]
  rfl

/-! ### A cell instruction with its records -/

/-- What a change of a cell at once leaves to its tower. -/
theorem now_tower {g : Cell → Cell} (h : ∀ (y : Cell) (t : Tower), g { y with tower := t } = { g y with tower := t }) (y : Cell) :
    (g y).tower = y.tower := (congrArg Cell.tower (h y y.tower) :)

theorem Cell.accept_tower {o : CellOut} (h : ∀ (y : Cell) (t : Tower), o.now { y with tower := t } = { o.now y with tower := t })
    (y : Cell) (t : Tower) : ({ y with tower := t } : Cell).accept o = { y.accept o with tower := t } := by
  unfold Cell.accept
  dsimp only
  rw [h]

theorem Cell.eq_withOwnTower {x y : Cell} {t : Tower} (h : x = { y with tower := t }) : x = { y with tower := x.tower } := by
  subst h
  rfl

/-- The state in which an instruction's watchpoints have seen its accesses and its reads are served. -/
def State.served (s : State) (u : CellUse) : State :=
  ((s.watchCells watchRd (u.accesses fun c => (u.reads c).map fun r => r.2.row)).watchCells watchWr
    (u.accesses fun c => (u.writes c).map fun w => w.2)).serveUse u

theorem served_spec (hi : s.cx.issue = some i) (u : CellUse) : (s.served u).NotedFrom s i ∧ (s.served u).cc.Like s.cc ∧
    (∀ n, n ∉ u.cells → (s.served u).cc.cell n = s.cc.cell n) ∧ (s.served u).noted = some i.raises := by
  obtain ⟨n1, l1, c1⟩ := (State.noted_refl hi).watchCells watchRd (u.accesses fun c => (u.reads c).map fun r => r.2.row)
  obtain ⟨n2, l2, c2⟩ := n1.watchCells watchWr (u.accesses fun c => (u.writes c).map fun w => w.2)
  obtain ⟨n3, l3, c3⟩ := n2.serveUse u
  refine ⟨n3, (l3.trans l2).trans l1, fun n hn => (c3 n hn).trans ((c2 n).trans (c1 n)), ?_⟩
  rw [State.served, State.noted_serveUse, State.noted_watchCells, State.noted_watchCells, State.noted_of hi]

theorem exec_plain (hi : InIssue s i) {x y : Instr} {u : CellUse} (effect : State → State)
    (hx : slotMeaning x s = some (plainSlot y u effect s)) (hu : u.consumed s.cc = none) :
    exec x s = .next (effect (s.served u)).completeUnless := by
  rw [exec_slot hx, State.run_checked hi.1 hi.2.1]
  simp only [plainSlot, cellSlot, if_true, State.act, hu]
  rfl

/-- An instruction whose reads are made at issue gives each selected cell its results and records. -/
theorem gives_plain (hi : InIssue s i) {x y : Instr} {u : CellUse} {out : Core → Nat → CellOut} {P : Nat → Cell → Prop}
    {I : Nat → List EvItem} (hx : slotMeaning x s = some (plainSlot y u (fun s => s.cellsDo u.cells out) s)) (hform : u.form = f)
    (hu : u.consumed s.cc = none)
    (hnow : ∀ k c (z : Cell) (t : Tower), (out k c).now { z with tower := t } = { (out k c).now z with tower := t })
    (hlike : ∀ (k : Core) (n : Nat), k.Like s.cc → out k n = out s.cc n)
    (hP : ∀ n : Nat, Sel f n → P n ((s.cc.cell n).accept (out s.cc n)))
    (hI : ∀ n : Nat, Sel f n → SameEvents (out s.cc n).evs (I n)) : Gives s i f x P I := by
  subst hform
  have hexec := exec_plain hi (fun s => s.cellsDo u.cells out) hx hu
  obtain ⟨hissue, -, hlate⟩ := hi
  obtain ⟨hfrom, hk, hcells, hnoted⟩ := served_spec hissue u
  obtain ⟨hto, hcell⟩ := hfrom.cellsDo u.form.sq fun k c => now_tower (hnow k c)
  obtain ⟨⟨j, hcx, hdone, hj⟩, hmem, hexpress, hcmem, hrow, hcell'⟩ := hto.completes hlate
  obtain ⟨j0, -, hcx0⟩ := hfrom.cx
  have hissue0 : (s.served u).cx.issue = some j0 := by rw [hcx0]
  have hraises0 : j0.raises = i.raises := Option.some.inj ((State.noted_of hissue0).symm.trans hnoted)
  have hraises : j.raises = if slotEvs (cellsOf u.form.sq) (fun c => (out (s.served u).cc c).evs) = [] then j0.raises
      else j0.raises ++ [⟨(s.served u).turn.slot, slotEvs (cellsOf u.form.sq) fun c => (out (s.served u).cc c).evs⟩] :=
    Option.some.inj ((State.noted_of (by rw [hcx])).symm.trans ((State.noted_completeUnless _).trans
      (State.noted_cellsDo hissue0 u.form.sq fun k c => now_tower (hnow k c))))
  refine ⟨_, hexec, hexpress, ⟨j, hcx, hdone, hj, slotEvs (cellsOf u.form.sq) (fun c => (out s.cc c).evs), ?_, fun e he => ?_,
    fun n hn => ?_⟩, hmem, hcmem, hrow, fun n hn => ?_⟩
  · rw [hraises, hraises0, hfrom.turn]
    simp only [hlike _ _ hk]
  · exact mem_cellsOf.1 (mem_slotEvs he)
  · rw [slotEvs_of_cell (cellsOf_nodup _) _ (mem_cellsOf.2 hn)]
    exact hI n hn
  · have hn' := (hcell' n).trans (hcell n)
    split
    next hsq =>
      have haccept := hn'.trans (if_pos (mem_cellsOf.2 ⟨hn, hsq⟩))
      rw [hlike _ _ hk, hk.cell n, Cell.accept_tower (hnow s.cc n)] at haccept
      exact ⟨_, hP n ⟨hn, hsq⟩, Cell.eq_withOwnTower haccept⟩
    next hsq =>
      have hnot : n ∉ cellsOf u.form.sq := fun h => hsq (mem_cellsOf.1 h).2
      exact hn'.trans ((if_neg hnot).trans (hcells n hnot))

end Sys2Proof.Machine
end

section
/-! SUPPORT. The element-wise cell instructions (R125 to R133, R139): one masked result in each selected cell and the records of
its elements. -/

namespace Sys2Proof.Machine

open Sys2Proof.Claims

/-! ### What a cell instruction reads does not depend on the towers' bookkeeping -/

section

variable {k k0 : Core}

theorem Core.Like.vreg (h : k.Like k0) (n r : Nat) : (k.cell n).vreg r = (k0.cell n).vreg r := by rw [h.cell n]; rfl

theorem Core.Like.mreg (h : k.Like k0) (n r : Nat) : (k.cell n).mreg r = (k0.cell n).mreg r := by rw [h.cell n]; rfl

theorem Core.Like.lane (h : k.Like k0) (n : Nat) (f : CForm) : (k.cell n).lane f = (k0.cell n).lane f := h.mreg n _

theorem Core.Like.gatedRead (h : k.Like k0) (n r : Nat) (lanes : BitVec 16) (count : Nat) :
    (k.cell n).gatedRead r lanes count = (k0.cell n).gatedRead r lanes count := by rw [h.cell n]; rfl

theorem Core.Like.gatedReads (h : k.Like k0) (n : Nat) (regs : List Nat) (w : Nat) (m : BitVec 16) :
    (k.cell n).gatedReads regs w m = (k0.cell n).gatedReads regs w m := by rw [h.cell n]; rfl

theorem Core.Like.accView (h : k.Like k0) (n a level u : Nat) : (k.cell n).accView a level u = (k0.cell n).accView a level u := by
  rw [h.cell n]; rfl

theorem Core.Like.scalePlace (h : k.Like k0) (n row half : Nat) :
    (k.cell n).scalePlace row half = (k0.cell n).scalePlace row half := by rw [h.cell n]; rfl

theorem Core.Like.scaleByte (h : k.Like k0) (n row half : Nat) : k.scaleByte n row half = k0.scaleByte n row half := by
  simp only [Core.scaleByte, Core.scaleUnder, h.scalePlace, h.row]

theorem Core.Like.source (h : k.Like k0) (n : Nat) (sel : BitVec 4) (reg : BitVec 5) (row : BitVec 10) (imm : Row) :
    k.source n sel reg row imm = k0.source n sel reg row imm := by
  have hrx : (k.cell n).rxHead = (k0.cell n).rxHead := by rw [h.cell n]; rfl
  have hlatch : (k.cell n).latch = (k0.cell n).latch := by rw [h.cell n]
  simp only [Core.source, h.vreg, h.row, hrx, hlatch]

end

/-! ### Results on their way -/

theorem Cell.accept_lands (y : Cell) {es : List CellLanding} (evs : List EvItem) (h : ∀ e ∈ es, e.isMask = false) :
    y.accept { lands := es, evs := evs } = { y with land := y.land ++ es } := by
  have hall : es.filter (fun l => !(l.isMask && l.idx == 0)) = es := List.filter_eq_self.2 fun e he => by rw [h e he]; rfl
  rw [Cell.accept]
  dsimp only [id_eq]
  rw [hall, List.append_nil, List.append_nil]

theorem selRegs_one (sel : BitVec 4) (reg : BitVec 5) : selRegs sel reg 1 = if sel = 0 then [reg.toNat] else [] := by
  simp [selRegs]

variable {s : State} {i : Issue} {f : CForm} {g : Fmt}

theorem vecUse_regs (k : Core) (f : CForm) (n lat : Nat) (toMask mismatch : Bool) :
    (vecUse k f n lat toMask mismatch).regs = regsOf f n := by
  rw [vecUse, regsOf]
  dsimp only
  rw [selRegs_one, selRegs_one]
  by_cases h : 2 ≤ n <;> simp [h]

/-- The cell with one masked result. -/
theorem oneV_accept {lat w n : Nat} {val : Nat → Nat → Nat} {v : Row} (hw : LaneWidth w) (evs : List EvItem)
    (hv : ∀ j : Nat, j < 256 / w → (maskIn s f n).getLsbD (laneAt w j) = true → elemN v w j = val n j % 2 ^ w) :
    OneV s f lat w val n ((s.cc.cell n).accept
      { lands := [s.cx.toV f.d.toNat lat v (laneBits w (maskIn s f n))], evs := evs }) := by
  refine ⟨_, toV_masked hw hv, Cell.accept_lands _ _ fun e he => ?_⟩
  obtain rfl := List.mem_singleton.1 he
  rfl

/-! ### Element-wise instructions -/

/-- What an element-wise instruction of operation `op` gives a cell. -/
def vecOut (x : Ctx) (f : CForm) (g : Fmt) (lat : Nat) (regs : List Nat) (op : Nat → Nat → Nat → Nat × Kinds) (k : Core) (c : Nat) :
    CellOut :=
  let m := (k.cell c).lane f
  let r := mapLanes g.width m fun j => op (elemN (k.source c f.as_ f.a f.ta (immRow g f.im f.rm)) g.width j)
    (elemN (k.source c f.bs f.b f.tb (immRow g f.im f.rm)) g.width j) (elemN ((k.cell c).vreg f.cc.toNat) g.width j)
  { lands := [x.toV f.d.toNat lat r.1 (laneBits g.width m)]
    evs := mergeItems (r.2 ++ (k.cell c).gatedReads regs g.width m) }

theorem vecOut_like (x : Ctx) (f : CForm) (g : Fmt) (lat : Nat) (regs : List Nat) (op : Nat → Nat → Nat → Nat × Kinds)
    {k k0 : Core} (h : k.Like k0) (n : Nat) : vecOut x f g lat regs op k n = vecOut x f g lat regs op k0 n := by
  simp only [vecOut, h.lane, h.source, h.vreg, h.gatedReads]

theorem vecV_eq (y : Instr) (f : CForm) (n lat : Nat) (g : Fmt) (op : Fmt → Nat → Nat → Nat → Nat × Kinds) (s : State) :
    vecV y f n lat (some g) op s = plainSlot y (vecUse s.cc f n lat false false) (fun t =>
      t.cellsDo (vecUse s.cc f n lat false false).cells
        (vecOut s.cx f g lat (vecUse s.cc f n lat false false).regs (op g))) s := rfl

/-- An element-wise instruction gives each element the value and the kinds of its operation. -/
theorem givesV_of_vecV (hi : InIssue s i) (hsound : Sound s f) (hw : LaneWidth g.width) {x y : Instr} {k lat : Nat}
    {op : Fmt → Nat → Nat → Nat → Nat × Kinds} {val : Nat → Nat → Nat × Kinds}
    (hx : slotMeaning x s = some (vecV y f k lat (some g) op s))
    (hval : ∀ n j : Nat, (op g (srcA s f g n j) (srcB s f g n j) (srcC s f g n j)).1 % 2 ^ g.width = (val n j).1 % 2 ^ g.width ∧
      (op g (srcA s f g n j) (srcB s f g n j) (srcC s f g n j)).2 = (val n j).2) : GivesV s i f x lat g.width k val := by
  rw [vecV_eq] at hx
  refine gives_plain hi hx rfl (consumed_of_sound hsound rfl fun n hn => taken_sound hsound hn _) (fun _ _ _ _ => rfl)
    (fun k n h => vecOut_like _ _ _ _ _ _ h n) (fun n _ => oneV_accept hw _ fun j hj hm => ?_) fun n _ => ?_
  · exact (mapLanes_elem hw _ hj hm).trans (hval n j).1
  · rw [vecUse_regs]
    refine sameEvents_elementEvents hw (itemsValid_mapLanes hw _ _) ?_
    have halike := alike_mapLanes g.width (maskIn s f n) fun j =>
      op g (srcA s f g n j) (srcB s f g n j) (srcC s f g n j)
    rw [selectedElems_maskIn] at halike
    simp only [(hval n _).2] at halike
    exact halike

theorem State.fpFmt_lt {s : State} {f : CForm} {g : Fmt} (h : s.fpFmt f = some g) : g = .fp32 ∨ g = .fp16 ∨ g = .bf16 := by
  unfold State.fpFmt at h
  split at h
  next c _ =>
    split at h
    next hc => interval_cases c <;> simp_all [Fmt.ofCode]
    next => cases h
  next => cases h

theorem State.fpFmt_laneWidth {s : State} {f : CForm} {g : Fmt} (h : s.fpFmt f = some g) : LaneWidth g.width := by
  rcases State.fpFmt_lt h with rfl | rfl | rfl
  · exact .inr (.inr rfl)
  · exact .inr (.inl rfl)
  · exact .inr (.inl rfl)

end Sys2Proof.Machine
end

section
/-! SUPPORT. What the sums, products and fused forms of the cells do (R108, R112, R113, R145), and the statement of the
floating-point cell instructions (R144 to R152). -/

namespace Sys2Proof.Machine

open Sys2Proof.Claims

variable {q : FloatSpec} {M : RMode}

/-! ### Operands that are no NaN -/

theorem FVal.isSnan_of_not_nan {x : FVal} (h : x.isNan = false) : x.isSnan = false := by
  cases x with
  | nan => cases h
  | inf => rfl
  | fin => rfl

theorem nanOf_none (q : FloatSpec) {xs : List FVal} (h : ∀ x ∈ xs, x.isNan = false) : nanOf q xs = none := by
  have hfind : xs.find? FVal.isNan = none := List.find?_eq_none.2 fun x hx => by rw [h x hx]; exact Bool.false_ne_true
  rw [nanOf, hfind]

theorem addRound_numbers (q : FloatSpec) (M : RMode) {x y : FVal} (hx : x.isNan = false) (hy : y.isNan = false) :
    addRound q M x y = sumRound q M [x, y] := by
  rw [addRound, nanOf_none q (by simp [hx, hy])]

theorem mulRound_numbers (q : FloatSpec) (M : RMode) {x y : FVal} (hx : x.isNan = false) (hy : y.isNan = false) :
    mulRound q M x y = match x.times y with
      | none => invalidNan q
      | some (.inf n) => (q.signed n q.infCode, noKind)
      | some p => q.roundDy M p.isNeg p.dy := by
  have hnone : nanOf q [x, y] = none := nanOf_none q (by simp [hx, hy])
  unfold mulRound
  generalize nanOf q [x, y] = r at hnone
  subst hnone
  rfl

theorem fmaRound_numbers (q : FloatSpec) (M : RMode) {x y z : FVal} (hx : x.isNan = false) (hy : y.isNan = false)
    (hz : z.isNan = false) : fmaRound q M x y z = match x.times y with
      | none => invalidNan q
      | some p => sumRound q M [p, z] := by
  have hnone : nanOf q [x, y, z] = none := nanOf_none q (by simp [hx, hy, hz])
  unfold fmaRound
  generalize nanOf q [x, y, z] = r at hnone
  subst hnone
  rfl

/-! ### Exact sums -/

theorem Dy.at_eq_zero {x : Dy} {c : Int} : x.at c = 0 ↔ x.m = 0 := by
  rw [Dy.at, Int.mul_eq_zero, or_iff_left]
  exact Int.natCast_ne_zero.2 (Nat.two_pow_pos _).ne'

/-- The exact sum of two values, seen at an exponent below both. -/
theorem Dy.add_at (x y : Dy) {c : Int} (hx : c ≤ x.e) (hy : c ≤ y.e) : c ≤ (x.add y).e ∧ (x.add y).at c = x.at c + y.at c := by
  unfold Dy.add
  split
  next h => exact ⟨hy, by rw [Dy.at_eq_zero.2 h, Int.zero_add]⟩
  next =>
    split
    next h => exact ⟨hx, by rw [Dy.at_eq_zero.2 h, Int.add_zero]⟩
    next =>
      have hc : c ≤ min x.e y.e := le_min hx hy
      refine ⟨hc, ?_⟩
      rw [x.at_lower hc (min_le_left _ _), y.at_lower hc (min_le_right _ _), ← Int.add_mul]
      rfl

theorem FloatSpec.roundDy_of_ne (q : FloatSpec) (M : RMode) (z : Bool) {x : Dy} (h : x.m ≠ 0) :
    q.roundDy M z x = q.round M (decide (x.m < 0)) x.m.natAbs x.e := by rw [FloatSpec.roundDy, if_neg h]

/-- The sign of an exact zero sum of two numbers (R112). -/
def sumZeroSign (M : RMode) (n : Bool) (m : Nat) (n' : Bool) (m' : Nat) : Bool :=
  decide ((n = true ∧ n' = true ∧ m = 0 ∧ m' = 0) ∨ (M = .rdn ∧ ¬ (n = false ∧ n' = false ∧ m = 0 ∧ m' = 0)))

theorem sumRound_finite (q : FloatSpec) (M : RMode) (n : Bool) (m : Nat) (e : Int) (n' : Bool) (m' : Nat) (e' : Int) :
    sumRound q M [.fin n m e, .fin n' m' e'] =
      q.roundDy M (sumZeroSign M n m n' m') ((FVal.fin n m e).dy.add (FVal.fin n' m' e').dy) := by
  have hsum : Dy.sum (([.fin n m e, .fin n' m' e'] : List FVal).map FVal.dy) = (FVal.fin n m e).dy.add (FVal.fin n' m' e').dy := rfl
  have hsign : (([.fin n m e, .fin n' m' e'] : List FVal).all FVal.isZero && zeroSign M [.fin n m e, .fin n' m' e'] ||
      !([.fin n m e, .fin n' m' e'] : List FVal).all FVal.isZero && M == .rdn) = sumZeroSign M n m n' m' := by
    rw [Bool.eq_iff_iff]
    by_cases hm : m = 0 <;> by_cases hm' : m' = 0 <;> cases n <;> cases n' <;>
      simp [sumZeroSign, zeroSign, FVal.isZero, FVal.isNeg, hm, hm']
  rw [sumRound, hsum, hsign]
  rfl

/-- A sum of two numbers is exact and rounded once; an exact zero takes the sign of R112. -/
theorem addRound_finite (q : FloatSpec) (M : RMode) (n : Bool) (m : Nat) (e : Int) (n' : Bool) (m' : Nat) (e' : Int) {c S : Int}
    (hc : c ≤ e) (hc' : c ≤ e') (hS : S = scaledAt n m e c + scaledAt n' m' e' c) :
    (S = 0 → addRound q M (.fin n m e) (.fin n' m' e') = (q.signed (sumZeroSign M n m n' m') 0, noKind)) ∧
    (S ≠ 0 → ∃ (k : Nat) (d : Int), addRound q M (.fin n m e) (.fin n' m' e') = q.round M (decide (S < 0)) k d ∧
      ∀ b : Int, b ≤ d → b ≤ c → k * 2 ^ (d - b).toNat = S.natAbs * 2 ^ (c - b).toNat) := by
  obtain ⟨hlow, hat⟩ := Dy.add_at (FVal.fin n m e).dy (FVal.fin n' m' e').dy hc hc'
  rw [← scaledAt_eq, ← scaledAt_eq, ← hS] at hat
  rw [addRound_numbers q M rfl rfl, sumRound_finite]
  generalize (FVal.fin n m e).dy.add (FVal.fin n' m' e').dy = x at hlow hat
  refine ⟨fun h0 => ?_, fun hne => ?_⟩
  · rw [FloatSpec.roundDy, if_pos (Dy.at_eq_zero.1 (hat.trans h0))]
  · have hx : x.m ≠ 0 := fun h => hne (hat.symm.trans (Dy.at_eq_zero.2 h))
    have hsign : decide (x.m < 0) = decide (S < 0) := decide_eq_decide.2 (by rw [← hat, Dy.at_neg_iff])
    refine ⟨x.m.natAbs, x.e, by rw [q.roundDy_of_ne M _ hx, hsign], fun b _ hbc => ?_⟩
    have hb := x.at_lower hbc hlow
    rw [hat, Dy.at] at hb
    simpa only [Int.natAbs_mul, Int.natAbs_natCast] using congrArg Int.natAbs hb

/-! ### Products and fused forms -/

theorem FloatSpec.roundDy_fin (q : FloatSpec) (M : RMode) (n : Bool) (m : Nat) (e : Int) :
    q.roundDy M n (FVal.fin n m e).dy = q.round M n m e := by
  by_cases hm : m = 0
  · subst hm
    have hzero : (FVal.fin n 0 e).dy.m = 0 := by cases n <;> rfl
    rw [FloatSpec.roundDy, if_pos hzero, FloatSpec.round, if_pos rfl]
  · have hne : (FVal.fin n m e).dy.m ≠ 0 := by
      intro h
      have := FVal.signedDy_natAbs n m e
      rw [← FVal.dy_fin, h] at this
      exact hm this.symm
    have hsign : decide ((FVal.fin n m e).dy.m < 0) = n := by
      rw [FVal.dy_fin, Bool.eq_iff_iff, decide_eq_true_iff, FVal.signedDy_neg n hm e]
    rw [q.roundDy_of_ne M _ hne, hsign, FVal.dy_fin, FVal.signedDy_natAbs]
    rfl

theorem mulRound_finite (q : FloatSpec) (M : RMode) (n : Bool) (m : Nat) (e : Int) (n' : Bool) (m' : Nat) (e' : Int) :
    mulRound q M (.fin n m e) (.fin n' m' e') = q.round M (n != n') (m * m') (e + e') := by
  rw [mulRound_numbers q M rfl rfl]
  exact q.roundDy_fin M (n != n') (m * m') (e + e')

theorem fmaRound_finite (q : FloatSpec) (M : RMode) (n : Bool) (m : Nat) (e : Int) (n' : Bool) (m' : Nat) (e' : Int)
    (n'' : Bool) (m'' : Nat) (e'' : Int) : fmaRound q M (.fin n m e) (.fin n' m' e') (.fin n'' m'' e'') =
      addRound q M (.fin (n != n') (m * m') (e + e')) (.fin n'' m'' e'') := by
  rw [fmaRound_numbers q M rfl rfl rfl, addRound_numbers q M rfl rfl]
  rfl

/-! ### Infinities (R145) -/

theorem sumRound_inf (q : FloatSpec) (M : RMode) {n : Bool} {y : FVal} (hnan : y.isNan = false) (hy : y ≠ .inf (!n)) :
    sumRound q M [.inf n, y] = (q.signed n q.infCode, noKind) ∧ sumRound q M [y, .inf n] = (q.signed n q.infCode, noKind) := by
  cases y with
  | nan => cases hnan
  | inf n' =>
    have hsame : n' = n := by
      cases n <;> cases n' <;> simp_all
    subst hsame
    cases n' <;> exact ⟨rfl, rfl⟩
  | fin => cases n <;> exact ⟨rfl, rfl⟩

theorem sumRound_opposed (q : FloatSpec) (M : RMode) (n : Bool) : sumRound q M [.inf n, .inf (!n)] = (q.defaultNan, kInvalid) := by
  cases n <;> rfl

/-- The product of an infinity and a number, either way round. -/
theorem times_inf (n : Bool) {y : FVal} (hy : y.isNan = false) :
    FVal.times (.inf n) y = (if y.isZero then none else some (.inf (n != y.isNeg))) ∧
    y.times (.inf n) = if y.isZero then none else some (.inf (n != y.isNeg)) := by
  cases y with
  | nan => cases hy
  | inf n' => cases n <;> cases n' <;> exact ⟨rfl, rfl⟩
  | fin n' m e => cases n <;> cases n' <;> exact ⟨rfl, rfl⟩

theorem mulRound_inf (q : FloatSpec) (M : RMode) (n : Bool) {y : FVal} (hy : y.isNan = false) {r : Nat × Kinds}
    (hr : r = if y.isZero then (q.defaultNan, kInvalid) else (q.signed (n != y.isNeg) q.infCode, noKind)) :
    mulRound q M (.inf n) y = r ∧ mulRound q M y (.inf n) = r := by
  obtain ⟨hleft, hright⟩ := times_inf n hy
  rw [mulRound_numbers q M rfl hy, mulRound_numbers q M hy rfl, hleft, hright, hr]
  cases y.isZero <;> exact ⟨rfl, rfl⟩

theorem fmaRound_inf (q : FloatSpec) (M : RMode) (n : Bool) {y z : FVal} (hy : y.isNan = false) (hz : z.isNan = false) {r : Nat × Kinds}
    (hr : r = if y.isZero then (q.defaultNan, kInvalid) else (q.signed (n != y.isNeg) q.infCode, noKind)) :
    (y.isZero = true → fmaRound q M (.inf n) y z = r ∧ fmaRound q M y (.inf n) z = r) ∧
    (y.isZero = false → z = .inf (!(n != y.isNeg)) → fmaRound q M (.inf n) y z = (q.defaultNan, kInvalid) ∧
      fmaRound q M y (.inf n) z = (q.defaultNan, kInvalid)) ∧
    (y.isZero = false → z ≠ .inf (!(n != y.isNeg)) → fmaRound q M (.inf n) y z = r ∧ fmaRound q M y (.inf n) z = r) := by
  obtain ⟨hleft, hright⟩ := times_inf n hy
  rw [fmaRound_numbers q M rfl hy hz, fmaRound_numbers q M hy rfl hz, hleft, hright, hr]
  refine ⟨fun h => ?_, fun h hopp => ?_, fun h hne => ?_⟩
  · rw [h]
    exact ⟨rfl, rfl⟩
  · rw [h, hopp]
    exact ⟨sumRound_opposed q M _, sumRound_opposed q M _⟩
  · rw [h]
    exact ⟨(sumRound_inf q M hz hne).1, (sumRound_inf q M hz hne).1⟩

/-! ### NaN operands (R113) -/

/-- The first NaN of the operands is delivered quieted. -/
theorem nanOf_first (q : FloatSpec) {pre post : List FVal} (hpre : ∀ x ∈ pre, x.isNan = false) (n u : Bool) (p w : Nat) :
    nanOf q (pre ++ .nan n u p w :: post) =
      some (q.nanResult n p w, if u = false ∨ post.any FVal.isSnan = true then kInvalid else noKind) := by
  have hfind : (pre ++ .nan n u p w :: post).find? FVal.isNan = some (.nan n u p w) := by
    rw [List.find?_append, List.find?_eq_none.2 fun x hx => by rw [hpre x hx]; exact Bool.false_ne_true]
    rfl
  have hany : (pre ++ .nan n u p w :: post).any FVal.isSnan = (!u || post.any FVal.isSnan) := by
    have hquiet : pre.any FVal.isSnan = false :=
      List.any_eq_false.2 fun x hx => by rw [FVal.isSnan_of_not_nan (hpre x hx)]; exact Bool.false_ne_true
    rw [List.any_append, hquiet, Bool.false_or, List.any_cons]
    rfl
  rw [nanOf, hfind, hany]
  cases u <;> simp

theorem computesAs : ComputesAs := by
  refine fun q M => ⟨fun n m e n' m' e' c S hc hc' hS => addRound_finite q M n m e n' m' e' hc hc' hS,
    fun n m e n' m' e' => ⟨mulRound_finite q M n m e n' m' e', fmaRound_finite q M n m e n' m' e'⟩,
    fun n y hnan hy => ?_, fun n => ?_, fun n y r hnan hr => ⟨?_, ?_, ?_⟩, fun n u p w y z k hk => ⟨?_, ?_⟩⟩
  · rw [addRound_numbers q M rfl hnan, addRound_numbers q M hnan rfl]
    exact sumRound_inf q M hnan hy
  · rw [addRound_numbers q M rfl rfl]
    exact sumRound_opposed q M n
  · exact (mulRound_inf q M n hnan hr).1
  · exact (mulRound_inf q M n hnan hr).2
  · exact fun z hz => fmaRound_inf q M n hnan hz hr
  · have hfirst := nanOf_first q (pre := []) (post := [y]) (fun x hx => absurd hx List.not_mem_nil) n u p w
    have hsecond := fun hy : y.isNan = false => nanOf_first q (pre := [y]) (post := []) (by simpa using hy) n u p w
    intro op hop
    have hop : op = addRound ∨ op = mulRound := by simpa using hop
    refine ⟨?_, fun hy => ?_⟩
    · rcases hop with rfl | rfl
      · rw [addRound, show nanOf q [.nan n u p w, y] = _ from hfirst, hk]
        simp
      · rw [mulRound, show nanOf q [.nan n u p w, y] = _ from hfirst, hk]
        simp
    · have hquiet := FVal.isSnan_of_not_nan hy
      rcases hop with rfl | rfl
      · rw [addRound, show nanOf q [y, .nan n u p w] = _ from hsecond hy, hk]
        simp [hquiet]
      · rw [mulRound, show nanOf q [y, .nan n u p w] = _ from hsecond hy, hk]
        simp [hquiet]
  · rintro k3 rfl
    refine ⟨?_, fun hy => ?_, fun hy hz => ?_⟩
    · have h := nanOf_first q (pre := []) (post := [y, z]) (fun x hx => absurd hx List.not_mem_nil) n u p w
      rw [fmaRound, show nanOf q [.nan n u p w, y, z] = _ from h]
      simp
    · have h := nanOf_first q (pre := [y]) (post := [z]) (by simpa using hy) n u p w
      rw [fmaRound, show nanOf q [y, .nan n u p w, z] = _ from h]
      simp [FVal.isSnan_of_not_nan hy]
    · have h := nanOf_first q (pre := [y, z]) (post := []) (by simpa using ⟨hy, hz⟩) n u p w
      rw [fmaRound, show nanOf q [y, z, .nan n u p w] = _ from h]
      simp [FVal.isSnan_of_not_nan hy, FVal.isSnan_of_not_nan hz]

/-! ### Signs of elements (R147) -/

theorem signBits_of_lt {g : Fmt} (hg : 1 ≤ g.width) {x : Nat} (hx : x < 2 ^ g.width) :
    signBits g x = x / 2 ^ (g.width - 1) * 2 ^ (g.width - 1) := by
  have htop : x / 2 ^ (g.width - 1) < 2 := by
    rw [Nat.div_lt_iff_lt_mul (Nat.two_pow_pos _), Nat.mul_comm, ← Nat.pow_succ, Nat.succ_eq_add_one, Nat.sub_add_cancel hg]
    exact hx
  rw [signBits, Nat.mod_eq_of_lt htop]

/-- Inverting the sign bit is an addition in the element's width. -/
theorem negated_mod {g : Fmt} (hg : 1 ≤ g.width) {x : Nat} (hx : x < 2 ^ g.width) :
    (magBits g x + (2 ^ (g.width - 1) - signBits g x)) % 2 ^ g.width = (x + 2 ^ (g.width - 1)) % 2 ^ g.width := by
  have hw : 2 ^ g.width = 2 * 2 ^ (g.width - 1) := by
    rw [← Nat.pow_succ', Nat.succ_eq_add_one, Nat.sub_add_cancel hg]
  have hsplit := Nat.div_add_mod x (2 ^ (g.width - 1))
  have htop : x / 2 ^ (g.width - 1) < 2 := by
    rw [Nat.div_lt_iff_lt_mul (Nat.two_pow_pos _), ← hw]
    exact hx
  have hmag : x % 2 ^ (g.width - 1) < 2 ^ (g.width - 1) := Nat.mod_lt _ (Nat.two_pow_pos _)
  rw [signBits_of_lt hg hx, magBits, hw]
  generalize 2 ^ (g.width - 1) = H at *
  interval_cases hq : x / H
  · simp only [Nat.mul_zero, Nat.zero_add] at hsplit
    simp [hsplit]
  · have hsum : x + H = x % H + 2 * H := by omega
    rw [hsum, Nat.add_mod_right, Nat.one_mul, Nat.sub_self, Nat.add_zero]

theorem givesV_of_fpV {s : State} {i : Issue} {f : CForm} {g : Fmt} (hi : InIssue s i) (hsound : Sound s f) (hfmt : s.fpFmt f = some g)
    {x y : Instr} {k lat : Nat} (op : FloatSpec → FVal → FVal → FVal → Nat × Kinds)
    (hx : slotMeaning x s = some (fpV y f k lat op s)) : GivesV s i f x lat g.width k fun n j =>
      op g.spec (g.spec.decode (srcA s f g n j)) (g.spec.decode (srcB s f g n j)) (g.spec.decode (srcC s f g n j)) := by
  rw [fpV, hfmt] at hx
  exact givesV_of_vecV hi hsound (State.fpFmt_laneWidth hfmt) hx fun _ _ => ⟨rfl, rfl⟩

theorem givesV_of_fpBits {s : State} {i : Issue} {f : CForm} {g : Fmt} (hi : InIssue s i) (hsound : Sound s f) (hfmt : s.fpFmt f = some g)
    {x y : Instr} {k lat : Nat} (op : Fmt → Nat → Nat → Nat → Nat × Kinds) {val : Nat → Nat → Nat × Kinds}
    (hx : slotMeaning x s = some (vecV y f k lat (s.fpFmt f) op s))
    (hval : ∀ n j : Nat, (op g (srcA s f g n j) (srcB s f g n j) (srcC s f g n j)).1 % 2 ^ g.width = (val n j).1 % 2 ^ g.width ∧
      (op g (srcA s f g n j) (srcB s f g n j) (srcC s f g n j)).2 = (val n j).2) : GivesV s i f x lat g.width k val := by
  rw [hfmt] at hx
  exact givesV_of_vecV hi hsound (State.fpFmt_laneWidth hfmt) hx hval

/-- Settles O34: each instruction by its operation on elements, and the operations by what they compute. -/
theorem cellFloatResults : Obligations.CellFloatResults := by
  refine ⟨computesAs, ?_⟩
  rintro s i f g hi hsound hfmt q M rfl rfl A B C rfl rfl rfl V R
  have hone : 1 ≤ g.width := by rcases State.fpFmt_laneWidth hfmt with h | h | h <;> omega
  refine ⟨?_, ?_, ?_, ?_, ?_, ?_, ?_, ?_, ?_, ?_, ?_, ?_, ?_, ?_, ?_, ?_, ?_⟩
  · exact givesV_of_fpV hi hsound hfmt (fun q a b _ => addRound q (cMode f) a b) rfl
  · exact givesV_of_fpV hi hsound hfmt (fun q a b _ => addRound q (cMode f) a (if b.isNan then b else b.negate)) rfl
  · exact givesV_of_fpV hi hsound hfmt (fun q a b _ => mulRound q (cMode f) a b) rfl
  · exact givesV_of_fpV hi hsound hfmt (fun q a b c => fmaRound q (cMode f) a b c) rfl
  · exact givesV_of_fpV hi hsound hfmt (fun q a b c => fmaRound q (cMode f) a b c.negate) rfl
  · exact givesV_of_fpV hi hsound hfmt (fun q a b c => fmaRound q (cMode f) a.negate b c) rfl
  · exact givesV_of_fpBits hi hsound hfmt (fun g a b _ => minmax g.spec false a b) rfl fun _ _ => ⟨rfl, rfl⟩
  · exact givesV_of_fpBits hi hsound hfmt (fun g a b _ => minmax g.spec true a b) rfl fun _ _ => ⟨rfl, rfl⟩
  · exact givesV_of_fpBits hi hsound hfmt (fun g a _ _ => (magBits g a, noKind)) rfl fun _ _ => ⟨rfl, rfl⟩
  · exact givesV_of_fpBits hi hsound hfmt (fun g a _ _ => (magBits g a + (2 ^ (g.width - 1) - signBits g a), noKind)) rfl
      fun _ _ => ⟨negated_mod hone (elemN_lt _ _ _), rfl⟩
  · exact givesV_of_fpBits hi hsound hfmt (fun g a b _ => (magBits g a + signBits g b, noKind)) rfl
      fun _ _ => ⟨congrArg (fun z => (_ + z) % _) (signBits_of_lt hone (elemN_lt _ _ _)), rfl⟩
  · exact givesV_of_fpBits hi hsound hfmt (fun g a _ _ => vrndElem g.spec (cMode f) a) rfl fun _ _ => ⟨rfl, rfl⟩
  · exact givesV_of_fpBits hi hsound hfmt (fun g a _ _ => vexfElem g.spec (cMode f) a) rfl fun _ _ => ⟨rfl, rfl⟩
  · exact givesV_of_fpBits hi hsound hfmt (fun g a _ _ => vlgfElem g.spec (cMode f) a) rfl fun _ _ => ⟨rfl, rfl⟩
  · exact givesV_of_fpBits hi hsound hfmt (fun g a _ _ => vrcpfElem g.spec (cMode f) a) rfl fun _ _ => ⟨rfl, rfl⟩
  · exact givesV_of_fpBits hi hsound hfmt (fun g a _ _ => vrsqfElem g.spec (cMode f) a) rfl fun _ _ => ⟨rfl, rfl⟩
  · exact givesV_of_fpBits hi hsound hfmt (fun g a b _ => vsclElem g.spec (cMode f) a b) rfl fun _ _ => ⟨rfl, rfl⟩

end Sys2Proof.Machine
end

section
/-! SUPPORT. Conversions, packing and unpacking (R157 to R160), and the statement about them. -/

namespace Sys2Proof.Machine

open Sys2Proof.Claims

/-! ### Widths of the formats -/

theorem Fmt.laneWidth_of_ne {g : Fmt} (h : g.width ≠ 4) : LaneWidth g.width := by
  cases g <;> first | exact absurd rfl h | exact .inl rfl | exact .inr (.inl rfl) | exact .inr (.inr rfl)

/-! ### Records of several registers -/

theorem gatedItem_add (lanes : BitVec 16) (a b : Nat) : Alike (gatedItem lanes (a + b)) (gatedItem lanes a ++ gatedItem lanes b) := by
  intro q _
  by_cases ha : a = 0 <;> by_cases hb : b = 0 <;> by_cases h7 : 7 = q <;>
    simp [gatedItem, ha, hb, h7, kindCount_cons, kindLane_cons]

/-- A read counted for each of `k` results. -/
theorem gatedRead_mul (y : Cell) (r : Nat) (lanes : BitVec 16) (k c : Nat) :
    Alike (y.gatedRead r lanes (k * c)) ((List.range k).map fun _ => y.gatedRead r lanes c).flatten := by
  unfold Cell.gatedRead
  split
  · induction k with
    | zero => simpa [gatedItem] using Alike.refl []
    | succ k ih =>
      rw [Nat.succ_mul, List.range_succ, List.map_append, List.flatten_append]
      refine (gatedItem_add lanes (k * c) c).trans (ih.append ?_)
      simpa using Alike.refl _
  · induction k with
    | zero => exact Alike.refl []
    | succ k ih =>
      rw [List.range_succ, List.map_append, List.flatten_append]
      simpa using ih

theorem alike_flatten_append {α : Type} (f g : α → List EvItem) (as : List α) :
    Alike ((as.map f).flatten ++ (as.map g).flatten) (as.map fun a => f a ++ g a).flatten := by
  induction as with
  | nil => exact Alike.refl []
  | cons a as ih =>
    intro q hq
    obtain ⟨hcount, hlane⟩ := ih q hq
    simp only [List.map_cons, List.flatten_cons, kindCount_append, kindLane_append] at hcount hlane ⊢
    refine ⟨by omega, fun l hl => ?_⟩
    rw [← hlane l hl]
    cases kindLane q l (f a) <;> cases kindLane q l (g a) <;> simp

/-- Elements sorted by a key below `n` are the elements. -/
theorem perm_flatMap_key {α β : Type} (F : α → List β) (key : α → Nat) {n : Nat} (xs : List α) (h : ∀ x ∈ xs, key x < n) :
    ((List.range n).flatMap fun q => (xs.filter fun x => key x == q).flatMap F).Perm (xs.flatMap F) := by
  induction xs with
  | nil => simp
  | cons x xs ih =>
    have hone : ∀ ks : List Nat, ks.Nodup → (ks.flatMap fun q => if key x == q then F x else []) =
        if key x ∈ ks then F x else [] := by
      intro ks
      induction ks with
      | nil => exact fun _ => rfl
      | cons k ks ih =>
        intro hks
        obtain ⟨hk, hks'⟩ := List.nodup_cons.1 hks
        rw [List.flatMap_cons, ih hks']
        by_cases hx : key x = k
        · subst hx
          simp [hk]
        · simp [hx]
    have hsplit : ∀ q, ((x :: xs).filter fun x => key x == q).flatMap F =
        (if key x == q then F x else []) ++ (xs.filter fun x => key x == q).flatMap F := by
      intro q
      rw [List.filter_cons]
      split <;> rfl
    simp only [hsplit]
    refine (List.flatMap_append_perm (List.range n) _ _).symm.trans ?_
    rw [hone _ List.nodup_range, if_pos (List.mem_range.2 (h x List.mem_cons_self)), List.flatMap_cons]
    exact (ih fun y hy => h y (List.mem_cons_of_mem _ hy)).append_left _

/-! ### VPACK (R160) -/

variable {s : State} {i : Issue} {f : CForm} {src dst : Fmt}

/-- The reads of gated registers of a VPACK, register by register. -/
def packGated (f : CForm) (src dst : Fmt) (y : Cell) : List (List EvItem) :=
  (List.range (src.width / dst.width)).map fun q =>
    let sel := (selectedElems dst.width (y.lane f)).filter fun i => i / elemsOf src.width == q
    if f.as_ = 0 then y.gatedRead (f.a.toNat + q) (laneUnion (sel.map (laneOf dst.width))) sel.length else []

/-- One element of a VPACK. -/
def packElem (f : CForm) (src dst : Fmt) (k : Core) (c i : Nat) : Nat × Kinds :=
  convert src dst (cMode f) (elemN (nth 0 (vpackSource k c f (src.width / dst.width)) (i / elemsOf src.width)) src.width
    (i % elemsOf src.width))

/-- What a VPACK gives a cell. -/
def packOut (x : Ctx) (f : CForm) (src dst : Fmt) (k : Core) (c : Nat) : CellOut :=
  let m := (k.cell c).lane f
  let r := mapLanes dst.width m (packElem f src dst k c)
  { lands := [x.toV f.d.toNat 3 r.1 (laneBits dst.width m)]
    evs := mergeItems (r.2 ++ (packGated f src dst (k.cell c)).flatten) }

theorem packOut_like (x : Ctx) (f : CForm) (src dst : Fmt) {k k0 : Core} (h : k.Like k0) (n : Nat) :
    packOut x f src dst k n = packOut x f src dst k0 n := by
  have helem : packElem f src dst k n = packElem f src dst k0 n := by
    funext i
    simp only [packElem, vpackSource, h.row, h.vreg]
  simp only [packOut, packGated, helem, h.lane, h.gatedRead]

theorem gatedBy_eq_flatMap (s : State) (w n r : Nat) (js : List Nat) : gatedBy s w n r js = js.flatMap fun j => gatedBy s w n r [j] := by
  unfold gatedBy
  split
  · rw [List.map_eq_flatMap]
    rfl
  · simp

/-- The gated reads of a VPACK, element by element. -/
theorem alike_packGated {n : Nat} (hfit : ∀ j ∈ picked s f dst.width n, j / elemsOf src.width < src.width / dst.width)
    (has : f.as_ = 0) : Alike (packGated f src dst (s.cc.cell n)).flatten
      (itemsOf ((picked s f dst.width n).map fun j => gatedBy s dst.width n (f.a.toNat + j / elemsOf src.width) [j]).flatten) := by
  have hreg : ∀ q, Alike ((s.cc.cell n).gatedRead (f.a.toNat + q)
      (laneUnion (((picked s f dst.width n).filter fun i => i / elemsOf src.width == q).map (laneOf dst.width)))
      ((picked s f dst.width n).filter fun i => i / elemsOf src.width == q).length)
      (itemsOf (gatedBy s dst.width n (f.a.toNat + q) ((picked s f dst.width n).filter fun i => i / elemsOf src.width == q))) := by
    intro q
    rw [itemsOf_gatedBy, Cell.gatedRead]
    split
    · refine alike_gatedItem fun l hl => ?_
      rw [laneUnion, getLsbD_laneUnion hl, List.any_map]
      simp only [BitVec.ofNat_eq_ofNat, BitVec.getLsbD_zero, Bool.false_or]
      rfl
    · exact Alike.refl []
  have hparts : (packGated f src dst (s.cc.cell n)).flatten = ((List.range (src.width / dst.width)).map fun q =>
      (s.cc.cell n).gatedRead (f.a.toNat + q)
        (laneUnion (((picked s f dst.width n).filter fun i => i / elemsOf src.width == q).map (laneOf dst.width)))
        ((picked s f dst.width n).filter fun i => i / elemsOf src.width == q).length).flatten := by
    simp only [packGated, if_pos has]
    rfl
  rw [hparts]
  refine (Alike.flatten_map fun q _ => hreg q).trans ?_
  have hsame : ∀ q, gatedBy s dst.width n (f.a.toNat + q) ((picked s f dst.width n).filter fun i => i / elemsOf src.width == q) =
      ((picked s f dst.width n).filter fun i => i / elemsOf src.width == q).flatMap fun j =>
        gatedBy s dst.width n (f.a.toNat + j / elemsOf src.width) [j] := by
    intro q
    rw [gatedBy_eq_flatMap]
    refine List.flatMap_congr fun j hj => ?_
    rw [beq_iff_eq.1 (List.mem_filter.1 hj).2]
  have hperm := perm_flatMap_key (fun j => gatedBy s dst.width n (f.a.toNat + j / elemsOf src.width) [j])
    (fun j => j / elemsOf src.width) (picked s f dst.width n) hfit
  have hall := alike_itemsOf_perm hperm
  rw [← List.flatMap_def]
  simp only [← hsame, List.flatMap_def, itemsOf_flatten, List.map_map] at hall ⊢
  exact hall

theorem itemsValid_packGated {n : Nat} (hw : LaneWidth dst.width) : ItemsValid (packGated f src dst (s.cc.cell n)).flatten := by
  refine itemsValid_flatten fun xs hxs => ?_
  obtain ⟨q, -, rfl⟩ := List.mem_map.1 hxs
  dsimp only
  split
  · refine itemsValid_gatedRead _ _ fun hne => ?_
    obtain ⟨j, hj⟩ := List.exists_mem_of_ne_nil _ fun h => hne (List.length_eq_zero_iff.2 h)
    have hlane := hw.lane_lt (mem_selectedElems.1 (List.mem_filter.1 hj).1).1
    refine ne_zero_of_getLsbD (l := laneAt dst.width j) ?_
    rw [laneUnion, getLsbD_laneUnion hlane, Bool.or_eq_true, List.any_eq_true]
    exact .inr ⟨_, List.mem_map_of_mem hj, beq_self_eq_true _⟩
  · exact fun e he => absurd he List.not_mem_nil

/-- VPACK narrows the elements of consecutive registers or rows. -/
theorem gives_vpack (hi : InIssue s i) (hsound : Sound s f) (hsrc : Fmt.ofCode f.fp1.toNat = some src)
    (hdst : Fmt.ofCode f.fp2.toNat = some dst) (hw : LaneWidth dst.width)
    (hratio : dst.width * 2 = src.width ∨ (dst.width * 4 = src.width ∧ f.as_ ≠ 8)) {out : Nat → Nat → Nat × Kinds}
    (hout : ∀ n j : Nat, j / elemsOf src.width < src.width / dst.width → packElem f src dst s.cc n j = out n j) :
    Gives s i f (.vpack f) (OneV s f 3 dst.width fun n j => (out n j).1) fun n =>
      itemsOf ((picked s f dst.width n).map fun j => (laneAt dst.width j, (out n j).2)) ++
      if f.as_ = 0 then itemsOf ((picked s f dst.width n).map fun j =>
        gatedBy s dst.width n (f.a.toNat + j / elemsOf src.width) [j]).flatten
      else [] := by
  have hsrc' : (Fmt.ofCode f.fp1.toNat).getD .fp32 = src := by rw [hsrc]; rfl
  have hdst' : (Fmt.ofCode f.fp2.toNat).getD .fp16 = dst := by rw [hdst]; rfl
  have hx : ∃ u : CellUse, slotMeaning (.vpack f) s = some (plainSlot (.vpack f) u (fun t => t.cellsDo u.cells
      (packOut s.cx f ((Fmt.ofCode f.fp1.toNat).getD .fp32) ((Fmt.ofCode f.fp2.toNat).getD .fp16))) s) ∧ u.form = f ∧
      u.entries = fun _ => [] := ⟨_, rfl, rfl, rfl⟩
  rw [hsrc', hdst'] at hx
  obtain ⟨u, hx, hform, hentries⟩ := hx
  have hfit : ∀ j, j < 256 / dst.width → j / elemsOf src.width < src.width / dst.width := by
    intro j hj
    rw [elemsOf]
    rcases hratio with h | ⟨h, -⟩ <;> rw [← h]
    all_goals rcases hw with h' | h' | h' <;> rw [h'] at hj ⊢
    all_goals
      norm_num at hj ⊢
      omega
  refine gives_plain hi hx hform (consumed_of_sound hsound hform fun n _ p hp => ?_) (fun _ _ _ _ => rfl)
    (fun k n h => packOut_like _ _ _ _ h n) (fun n _ => oneV_accept hw _ fun j hj hm => ?_) fun n _ => ?_
  · rw [hentries] at hp
    exact absurd hp List.not_mem_nil
  · exact (mapLanes_elem hw _ hj hm).trans (by rw [hout n j (hfit j hj)])
  · refine ⟨itemsValid_mergeItems ((itemsValid_mapLanes hw _ _).append (itemsValid_packGated hw)), ?_⟩
    refine (alike_mergeItems _).trans (Alike.append ?_ ?_)
    · have halike := alike_mapLanes dst.width (maskIn s f n) (packElem f src dst s.cc n)
      rw [selectedElems_maskIn] at halike
      rwa [List.map_congr_left (g := fun j => (laneAt dst.width j, (out n j).2)) fun j hj => by
        rw [hout n j (hfit j (mem_selectedElems.1 hj).1)]] at halike
    · split
      next has => exact alike_packGated (fun j hj => hfit j (mem_selectedElems.1 hj).1) has
      next has =>
        have hnone : (packGated f src dst (s.cc.cell n)).flatten = [] := by
          rw [List.flatten_eq_nil_iff]
          intro xs hxs
          obtain ⟨q, -, rfl⟩ := List.mem_map.1 hxs
          exact if_neg has
        exact hnone ▸ Alike.refl []

/-! ### VUNPK (R159) -/

theorem indexed_map_range {α : Type} (F : Nat → α) (n : Nat) :
    indexed 0 ((List.range n).map F) = (List.range n).map fun q => (q, F q) := by
  have hget : ∀ (xs : List α) (k q : Nat), (indexed k xs)[q]? = xs[q]?.map fun a => (k + q, a) := by
    intro xs
    induction xs with
    | nil => exact fun _ _ => rfl
    | cons x xs ih =>
      intro k q
      cases q with
      | zero => rfl
      | succ q =>
        rw [indexed, List.getElem?_cons_succ, ih, List.getElem?_cons_succ, Nat.add_right_comm, Nat.add_assoc]
  refine List.ext_getElem? fun q => ?_
  rw [hget]
  by_cases hq : q < n <;> simp [hq]

/-- The elements of one register of a VUNPK. -/
def unpackElem (f : CForm) (src dst : Fmt) (k : Core) (c q j : Nat) : Nat × Kinds :=
  vunpkElem k c f.ta.toNat src dst (cMode f) (k.source c f.as_ f.a f.ta 0) (q * elemsOf dst.width + j)

/-- What a VUNPK gives a cell. -/
def unpackOut (x : Ctx) (f : CForm) (src dst : Fmt) (k : Core) (c : Nat) : CellOut :=
  let m := (k.cell c).lane f
  let n := unpackRatio src dst
  let rs := (List.range n).map fun q => mapLanes dst.width m (unpackElem f src dst k c q)
  let gated := if f.as_ = 0 then
    (k.cell c).gatedRead f.a.toNat (lanesOf dst.width m) (n * (selectedElems dst.width m).length) else []
  { lands := (indexed 0 rs).map fun r => x.toV (f.d.toNat + r.1) 3 r.2.1 (laneBits dst.width m)
    evs := mergeItems ((rs.map fun r => r.2).flatten ++ gated) }

theorem unpackOut_like (x : Ctx) (f : CForm) (src dst : Fmt) {k k0 : Core} (h : k.Like k0) (n : Nat) :
    unpackOut x f src dst k n = unpackOut x f src dst k0 n := by
  have helem : unpackElem f src dst k n = unpackElem f src dst k0 n := by
    funext q j
    simp only [unpackElem, vunpkElem, h.source, h.scaleByte]
  simp only [unpackOut, helem, h.lane, h.gatedRead]

theorem unpackOut_lands (x : Ctx) (f : CForm) (src dst : Fmt) (k : Core) (c : Nat) :
    (unpackOut x f src dst k c).lands = (List.range (unpackRatio src dst)).map fun q =>
      x.toV (f.d.toNat + q) 3 (mapLanes dst.width ((k.cell c).lane f) (unpackElem f src dst k c q)).1
        (laneBits dst.width ((k.cell c).lane f)) := by
  rw [unpackOut]
  dsimp only
  rw [indexed_map_range, List.map_map]
  rfl

theorem unpackOut_accept (y : Cell) (x : Ctx) (f : CForm) (src dst : Fmt) (k : Core) (c : Nat) :
    y.accept (unpackOut x f src dst k c) = { y with land := y.land ++ (unpackOut x f src dst k c).lands } :=
  Cell.accept_lands y _ fun e he => by
    obtain ⟨r, -, rfl⟩ := List.mem_map.1 he
    rfl

theorem regsOf_one (f : CForm) : regsOf f 1 = if f.as_ = 0 then [f.a.toNat] else [] := by
  simp [regsOf]

/-- The gated reads of a VUNPK are those of each of its registers. -/
theorem alike_unpackGated (y : Cell) (f : CForm) (n w : Nat) (m : BitVec 16) :
    Alike (if f.as_ = 0 then y.gatedRead f.a.toNat (lanesOf w m) (n * (selectedElems w m).length) else [])
      ((List.range n).map fun _ => y.gatedReads (regsOf f 1) w m).flatten := by
  rw [regsOf_one, Cell.gatedReads]
  split
  · simpa using gatedRead_mul y f.a.toNat (lanesOf w m) n (selectedElems w m).length
  · simpa using Alike.refl []

theorem itemsValid_unpackGated (y : Cell) (f : CForm) (n : Nat) {w : Nat} (hw : LaneWidth w) (m : BitVec 16) :
    ItemsValid (if f.as_ = 0 then y.gatedRead f.a.toNat (lanesOf w m) (n * (selectedElems w m).length) else []) := by
  split
  · exact itemsValid_gatedRead y _ fun hne => lanesOf_ne_zero hw fun h0 => hne (by rw [h0]; exact Nat.mul_zero n)
  · exact fun e he => absurd he List.not_mem_nil

/-- VUNPK widens the elements of one register or row into consecutive registers. -/
theorem gives_vunpk (hi : InIssue s i) (hsound : Sound s f) (hsrc : vunpkFmt f s = some src)
    (hcode : f.fp1 = 12 ∨ Fmt.ofCode f.fp1.toNat = some src) (hdst : Fmt.ofCode f.fp2.toNat = some dst) (hw : LaneWidth dst.width) :
    Gives s i f (.vunpk f) (fun n y => ∃ es : List CellLanding, y = gaining s n es ∧ es.length = unpackRatio src dst ∧
      ∀ (q : Nat) (e : CellLanding), es[q]? = some e →
        ToV s (f.d.toNat + q) 3 dst.width (maskIn s f n) (fun j => (unpackElem f src dst s.cc n q j).1) e) fun n =>
      ((List.range (unpackRatio src dst)).map fun q =>
        elementEvents s f dst.width (regsOf f 1) (fun n j => (unpackElem f src dst s.cc n q j).2) n).flatten := by
  have hsrc' : (if f.fp1 = 12 then vunpkFmt f s else Fmt.ofCode f.fp1.toNat).getD .fp16 = src := by
    split
    next => rw [hsrc]; rfl
    next h => rw [hcode.resolve_left h]; rfl
  have hdst' : (Fmt.ofCode f.fp2.toNat).getD .fp32 = dst := by rw [hdst]; rfl
  have hx : ∃ u : CellUse, slotMeaning (.vunpk f) s = some (plainSlot (.vunpk f) u (fun t => t.cellsDo u.cells
      (unpackOut s.cx f ((if f.fp1 = 12 then vunpkFmt f s else Fmt.ofCode f.fp1.toNat).getD .fp16)
        ((Fmt.ofCode f.fp2.toNat).getD .fp32))) s) ∧ u.form = f ∧ u.entries = fun y => y.taken [f.as_] := ⟨_, rfl, rfl, rfl⟩
  rw [hsrc', hdst'] at hx
  obtain ⟨u, hx, hform, hentries⟩ := hx
  refine gives_plain hi hx hform (consumed_of_sound hsound hform fun n hn => by
      rw [hentries]
      exact taken_sound hsound hn _) (fun _ _ _ _ => rfl)
    (fun k n h => unpackOut_like _ _ _ _ h n) (fun n _ => ⟨_, unpackOut_accept _ _ _ _ _ _ _, ?_, fun q e he => ?_⟩) fun n _ => ?_
  · rw [unpackOut_lands, List.length_map, List.length_range]
  · rw [unpackOut_lands, List.getElem?_map] at he
    obtain ⟨q', hq', rfl⟩ := Option.map_eq_some_iff.1 he
    obtain ⟨hlt, rfl⟩ := List.getElem?_eq_some_iff.1 hq'
    rw [List.getElem_range]
    exact toV_masked hw fun j hj hm => mapLanes_elem hw _ hj hm
  · refine ⟨itemsValid_mergeItems (ItemsValid.append ?_ (itemsValid_unpackGated _ _ _ hw _)), ?_⟩
    · refine itemsValid_flatten fun xs hxs => ?_
      obtain ⟨r, hr, rfl⟩ := List.mem_map.1 hxs
      obtain ⟨q, -, rfl⟩ := List.mem_map.1 hr
      exact itemsValid_mapLanes hw _ _
    · refine (alike_mergeItems _).trans ((Alike.append (Alike.refl _) (alike_unpackGated _ _ _ _ _)).trans ?_)
      rw [List.map_map]
      refine (alike_flatten_append _ _ _).trans (Alike.flatten_map fun q _ => ?_)
      rw [elementEvents, itemsOf_append]
      exact (alike_mapLanes dst.width (maskIn s f n) _).append (alike_gatedReads hw _)

/-- Settles O37: each conversion by what it gives its elements, from one register, from several or into several. -/
theorem cellConversionResults : Obligations.CellConversionResults := by
  intro s i f hi hsound src dst hdst hne
  have hw := Fmt.laneWidth_of_ne hne
  refine ⟨fun hsrc hwidth => ?_, fun hsrc hratio => ?_, fun hsrc hcode => ?_⟩
  · have hdst' : (Fmt.ofCode f.fp2.toNat).getD .fp32 = dst := by rw [hdst]; rfl
    have hx : slotMeaning (.vcvt f) s = some (vecV (.vcvt f) f 1 3 (vcvtFmt f s)
      (fun g a _ _ => convert g ((Fmt.ofCode f.fp2.toNat).getD .fp32) (cMode f) a) s) := rfl
    rw [hsrc, hdst'] at hx
    rw [← hwidth] at hw ⊢
    exact givesV_of_vecV hi hsound hw hx fun _ _ => ⟨rfl, rfl⟩
  · refine gives_vpack hi hsound hsrc hdst hw hratio fun n j hj => ?_
    rw [packElem, vpackSource]
    rw [elemsOf] at hj ⊢
    split
    next has =>
      have htwo : src.width / dst.width = 2 := by
        rw [← hratio.resolve_right fun h => h.2 has]
        exact Nat.mul_div_cancel_left 2 (by rcases hw with h | h | h <;> omega)
      rw [htwo] at hj
      interval_cases hq : j / (256 / src.width) <;> rfl
    next => rw [nth_map_range _ _ hj]; rfl
  · exact gives_vunpk hi hsound hsrc hcode hdst hw

end Sys2Proof.Machine
end

section
/-! SUPPORT. Permutation, broadcast, the reductions and sparsification (R161 to R166), and the statement about them. -/

namespace Sys2Proof.Machine

open Sys2Proof.Claims

variable {s : State} {i : Issue} {f : CForm} {g : Fmt} {w : Nat}

/-! ### Instructions whose sources are registers -/

/-- An instruction that reads registers gives each selected cell what `out` says, and notes what its elements raise beside its
gated reads. -/
theorem gives_of_registers (hi : InIssue s i) (hsound : Sound s f) {x y : Instr} {u : CellUse} {out : Core → Nat → CellOut}
    {P : Nat → Cell → Prop} {I : Nat → List EvItem}
    (hx : slotMeaning x s = some (plainSlot y u (fun s => s.cellsDo u.cells out) s)) (hform : u.form = f)
    (hentries : u.entries = fun _ => []) (hnow : ∀ k c, (out k c).now = id)
    (hlike : ∀ (k : Core) (n : Nat), k.Like s.cc → out k n = out s.cc n)
    (hP : ∀ n : Nat, P n ((s.cc.cell n).accept (out s.cc n))) (hI : ∀ n : Nat, SameEvents (out s.cc n).evs (I n)) :
    Gives s i f x P I := by
  refine gives_plain hi hx hform (consumed_of_sound hsound hform fun n _ => ?_) (fun k c z t => ?_) hlike (fun n _ => hP n) fun n _ => hI n
  · rw [hentries]
    exact fun _ hp => absurd hp List.not_mem_nil
  · rw [hnow]
    rfl

/-! ### VPERM and VBCAST (R161, R162) -/

/-- What a VPERM gives a cell. -/
def permOut (x : Ctx) (f : CForm) (w : Nat) (k : Core) (c : Nat) : CellOut :=
  let m := (k.cell c).lane f
  let r := mapLanes w m fun j =>
    (elemN ((k.cell c).vreg f.a.toNat) w (elemN ((k.cell c).vreg f.b.toNat) w j % elemsOf w), noKind)
  { lands := [x.toV f.d.toNat 2 r.1 (laneBits w m)], evs := mergeItems ((k.cell c).gatedReads [f.a.toNat, f.b.toNat] w m) }

theorem permOut_like (x : Ctx) (f : CForm) (w : Nat) {k k0 : Core} (h : k.Like k0) (n : Nat) :
    permOut x f w k n = permOut x f w k0 n := by
  simp only [permOut, h.lane, h.vreg, h.gatedReads]

theorem gives_vperm (hi : InIssue s i) (hsound : Sound s f) (hw : LaneWidth (plainWidth f.fp1.toNat)) :
    Gives s i f (.vperm f) (OneV s f 2 (plainWidth f.fp1.toNat) fun n j =>
      elemN ((s.cc.cell n).vreg f.a.toNat) (plainWidth f.fp1.toNat)
        (elemN ((s.cc.cell n).vreg f.b.toNat) (plainWidth f.fp1.toNat) j % (256 / plainWidth f.fp1.toNat)))
      (elementEvents s f (plainWidth f.fp1.toNat) [f.a.toNat, f.b.toNat] fun _ _ => noKind) :=
  gives_of_registers hi hsound (x := .vperm f) (y := .vperm f) (out := permOut s.cx f (plainWidth f.fp1.toNat)) rfl rfl rfl
    (fun _ _ => rfl) (fun _ n h => permOut_like _ _ _ h n)
    (fun _ => oneV_accept hw _ fun _ hj hm => mapLanes_elem hw _ hj hm) fun _ => sameEvents_reads hw _

/-- What a VBCAST gives a cell: the lane of `lw` bits that it names, in every lane. -/
def bcastOut (x : Ctx) (f : CForm) (w lw : Nat) (k : Core) (c : Nat) : CellOut :=
  let m := (k.cell c).lane f
  let v := elemN ((k.cell c).vreg f.a.toNat) lw f.im.toNat
  { lands := [x.toV f.d.toNat 2 (joinElems 256 lw (List.replicate (elemsOf lw) v)) (laneBits w m)]
    evs := mergeItems ((k.cell c).gatedReads [f.a.toNat] w m) }

theorem bcastOut_like (x : Ctx) (f : CForm) (w lw : Nat) {k k0 : Core} (h : k.Like k0) (n : Nat) :
    bcastOut x f w lw k n = bcastOut x f w lw k0 n := by
  simp only [bcastOut, h.lane, h.vreg, h.gatedReads]

/-- The lanes of a broadcast: those of the elements, but that bytes go by pairs. -/
def castWidth (w : Nat) : Nat := if w = 32 then 32 else 16

/-- An element within a wider one. -/
theorem elemN_within {n : Nat} (x : BitVec n) {w lw j : Nat} (hsplit : w * j = lw * (w * j / lw) + w * j % lw)
    (hfit : w * j % lw + w ≤ lw) : elemN x w j = elemN x lw (w * j / lw) / 2 ^ (w * j % lw) % 2 ^ w := by
  rw [elemN_eq, elemN_eq, mod_two_pow_field hfit, Nat.div_div_eq_div_mul, ← Nat.pow_add, ← hsplit]

theorem elemN_broadcast {j : Nat} (hw : LaneWidth w) (hj : j < 256 / w) {v : Nat} (hv : v < 2 ^ castWidth w) :
    elemN (joinElems 256 (castWidth w) (List.replicate (elemsOf (castWidth w)) v) : Row) w j = v / 2 ^ (w * j % castWidth w) % 2 ^ w := by
  have hbounds : w * j % castWidth w + w ≤ castWidth w ∧ w * j / castWidth w < elemsOf (castWidth w) ∧
      castWidth w * (w * j / castWidth w) + castWidth w ≤ 256 := by
    rcases hw with rfl | rfl | rfl <;> simp only [castWidth, elemsOf] <;> norm_num <;> omega
  obtain ⟨hfit, hlane, hrow⟩ := hbounds
  rw [elemN_within _ (Nat.div_add_mod _ _).symm hfit, elemN_joinElems hrow]
  have hget : (List.replicate (elemsOf (castWidth w)) v).getD (w * j / castWidth w) 0 = v := by
    simp [hlane]
  rw [hget, Nat.mod_eq_of_lt hv]

theorem gives_vbcast (hi : InIssue s i) (hsound : Sound s f) (hw : LaneWidth (plainWidth f.fp1.toNat)) :
    Gives s i f (.vbcast f) (fun n y => ∃ e : CellLanding, y = gaining s n [e] ∧
      ToV s f.d.toNat 2 (plainWidth f.fp1.toNat) (maskIn s f n) (fun j =>
        elemN ((s.cc.cell n).vreg f.a.toNat) (castWidth (plainWidth f.fp1.toNat)) f.im.toNat /
          2 ^ (plainWidth f.fp1.toNat * j % castWidth (plainWidth f.fp1.toNat))) e)
      (elementEvents s f (plainWidth f.fp1.toNat) [f.a.toNat] fun _ _ => noKind) := by
  refine gives_of_registers hi hsound (x := .vbcast f) (y := .vbcast f)
    (out := bcastOut s.cx f (plainWidth f.fp1.toNat) (castWidth (plainWidth f.fp1.toNat))) rfl rfl rfl
    (fun _ _ => rfl) (fun _ n h => bcastOut_like _ _ _ _ h n) (fun n => ⟨_, Cell.accept_lands _ _ fun e he => ?_, ?_⟩)
    fun _ => sameEvents_reads hw _
  · obtain rfl := List.mem_singleton.1 he
    rfl
  · exact toV_masked hw fun j hj _ => elemN_broadcast hw hj (elemN_lt _ _ _)

/-! ### Reductions (R163 to R165) -/

/-- The elements of v[A] that a reduction or a VSPAR takes. -/
def takenElems (f : CForm) (w : Nat) (k : Core) (c : Nat) : List (Option Nat) :=
  (List.range (elemsOf w)).map fun j =>
    if bit ((k.cell c).lane f) (laneOf w j) then some (elemN ((k.cell c).vreg f.a.toNat) w j) else none

/-- What a reduction gives a cell. -/
def reduceOut (x : Ctx) (f : CForm) (lat w : Nat) (op : List (Option Nat) → Nat × List Kinds) (k : Core) (c : Nat) : CellOut :=
  let r := op (takenElems f w k c)
  { lands := [x.toV f.d.toNat lat (BitVec.ofNat 256 r.1) (BitVec.allOnes 256)]
    evs := mergeItems (gatherEvents (r.2.map fun e => (0, e)) ++ (k.cell c).gatedReads [f.a.toNat] w ((k.cell c).lane f)) }

theorem takenElems_like (f : CForm) (w : Nat) {k k0 : Core} (h : k.Like k0) (n : Nat) : takenElems f w k n = takenElems f w k0 n := by
  simp only [takenElems, h.lane, h.vreg]

theorem reduceOut_like (x : Ctx) (f : CForm) (lat w : Nat) (op : List (Option Nat) → Nat × List Kinds) {k k0 : Core} (h : k.Like k0)
    (n : Nat) : reduceOut x f lat w op k n = reduceOut x f lat w op k0 n := by
  simp only [reduceOut, takenElems_like f w h, h.lane, h.gatedReads]

/-- A reduction writes element 0 and zeroes the rest, and records its nodes' kinds in lane 0. -/
theorem gives_reduction (hi : InIssue s i) (hsound : Sound s f) (hg : Fmt.ofCode f.fp1.toNat = some g) (hw : LaneWidth g.width)
    {x y : Instr} {lat : Nat} (op : Fmt → List (Option Nat) → Nat × List Kinds)
    (hx : slotMeaning x s = some (reduceSlot y f lat op s)) :
    Gives s i f x (fun n z => z = gaining s n [whole s f.d.toNat lat (BitVec.ofNat 256 (op g (takenElems f g.width s.cc n)).1)])
      fun n => itemsOf ((op g (takenElems f g.width s.cc n)).2.map fun e => (0, e)) ++
        elementEvents s f g.width [f.a.toNat] (fun _ _ => noKind) n := by
  have hg' : (Fmt.ofCode f.fp1.toNat).getD .fp32 = g := by rw [hg]; rfl
  have hslot : reduceSlot y f lat op s = plainSlot y
      { form := f, dests := fun _ => [(false, f.d.toNat, lat)], regs := [f.a.toNat], masks := lmRegs f } (fun t =>
        t.cellsDo (cellsOf f.sq) (reduceOut s.cx f lat ((Fmt.ofCode f.fp1.toNat).getD .fp32).width
          (op ((Fmt.ofCode f.fp1.toNat).getD .fp32)))) s := rfl
  rw [hslot, hg'] at hx
  refine gives_of_registers hi hsound hx rfl rfl (fun _ _ => rfl) (fun _ n h => reduceOut_like _ _ _ _ _ h n)
    (fun n => Cell.accept_lands _ _ fun e he => ?_) fun n => ?_
  · obtain rfl := List.mem_singleton.1 he
    rfl
  · obtain ⟨-, hreads⟩ := sameEvents_reads (s := s) (f := f) (n := n) hw [f.a.toNat]
    refine ⟨itemsValid_mergeItems (ItemsValid.append (gatherEvents_valid fun z hz => ?_) (itemsValid_gatedReads hw _ _ _)), ?_⟩
    · obtain ⟨e, -, rfl⟩ := List.mem_map.1 hz
      exact Nat.zero_lt_succ _
    · refine (alike_mergeItems _).trans (Alike.append (alike_gatherEvents _) ?_)
      exact (alike_mergeItems _).symm.trans hreads

/-! ### Structured sparsity (R166) -/

theorem nth_eq_getD {α : Type} (d : α) (xs : List α) (j : Nat) : nth d xs j = xs.getD j d := by
  induction xs generalizing j with
  | nil => rfl
  | cons x xs ih =>
    cases j with
    | zero => rfl
    | succ j => rw [nth, ih, List.getD_cons_succ]

theorem sparBest_lt (ranks : List Nat) (skip : Option Nat) : sparBest ranks skip < 4 := by
  have hcand : ∀ i ∈ (List.range 4).filter fun i => skip != some i, i < 4 := fun i hi =>
    List.mem_range.1 (List.mem_filter.1 hi).1
  unfold sparBest
  dsimp only
  generalize (List.range 4).filter (fun i => skip != some i) = c at hcand
  have hfold : ∀ (c : List Nat) (b : Nat), b < 4 → (∀ i ∈ c, i < 4) →
      c.foldl (fun b i => if nth 0 ranks b < nth 0 ranks i then i else b) b < 4 := by
    intro c
    induction c with
    | nil => exact fun _ hb _ => hb
    | cons i c ih =>
      intro b hb hc
      refine ih _ ?_ fun j hj => hc j (List.mem_cons_of_mem _ hj)
      show (if nth 0 ranks b < nth 0 ranks i then i else b) < 4
      split
      · exact hc i List.mem_cons_self
      · exact hb
  refine hfold c _ ?_ hcand
  cases c with
  | nil => exact Nat.zero_lt_succ _
  | cons i c => exact hcand i List.mem_cons_self

theorem sparKeep_lt (g : Fmt) (xs : List Nat) : (sparKeep g xs).1 < 4 ∧ (sparKeep g xs).2 < 4 :=
  ⟨(min_le_left _ _).trans_lt (sparBest_lt _ _), max_lt (sparBest_lt _ _) (sparBest_lt _ _)⟩

/-- Pairs written one after the other. -/
theorem getD_pairs (F G : Nat → Nat) (n : Nat) :
    (∀ p : Nat, p < n → (((List.range n).map fun q => [F q, G q]).flatten).getD (2 * p) 0 = F p ∧
      (((List.range n).map fun q => [F q, G q]).flatten).getD (2 * p + 1) 0 = G p) ∧
    ∀ j : Nat, 2 * n ≤ j → (((List.range n).map fun q => [F q, G q]).flatten).getD j 0 = 0 := by
  have hget : ∀ (qs : List Nat), (∀ p : Nat, ((qs.map fun q => [F q, G q]).flatten).getD (2 * p) 0 = (qs.map F).getD p 0 ∧
      ((qs.map fun q => [F q, G q]).flatten).getD (2 * p + 1) 0 = (qs.map G).getD p 0) := by
    intro qs
    induction qs with
    | nil => exact fun p => ⟨rfl, rfl⟩
    | cons q qs ih =>
      intro p
      cases p with
      | zero => exact ⟨rfl, rfl⟩
      | succ p =>
        obtain ⟨heven, hodd⟩ := ih p
        exact ⟨heven, hodd⟩
  refine ⟨fun p hp => ?_, fun j hj => ?_⟩
  · obtain ⟨heven, hodd⟩ := hget (List.range n) p
    rw [heven, hodd, getD_map_range _ _ hp, getD_map_range _ _ hp]
    exact ⟨rfl, rfl⟩
  · refine List.getD_eq_default _ _ ?_
    have hlen : ((List.range n).map fun q => [F q, G q]).flatten.length = 2 * n := by
      rw [List.length_flatten, List.map_map]
      simp [Function.comp_def, Nat.mul_comm]
    rw [hlen]
    exact hj

/-- The four elements of a group of a VSPAR. -/
def sparGroup (f : CForm) (w : Nat) (k : Core) (c q : Nat) : List Nat :=
  (List.range 4).map fun i =>
    if bit ((k.cell c).lane f) (laneOf w (4 * q + i)) then elemN ((k.cell c).vreg f.a.toNat) w (4 * q + i) else 0

/-- The elements that a VSPAR keeps, and their indices. -/
def sparKept (f : CForm) (g : Fmt) (k : Core) (c : Nat) : Row :=
  joinElems 256 g.width ((List.range (elemsOf g.width / 4)).map fun q =>
    [nth 0 (sparGroup f g.width k c q) (sparKeep g (sparGroup f g.width k c q)).1,
      nth 0 (sparGroup f g.width k c q) (sparKeep g (sparGroup f g.width k c q)).2]).flatten
def sparIndices (f : CForm) (g : Fmt) (k : Core) (c : Nat) : Row :=
  joinElems 256 4 ((List.range (elemsOf g.width / 4)).map fun q =>
    (sparKeep g (sparGroup f g.width k c q)).1 + 4 * (sparKeep g (sparGroup f g.width k c q)).2)

/-- What a VSPAR gives a cell. -/
def sparOut (x : Ctx) (f : CForm) (g : Fmt) (k : Core) (c : Nat) : CellOut :=
  { lands := [x.toV f.d.toNat 3 (sparKept f g k c) (BitVec.allOnes 256),
      x.toV (f.d.toNat + 1) 3 (sparIndices f g k c) (BitVec.allOnes 256)]
    evs := mergeItems ((k.cell c).gatedReads [f.a.toNat] g.width ((k.cell c).lane f)) }

theorem sparOut_like (x : Ctx) (f : CForm) (g : Fmt) {k k0 : Core} (h : k.Like k0) (n : Nat) : sparOut x f g k n = sparOut x f g k0 n := by
  simp only [sparOut, sparKept, sparIndices, sparGroup, h.lane, h.vreg, h.gatedReads]

theorem meanVspar_eq (f : CForm) (s : State) : meanVspar f s = plainSlot (.vspar f)
    { form := f, dests := fun _ => [(false, f.d.toNat, 3), (false, f.d.toNat + 1, 3)], regs := [f.a.toNat], masks := lmRegs f }
    (fun t => t.cellsDo (cellsOf f.sq) (sparOut s.cx f ((Fmt.ofCode f.fp1.toNat).getD .fp32))) s := by
  unfold meanVspar
  dsimp only
  congr 1
  funext t
  refine congrArg (State.cellsDo t _) (funext fun k => funext fun c => ?_)
  simp only [sparOut, sparKept, sparIndices, sparGroup, List.map_map, Function.comp_def]

theorem sparGroup_eq {p : Nat} (hp : p < 256 / w / 4) (f : CForm) (k : Core) (c : Nat) :
    sparGroup f w k c p = (List.range 4).map fun i => ((takenElems f w k c).getD (4 * p + i) none).getD 0 := by
  refine List.map_congr_left fun i hi => ?_
  have hlt : 4 * p + i < elemsOf w := by
    have := List.mem_range.1 hi
    rw [elemsOf]
    omega
  rw [takenElems, getD_map_range _ _ hlt]
  split <;> rfl

theorem sparGroup_getD_lt (f : CForm) (k : Core) (c p j : Nat) : (sparGroup f w k c p).getD j 0 < 2 ^ w := by
  by_cases hj : j < 4
  · rw [sparGroup, getD_map_range _ _ hj]
    split
    · exact elemN_lt _ _ _
    · exact Nat.two_pow_pos w
  · rw [List.getD_eq_default _ _ (by rw [sparGroup, List.length_map, List.length_range]; omega)]
    exact Nat.two_pow_pos w

/-- What the two registers of a VSPAR hold. -/
theorem sparOut_elems (hw : LaneWidth g.width) (f : CForm) (k : Core) (c : Nat) :
    (∀ p : Nat, p < 256 / g.width / 4 → ∀ z : List Nat,
      z = (List.range 4).map (fun i => ((takenElems f g.width k c).getD (4 * p + i) none).getD 0) →
      elemN (sparKept f g k c) g.width (2 * p) = z.getD (sparKeep g z).1 0 ∧
      elemN (sparKept f g k c) g.width (2 * p + 1) = z.getD (sparKeep g z).2 0 ∧
      elemN (sparIndices f g k c) 4 p = (sparKeep g z).1 + 4 * (sparKeep g z).2) ∧
    (∀ j : Nat, 2 * (256 / g.width / 4) ≤ j → j < 256 / g.width → elemN (sparKept f g k c) g.width j = 0) ∧
    ∀ p : Nat, 256 / g.width / 4 ≤ p → p < 64 → elemN (sparIndices f g k c) 4 p = 0 := by
  have hpairs := getD_pairs (fun q => nth 0 (sparGroup f g.width k c q) (sparKeep g (sparGroup f g.width k c q)).1)
    (fun q => nth 0 (sparGroup f g.width k c q) (sparKeep g (sparGroup f g.width k c q)).2) (elemsOf g.width / 4)
  obtain ⟨hin, hout⟩ := hpairs
  refine ⟨fun p hp z hz => ?_, fun j hj hlt => ?_, fun p hp hlt => ?_⟩
  · rw [← sparGroup_eq hp] at hz
    subst hz
    obtain ⟨heven, hodd⟩ := hin p hp
    obtain ⟨hlow, hhigh⟩ := sparKeep_lt g (sparGroup f g.width k c p)
    have hbounds : 2 * p + 1 < 256 / g.width ∧ 4 * p + 4 ≤ 256 := by
      rcases hw with h | h | h <;> rw [h] at hp ⊢ <;> omega
    refine ⟨?_, ?_, ?_⟩
    · rw [sparKept, elemN_joinElems (hw.fits (by omega)), heven, nth_eq_getD, Nat.mod_eq_of_lt (sparGroup_getD_lt _ _ _ _ _)]
    · rw [sparKept, elemN_joinElems (hw.fits (by omega)), hodd, nth_eq_getD, Nat.mod_eq_of_lt (sparGroup_getD_lt _ _ _ _ _)]
    · rw [sparIndices, elemN_joinElems hbounds.2, getD_map_range _ _ (show p < elemsOf g.width / 4 from hp), Nat.mod_eq_of_lt (by omega)]
  · rw [sparKept, elemN_joinElems (hw.fits hlt), hout j hj, Nat.zero_mod]
  · rw [sparIndices, elemN_joinElems (by omega), List.getD_eq_default, Nat.zero_mod]
    rw [List.length_map, List.length_range]
    exact hp

theorem gives_vspar (hi : InIssue s i) (hsound : Sound s f) (hg : Fmt.ofCode f.fp1.toNat = some g) (hw : LaneWidth g.width) :
    Gives s i f (.vspar f) (fun n y =>
      y = gaining s n [whole s f.d.toNat 3 (sparKept f g s.cc n), whole s (f.d.toNat + 1) 3 (sparIndices f g s.cc n)])
      (elementEvents s f g.width [f.a.toNat] fun _ _ => noKind) := by
  have hx : slotMeaning (.vspar f) s = some (meanVspar f s) := rfl
  rw [meanVspar_eq, hg] at hx
  refine gives_of_registers hi hsound hx rfl rfl (fun _ _ => rfl) (fun _ n h => sparOut_like _ _ _ h n)
    (fun n => Cell.accept_lands _ _ fun e he => ?_) fun _ => sameEvents_reads hw _
  simp only [List.mem_cons, List.not_mem_nil, or_false] at he
  rcases he with rfl | rfl <;> rfl

theorem gives_mono {x : Instr} {P P' : Nat → Cell → Prop} {I : Nat → List EvItem} (h : Gives s i f x P I)
    (hP : ∀ n y, P n y → P' n y) : Gives s i f x P' I := by
  obtain ⟨t, hexec, hexpress, hissue, hmem, hcmem, hrow, hcells⟩ := h
  refine ⟨t, hexec, hexpress, hissue, hmem, hcmem, hrow, fun n hn => ?_⟩
  have hcell := hcells n hn
  by_cases hsel : bit f.sq (squadOf n) = true
  · rw [if_pos hsel] at hcell ⊢
    obtain ⟨y, hy, heq⟩ := hcell
    exact ⟨y, hP n y hy, heq⟩
  · rw [if_neg hsel] at hcell ⊢
    exact hcell

/-- Settles O38: permutation and broadcast by element, a reduction by its tree, sparsification by its groups. -/
theorem cellMovementResults : Obligations.CellMovementResults := by
  rintro s i f hi hsound w rfl hw a b reads
  refine ⟨gives_vperm hi hsound hw, ?_, ?_⟩
  · rintro lw rfl
    exact gives_vbcast hi hsound hw
  · intro g hg hwidth xs R
    have hwg : LaneWidth g.width := hwidth ▸ hw
    have hvrsum := gives_reduction hi hsound hg hwg (x := .vrsum f) (y := .vrsum f) (lat := 6)
      (fun g xs => vrsumRow g (cMode f) xs) rfl
    have hvrmax := gives_reduction hi hsound hg hwg (x := .vrmax f) (y := .vrmax f) (lat := 4) vrmaxRow rfl
    have hvspar := gives_vspar hi hsound hg hwg
    have helems := fun n => sparOut_elems hwg f s.cc n
    rw [hwidth] at hvrsum hvrmax hvspar helems
    refine ⟨hvrsum, hvrmax, gives_mono hvspar fun n y hy => ?_⟩
    obtain ⟨hin, hrest, hzero⟩ := helems n
    exact ⟨_, _, hy, hin, hrest, hzero⟩

end Sys2Proof.Machine
end

section
/-! SUPPORT. MZERO, MREAD, PATCH and MDRAIN (R191, R192, R195, R196), and the statement about them. -/

namespace Sys2Proof.Machine

open Sys2Proof.Claims

/-! ### A change of an accumulator at once -/

theorem updateAcc_land (x : Cell) (a level : Nat) (cycle : Int) (g : Acc → Acc) : (x.updateAcc a level cycle g).land = x.land := by
  unfold Cell.updateAcc
  dsimp only
  split <;> rfl

theorem updateAcc_v (x : Cell) (a level : Nat) (cycle : Int) (g : Acc → Acc) : (x.updateAcc a level cycle g).v = x.v := by
  unfold Cell.updateAcc
  dsimp only
  split <;> rfl

theorem updateAcc_withTower (x : Cell) (t : Tower) (a level : Nat) (cycle : Int) (g : Acc → Acc) :
    ({ x with tower := t } : Cell).updateAcc a level cycle g = { x.updateAcc a level cycle g with tower := t } := by
  unfold Cell.updateAcc
  dsimp only
  split <;> rfl

theorem mend_acc (x : Cell) (n : Nat) (word : Nat → Bool) (a : Nat) : (x.mend n word).acc a = x.acc a := rfl

/-- An instruction that only changes a cell. -/
theorem Cell.accept_now (y : Cell) (h : Cell → Cell) (evs : List EvItem) : y.accept { now := h, evs := evs } = h y := by
  simp [Cell.accept]

/-! ### PATCH (R196) -/

/-- The elements that a PATCH writes, one by one. -/
theorem patchFold_at (F : Nat → BitVec 32) (m : BitVec 16) (at0 : Nat) (a : Acc) (cn j : Nat) :
    ((List.range cn).foldl (fun (b : Acc) n => if bit m n then { b with el := set 0 (at0 + n) (F n) b.el } else b) a).at_ j =
      if at0 ≤ j ∧ j < at0 + cn ∧ m.getLsbD (j - at0) = true then F (j - at0) else a.at_ j := by
  induction cn with
  | zero => rw [if_neg (by omega)]; rfl
  | succ cn ih =>
    rw [List.range_succ, List.foldl_append, List.foldl_cons, List.foldl_nil]
    have hrest : j ≠ at0 + cn → ((at0 ≤ j ∧ j < at0 + (cn + 1) ∧ m.getLsbD (j - at0) = true) ↔
        (at0 ≤ j ∧ j < at0 + cn ∧ m.getLsbD (j - at0) = true)) := fun h =>
      and_congr_right fun _ => and_congr_left fun _ => by omega
    by_cases hm : bit m cn = true
    · rw [if_pos hm]
      by_cases hj : j = at0 + cn
      · subst hj
        rw [Acc.at_, get_set_same, Nat.add_sub_cancel_left, if_pos ⟨by omega, by omega, hm⟩]
      · rw [Acc.at_, get_set_other _ hj]
        simp only [hrest hj]
        exact ih
    · rw [if_neg hm, ih]
      by_cases hj : j = at0 + cn
      · subst hj
        rw [if_neg (by omega), if_neg fun h => hm (by rw [bit, ← Nat.add_sub_cancel_left (n := at0) (m := cn)]; exact h.2.2)]
      · simp only [hrest hj]

theorem patchFold_tag (F : Nat → BitVec 32) (m : BitVec 16) (at0 : Nat) (a : Acc) (ns : List Nat) :
    (ns.foldl (fun (b : Acc) n => if bit m n then { b with el := set 0 (at0 + n) (F n) b.el } else b) a).tag = a.tag :=
  foldl_keeps (r := Acc.tag) (fun b n => by split <;> rfl) _ _

/-! The kinds that a patched element raises never say that a register was gated. -/

theorem noKind_not_gated : noKind &&& kGated = 0 := by decide

theorem kInvalid_not_gated : kInvalid &&& kGated = 0 := by decide

theorem rounded_not_gated (small large : Prop) [Decidable small] [Decidable large] (x y : Nat) :
    (if large then (x, (if small then kUnderflow else noKind) ||| kOverflow) else (y, if small then kUnderflow else noKind)).2 &&&
      kGated = 0 := by
  by_cases hl : large <;> by_cases hs : small <;> simp only [hl, hs, if_true, if_false] <;> decide

theorem round_not_gated (q : FloatSpec) (M : RMode) (n : Bool) (m : Nat) (e : Int) : (q.round M n m e).2 &&& kGated = 0 := by
  unfold FloatSpec.round
  by_cases h : m = 0
  · rw [if_pos h]
    exact noKind_not_gated
  · rw [if_neg h]
    exact rounded_not_gated _ _ _ _

theorem sumRound_not_gated (q : FloatSpec) (M : RMode) (ts : List FVal) : (sumRound q M ts).2 &&& kGated = 0 := by
  unfold sumRound
  dsimp only
  split
  · exact kInvalid_not_gated
  · split
    · exact noKind_not_gated
    · unfold FloatSpec.roundDy
      split
      · exact noKind_not_gated
      · exact round_not_gated _ _ _ _ _

theorem addRound_not_gated (q : FloatSpec) (M : RMode) (x y : FVal) : (addRound q M x y).2 &&& kGated = 0 := by
  unfold addRound
  split
  next r h =>
    unfold nanOf at h
    split at h
    · cases h
      dsimp only
      split
      · exact kInvalid_not_gated
      · exact noKind_not_gated
    · cases h
  next => exact sumRound_not_gated _ _ _

theorem patchElem_not_gated (co : Nat) (tag : AccTag) (x v : BitVec 32) : (patchElem co tag x v).2 &&& kGated = 0 := by
  unfold patchElem
  split
  · exact noKind_not_gated
  · cases tag with
    | int => dsimp only; split <;> decide
    | fp => exact addRound_not_gated _ _ _ _
    | empty => exact addRound_not_gated _ _ _ _

/-- Elements that raise kinds of two sorts record both. -/
theorem alike_itemsOf_or {lane : Nat → Nat} {K G : Nat → Kinds} (h : ∀ e, K e &&& G e = 0) (es : List Nat) :
    Alike (itemsOf (es.map fun e => (lane e, K e ||| G e)))
      (itemsOf (es.map fun e => (lane e, K e)) ++ itemsOf (es.map fun e => (lane e, G e))) := by
  intro q hq
  have hnot : ∀ e, ¬ ((K e).getLsbD q = true ∧ (G e).getLsbD q = true) := fun e hboth => by
    have := congrArg (fun b => b.getLsbD q) (h e)
    rw [BitVec.getLsbD_and, hboth.1, hboth.2] at this
    simp at this
  refine ⟨?_, fun l hl => ?_⟩
  · rw [kindCount_append, kindCount_itemsOf hq, kindCount_itemsOf hq, kindCount_itemsOf hq, List.countP_map, List.countP_map,
      List.countP_map]
    induction es with
    | nil => rfl
    | cons e es ih =>
      have hone : (if ((K e).getLsbD q || (G e).getLsbD q) = true then 1 else 0) =
          (if (K e).getLsbD q = true then 1 else 0) + if (G e).getLsbD q = true then 1 else 0 := by
        have := hnot e
        revert this
        cases (K e).getLsbD q <;> cases (G e).getLsbD q <;> simp
      rw [List.countP_cons, List.countP_cons, List.countP_cons, ih]
      simp only [Function.comp_apply, BitVec.getLsbD_or, hone]
      omega
  · rw [kindLane_append, kindLane_itemsOf hq hl, kindLane_itemsOf hq hl, kindLane_itemsOf hq hl, List.any_map, List.any_map,
      List.any_map]
    induction es with
    | nil => rfl
    | cons e es ih =>
      rw [List.any_cons, List.any_cons, List.any_cons, ih]
      simp only [Function.comp_apply, BitVec.getLsbD_or, Bool.and_or_distrib_right]
      ac_rfl

variable {s : State} {i : Issue} {f : CForm}

/-- The elements of v[B] that a PATCH selects. -/
def patchPicked (f : CForm) (y : Cell) : List Nat := (List.range f.cn.toNat).filter fun e => bit (y.lane f) e

/-- The place of a PATCH's first element in the accumulator. -/
def patchAt (f : CForm) : Nat := 32 * fieldN f.im 5 4 + fieldN f.im 0 5

theorem patchAt_eq (f : CForm) : patchAt f = 32 * (f.im.toNat / 32 % 16) + f.im.toNat % 32 := by
  rw [patchAt, fieldN_eq, fieldN_eq]
  norm_num

/-- What element `e` of a PATCH raises. -/
def patchKinds (f : CForm) (y : Cell) (e : Nat) : Kinds :=
  (patchElem f.co.toNat (y.acc (f.d.toNat % 2)).tag ((y.acc (f.d.toNat % 2)).at_ (patchAt f + e)) (elem (y.vreg f.b.toNat) 32 e)).2

/-- What a PATCH gives a cell. -/
def patchOut (x : Ctx) (f : CForm) (k : Core) (c : Nat) : CellOut :=
  { now := fun y => (y.updateAcc (f.d.toNat % 2) x.depth x.vt
      (patchAcc f ((k.cell c).lane f) ((k.cell c).vreg f.b.toNat))).mend (40 + f.d.toNat % 2) fun n =>
        (patchPicked f (k.cell c)).any fun p => patchAt f + p == n
    evs := mergeItems (gatherEvents ((patchPicked f (k.cell c)).map fun e =>
        (columnLane ((patchAt f + e) % 32), patchKinds f (k.cell c) e)) ++
      (k.cell c).gatedRead f.b.toNat (laneUnion ((patchPicked f (k.cell c)).map fun n => columnLane ((patchAt f + n) % 32)))
        (patchPicked f (k.cell c)).length) }

theorem patchOut_like (x : Ctx) (f : CForm) {k k0 : Core} (h : k.Like k0) (n : Nat) : patchOut x f k n = patchOut x f k0 n := by
  have hacc : (k.cell n).acc (f.d.toNat % 2) = (k0.cell n).acc (f.d.toNat % 2) := by rw [h.cell n]; rfl
  simp only [patchOut, patchPicked, patchKinds, h.lane, h.vreg, h.gatedRead, hacc]

theorem sameEvents_patch (y : Cell) : SameEvents
    (mergeItems (gatherEvents ((patchPicked f y).map fun e => (columnLane ((patchAt f + e) % 32), patchKinds f y e)) ++
      y.gatedRead f.b.toNat (laneUnion ((patchPicked f y).map fun n => columnLane ((patchAt f + n) % 32))) (patchPicked f y).length))
    (itemsOf ((patchPicked f y).map fun e => ((patchAt f + e) % 32 % 16,
      patchKinds f y e ||| if y.group (f.b.toNat / 8) = .gated then kGated else noKind))) := by
  have hlane : ∀ e, columnLane ((patchAt f + e) % 32) < 16 := fun e => Nat.mod_lt _ (Nat.zero_lt_succ _)
  have hlanes : ∀ l, l < 16 → (laneUnion ((patchPicked f y).map fun n => columnLane ((patchAt f + n) % 32))).getLsbD l =
      (patchPicked f y).any fun n => columnLane ((patchAt f + n) % 32) == l := by
    intro l hl
    rw [laneUnion, getLsbD_laneUnion hl, List.any_map]
    simp [Function.comp_def]
  have hgated : Alike (y.gatedRead f.b.toNat (laneUnion ((patchPicked f y).map fun n => columnLane ((patchAt f + n) % 32)))
      (patchPicked f y).length) (itemsOf ((patchPicked f y).map fun e => (columnLane ((patchAt f + e) % 32),
        if y.group (f.b.toNat / 8) = .gated then kGated else noKind))) := by
    unfold Cell.gatedRead
    split
    next hg => exact alike_gatedItem hlanes
    next hg =>
      rw [itemsOf_map_noKind _ _ fun _ _ => rfl]
      exact Alike.refl []
  refine ⟨itemsValid_mergeItems (ItemsValid.append (gatherEvents_valid fun x hx => ?_) (itemsValid_gatedRead _ _ fun hne => ?_)), ?_⟩
  · obtain ⟨e, -, rfl⟩ := List.mem_map.1 hx
    exact hlane e
  · obtain ⟨e, he⟩ := List.exists_mem_of_ne_nil (patchPicked f y) fun h => hne (by rw [h]; rfl)
    refine ne_zero_of_getLsbD (l := columnLane ((patchAt f + e) % 32)) ?_
    rw [hlanes _ (hlane e)]
    exact List.any_eq_true.2 ⟨e, he, beq_self_eq_true _⟩
  · refine (alike_mergeItems _).trans ((Alike.append (alike_gatherEvents _) hgated).trans (Alike.symm ?_))
    refine alike_itemsOf_or (fun e => ?_) _
    split
    · exact patchElem_not_gated _ _ _ _
    · exact BitVec.and_zero

theorem gives_patch (hi : InIssue s i) (hsound : Sound s f) : Gives s i f (.patch f) (fun n y =>
      (y.acc (f.d.toNat % 2)).tag = (if ((s.cc.cell n).acc (f.d.toNat % 2)).tag = .empty then .fp
        else ((s.cc.cell n).acc (f.d.toNat % 2)).tag) ∧ y.land = (s.cc.cell n).land ∧ y.v = (s.cc.cell n).v ∧
      ∀ j : Nat, j < 512 → (y.acc (f.d.toNat % 2)).at_ j =
        if patchAt f ≤ j ∧ j < patchAt f + f.cn.toNat ∧ (maskIn s f n).getLsbD (j - patchAt f) = true
        then (patchElem f.co.toNat (y.acc (f.d.toNat % 2)).tag (((s.cc.cell n).acc (f.d.toNat % 2)).at_ j)
          (elem ((s.cc.cell n).vreg f.b.toNat) 32 (j - patchAt f))).1
        else ((s.cc.cell n).acc (f.d.toNat % 2)).at_ j)
      fun n => itemsOf ((patchPicked f (s.cc.cell n)).map fun e => ((patchAt f + e) % 32 % 16,
        patchKinds f (s.cc.cell n) e ||| if (s.cc.cell n).group (f.b.toNat / 8) = .gated then kGated else noKind)) := by
  have hx : slotMeaning (.patch f) s = some (meanPatch f s) := rfl
  refine gives_plain hi (out := patchOut s.cx f) hx rfl (consumed_of_sound hsound rfl fun n _ _ hp => absurd hp List.not_mem_nil)
    (fun k c z t => ?_) (fun k n h => patchOut_like _ _ h n) (fun n _ => ?_) fun n _ => sameEvents_patch _
  · simp only [patchOut, updateAcc_withTower]
    rfl
  · have hacc : ((s.cc.cell n).accept (patchOut s.cx f s.cc n)).acc (f.d.toNat % 2) =
        patchAcc f (maskIn s f n) ((s.cc.cell n).vreg f.b.toNat) ((s.cc.cell n).acc (f.d.toNat % 2)) := by
      rw [patchOut, Cell.accept_now, mend_acc, updateAcc_acc]
      rfl
    have htag : (patchAcc f (maskIn s f n) ((s.cc.cell n).vreg f.b.toNat) ((s.cc.cell n).acc (f.d.toNat % 2))).tag =
        if ((s.cc.cell n).acc (f.d.toNat % 2)).tag = .empty then .fp else ((s.cc.cell n).acc (f.d.toNat % 2)).tag :=
      patchFold_tag _ _ _ _ _
    refine ⟨by rw [hacc, htag], ?_, ?_, fun j _ => ?_⟩
    · rw [patchOut, Cell.accept_now]
      exact updateAcc_land _ _ _ _ _
    · rw [patchOut, Cell.accept_now]
      exact updateAcc_v _ _ _ _ _
    · rw [hacc, htag]
      refine (patchFold_at _ _ (patchAt f) _ _ _).trans ?_
      by_cases h : patchAt f ≤ j ∧ j < patchAt f + f.cn.toNat ∧ (maskIn s f n).getLsbD (j - patchAt f) = true
      · have hj : 32 * fieldN f.im 5 4 + fieldN f.im 0 5 + (j - patchAt f) = j := Nat.add_sub_cancel' h.1
        rw [if_pos h, if_pos h, hj]
      · rw [if_neg h, if_neg h]
        rfl

/-! ### MZERO and MREAD (R191, R195) -/

/-- What an MZERO gives a cell. -/
def mzeroOut (x : Ctx) (f : CForm) (_ : Core) (_ : Nat) : CellOut :=
  { now := fun y => (y.updateAcc (f.d.toNat % 2) x.depth x.vt fun _ => {}).mend (40 + f.d.toNat % 2) fun _ => true }

theorem gives_mzero (hi : InIssue s i) (hsound : Sound s f) :
    Gives s i f (.mzero f) (fun _ y => y.acc (f.d.toNat % 2) = {}) silent := by
  have hx : slotMeaning (.mzero f) s = some (meanMzero f s) := rfl
  refine gives_plain hi (out := mzeroOut s.cx f) hx rfl (consumed_of_sound hsound rfl fun n _ _ hp => absurd hp List.not_mem_nil)
    (fun k c z t => ?_) (fun _ _ _ => rfl) (fun n _ => ?_) fun n _ => ⟨fun _ he => absurd he List.not_mem_nil, Alike.refl []⟩
  · simp only [mzeroOut, updateAcc_withTower]
    rfl
  · rw [mzeroOut, Cell.accept_now, mend_acc, updateAcc_acc]

/-- What an MREAD gives a cell. -/
def mreadOut (x : Ctx) (f : CForm) (at0 : Nat) (k : Core) (c : Nat) : CellOut :=
  let v := (k.cell c).accView (f.a.toNat % 2) x.depth x.vt
  let part (o : Nat) : Row := joinElems 256 32 ((List.range 8).map fun j => (v.at_ (at0 + o + j)).toNat)
  { lands := [x.toV f.d.toNat 3 (part 0) (laneBits 32 ((k.cell c).lane f)),
      x.toV (f.d.toNat + 1) 3 (part 8) (laneBits 32 ((k.cell c).lane f))] }

theorem gives_mread (hi : InIssue s i) (hsound : Sound s f) {at0 : Nat}
    (hat : at0 = 32 * (f.im.toNat % 16) + 16 * (f.im.toNat / 16 % 2)) :
    Gives s i f (.mread f) (fun n y => ∃ e0 e1, y = gaining s n [e0, e1] ∧
      ToV s f.d.toNat 3 32 (maskIn s f n)
        (fun j => (((s.cc.cell n).accView (f.a.toNat % 2) s.cx.depth s.cx.vt).at_ (at0 + j)).toNat) e0 ∧
      ToV s (f.d.toNat + 1) 3 32 (maskIn s f n)
        (fun j => (((s.cc.cell n).accView (f.a.toNat % 2) s.cx.depth s.cx.vt).at_ (at0 + 8 + j)).toNat) e1) silent := by
  have hx : slotMeaning (.mread f) s = some (meanMread f s) := rfl
  have hbase : 32 * fieldN f.im 0 4 + 16 * fieldN f.im 4 1 = at0 := by
    rw [fieldN_eq, fieldN_eq, hat]
    norm_num
  have hw : LaneWidth 32 := .inr (.inr rfl)
  have helem : ∀ (v : Acc) (o j : Nat), j < 8 → elemN (joinElems 256 32 ((List.range 8).map fun j => (v.at_ (at0 + o + j)).toNat) : Row)
      32 j = (v.at_ (at0 + o + j)).toNat % 2 ^ 32 := by
    intro v o j hj
    rw [elemN_joinElems (hw.fits hj), getD_map_range _ _ hj]
  unfold meanMread at hx
  rw [hbase] at hx
  refine gives_plain hi (out := mreadOut s.cx f at0) hx rfl
    (consumed_of_sound hsound rfl fun n _ _ hp => absurd hp List.not_mem_nil) (fun _ _ _ _ => rfl)
    (fun k n h => by simp only [mreadOut, h.accView, h.lane])
    (fun n _ => ⟨_, _, Cell.accept_lands _ _ fun e he => ?_, ?_, ?_⟩) fun n _ => ⟨fun _ he => absurd he List.not_mem_nil, Alike.refl []⟩
  · simp only [List.mem_cons, List.not_mem_nil, or_false] at he
    rcases he with rfl | rfl <;> rfl
  · exact toV_masked hw fun j hj _ => helem _ 0 j hj
  · exact toV_masked hw fun j hj _ => helem _ 8 j hj

/-! ### MDRAIN (R192, R193) -/

/-- The numbers of the groups with a hit, as bits: below the bit after the last group, and not 0 where some group has one. -/
theorem groupBits_spec (n : Nat) (gs : List (List Bool)) :
    ((indexed n gs).map fun p => if p.2.any id then 2 ^ p.1 else 0).sum + 2 ^ n ≤ 2 ^ (n + gs.length) ∧
      (((indexed n gs).map fun p => if p.2.any id then 2 ^ p.1 else 0).sum = 0 → ∀ g ∈ gs, g.any id = false) := by
  induction gs generalizing n with
  | nil => exact ⟨by simp [indexed], fun _ g hg => absurd hg List.not_mem_nil⟩
  | cons g gs ih =>
    obtain ⟨hle, hzero⟩ := ih (n + 1)
    rw [indexed, List.map_cons, List.sum_cons, List.length_cons, Nat.add_comm gs.length 1, ← Nat.add_assoc]
    have hpos := Nat.two_pow_pos n
    rw [Nat.pow_succ] at hle
    dsimp only
    by_cases hg : g.any id = true
    · simp only [hg, if_true]
      exact ⟨by linarith, fun h => absurd h (by positivity)⟩
    · simp only [hg, if_false, Bool.false_eq_true]
      refine ⟨by omega, fun h => ?_⟩
      rintro g' (_ | ⟨_, hg'⟩)
      · exact Bool.not_eq_true _ ▸ hg
      · exact hzero (by omega) g' hg'

theorem foldl_add_eq_sum (ns : List Nat) : ns.foldl (· + ·) 0 = ns.sum := (List.sum_eq_foldl).symm

theorem groupItem_valid {kind : Nat} (hkind : kind < 8) {gs : List (List Bool)} (hlen : gs.length < 16) :
    ItemsValid (groupItem kind gs) := by
  intro e he
  unfold groupItem at he
  dsimp only at he
  split at he
  · exact absurd he List.not_mem_nil
  next hne =>
    obtain rfl := List.mem_singleton.1 he
    refine ⟨hkind, fun h0 => hne ?_⟩
    rw [foldl_add_eq_sum] at h0 ⊢
    obtain ⟨hle, hzero⟩ := groupBits_spec 0 gs
    have hlt : 2 ^ (0 + gs.length) < 2 ^ 16 := Nat.pow_lt_pow_right (by omega) (by omega)
    have hnat := congrArg BitVec.toNat h0
    simp only [BitVec.toNat_ofNat] at hnat
    rw [Nat.mod_eq_of_lt (by omega)] at hnat
    refine List.sum_eq_zero fun c hc => ?_
    obtain ⟨g, hg, rfl⟩ := List.mem_map.1 hc
    rw [List.length_eq_zero_iff, List.filter_eq_nil_iff]
    exact fun b hb => List.any_eq_false.1 (hzero hnat g hg) b hb

theorem groups8_length {α : Type} (n : Nat) (xs : List α) : (groups8 n xs).length = n := by
  induction n generalizing xs with
  | zero => rfl
  | succ n ih => rw [groups8, List.length_cons, ih]

theorem lqEncodeBlock_valid (sc : Nat) (xs : List LqElem) : ItemsValid (lqEncodeBlock sc xs).2 := by
  refine groupItem_valid ?_ (by rw [groups8_length]; decide)
  unfold lqHits
  split
  · exact (show 5 < 8 by decide)
  · exact (show 6 < 8 by decide)

theorem drainPlain_valid (v : Acc) (g : Fmt) (M : RMode) (cn : Nat) (m : BitVec 16) : ItemsValid (drainPlain v g M cn m).2 := by
  refine gatherEvents_valid fun x hx => ?_
  obtain ⟨p, -, rfl⟩ := List.mem_map.1 hx
  exact Nat.mod_lt _ (Nat.zero_lt_succ _)

theorem drainMx_valid (v : Acc) (g : Fmt) (M : RMode) (cn : Nat) : ItemsValid (drainMx v g M cn).2 := by
  refine gatherEvents_valid fun x hx => ?_
  obtain ⟨evs, hevs, hx⟩ := List.mem_flatten.1 hx
  obtain ⟨r, hr, rfl⟩ := List.mem_map.1 hevs
  obtain ⟨b, -, rfl⟩ := List.mem_map.1 hr
  dsimp only at hx
  split at hx <;>
  · obtain ⟨p, -, rfl⟩ := List.mem_map.1 hx
    exact Nat.mod_lt _ (Nat.zero_lt_succ _)

theorem drainLq_valid (v : Acc) (cn : Nat) : ItemsValid (drainLq v cn).2 := by
  refine itemsValid_mergeItems (itemsValid_flatten fun evs hevs => ?_)
  obtain ⟨r, hr, rfl⟩ := List.mem_map.1 hevs
  obtain ⟨b, -, rfl⟩ := List.mem_map.1 hr
  dsimp only
  exact lqEncodeBlock_valid _ _

theorem drainAll_valid (v : Acc) (g : Fmt) (M : RMode) (cn : Nat) (m : BitVec 16) : ItemsValid (drainAll v g M cn m).2 := by
  unfold drainAll
  split
  · exact drainMx_valid _ _ _ _
  · exact drainMx_valid _ _ _ _
  · exact drainLq_valid _ _
  · exact drainPlain_valid _ _ _ _ _

/-- What an MDRAIN gives a cell. -/
def drainOut (x : Ctx) (f : CForm) (g : Fmt) (k : Core) (c : Nat) : CellOut :=
  let r := drainAll ((k.cell c).accView (f.a.toNat % 2) x.depth x.vt) g (cMode f) f.cn.toNat ((k.cell c).lane f)
  { writes := r.1.map fun d => x.toRow (f.td.toNat + d.q) (2 + d.q) d.val d.bits (d.scales.filterMap fun h =>
      ((k.cell c).scalePlace (f.td.toNat + d.q) h.1).map fun p => (p.1, p.2, h.2))
    evs := r.2 }

theorem Cell.accept_writes (y : Cell) (ws : List TowerWrite) (evs : List EvItem) :
    y.accept { writes := ws, evs := evs } = { y with writes := y.writes ++ ws } := by
  simp [Cell.accept]

theorem gives_mdrain (hi : InIssue s i) (hsound : Sound s f) {g : Fmt} (hg : s.drainFmt f = some g) :
    Gives s i f (.mdrain f) (fun n y => y = { s.cc.cell n with writes := (s.cc.cell n).writes ++ (drainOut s.cx f g s.cc n).writes })
      fun n => (drainOut s.cx f g s.cc n).evs := by
  have hx : ∃ u : CellUse, slotMeaning (.mdrain f) s = some (plainSlot (.mdrain f) u (fun t =>
      t.cellsDo u.cells (drainOut s.cx f ((s.drainFmt f).getD .fp32))) s) ∧ u.form = f ∧ u.entries = fun _ => [] :=
    ⟨_, rfl, rfl, rfl⟩
  obtain ⟨u, hx, hform, hentries⟩ := hx
  rw [hg] at hx
  refine gives_plain hi hx hform (consumed_of_sound hsound hform fun n _ _ hp => ?_) (fun _ _ _ _ => rfl)
    (fun k n h => ?_) (fun n _ => Cell.accept_writes _ _ _) fun n _ =>
      ⟨drainAll_valid ((s.cc.cell n).accView (f.a.toNat % 2) s.cx.depth s.cx.vt) g (cMode f) f.cn.toNat (maskIn s f n), Alike.refl _⟩
  · rw [hentries] at hp
    exact absurd hp List.not_mem_nil
  · simp only [drainOut, Option.getD_some, h.accView, h.lane, h.scalePlace]

/-- Settles O43: the four instructions on an accumulator, element by element. -/
theorem accumulatorResults : Obligations.AccumulatorResults := by
  intro s i f hi hsound k _
  refine ⟨?_, ?_, ?_, ?_⟩
  · rintro rfl
    exact gives_mzero hi hsound
  · rintro rfl
    exact gives_mread hi hsound rfl
  · rintro rfl at0
    rw [show at0 = patchAt f from (patchAt_eq f).symm]
    exact gives_patch hi hsound
  · rintro g rfl hg out
    exact gives_mdrain hi hsound hg

end Sys2Proof.Machine
end

section
/-! SUPPORT. Single system registers written and read by steps of their own (R336, log entry 39), and the statement about them. -/

namespace Sys2Proof.Machine

open Sys2Proof.Claims

variable {s : State} {c k : Nat}

theorem cx_inM (s : State) (c k : Nat) : (inM s c k).cx = s.ctxAt c k := rfl

theorem issue_none_of_mayStep (h : MayStep s c k) : (s.ctxAt c k).issue = none := by
  obtain ⟨-, hmay⟩ := h
  unfold State.mayIssue at hmay
  simp only [Bool.and_eq_true, Option.isNone_iff_eq_none] at hmay
  exact hmay.2

/-- A register instruction gives the turn back. -/
theorem registerStep_of_run (h : MayStep s c k) {m : State → Meaning} {u : State} (hrun : (inM s c k).run (m (inM s c k)) = .next u) :
    s.registerStep c k m = .next { u with turn := s.turn } := by
  obtain ⟨⟨hc, hk⟩, hmay⟩ := h
  have hparts : ¬ (Config.cores ≤ c ∨ Config.contexts ≤ k) := not_or.2 ⟨Nat.not_le.2 hc, Nat.not_le.2 hk⟩
  unfold State.registerStep
  rw [if_neg hparts, hmay, Bool.not_true, if_neg Bool.false_ne_true]
  unfold inM at hrun
  dsimp only
  rw [hrun]

/-- A register instruction that fails its check takes its trap. -/
theorem registerStep_traps (h : MayStep s c k) {m : State → Meaning} {z : Cause}
    (hz : (inM s c k).slotCause (m (inM s c k)).check = some z) :
    s.registerStep c k m = .next { (inM s c k).trapIssue z with turn := s.turn } :=
  registerStep_of_run h (State.run_of_slotCause (issue_none_of_mayStep h) hz)

/-- A register instruction that passes its check takes effect. -/
theorem registerStep_acts (h : MayStep s c k) {m : State → Meaning} {u : State}
    (hz : (inM s c k).slotCause (m (inM s c k)).check = none) (htaken : (m (inM s c k)).taken = true)
    (hearly : (m (inM s c k)).early false = none) (hready : (m (inM s c k)).ready = true)
    (hu : (m (inM s c k)).effect (inM s c k) = u) (hissue : u.cx.issue = none) :
    s.registerStep c k m = .next { u with turn := s.turn } := by
  have hact : (inM s c k).act (m (inM s c k)) = u := by rw [State.act, hu, State.completeUnless, hissue]
  have hpassed : (inM s c k).checkPassed = false := State.checkPassed_of_none (issue_none_of_mayStep h)
  refine registerStep_of_run h ?_
  rw [State.run, hpassed, hz]
  simp only [Bool.false_eq_true, if_false, htaken, Bool.not_true, hearly, hready, if_true, hact]

/-! ### SYSW and SYSR of a register by its number -/

theorem sysForm_number {n : Nat} (hn : n < 4096) (d : BitVec 6) : fieldN (sysForm n d).imm 0 12 = n ∧ fieldN (sysForm n d).imm 12 14 = 0 := by
  rw [fieldN_eq, fieldN_eq, sysForm, BitVec.toNat_ofNat]
  constructor <;> omega

theorem sysForm_taken (x : Ctx) (n : Nat) (d : BitVec 6) : x.pred (sysForm n d).pr (sysForm n d).pn = true := rfl

theorem legal_sysw {n : Nat} (hn : n < 4096) : legal (.sysw (sysForm n 0)) = true := by
  have hhigh := (sysForm_number hn 0).2
  rw [legal, hhigh]
  rfl

theorem legal_sysr {n : Nat} (hn : n < 4096) (d : BitVec 6) : legal (.sysr (sysForm n d)) = true := by
  have hhigh := (sysForm_number hn d).2
  rw [legal, hhigh]
  rfl

/-- What the check of a SYSW of a known register finds. -/
theorem slotCause_sysw {n : Nat} (hn : n < 4096) (hknown : sysKnown n = true) (hroom : (s.ctxAt c k).land.length ≤ 24)
    (v : Word) : (inM s c k).slotCause (meanSyswOf (sysForm n 0) v (inM s c k)).check = (inM s c k).syswCause c k n v := by
  have hroom' : ¬ 24 < (s.ctxAt c k).land.length := Nat.not_lt.2 hroom
  simp only [State.slotCause, meanSyswOf, memOpIf, memOp, (sysForm_number hn 0).1, hknown, legal_sysw hn, sysForm_taken, cx_inM]
  simp [landTwice, hroom', inM]

theorem writeStep_traps (h : MayStep s c k) {n : Nat} (hn : n < 4096) (hknown : sysKnown n = true)
    (hroom : (s.ctxAt c k).land.length ≤ 24) {v : Word} {z : Cause} (hz : (inM s c k).syswCause c k n v = some z) :
    s.writeStep c k n v = .next { (inM s c k).trapIssue z with turn := s.turn } :=
  registerStep_traps h ((slotCause_sysw hn hknown hroom v).trans hz)

theorem writeStep_acts (h : MayStep s c k) {n : Nat} (hn : n < 4096) (hknown : sysKnown n = true)
    (hroom : (s.ctxAt c k).land.length ≤ 24) {v : Word} {u : State} (hz : (inM s c k).syswCause c k n v = none)
    (hu : (inM s c k).syswEffect c k n v = u) (hissue : u.cx.issue = none) :
    s.writeStep c k n v = .next { u with turn := s.turn } := by
  refine registerStep_acts h ((slotCause_sysw hn hknown hroom v).trans hz) (sysForm_taken (s.ctxAt c k) n 0) rfl rfl ?_ hissue
  rw [← hu]
  show (inM s c k).syswEffect c k (fieldN (sysForm n 0).imm 0 12) v = _
  rw [(sysForm_number hn 0).1]

/-- A write that changes its context alone. -/
theorem writeStep_ctx (h : MayStep s c k) {n : Nat} (hn : n < 4096) (hknown : sysKnown n = true)
    (hroom : (s.ctxAt c k).land.length ≤ 24) {v : Word} {f : Ctx → Ctx} (hz : (inM s c k).syswCause c k n v = none)
    (hu : (inM s c k).syswEffect c k n v = (inM s c k).setCtxAt c k (f (s.ctxAt c k)))
    (hissue : (f (s.ctxAt c k)).issue = (s.ctxAt c k).issue) : s.writeStep c k n v = .next (withCtx s c k f) := by
  refine writeStep_acts h hn hknown hroom hz hu ?_
  show (((inM s c k).setCtxAt c k (f (s.ctxAt c k))).ctxAt c k).issue = none
  rw [State.ctxAt_setCtxAt_same, hissue, issue_none_of_mayStep h]

theorem syswCause_of_privileged {n : Nat} (hn : (n = 0x018 ∨ n = 0x2C0) ∧ (s.ctxAt c k).pl = 0 ∨
      (n = 0x2D0 ∨ (0x0FF ≤ n ∧ n ≤ 0x1FF)) ∧ (s.ctxAt c k).pl < 2) (v : Word) :
    s.syswCause c k n v = some ⟨cPrivilege, 0, none⟩ := by
  unfold State.syswCause
  dsimp only
  rcases hn with ⟨hn, hpl⟩ | ⟨hn, hpl⟩
  · rw [if_pos hn, if_pos (by omega)]
  · have hnot : ¬ (n = 0x018 ∨ n = 0x2C0) := by omega
    rw [if_neg hnot, if_pos hn, if_pos hpl]

/-- A register that a privilege level may write, that is neither an entry of the region table nor SYS.TSAVE, has no fault. -/
theorem syswCause_none {n : Nat} (hone : n = 0x018 ∨ n = 0x2C0 → (s.ctxAt c k).pl ≠ 0)
    (htwo : n = 0x2D0 ∨ (0x0FF ≤ n ∧ n ≤ 0x1FF) → 2 ≤ (s.ctxAt c k).pl) (hrgn : ¬ (0x040 ≤ n ∧ n ≤ 0x04F)) (hsave : n ≠ 0x204)
    (v : Word) : s.syswCause c k n v = none := by
  unfold State.syswCause
  dsimp only
  rw [if_neg, if_neg hrgn, if_neg hsave]
  split
  next h => have := hone h; omega
  next =>
    split
    next h => have := htwo h; omega
    next => exact Nat.not_lt_zero _

theorem syswCause_rgn {n : Nat} (hn : n < 16) (v : Word) :
    s.syswCause c k (0x040 + n) v = if rgnOk v then none else some ⟨cRegionInvalid, 0, none⟩ := by
  unfold State.syswCause
  dsimp only
  rw [if_neg (show ¬ (0x040 + n = 0x018 ∨ 0x040 + n = 0x2C0) by omega),
    if_neg (show ¬ (0x040 + n = 0x2D0 ∨ 0x0FF ≤ 0x040 + n ∧ 0x040 + n ≤ 0x1FF) by omega), if_neg (Nat.not_lt_zero _),
    if_pos (by omega)]

theorem syswCause_tsave {v : Word} {off : Nat} (hoff : off = v.toNat / 64 % 4096 * 64) (hfit : off + 1024 ≤ 0x40000)
    (habove : 2 * (s.core c).streamN ≤ off) : s.syswCause c k 0x204 v = none := by
  have hfield : fieldN v 6 12 * 64 = off := by rw [fieldN_eq, hoff]; norm_num
  unfold State.syswCause
  dsimp only
  rw [hfield, if_neg (by norm_num), if_neg (by omega), if_pos rfl, if_neg (by omega)]

theorem sysKnown_rgn {n : Nat} (hn : n < 16) : sysKnown (0x040 + n) = true := by
  simp only [sysKnown, Bool.or_eq_true, Bool.and_eq_true, decide_eq_true_eq]
  omega

theorem readStep_eq (h : MayStep s c k) {n : Nat} (hn : n < 4096) (hknown : sysKnown n = true) {d : BitVec 6}
    (hland : CanLand (s.ctxAt c k) d) (hissue : ((s.ctxAt c k).sysRead n).issue = (s.ctxAt c k).issue) :
    s.readStep c k n d = .next (withCtx s c k fun y =>
      { y.sysRead n with land := withLanding (y.sysRead n) .g d.toNat (s.sysValue c k n) 1 }) := by
  obtain ⟨hroom, hfree⟩ := hland
  have hheld : (s.ctxAt c k).landHeld (.g, d.toNat, 1) = false := by
    rw [Ctx.landHeld, List.any_eq_false]
    intro e he
    simp only [Bool.and_eq_true, beq_iff_eq, and_assoc]
    exact hfree e he
  have hroom0 : ¬ 24 < (s.ctxAt c k).land.length := by omega
  have hroom1 : ¬ 24 < (s.ctxAt c k).land.length + 1 := by omega
  refine registerStep_acts (u := (inM s c k).setCtxAt c k
    { (s.ctxAt c k).sysRead n with land := withLanding ((s.ctxAt c k).sysRead n) .g d.toNat (s.sysValue c k n) 1 })
    h ?_ (sysForm_taken (s.ctxAt c k) n d) rfl rfl ?_ ?_
  · simp only [State.slotCause, meanSysr, memOpIf, memOp, (sysForm_number hn d).1, hknown, legal_sysr hn, sysForm_taken, cx_inM,
      if_true]
    by_cases hd : discarded .g (sysForm n d).d.toNat = true
    · simp [landTwice, hd, hroom0]
    · have hd' : discarded .g d.toNat = false := Bool.eq_false_iff.2 hd
      simp [landTwice, sysForm, hd', hroom1, hheld]
  · show (inM s c k).modCx (fun x => (x.sysRead (fieldN (sysForm n d).imm 0 12)).landAt .g d.toNat
      (s.sysValue c k (fieldN (sysForm n d).imm 0 12)) 1) = _
    rw [(sysForm_number hn d).1, State.modCx, landAt_eq_withLanding]
    rfl
  · show (((inM s c k).setCtxAt c k _).ctxAt c k).issue = none
    rw [State.ctxAt_setCtxAt_same]
    exact hissue.trans (issue_none_of_mayStep h)

/-! ### The registers -/

/-- The lowest context that may issue. -/
theorem find_mayIssue (h : MayStep s c k) (hlow : ∀ q : Nat, q < k → s.mayIssue c q = false) :
    (List.range Config.contexts).find? (fun q => s.mayIssue c q) = some k := by
  obtain ⟨⟨-, hk⟩, hmay⟩ := h
  rw [List.find?_range_eq_some]
  exact ⟨hmay, List.mem_range.2 hk, fun q hq => by rw [hlow q hq]; rfl⟩

theorem scbaseWrite_acts (h : MayStep s c k) (hroom : (s.ctxAt c k).land.length ≤ 24) (hpl : (s.ctxAt c k).pl ≠ 0) (v : Word)
    {l : Nat} {la : Launch} (hl : (s.core c).launch = some l) (hla : s.launch? l = some la) :
    ∃ t, exec (.scbaseWrite c k v) s = .next t ∧ t.mem = s.mem ∧
      t.launch? l = some { la with scbase := v &&& 0x00FFFFFFFFFFFFF0 } := by
  have heffect : (inM s c k).syswEffect c k 0x018 v =
      (inM s c k).modLaunch l fun y => { y with scbase := v &&& 0x00FFFFFFFFFFFFF0 } := by
    have hl' : ((inM s c k).core c).launch = some l := hl
    simp only [State.syswEffect, hl']
  refine ⟨_, writeStep_acts h (by decide) (by decide) hroom (syswCause_none (fun _ => hpl) (by omega) (by omega) (by omega) v)
    heffect ?_, ?_, ?_⟩
  · show ((((inM s c k).modLaunch l _).core _).ctx _).issue = none
    rw [State.core, State.modLaunch_cores, State.modLaunch_turn]
    exact (issue_none_of_mayStep h)
  · exact State.modLaunch_mem _ _ _
  · exact launch?_modLaunch (s := inM s c k) hla _

theorem Core.ctxs_modCells (x : Core) (sq : BitVec 4) (g : Nat → Cell → Cell) : (x.modCells sq g).ctxs = x.ctxs :=
  foldl_keeps (w := fun (k : Core) n => k.setCell n (g n (k.cell n))) (r := Core.ctxs) (fun _ _ => rfl) (cellsOf sq) x

theorem rgnWrite_acts (h : MayStep s c k) (hroom : (s.ctxAt c k).land.length ≤ 24) {v : Word} {n : Nat} (hn : n < 16)
    (hok : rgnOk v = true) : ∃ t, exec (.rgnWrite c k n v) s = .next t ∧ t.mem = s.mem ∧ ∀ q : Nat, q < 256 →
      get 0 ((t.core c).cell q).rgn n =
        if bit (s.ctxAt c k).sqm (squadOf q) then v &&& rgnMask else get 0 ((s.core c).cell q).rgn n := by
  have heffect : (inM s c k).syswEffect c k (0x040 + n) v = (inM s c k).setCore c ((s.core c).modCells (s.ctxAt c k).sqm
      fun _ y => { y with rgn := set 0 n (v &&& rgnMask) y.rgn }) := by
    interval_cases n <;> rfl
  refine ⟨{ s with cores := ((inM s c k).setCore c ((s.core c).modCells (s.ctxAt c k).sqm
      fun _ y => { y with rgn := set 0 n (v &&& rgnMask) y.rgn })).cores }, ?_, rfl, fun q hq => ?_⟩
  · show (if 16 ≤ n then _ else s.writeStep c k (0x040 + n) v) = _
    rw [if_neg (Nat.not_le.2 hn)]
    refine writeStep_acts h (by omega) (sysKnown_rgn hn) hroom ((syswCause_rgn hn v).trans (if_pos hok)) heffect ?_
    show ((((inM s c k).setCore c _).core c).ctx k).issue = none
    rw [State.core_setCore_same, Core.ctx, Core.ctxs_modCells]
    exact issue_none_of_mayStep h
  · show get 0 ((((inM s c k).setCore c _).core c).cell q).rgn n = _
    rw [State.core_setCore_same, Core.cell_modCells]
    by_cases hsq : bit (s.ctxAt c k).sqm (squadOf q) = true
    · rw [if_pos (mem_cellsOf.2 ⟨hq, hsq⟩), if_pos hsq, get_set_same]
    · rw [if_neg fun hmem => hsq (mem_cellsOf.1 hmem).2, if_neg hsq]

theorem rgnWrite_traps (h : MayStep s c k) (hroom : (s.ctxAt c k).land.length ≤ 24) {v : Word} {n : Nat} (hn : n < 16)
    (hbad : rgnOk v = false) : exec (.rgnWrite c k n v) s =
      .next { (inM s c k).trapIssue ⟨cRegionInvalid, 0, none⟩ with turn := s.turn } := by
  show (if 16 ≤ n then _ else s.writeStep c k (0x040 + n) v) = _
  rw [if_neg (Nat.not_le.2 hn)]
  refine writeStep_traps h (by omega) (sysKnown_rgn hn) hroom ((syswCause_rgn hn v).trans (if_neg ?_))
  rw [hbad]
  exact Bool.false_ne_true

theorem sqgeomWrite_acts (h : MayStep s c k) (hroom : (s.ctxAt c k).land.length ≤ 24) (v : Word)
    (hfree : s.geomWaits (s.ctxAt c k) c k (.sysw (sysForm 0x020 0)) = false) : exec (.sqgeomWrite c k v) s =
      .next (withCtx s c k fun y => { y with sqgeom := merged y.sqgeom v (geomMask y.sqm) }) := by
  show (if s.geomWaits (s.ctxAt c k) c k (.sysw (sysForm 0x020 0)) then _ else s.writeStep c k 0x020 v) = _
  rw [hfree, if_neg Bool.false_ne_true]
  exact writeStep_ctx h (by decide) (by decide) hroom (syswCause_none (by omega) (by omega) (by omega) (by omega) v) rfl rfl

theorem evstatWrite_acts (h : MayStep s c k) (hroom : (s.ctxAt c k).land.length ≤ 24) (v : Word)
    (hlow : ∀ q : Nat, q < k → s.mayIssue c q = false) : exec (.evstatWrite c v) s = .next (s.setCore c { s.core c with
      evOvf := (s.core c).evOvf && !v.getLsbD 31
      evDrop := if v.getLsbD 31 then 0 else (s.core c).evDrop
      evEng := (s.core c).evEng &&& ~~~(v.extractLsb' 8 7) }) := by
  have hexec : exec (.evstatWrite c v) s = s.writeStep c k 0x010 v := by
    show execEvstatWrite c v s = _
    unfold execEvstatWrite
    rw [if_neg (Nat.not_le.2 (show c < Config.cores from h.1.1)), find_mayIssue h hlow]
  rw [hexec]
  refine writeStep_acts h (by decide) (by decide) hroom (syswCause_none (by omega) (by omega) (by omega) (by omega) v) rfl ?_
  show ((((inM s c k).setCore c _).core c).ctx k).issue = none
  rw [State.core_setCore_same]
  exact issue_none_of_mayStep h

theorem ewgrantWrite_acts (h : MayStep s c k) (hroom : (s.ctxAt c k).land.length ≤ 24) (hpl : 2 ≤ (s.ctxAt c k).pl) (v : Word) :
    exec (.ewgrantWrite c k v) s = .next (s.setCore c { s.core c with ewgrant := v &&& 0x1FFF1FFF }) := by
  refine writeStep_acts h (by decide) (by decide) hroom (syswCause_none (by omega) (fun _ => hpl) (by omega) (by omega) v) rfl ?_
  show ((((inM s c k).setCore c _).core c).ctx k).issue = none
  rw [State.core_setCore_same]
  exact issue_none_of_mayStep h

theorem stcfgWrite_acts (h : MayStep s c k) (hroom : (s.ctxAt c k).land.length ≤ 24) (v : Word) :
    exec (.stcfgWrite c k v) s =
      .next (if (s.ctxAt c k).pl = 2 then { s with starter := { s.starter with stcfg := v &&& 0xFFFF } } else s) := by
  have heffect : (inM s c k).syswEffect c k 0x2C1 v = if (s.ctxAt c k).pl = 2
      then { inM s c k with starter := { s.starter with stcfg := v &&& 0xFFFF } } else inM s c k := rfl
  have hwrite := writeStep_acts h (by decide) (by decide) hroom
    (syswCause_none (by omega) (by omega) (by omega) (by omega) v) heffect (by split <;> exact issue_none_of_mayStep h)
  refine hwrite.trans ?_
  split <;> rfl

theorem qbellWrite_acts (h : MayStep s c k) (hroom : (s.ctxAt c k).land.length ≤ 24) (hpl : (s.ctxAt c k).pl ≠ 0) {v : Word}
    {u : State} (hu : u = (inM s c k).doorbell (v.toNat % 64)) (hissue : u.cx.issue = none) :
    exec (.qbellWrite c k v) s = .next { u with turn := s.turn } := by
  refine writeStep_acts h (by decide) (by decide) hroom (syswCause_none (fun _ => hpl) (by omega) (by omega) (by omega) v) ?_ hissue
  show (inM s c k).doorbell (fieldN v 0 6) = u
  rw [fieldN_low, hu]
  norm_num

/-- Settles O50, register by register. -/
theorem registerEvents : Obligations.RegisterEvents := by
  rintro s c k v x h rfl hroom
  have hplain : ∀ n : Nat, n ∈ [0x030, 0x011] → (inM s c k).syswCause c k n v = none := fun n hn =>
    syswCause_none (by simp at hn; omega) (by simp at hn; omega) (by simp at hn; omega) (by simp at hn; omega) v
  refine ⟨fun hpl l la hl hla => scbaseWrite_acts h hroom hpl v hl hla, fun hpl => ?_, fun n hn hok => rgnWrite_acts h hroom hn hok,
    fun n hn hbad => rgnWrite_traps h hroom hn hbad, sqgeomWrite_acts h hroom v, ?_, evstatWrite_acts h hroom v, ?_,
    fun off hoff hfit habove => ?_, fun hpl u hu hissue _ => qbellWrite_acts h hroom hpl hu hissue, stcfgWrite_acts h hroom v,
    fun hpl => ewgrantWrite_acts h hroom hpl v, fun hpl => ?_, fun d hd => ⟨?_, ?_, ?_, ?_, ?_⟩⟩
  · exact writeStep_traps h (by decide) (by decide) hroom (syswCause_of_privileged (.inl ⟨.inl rfl, hpl⟩) v)
  · exact writeStep_ctx h (by decide) (by decide) hroom (hplain _ (by decide)) rfl rfl
  · exact writeStep_ctx h (by decide) (by decide) hroom (hplain _ (by decide)) rfl rfl
  · exact writeStep_ctx h (by decide) (by decide) hroom (syswCause_tsave hoff hfit habove) rfl rfl
  · exact writeStep_traps h (by decide) (by decide) hroom (syswCause_of_privileged (.inr ⟨.inl rfl, hpl⟩) v)
  · exact readStep_eq h (by decide) (by decide) hd rfl
  · exact readStep_eq h (by decide) (by decide) hd rfl
  · exact readStep_eq h (by decide) (by decide) hd rfl
  · exact readStep_eq h (by decide) (by decide) hd rfl
  · exact readStep_eq h (by decide) (by decide) hd rfl

end Sys2Proof.Machine
end

section
/-! SUPPORT. What the shared operations of the slots leave of privileges, domains and register files (R241, R385): all of it. -/

namespace Sys2Proof.Machine

/-- A context's privilege and its general, predicate and lap registers. -/
def Ctx.files (x : Ctx) : Word × SMap Word × SMap Bool × SMap Word := (x.priv, x.g, x.p, x.lap)

/-- A launch's privilege and domain. -/
def Launch.standing (x : Launch) : Nat × Nat := (x.priv, x.dom)

/-- The privileges and register files of all contexts, and the privileges and domains of all launches. -/
def State.rights (s : State) : (Nat → Nat → Word × SMap Word × SMap Bool × SMap Word) × (Nat → Option (Nat × Nat)) :=
  (fun c k => (s.ctxAt c k).files, fun l => (s.launch? l).map Launch.standing)

variable {s : State}

/-! ### The parts of the state -/

theorem State.rights_congr {t : State} (hctx : ∀ c k, (t.ctxAt c k).files = (s.ctxAt c k).files)
    (hlaunch : ∀ l, (t.launch? l).map Launch.standing = (s.launch? l).map Launch.standing) : t.rights = s.rights :=
  Prod.ext (funext fun c => funext fun k => hctx c k) (funext hlaunch)

theorem State.rights_of_parts {t : State} (hcores : t.cores = s.cores) (hlaunches : t.launches = s.launches) : t.rights = s.rights :=
  State.rights_congr (fun c k => by rw [State.ctxAt, State.core, hcores]; rfl) fun l => by rw [State.launch?, hlaunches]; rfl

/-- A core whose contexts keep their files. -/
theorem State.setCore_rights {c : Nat} {x : Core} (h : ∀ k, (x.ctx k).files = (s.ctxAt c k).files) : (s.setCore c x).rights = s.rights := by
  refine State.rights_congr (fun a k => ?_) fun _ => rfl
  by_cases ha : a = c
  · subst ha
    rw [State.ctxAt, State.core_setCore_same]
    exact h k
  · rw [State.ctxAt, State.core_setCore_other _ ha]
    rfl

/-- A context that keeps its files. -/
theorem Core.setCtx_files {x : Core} {k : Nat} {y : Ctx} (h : y.files = (x.ctx k).files) (n : Nat) :
    ((x.setCtx k y).ctx n).files = (x.ctx n).files := by
  by_cases hn : n = k
  · subst hn
    rw [Core.ctx_setCtx_same, h]
  · rw [Core.ctx_setCtx_other _ hn]

/-- A core whose contexts stay. -/
@[simp] theorem State.setCore_rights_of_ctxs {c : Nat} {x : Core} (h : x.ctxs = (s.core c).ctxs) : (s.setCore c x).rights = s.rights :=
  State.setCore_rights fun k => by rw [Core.ctx, h]; rfl

@[simp] theorem State.modCore_rights {f : Core → Core} (h : (f s.cc).ctxs = s.cc.ctxs) : (s.modCore f).rights = s.rights :=
  State.setCore_rights_of_ctxs h

@[simp] theorem State.setCtxAt_rights {c k : Nat} {y : Ctx} (h : y.files = (s.ctxAt c k).files) :
    (s.setCtxAt c k y).rights = s.rights := by
  refine State.rights_congr (fun a b => ?_) fun _ => rfl
  by_cases hab : a = c ∧ b = k
  · obtain ⟨rfl, rfl⟩ := hab
    rw [State.ctxAt_setCtxAt_same, h]
  · rw [State.ctxAt_setCtxAt_other _ hab]

@[simp] theorem State.modCtxAt_rights {c k : Nat} {f : Ctx → Ctx} (h : ∀ x, (f x).files = x.files) :
    (s.modCtxAt c k f).rights = s.rights := State.setCtxAt_rights (h _)

@[simp] theorem State.modCx_rights {f : Ctx → Ctx} (h : ∀ x, (f x).files = x.files) : (s.modCx f).rights = s.rights :=
  State.setCtxAt_rights (h _)

theorem lookup_map_other {l a : Nat} (h : a ≠ l) (x : Launch) (ps : List (Nat × Launch)) :
    (ps.map fun p => if p.1 = l then (l, x) else p).lookup a = ps.lookup a := by
  induction ps with
  | nil => rfl
  | cons p ps ih =>
    obtain ⟨n, y⟩ := p
    by_cases hn : n = l
    · subst hn
      simp [List.lookup_cons, ih, beq_eq_false_iff_ne.2 h]
    · simp [List.lookup_cons, ih, hn]

@[simp] theorem State.modLaunch_rights {l : Nat} {f : Launch → Launch} (h : ∀ x, (f x).standing = x.standing) :
    (s.modLaunch l f).rights = s.rights := by
  refine State.rights_congr (fun c k => by rw [State.ctxAt, State.core, State.modLaunch_cores]; rfl) fun a => ?_
  cases hl : s.launch? l with
  | none => rw [State.modLaunch, hl]
  | some x =>
    by_cases ha : a = l
    · subst ha
      rw [launch?_modLaunch hl, hl, Option.map_some, Option.map_some, h]
    · rw [State.modLaunch, hl]
      exact congrArg _ (lookup_map_other ha _ _)

theorem foldl_rights {α : Type} {f : State → α → State} (h : ∀ t x, (f t x).rights = t.rights) (xs : List α) (s : State) :
    (xs.foldl f s).rights = s.rights := foldl_keeps (r := State.rights) h xs s

/-! ### Contexts -/

@[simp] theorem Ctx.landAt_files (x : Ctx) (k : LReg) (n : Nat) (v : Word) (lat : Nat) : (x.landAt k n v lat).files = x.files := by
  rw [Ctx.landAt_eq]
  rfl

@[simp] theorem Ctx.noteError_files (x : Ctx) (b : BadAt) : (x.noteError b).files = x.files := by
  unfold Ctx.noteError
  split <;> rfl

@[simp] theorem Ctx.noteWatch_files (x : Ctx) (n : Nat) (w : Word) : (x.noteWatch n w).files = x.files := by
  unfold Ctx.noteWatch
  split <;> rfl

@[simp] theorem Ctx.pending_files (x : Ctx) (p : Pending) : (x.pending p).files = x.files := by
  unfold Ctx.pending
  split <;> rfl

@[simp] theorem Ctx.sysRead_files (x : Ctx) (n : Nat) : (x.sysRead n).files = x.files := by
  unfold Ctx.sysRead
  split <;> rfl

@[simp] theorem Ctx.kill_files (x : Ctx) : x.kill.files = x.files := by
  unfold Ctx.kill
  split <;> rfl

/-! ### Events, kills and traps (R121, R360, R411) -/

@[simp] theorem State.events_rights (c k : Nat) (pc : CodeAddr) (slot : Nat) (vt : Word) (evs : List CellEv) :
    (s.events c k pc slot vt evs).rights = s.rights := by
  unfold State.events
  exact (State.modCtxAt_rights (by intros; rfl)).trans (State.setCore_rights_of_ctxs (Core.foldl_appendEvent_ctxs _ _))

@[simp] theorem State.raise_rights (evs : List CellEv) : (s.raise evs).rights = s.rights := by
  unfold State.raise
  split
  · rfl
  · split
    · exact State.modCx_rights (by intros; rfl)
    · exact State.events_rights _ _ _ _ _ _

theorem Core.ctx_killed_files (k : Core) (n : Nat) : (get {} (k.ctxs.map fun (p : Nat × Ctx) => (p.1, p.2.kill)) n).files = (k.ctx n).files := by
  rw [Core.ctx]
  induction k.ctxs with
  | nil => rfl
  | cons p ps ih =>
    simp only [List.map_cons, get]
    split
    · exact Ctx.kill_files _
    · exact ih

@[simp] theorem State.beginKill_rights (l state : Nat) (cause : BitVec 16) : (s.beginKill l state cause).rights = s.rights := by
  unfold State.beginKill
  split
  · rfl
  · split
    · rfl
    · rfl
    · refine (State.modLaunch_rights (by intros; rfl)).trans (foldl_rights (fun t c => ?_) _ _)
      exact State.setCore_rights fun k => Core.ctx_killed_files (t.core c) k

@[simp] theorem flushStream_rights (c k : Nat) (st : Stream) : (flushStream c k s st).rights = s.rights := by
  unfold flushStream
  split
  · rfl
  · exact State.events_rights _ _ _ _ _ _

@[simp] theorem State.flushStreams_rights (c k : Nat) : (s.flushStreams c k).rights = s.rights := by
  unfold State.flushStreams
  exact (State.modCtxAt_rights (by intros; rfl)).trans (foldl_rights (fun _ _ => flushStream_rights _ _ _) _ _)

@[simp] theorem State.halt_rights (c k : Nat) : (s.halt c k).rights = s.rights := by
  have hctx : (s.modCtxAt c k fun x => { x with halted := true, haltReq := false, pend := x.pend.filter fun p => p.cause != cHalt }).rights =
    s.rights := State.modCtxAt_rights (by intros; rfl)
  unfold State.halt
  exact (State.rights_of_parts rfl rfl).trans hctx

@[simp] theorem State.wedge_rights (c k : Nat) (t : Trap) (cause : BitVec 16) : (s.wedge c k t cause).rights = s.rights := by
  have hfreeze : (s.modCtxAt c k fun x => x.freezeAt t).rights = s.rights := State.modCtxAt_rights (by intros; rfl)
  have hstop : ((s.modCtxAt c k fun x => x.freezeAt t).modCtxAt c k fun x => { x with run := .wedged }).rights = s.rights :=
    (State.modCtxAt_rights (by intros; rfl)).trans hfreeze
  unfold State.wedge
  dsimp only
  split
  · exact hstop
  · split
    · exact (State.halt_rights _ _).trans hfreeze
    · exact (State.beginKill_rights _ _ _).trans hstop

theorem Core.ctx_writeCmem (x : Core) (off : Nat) (bs : List Byte) (k : Nat) : (x.writeCmem off bs).ctx k = x.ctx k := rfl

@[simp] theorem State.takeTrap_rights (c k : Nat) (t : Trap) : (s.takeTrap c k t).rights = s.rights := by
  have hflush : (s.flushStreams c k).rights = s.rights := State.flushStreams_rights c k
  unfold State.takeTrap
  dsimp only
  split
  · exact (State.wedge_rights _ _ _ _).trans hflush
  · split
    · exact (State.wedge_rights _ _ _ _).trans ((State.modCtxAt_rights (by intros; rfl)).trans hflush)
    · refine (State.setCore_rights fun n => ?_).trans hflush
      refine (Core.setCtx_files ?_ n).trans (congrArg Ctx.files (Core.ctx_writeCmem _ _ _ n))
      rw [Core.ctx_writeCmem]
      rfl

@[simp] theorem State.noteBadOf_rights (home c k : Nat) (b : BadAt) : (s.noteBadOf home c k b).rights = s.rights := by
  unfold State.noteBadOf
  refine (State.modCtxAt_rights fun x => Ctx.noteError_files x b).trans (State.setCore_rights_of_ctxs ?_)
  unfold Core.countUncorr
  split <;> rfl

@[simp] theorem State.noteRace_rights (c k : Nat) (cz : Cause) : (s.noteRace c k cz).rights = s.rights := by
  unfold State.noteRace
  split
  · exact State.modCtxAt_rights (by intros; rfl)
  · rfl

@[simp] theorem State.complete_rights : s.complete.rights = s.rights := by
  unfold State.complete
  split
  · exact State.modCx_rights (by intros; rfl)
  · rfl

@[simp] theorem State.completeUnless_rights : s.completeUnless.rights = s.rights := by
  unfold State.completeUnless
  (repeat' split) <;> simp

@[simp] theorem State.modIssue_rights (f : Issue → Issue) : (s.modIssue f).rights = s.rights := by
  unfold State.modIssue
  split
  · exact State.modCx_rights (by intros; rfl)
  · rfl

@[simp] theorem State.faultAfter_rights (cz : Cause) : (s.faultAfter cz).rights = s.rights := by
  unfold State.faultAfter
  dsimp only
  split
  · exact (State.takeTrap_rights _ _ _).trans (State.noteRace_rights _ _ _)
  · exact (State.modCx_rights (by intros; rfl)).trans (State.noteRace_rights _ _ _)

/-! ### Translation and memory (R305, R389 to R393) -/

@[simp] theorem State.installTlb_rights (c dom va : Nat) (x : Xlat) (path : List (Nat × Nat × Word)) :
    (s.installTlb c dom va x path).rights = s.rights := by
  unfold State.installTlb
  exact State.setCore_rights_of_ctxs rfl

@[simp] theorem State.drawFree_rights : s.drawFree.2.rights = s.rights := State.rights_of_parts rfl rfl

@[simp] theorem State.pickTables_rights (die dom va : Nat) : (s.pickTables die dom va).2.rights = s.rights := by
  unfold State.pickTables
  dsimp only
  split
  · exact State.drawFree_rights
  · rfl

theorem State.translate_rights (a : Accessor) (va : Nat) : (s.translate a va).2.rights = s.rights := by
  unfold State.translate
  split
  · rfl
  · split
    · rfl
    · dsimp only
      (repeat' split) <;> simp

/-- What a pass keeps of the state that it carries. -/
theorem foldl_snd_rights {α β : Type} {w : α × State → β → α × State} (hw : ∀ acc p, (w acc p).2.rights = acc.2.rights)
    {ps : List β} {a : α} {r : α} {t : State} (h : ps.foldl w (a, s) = (r, t)) : t.rights = s.rights := by
  have hfold := foldl_keeps (r := fun acc : α × State => acc.2.rights) hw ps (a, s)
  rw [h] at hfold
  exact hfold

theorem State.translateAll_rights (a : Accessor) (need : Need) (ps : List (Nat × Nat)) :
    (s.translateAll a need ps).2.rights = s.rights := by
  unfold State.translateAll
  dsimp only
  generalize hf : ps.foldl _ (Except.ok [], s) = q
  obtain ⟨r, t⟩ := q
  have ht : t.rights = s.rights := by
    refine foldl_snd_rights (fun acc p => ?_) hf
    rcases acc with ⟨_ | xs, u⟩
    · rfl
    · have hu := State.translate_rights (s := u) a p.1
      dsimp only
      split
      next he => rw [he] at hu; exact hu
      next he => rw [he] at hu; exact hu
  cases r with
  | error e => exact ht
  | ok xs => dsimp only; split <;> exact ht

theorem State.recordLine_rights {line : Nat} {isWrite : Bool} {r : LineRec} {t : State} (h : s.recordLine line isWrite r = .ok t) :
    t.rights = s.rights := by
  unfold State.recordLine at h
  split at h
  · cases h
    exact State.rights_of_parts rfl rfl
  · cases h

theorem State.recordAll_rights {r : Option LineRec} {isWrite : Bool} {xs : List (Loc × Nat × Word)} {t : State}
    (h : s.recordAll r isWrite xs = .ok t) : t.rights = s.rights := by
  unfold State.recordAll at h
  split at h
  · cases h
    rfl
  next r' =>
    refine foldl_inv (fun acc : Except AccErr State => ∀ t, acc = .ok t → t.rights = s.rights) _ (fun acc x hacc t ht => ?_) xs (.ok s)
      (fun t ht => by cases ht; rfl) t h
    split at ht
    next u pa =>
      split at ht
      · split at ht
        next heq => 
          cases ht
          exact (State.recordLine_rights heq).trans (hacc _ rfl)
        next => cases ht
      · cases ht
        exact hacc _ rfl
    next => exact hacc t ht

theorem State.readGlobal_rights (w : Client) (need : Need) (va n : Nat) : (s.readGlobal w need va n).2.rights = s.rights := by
  have htr := State.translateAll_rights (s := s) w.acc need (pieces va n)
  unfold State.readGlobal
  split
  next heq => rw [heq] at htr; exact htr
  next heq =>
    rw [heq] at htr
    split
    · exact htr
    next hrec =>
      split <;> exact (State.recordAll_rights hrec).trans htr

theorem State.writeLoc_rights (l : Loc) (bs : List Byte) : (s.writeLoc l bs).rights = s.rights := by
  unfold State.writeLoc
  split
  · exact State.rights_of_parts rfl rfl
  · rfl

/-- A write to global memory: in the state that it gives, and in the one it leaves where it fails. -/
theorem State.writeGlobal_rights (w : Client) (need : Need) (va : Nat) (bs : List Byte) :
    (∀ t, (s.writeGlobal w need va bs).1 = .ok t → t.rights = s.rights) ∧ (s.writeGlobal w need va bs).2.rights = s.rights := by
  have htr := State.translateAll_rights (s := s) w.acc need (pieces va bs.length)
  unfold State.writeGlobal
  split
  next heq => rw [heq] at htr; exact ⟨nofun, htr⟩
  next heq =>
    rw [heq] at htr
    split
    · exact ⟨nofun, htr⟩
    next u hrec =>
      refine ⟨fun t ht => ?_, htr⟩
      cases ht
      exact (foldl_keeps (r := fun acc : State × List Byte => acc.1.rights)
        (fun acc x => State.writeLoc_rights _ _) _ _).trans ((State.recordAll_rights hrec).trans htr)

theorem State.ctxAccErr_rights (c k : Nat) (ea : Word) (isWrite : Bool) (e : AccErr) :
    (s.ctxAccErr c k ea isWrite e).2.rights = s.rights := by
  unfold State.ctxAccErr
  split
  · rfl
  · split
    · exact State.noteBadOf_rights _ _ _ _
    · rfl

theorem State.ctxRead_rights (c : Nat) (w : Client) (ea : Word) (n : Nat) : (s.ctxRead c w ea n).2.rights = s.rights := by
  unfold State.ctxRead
  split
  · exact State.readGlobal_rights _ _ _ _
  · split <;> rfl
  · split
    · split <;> rfl
    · rfl
  · rfl

theorem State.ctxWrite_rights (c : Nat) (w : Client) (ea : Word) (bs : List Byte) :
    (∀ t, (s.ctxWrite c w ea bs).1 = .ok t → t.rights = s.rights) ∧ (s.ctxWrite c w ea bs).2.rights = s.rights := by
  unfold State.ctxWrite
  split
  · exact State.writeGlobal_rights _ _ _ _
  · refine ⟨fun t ht => ?_, rfl⟩
    cases ht
    exact State.setCore_rights_of_ctxs rfl
  · exact ⟨nofun, rfl⟩

theorem State.operandRead_rights (c k : Nat) (ea : Word) (n : Nat) : (s.operandRead c k ea n).2.rights = s.rights := by
  have hread := State.ctxRead_rights (s := s) c (s.ctxClient c k) ea n
  unfold State.operandRead
  split
  · rfl
  · split
    · rfl
    · split
      next heq => rw [heq] at hread; exact hread
      next heq =>
        rw [heq] at hread
        exact (State.ctxAccErr_rights _ _ _ _ _).trans hread

theorem State.amoAccess_rights (ea : Word) (n : Nat) (f : Nat → Nat) : (s.amoAccess ea n f).2.rights = s.rights := by
  unfold State.amoAccess
  dsimp only
  split
  · split
    · rfl
    · exact State.setCore_rights_of_ctxs rfl
  next va _ =>
    have htr := State.translateAll_rights (s := s) (s.ctxAccessor s.turn.core s.turn.ctx) .write [(va, n)]
    split
    next heq => rw [heq] at htr; exact htr
    next heq =>
      rw [heq] at htr
      split
      · exact htr
      · split
        · exact htr
        · exact (State.writeLoc_rights _ _).trans htr
  · rfl

@[simp] theorem State.accessFault_rights (ea : Word) (isWrite : Bool) (e : AccErr) : (s.accessFault ea isWrite e).rights = s.rights := by
  unfold State.accessFault
  exact (State.faultAfter_rights _).trans (State.ctxAccErr_rights _ _ _ _ _)

@[simp] theorem State.watchAccess_rights (kind : AccKind) (ea : Word) : (s.watchAccess kind ea).rights = s.rights := by
  unfold State.watchAccess
  split
  · dsimp only
    split
    · rfl
    · exact State.modCx_rights fun x => Ctx.noteWatch_files x _ _
  · rfl

/-! ### Flow, handles, engines and launches -/

@[simp] theorem State.transferTo_rights (t : Word) : (s.transferTo t).rights = s.rights := by
  unfold State.transferTo
  split
  · exact State.modIssue_rights _
  · exact State.modCx_rights (by intros; rfl)

@[simp] theorem State.branchTo_rights (t : Word) : (s.branchTo t).rights = s.rights := by
  unfold State.branchTo
  exact (State.transferTo_rights _).trans (State.modCx_rights (by intros; rfl))

@[simp] theorem State.pushLoop_rights (t : Nat) (count : BitVec 32) : (s.pushLoop t count).rights = s.rights := by
  unfold State.pushLoop
  exact State.modCx_rights (by intros; rfl)

@[simp] theorem State.advanceHandle_rights (n : Nat) (fill : Bool) (count : Nat) : (s.advanceHandle n fill count).rights = s.rights := by
  unfold State.advanceHandle
  split
  · rfl
  · split
    · rfl
    · exact State.modCx_rights (by intros; rfl)

@[simp] theorem State.progress_rights (c : Nat) : (s.progress c).rights = s.rights := by
  unfold State.progress
  split
  · rfl
  · exact State.modLaunch_rights (by intros; rfl)

@[simp] theorem State.afterBundle_rights (r : RunState) : (s.afterBundle r).rights = s.rights := by
  unfold State.afterBundle
  split
  · exact State.modIssue_rights _
  · exact State.modCx_rights (by intros; rfl)

@[simp] theorem State.addTimeline_rights (c e v : Nat) : (s.addTimeline c e v).rights = s.rights := by
  unfold State.addTimeline
  split
  · rfl
  · exact State.modLaunch_rights (by intros; rfl)

@[simp] theorem State.setEngine_rights (e : Nat) (x : Engine) : (s.setEngine e x).rights = s.rights := State.modCore_rights rfl

@[simp] theorem State.queueCopy_rights (e : Nat) (d : List Word) : (s.queueCopy e d).2.rights = s.rights := State.setEngine_rights _ _

@[simp] theorem State.queueJudge_rights (o : JudgeOp) : (s.queueJudge o).rights = s.rights := by
  unfold State.queueJudge
  exact State.modCx_rights (by intros; rfl)

@[simp] theorem State.modGraph_rights (l : Nat) (f : Graph → Graph) : (s.modGraph l f).rights = s.rights := by
  unfold State.modGraph
  exact State.modLaunch_rights (by intros; rfl)

theorem Core.ctx_get_alter {m : SMap Core} {f : Core → Core} (hf : ∀ x, (f x).ctxs = x.ctxs) (n c k : Nat) :
    ((get {} (alter {} n f m) c).ctx k) = (get {} m c).ctx k := by
  rw [alter, get_set]
  split
  next h => rw [Core.ctx, hf, h]; rfl
  next => rfl

@[simp] theorem State.invalidate_rights (p : TlbEntry → Bool) (q : WalkEntry → Bool) : (s.invalidate p q).rights = s.rights := by
  refine State.rights_congr (fun c k => ?_) fun _ => rfl
  have hctx := foldl_keeps (r := fun m : SMap Core => (get {} m c).ctx k)
    (w := fun m (y : Nat × Core) => alter {} y.1 (fun x => { x with tlb := x.tlb.filter fun e => !p e }) m)
    (fun m x => Core.ctx_get_alter (by intros; rfl) x.1 c k) s.cores s.cores
  exact congrArg Ctx.files hctx

/-! ### Cells (R133, R143, R425, R438) -/

@[simp] theorem State.consume_rights (b : BadAt) : (s.consume b).rights = s.rights := by
  unfold State.consume
  exact (State.faultAfter_rights _).trans (State.noteBadOf_rights _ _ _ _)

@[simp] theorem State.watchCells_rights (kind : Nat) (acc : List (Nat × Nat)) : (s.watchCells kind acc).rights = s.rights := by
  unfold State.watchCells
  split
  · exact State.modCx_rights fun x => Ctx.noteWatch_files x _ _
  · rfl

@[simp] theorem State.serveUse_rights (u : CellUse) : (s.serveUse u).rights = s.rights := by
  unfold State.serveUse
  exact State.modCore_rights (Core.ctxs_serveFold _ _ _ _ _)

@[simp] theorem State.cellsDo_rights (cells : List Nat) (out : Core → Nat → CellOut) : (s.cellsDo cells out).rights = s.rights := by
  unfold State.cellsDo
  refine (State.raise_rights _).trans (State.modCore_rights ?_)
  exact foldl_keeps (r := Core.ctxs) (w := fun (k : Core) (r : Nat × CellOut) => k.setCell r.1 ((k.cell r.1).accept r.2)) (fun _ _ => rfl) _ _

@[simp] theorem State.sendExpress_rights (c : Nat) (w : Word) (cell : Nat) (e : Express) : (s.sendExpress c w cell e).rights = s.rights := by
  unfold State.sendExpress
  split
  · exact State.rights_of_parts rfl rfl
  · rfl

theorem State.pendNumeric_rights (c k : Nat) (st : Stream) (evs : List CellEv) : (s.pendNumeric c k st evs).rights = s.rights := by
  unfold State.pendNumeric
  dsimp only
  split
  · exact State.modCtxAt_rights fun x => Ctx.pending_files x _
  · rfl

/-- A step that keeps its core's contexts. -/
theorem State.performStep_rights (c : Nat) (st : Stream) (before : List Stream) {step : Core → Stream → StepOut}
    (hstep : ∀ k st, (step k st).core.ctxs = k.ctxs) : (s.performStep c st before step).1.rights = s.rights := by
  obtain ⟨-, hserve⟩ := st.serveStep_like (s.core c) s.clock (st.start + st.done).toNat before
  unfold State.performStep
  refine (foldl_rights (fun t p => State.sendExpress_rights _ _ _ _) _ _).trans (State.setCore_rights_of_ctxs ?_)
  rw [hstep, hserve]

theorem State.startStream_rights (st : Stream) {step : Core → Stream → StepOut} (hstep : ∀ k st, (step k st).core.ctxs = k.ctxs) :
    (s.startStream st step).rights = s.rights := by
  have hperf := State.performStep_rights (s := s) s.turn.core st (s.cx.streams.filter fun b => b.level == st.level) hstep
  unfold State.startStream
  dsimp only
  split
  · exact (State.modCx_rights (by intros; rfl)).trans hperf
  · split
    · exact (State.modCx_rights (by intros; rfl)).trans ((flushStream_rights _ _ _).trans ((State.pendNumeric_rights _ _ _ _).trans hperf))
    · exact (State.modCx_rights (by intros; rfl)).trans ((State.pendNumeric_rights _ _ _ _).trans hperf)

end Sys2Proof.Machine
end

section
/-! SUPPORT. No slot instruction but a doorbell's SYSW changes a privilege, a domain or a register file (R241, R385), and the
statement about privileged instructions. -/

namespace Sys2Proof.Machine

open Sys2Proof.Claims

/-- A meaning whose effect in a state leaves privileges, domains and register files. -/
def Meaning.KeepsRights (m : Meaning) (s : State) : Prop := (m.effect s).rights = s.rights

variable {s t : State} {i : Instr}

/-! ### The shapes of the slots (R50 to R53) -/

theorem scalarTo_keepsRights (taken : Bool) (k : LReg) (d lat : Nat) (v : Word) (evs : List CellEv) :
    (scalarTo i taken k d lat v evs).KeepsRights s :=
  (State.modCx_rights fun x => Ctx.landAt_files x _ _ _ _).trans (State.raise_rights _)

theorem aluR_keepsRights (f : RForm) (lat : Nat) (op : Word → Word → Word) : (aluR i f lat op t).KeepsRights s := scalarTo_keepsRights ..

theorem aluI_keepsRights (f : IForm) (op : Word → BitVec 24 → Word) : (aluI i f op t).KeepsRights s := scalarTo_keepsRights ..

theorem aluL_keepsRights (f : LForm) (op : Word → BitVec 34 → Word) : (aluL i f op t).KeepsRights s := scalarTo_keepsRights ..

theorem predR_keepsRights (f : RForm) (q lat : Nat) (v : Ctx → Bool × Kinds) : (predR i f q lat v t).KeepsRights s :=
  scalarTo_keepsRights ..

theorem flowOp_keepsRights (f : FForm) (other : Option Cause) {effect : State → State} (h : (effect s).rights = s.rights) :
    (flowOp i f other effect t).KeepsRights s := h

theorem memOp_keepsRights (f : MForm) (lands : List (LReg × Nat × Nat)) (other : Option Cause) {effect : State → State}
    (h : (effect s).rights = s.rights) : (memOp i f lands other effect t).KeepsRights s := h

theorem memOpIf_keepsRights (bad : Bool) {m : Meaning} (h : m.KeepsRights s) : (memOpIf bad m).KeepsRights s := h

/-- A memory instruction that only lands a result. -/
theorem landing_rights (k : LReg) (n : Nat) (v : Word) (lat : Nat) : (s.modCx fun x => x.landAt k n v lat).rights = s.rights :=
  State.modCx_rights fun x => Ctx.landAt_files x _ _ _ _

theorem cellSlot_keepsRights (u : CellUse) (early : Bool → Option StepCause) {effect : State → State}
    (h : (effect s).rights = s.rights) : (cellSlot i u early effect t).KeepsRights s := by
  unfold Meaning.KeepsRights
  simp only [cellSlot]
  split
  · exact State.consume_rights _
  · exact h

theorem plainSlot_keepsRights (u : CellUse) {effect : State → State} (h : ∀ v, (effect v).rights = v.rights) :
    (plainSlot i u effect t).KeepsRights s := cellSlot_keepsRights u _ (by simp [h])

/-- A cell instruction whose results come from the cells alone. -/
theorem cellsDo_keepsRights (u : CellUse) (out : Core → Nat → CellOut) (cells : List Nat) :
    (plainSlot i u (fun v => v.cellsDo cells out) t).KeepsRights s := plainSlot_keepsRights u fun v => v.cellsDo_rights cells out

theorem vecV_keepsRights (f : CForm) (n lat : Nat) (g : Option Fmt) (op : Fmt → Nat → Nat → Nat → Nat × Kinds) :
    (vecV i f n lat g op t).KeepsRights s := cellsDo_keepsRights ..

theorem vecM_keepsRights (f : CForm) (g : Option Fmt) (op : Fmt → Nat → Nat → Bool × Kinds) : (vecM i f g op t).KeepsRights s :=
  cellsDo_keepsRights ..

theorem fpV_keepsRights (f : CForm) (n lat : Nat) (op : FloatSpec → FVal → FVal → FVal → Nat × Kinds) :
    (fpV i f n lat op t).KeepsRights s := vecV_keepsRights ..

theorem intV_keepsRights (f : CForm) (n lat : Nat) (op : Fmt → Nat → Nat → Nat → Nat) : (intV i f n lat op t).KeepsRights s :=
  vecV_keepsRights ..

theorem reduceSlot_keepsRights (f : CForm) (lat : Nat) (op : Fmt → List (Option Nat) → Nat × List Kinds) :
    (reduceSlot i f lat op t).KeepsRights s := cellsDo_keepsRights ..

theorem maskSlot_keepsRights (f : CForm) (n : Nat) (op : BitVec 16 → BitVec 16 → BitVec 16) : (maskSlot i f n op t).KeepsRights s :=
  cellsDo_keepsRights ..

theorem shiftSlot_keepsRights (f : CForm) (d : Side) : (shiftSlot i f d t).KeepsRights s := cellsDo_keepsRights ..

theorem lqSlot_keepsRights (f : CForm) (u : CellUse) (writes : Bool) (waiting : Ctx → Cell → CellOut) :
    (lqSlot i f u writes waiting t).KeepsRights s := by
  refine cellSlot_keepsRights u _ ?_
  split
  · rfl
  · dsimp only
    have hdone : ∀ (v : State) (st : Stream), (v.setCore v.turn.core (latticeDone v.cc st).core).rights = v.rights := fun v st =>
      State.setCore_rights_of_ctxs (latticeDone_keeps _ _).1
    split
    · exact (State.startStream_rights _ fun k st => (stepLattice_keeps k st).1).trans (by simp)
    · exact (State.raise_rights _).trans ((hdone _ _).trans (by simp))

/-! ### Loads, stores and atomics (R308 to R312) -/

theorem loadOp_keepsRights (f : MForm) (n : Nat) (signed : Bool) : (loadOp i f n signed t).KeepsRights s := by
  refine memOp_keepsRights _ _ _ ?_
  have hread := State.ctxRead_rights (s := s) s.turn.core (s.ctxClient s.turn.core s.turn.ctx) (effAddr f t) n
  split
  next heq =>
    rw [heq] at hread
    exact (State.accessFault_rights _ _ _).trans hread
  next heq =>
    rw [heq] at hread
    refine (State.watchAccess_rights _ _).trans ((State.modCx_rights fun x => ?_).trans hread)
    dsimp only
    split <;> exact Ctx.landAt_files x _ _ _ _

theorem storeOp_keepsRights (f : MForm) (n : Nat) : (storeOp i f n t).KeepsRights s := by
  refine memOp_keepsRights _ _ _ ?_
  obtain ⟨hdone, hleft⟩ := State.ctxWrite_rights (s := s) s.turn.core (s.ctxClient s.turn.core s.turn.ctx) (effAddr f t)
    (leBytes n (t.cx.greg f.b.toNat).toNat)
  split
  next heq =>
    rw [heq] at hleft
    exact (State.accessFault_rights _ _ _).trans hleft
  next heq =>
    rw [heq] at hdone
    exact (State.watchAccess_rights _ _).trans (hdone _ rfl)

theorem amoMean_keepsRights (f : MForm) (op : AmoOp) : (amoMean i f op t).KeepsRights s := by
  refine memOp_keepsRights _ _ _ ?_
  have hacc := State.amoAccess_rights (s := s) (effAddr f t) (amoWidth f / 8) fun m =>
    amoNew op (amoWidth f) m ((t.cx.greg f.b.toNat).toNat % 2 ^ amoWidth f) ((t.cx.greg f.d.toNat).toNat % 2 ^ amoWidth f)
  split
  next heq =>
    rw [heq] at hacc
    exact (State.accessFault_rights _ _ _).trans hacc
  next heq =>
    rw [heq] at hacc
    exact (State.watchAccess_rights _ _).trans ((landing_rights _ _ _ _).trans hacc)

/-! ### What an instruction fetches from memory before it acts (R306) -/

/-- The state that a fetch leaves, where it leaves one, has the rights of the one that it began in. -/
def Fetched.KeepsRights {α : Type} (r : Fetched α) (s : State) : Prop :=
  match r with
  | .ok _ t => t.rights = s.rights
  | .issue _ => True
  | .late t => t.rights = s.rights

/-- An instruction that acts on what it fetched. -/
theorem Fetched.effect_rights {α : Type} {r : Fetched α} {go : α → State → State} (hr : r.KeepsRights s)
    (hgo : ∀ v u, (go v u).rights = u.rights) : (r.effect s go).rights = s.rights := by
  cases r with
  | ok v u => exact (hgo v u).trans hr
  | issue cz => rfl
  | late u => exact (State.faultAfter_rights _).trans hr

theorem fetchOperand_keepsRights (ea : Word) (n al : Nat) (bad : BitVec 16) : (s.fetchOperand ea n al bad).KeepsRights s := by
  have hread := State.operandRead_rights (s := s) s.turn.core s.turn.ctx ea n
  unfold State.fetchOperand
  split
  · trivial
  · split
    next heq => rw [heq] at hread; exact hread
    next => trivial
    next heq => rw [heq] at hread; exact hread

/-- What was fetched, read as words and checked. -/
def Fetched.checked (r : Fetched (List Byte)) (ok : List Word → Bool) (bad : Cause) : Fetched (List Word) :=
  match r with
  | .ok bs t => if ok (bytesToWords bs) then .ok (bytesToWords bs) t else .issue bad
  | .issue cz => .issue cz
  | .late t => .late t

theorem Fetched.checked_keepsRights {r : Fetched (List Byte)} (hr : r.KeepsRights s) (ok : List Word → Bool) (bad : Cause) :
    (r.checked ok bad).KeepsRights s := by
  cases r with
  | ok bs u =>
    unfold Fetched.checked
    dsimp only
    split
    · exact hr
    · trivial
  | issue cz => trivial
  | late u => exact hr

theorem cpgoFetch_keepsRights (f : MForm) : (cpgoFetch f s).KeepsRights s :=
  Fetched.checked_keepsRights (fetchOperand_keepsRights ..) (fun d => copyGoOk d s.cx.sqm) ⟨cCopyInvalid, 0, none⟩

theorem gcfgFetch_keepsRights (f : MForm) : (gcfgFetch f s).KeepsRights s :=
  Fetched.checked_keepsRights (fetchOperand_keepsRights ..) gatherOk ⟨cGatherInvalid, 0, none⟩

theorem watchFetch_keepsRights (f : MForm) : (watchFetch f s).KeepsRights s :=
  Fetched.checked_keepsRights (fetchOperand_keepsRights ..) (fun ws => watchOk ws s.cx.sqm) ⟨cWatchInvalid, 0, none⟩

theorem xputFetch_keepsRights (f : MForm) : (xputFetch f s).KeepsRights s := by
  unfold xputFetch
  dsimp only
  split
  · trivial
  · split
    · trivial
    · split
      · trivial
      · exact fetchOperand_keepsRights _ _ _ _

theorem progFetch_keepsRights (f : MForm) : (progFetch f s).KeepsRights s := by
  have h := fetchOperand_keepsRights (s := s) (s.cx.greg f.a.toNat) (16 * fieldN f.imm 0 8) 16 cMisaligned
  unfold progFetch
  split
  next => trivial
  next heq => rw [heq] at h; exact h
  next heq =>
    rw [heq] at h
    dsimp only
    repeat' split
    · trivial
    · trivial
    · trivial
    · trivial
    · exact h

theorem bsendFetch_keepsRights (f : MForm) : (bsendFetch f s).KeepsRights s := by
  have h := fetchOperand_keepsRights (s := s) (s.cx.greg f.a.toNat) 8 8 cMisaligned
  unfold bsendFetch
  dsimp only
  split
  · trivial
  · split
    · trivial
    · split
      next => trivial
      next heq => rw [heq] at h; exact h
      next bs u heq =>
        rw [heq] at h
        have hpayload := fetchOperand_keepsRights (s := u) (s.cx.greg f.b.toNat) (batonDesc (BitVec.ofNat 64 (leNat bs))).len 8 cMisaligned
        split
        · trivial
        · split
          · trivial
          · split
            · trivial
            · split
              · trivial
              · split
                next heq' => rw [heq'] at hpayload; exact Eq.trans hpayload h
                next => trivial
                next heq' => rw [heq'] at hpayload; exact Eq.trans hpayload h

/-! ### The system instructions (R241, R336 to R342) -/

/-- A write of a system register, but for a doorbell. -/
theorem State.syswEffect_rights (c k n : Nat) (v : Word) (hn : n ≠ 0x2C0) : (s.syswEffect c k n v).rights = s.rights := by
  have hctx : ∀ {y : Ctx}, y.files = (s.ctxAt c k).files → (s.setCtxAt c k y).rights = s.rights := State.setCtxAt_rights
  unfold State.syswEffect
  dsimp only
  split
  · exact State.setCore_rights_of_ctxs rfl
  · exact hctx rfl
  · exact hctx rfl
  · split
    · exact State.modLaunch_rights (by intros; rfl)
    · rfl
  · exact hctx rfl
  · exact hctx rfl
  · exact hctx rfl
  · exact absurd rfl hn
  · split
    · exact State.rights_of_parts rfl rfl
    · rfl
  · exact State.setCore_rights_of_ctxs rfl
  · exact hctx rfl
  · split
    · exact State.setCore_rights_of_ctxs (Core.ctxs_modCells _ _ _)
    · split
      · exact hctx rfl
      · rfl

theorem Core.ctxs_modTowers (x : Core) (sq : BitVec 4) (g : Nat → Tower → Tower) : (x.modTowers sq g).ctxs = x.ctxs :=
  foldl_keeps (w := fun (k : Core) n => k.setTower n (g n (k.tower n))) (r := Core.ctxs) (fun _ _ => Core.ctxs_setTower _ _ _) (cellsOf sq) x

theorem Core.ctxs_powerLayer (k : Core) (x : Ctx) (n l : Nat) (due : Nat × Nat) (p : LayerPower) :
    (k.powerLayer x n l due p).ctxs = k.ctxs := by
  unfold Core.powerLayer
  split
  · exact Core.ctxs_setTower _ _ _
  · rfl

/-! ### Every slot instruction -/

theorem meanYield_keepsRights (f : FForm) : (meanYield f t).KeepsRights s := by
  have hdrain : ∀ v : State, v.rights = s.rights →
      (if v.cx.drainReq && v.cx.depth == 0 then v.afterBundle .drained else v).rights = s.rights := by
    intro v hv
    split
    · exact (State.afterBundle_rights _).trans hv
    · exact hv
  exact hdrain _ ((State.progress_rights _).trans (State.modCx_rights (by intros; rfl)))

theorem meanFront_keepsRights (f : MForm) : (meanFront f t).KeepsRights s := by
  unfold Meaning.KeepsRights meanFront
  dsimp only [memOp]
  split
  · exact State.modCx_rights fun x => Ctx.landAt_files _ _ _ _ _
  · rfl

theorem meanGidx_keepsRights (f : MForm) : (meanGidx f t).KeepsRights s := by
  unfold Meaning.KeepsRights meanGidx
  dsimp only [memOp]
  split
  · rfl
  · exact State.modCore_rights rfl

theorem meanTpwr_keepsRights (f : MForm) : (meanTpwr f t).KeepsRights s := by
  refine memOpIf_keepsRights _ (memOp_keepsRights _ _ _ (State.modCore_rights ?_))
  exact foldl_keeps (r := Core.ctxs) (fun k l => foldl_keeps (r := Core.ctxs)
    (fun k n => Core.ctxs_powerLayer _ _ _ _ _ _) _ _) _ _

theorem meanVsel_keepsRights (f : CForm) : (meanVsel f t).KeepsRights s := by
  unfold meanVsel
  exact cellsDo_keepsRights ..

theorem meanVpack_keepsRights (f : CForm) : (meanVpack f t).KeepsRights s := by
  unfold meanVpack
  exact cellsDo_keepsRights ..

theorem meanVunpk_keepsRights (f : CForm) : (meanVunpk f t).KeepsRights s := by
  unfold meanVunpk
  exact cellsDo_keepsRights ..

theorem meanVperm_keepsRights (f : CForm) : (meanVperm f t).KeepsRights s := by
  unfold meanVperm
  exact cellsDo_keepsRights ..

theorem meanVspar_keepsRights (f : CForm) : (meanVspar f t).KeepsRights s := by
  unfold meanVspar
  exact cellsDo_keepsRights ..

theorem meanMdrain_keepsRights (f : CForm) : (meanMdrain f t).KeepsRights s := by
  unfold meanMdrain
  exact cellsDo_keepsRights ..

theorem meanXrcv_keepsRights (f : CForm) : (meanXrcv f t).KeepsRights s := by
  unfold meanXrcv
  exact cellsDo_keepsRights ..

theorem meanLqmerge_keepsRights (f : CForm) : (meanLqmerge f t).KeepsRights s := by
  unfold meanLqmerge
  exact cellsDo_keepsRights ..

theorem meanVcvt_keepsRights (f : CForm) : (meanVcvt f t).KeepsRights s := by
  unfold meanVcvt
  exact vecV_keepsRights ..

theorem meanLqnear_keepsRights (f : CForm) : (meanLqnear f t).KeepsRights s := by
  unfold meanLqnear
  exact lqSlot_keepsRights ..

theorem meanLqscale_keepsRights (f : CForm) : (meanLqscale f t).KeepsRights s := by
  unfold meanLqscale
  exact lqSlot_keepsRights ..

theorem meanTldm_keepsRights (f : CForm) : (meanTldm f t).KeepsRights s := by
  unfold meanTldm
  refine cellSlot_keepsRights _ _ ?_
  split
  · rfl
  · exact (State.startStream_rights _ stepTldm_ctxs).trans (State.cellsDo_rights _ _)

theorem meanMload_keepsRights (f : CForm) : (meanMload f t).KeepsRights s := by
  unfold meanMload
  refine cellSlot_keepsRights _ _ ?_
  split
  · rfl
  · exact State.startStream_rights _ fun _ _ => rfl

theorem meanMma_keepsRights (f : CForm) : (meanMma f t).KeepsRights s := by
  unfold meanMma
  refine cellSlot_keepsRights _ _ ?_
  split
  · rfl
  · refine Eq.trans (State.startStream_rights _ ?_) (State.modCore_rights ?_)
    · exact fun k st => stepMma_ctxs k st
    · exact Core.ctxs_modCells _ _ _

theorem meanXsnd_keepsRights (f : CForm) : (meanXsnd f t).KeepsRights s := by
  unfold meanXsnd
  exact plainSlot_keepsRights _ fun v =>
    (State.cellsDo_rights _ _).trans (foldl_rights (fun _ _ => State.sendExpress_rights _ _ _ _) _ _)

/-- A meaning, where an instruction has one, keeps privileges, domains and register files. -/
def KeepsRightsIn (s : State) : Option Meaning → Prop
  | some m => m.KeepsRights s
  | none => True

theorem slotMeaning_keepsRights (hbell : ∀ f, i = .sysw f → fieldN f.imm 0 12 ≠ 0x2C0) : KeepsRightsIn s (slotMeaning i s) := by
  cases i
  case add | sub | mul | mulh | mulhn | div | divn | rem | remn | and | or | xor | shl | shr | shra | rotl | clz | popc | min |
      max | minn | maxn | sel | mov | addr | extb | exth | extw | bfx | bfi => exact aluR_keepsRights ..
  case addi | andi | ori | xori | shli | shri | shrai => exact aluI_keepsRights ..
  case li | lih => exact aluL_keepsRights ..
  case cmp | pand | por | pnot | fcmps => exact predR_keepsRights ..
  case fcvts | lapset | lapget => exact scalarTo_keepsRights ..
  case lapadd => exact (State.modCx_rights fun x => Ctx.landAt_files x _ _ _ _).trans (State.raise_rights _)
  case br | jmp => exact flowOp_keepsRights _ _ (State.branchTo_rights _)
  case ret => exact flowOp_keepsRights _ _ (State.transferTo_rights _)
  case brc | loop => exact flowOp_keepsRights _ _ (by split <;> simp)
  case call => exact (State.transferTo_rights _).trans (landing_rights _ _ _ _)
  case loopi => exact flowOp_keepsRights _ _ (State.pushLoop_rights _ _)
  case advp | advc => exact flowOp_keepsRights _ _ (State.advanceHandle_rights _ _ _)
  case rft => exact flowOp_keepsRights _ _ (State.afterBundle_rights _)
  case endOp | sleep => exact flowOp_keepsRights _ _ ((State.afterBundle_rights _).trans (State.progress_rights _))
  case breakl => exact flowOp_keepsRights _ _ ((State.branchTo_rights _).trans (State.modCx_rights (by intros; rfl)))
  case waitb | waitt | waitf => exact rfl
  case yield f => exact meanYield_keepsRights f
  case trap => exact flowOp_keepsRights _ _ (by split <;> simp)
  case ldb | ldbn | ldh | ldhn | ldw | ldwn | ldd => exact loadOp_keepsRights ..
  case stb | sth | stw | std => exact storeOp_keepsRights ..
  case amoadd | amoand | amoor | amoxor | amomin | amomax | amominn | amomaxn | amoswp | amocas => exact amoMean_keepsRights ..
  case fence | tlbsync => exact memOp_keepsRights _ _ _ rfl
  case tlinc | gcancel => exact memOp_keepsRights _ _ _ (by split <;> simp)
  case tlread => exact memOp_keepsRights _ _ _ (by split <;> simp)
  case cpstep => exact memOp_keepsRights _ _ _ (by split; exacts [State.modLaunch_rights (by intros; rfl), rfl])
  case cpstat => exact memOp_keepsRights _ _ _ ((landing_rights _ _ _ _).trans (State.setEngine_rights _ _))
  case gidx f => exact meanGidx_keepsRights f
  case front f => exact meanFront_keepsRights f
  case cpgo f => exact Fetched.effect_rights (cpgoFetch_keepsRights f) fun v u => (landing_rights _ _ _ _).trans (State.queueCopy_rights _ _)
  case gcfg f => exact Fetched.effect_rights (gcfgFetch_keepsRights f) fun v u => State.modCx_rights (by intros; rfl)
  case xput f => exact Fetched.effect_rights (xputFetch_keepsRights f) fun v u => by split; exacts [rfl, State.rights_of_parts rfl rfl]
  case watch f => exact Fetched.effect_rights (watchFetch_keepsRights f) fun v u => State.modCore_rights rfl
  case bsend f => exact Fetched.effect_rights (bsendFetch_keepsRights f) fun v u => State.queueJudge_rights _
  case prog f => exact Fetched.effect_rights (progFetch_keepsRights f) fun v u => State.queueJudge_rights _
  case tdefer => exact State.modCore_rights (Core.ctxs_modTowers _ _ _)
  case tpwr f => exact meanTpwr_keepsRights f
  case vpwr => exact State.modCore_rights (Core.ctxs_modCells _ _ _)
  case sysr => exact State.modCx_rights fun x => (Ctx.landAt_files _ _ _ _ _).trans (Ctx.sysRead_files x _)
  case sysw f => exact memOpIf_keepsRights _ (memOp_keepsRights _ _ _ (State.syswEffect_rights _ _ _ _ (hbell f rfl)))
  case tlbinv => exact memOpIf_keepsRights _ (memOp_keepsRights _ _ _ (State.invalidate_rights _ _))
  case evpop =>
    exact (State.modCx_rights fun x => (Ctx.landAt_files _ _ _ _ _).trans (Ctx.landAt_files x _ _ _ _)).trans (State.modCore_rights rfl)
  case vadd | vsub | vmul | vfma | vfms | vfnma => exact fpV_keepsRights ..
  case viadd | visub | vimul | vimad | vand | vor | vxor | vshl | vshr | vshra | vimin | vimax => exact intV_keepsRights ..
  case vmin | vmax | vabs | vneg | vcps | vrnd | vexf | vlgf | vrcpf | vrsqf | vscl => exact vecV_keepsRights ..
  case vcmp | vicmp => exact vecM_keepsRights ..
  case vrsum | vrmax => exact reduceSlot_keepsRights ..
  case kand | kor | knot | kmov => exact maskSlot_keepsRights ..
  case shn | she | shs | shw => exact shiftSlot_keepsRights ..
  case tld | tst | vbcast | kpop | mzero | mread | patch | lqdec => exact cellsDo_keepsRights ..
  case vcvt f => exact meanVcvt_keepsRights f
  case vsel f => exact meanVsel_keepsRights f
  case vpack f => exact meanVpack_keepsRights f
  case vunpk f => exact meanVunpk_keepsRights f
  case vperm f => exact meanVperm_keepsRights f
  case vspar f => exact meanVspar_keepsRights f
  case lqnear f => exact meanLqnear_keepsRights f
  case lqscale f => exact meanLqscale_keepsRights f
  case lqmerge f => exact meanLqmerge_keepsRights f
  case tldm f => exact meanTldm_keepsRights f
  case mload f => exact meanMload_keepsRights f
  case mdrain f => exact meanMdrain_keepsRights f
  case mma f => exact meanMma_keepsRights f
  case xsnd f => exact meanXsnd_keepsRights f
  case xrcv f => exact meanXrcv_keepsRights f
  all_goals trivial

theorem exec_rights {j : Issue} {x : Instr} (hi : InIssue s j) (hx : x = .nop ∨ slotMeaning x s ≠ none)
    (hbell : ∀ f, x = .sysw f → f.imm.toNat % 2 ^ 12 ≠ 0x2C0) (h : exec x s = .next t) : t.rights = s.rights := by
  rcases hx with rfl | hx
  · cases h
    rfl
  · obtain ⟨m, hm⟩ := Option.ne_none_iff_exists'.1 hx
    have hkeeps : KeepsRightsIn s (slotMeaning x s) := slotMeaning_keepsRights fun f hf => by
      rw [fieldN_low]
      exact hbell f hf
    rw [hm] at hkeeps
    rw [exec_slot hm, State.run_checked hi.1 hi.2.1] at h
    cases h
    split
    · exact State.completeUnless_rights.trans hkeeps
    · exact State.complete_rights

/-- What a context holds, where the rights of two states agree. -/
theorem State.ctxAt_of_rights (h : t.rights = s.rights) (c k : Nat) :
    (t.ctxAt c k).priv = (s.ctxAt c k).priv ∧ (t.ctxAt c k).g = (s.ctxAt c k).g ∧
      (t.ctxAt c k).p = (s.ctxAt c k).p ∧ (t.ctxAt c k).lap = (s.ctxAt c k).lap := by
  have hfiles : (t.ctxAt c k).files = (s.ctxAt c k).files := congrFun (congrFun (congrArg Prod.fst h) c) k
  simpa only [Ctx.files, Prod.mk.injEq] using hfiles

/-- A launch stays, with its privilege and domain, where the rights of two states agree. -/
theorem State.launch_of_rights (h : t.rights = s.rights) {l : Nat} {la : Launch} (hl : s.launch? l = some la) :
    ∃ la', t.launch? l = some la' ∧ la'.priv = la.priv ∧ la'.dom = la.dom := by
  have hstanding : (t.launch? l).map Launch.standing = (s.launch? l).map Launch.standing := congrFun (congrArg Prod.snd h) l
  rw [hl, Option.map_some, Option.map_eq_some_iff] at hstanding
  obtain ⟨la', hla', heq⟩ := hstanding
  exact ⟨la', hla', Prod.mk.inj heq⟩

/-! ### Below the privilege that is required (R336, R339, R340) -/

/-- A legal memory instruction without results, alone, raises the cause that it finds. -/
theorem slotCause_memOp {f : MForm} {z : Cause} {effect : State → State} {bad : Bool} (hroom : s.cx.land.length ≤ 24)
    (ht : Taken s f.pr f.pn) (hlegal : legal i = true) (hbad : bad = false) :
    s.slotCause (memOpIf bad (memOp i f [] (some z) effect s)).check = some z := by
  have hroom' : ¬ 24 < s.cx.land.length := Nat.not_lt.2 hroom
  have ht' : s.cx.pred f.pr f.pn = true := ht
  subst hbad
  simp [State.slotCause, memOpIf, memOp, hlegal, ht', landTwice, hroom']

theorem sysKnown_of_privileged {n : Nat} (hn : n = 0x018 ∨ n = 0x2C0 ∨ n = 0x2D0 ∨ (0x0FF ≤ n ∧ n ≤ 0x1FF)) :
    sysKnown n = true := by
  rcases hn with rfl | rfl | rfl | hn
  · rfl
  · rfl
  · rfl
  · simp only [sysKnown, Bool.or_eq_true, Bool.and_eq_true, decide_eq_true_eq]
    omega

/-- A domain that is neither the own one nor a child of it. -/
theorem State.ownsDomain_eq_false {own dom : Nat} (hown : own ≠ dom) (hchild : ∀ d, s.domain? dom = some d → d.parent ≠ own) :
    s.ownsDomain own dom = false := by
  unfold State.ownsDomain
  cases hdom : s.domain? dom with
  | none => simp [hown]
  | some d => simp [hown, hchild d hdom]

/-- The three ways in which a TLBINV asks for more than its context may (R339). -/
theorem State.tlbinvCause_of_privileged {kind : Nat} {a : Word}
    (h : s.cx.pl = 0 ∨ (2 ≤ kind ∧ s.cx.pl < 2) ∨
      (kind = 1 ∧ s.cx.pl = 1 ∧ s.ownsDomain (fieldN s.cx.priv 0 16) (fieldN a 0 16) = false)) :
    s.tlbinvCause kind a = some ⟨cPrivilege, 0, none⟩ := by
  unfold State.tlbinvCause
  rcases h with hpl | ⟨hkind, hpl⟩ | ⟨rfl, hpl, hown⟩
  · split <;> simp [hpl]
  · split
    · omega
    · omega
    · simp [hpl]
  · simp [hpl, hown]

theorem exec_sysw_of_privileged {f : MForm} (hissue : s.cx.issue = none) (hroom : s.cx.land.length ≤ 24) (ht : Taken s f.pr f.pn)
    (hlegal : legal (.sysw f) = true)
    (hpl : let n := f.imm.toNat % 2 ^ 12
      ((n = 0x018 ∨ n = 0x2C0) ∧ s.cx.pl = 0) ∨ ((n = 0x2D0 ∨ (0x0FF ≤ n ∧ n ≤ 0x1FF)) ∧ s.cx.pl < 2)) :
    exec (.sysw f) s = .next (s.trapIssue ⟨cPrivilege, 0, none⟩) := by
  dsimp only at hpl
  rw [← fieldN_low] at hpl
  have hcause : s.syswCause s.turn.core s.turn.ctx (fieldN f.imm 0 12) (s.cx.greg f.b.toNat) = some ⟨cPrivilege, 0, none⟩ :=
    syswCause_of_privileged hpl _
  have hknown : (!sysKnown (fieldN f.imm 0 12)) = false := by
    rw [sysKnown_of_privileged (by omega)]
    rfl
  refine (exec_slot rfl).trans (State.run_of_slotCause hissue ?_)
  rw [meanSysw, meanSyswOf, hcause]
  exact slotCause_memOp hroom ht hlegal hknown

theorem exec_tlbsync_of_privileged {f : MForm} (hissue : s.cx.issue = none) (hroom : s.cx.land.length ≤ 24)
    (ht : Taken s f.pr f.pn) (hlegal : legal (.tlbsync f) = true) (hpl : s.cx.pl = 0) :
    exec (.tlbsync f) s = .next (s.trapIssue ⟨cPrivilege, 0, none⟩) := by
  refine (exec_slot rfl).trans (State.run_of_slotCause hissue ?_)
  rw [meanTlbsync, if_pos hpl]
  simpa [memOpIf] using slotCause_memOp (effect := id) hroom ht hlegal rfl

/-- A TLBINV of a domain names one of sixteen bits, else it is no instruction (R339). -/
theorem exec_tlbinv_of_privileged {f : MForm} (hissue : s.cx.issue = none) (hroom : s.cx.land.length ≤ 24)
    (ht : Taken s f.pr f.pn) (hlegal : legal (.tlbinv f) = true) (hhigh : f.imm.toNat % 4 = 1 → (gOf s f.a).toNat < 2 ^ 16)
    (hpl : s.cx.pl = 0 ∨ (2 ≤ f.imm.toNat % 4 ∧ s.cx.pl < 2) ∨
      (f.imm.toNat % 4 = 1 ∧ s.cx.pl = 1 ∧ s.ownsDomain (fieldN s.cx.priv 0 16) (fieldN (gOf s f.a) 0 16) = false)) :
    exec (.tlbinv f) s = .next (s.trapIssue ⟨cPrivilege, 0, none⟩) := by
  have hkind : fieldN f.imm 0 2 = f.imm.toNat % 4 := fieldN_low ..
  have hcause : s.tlbinvCause (fieldN f.imm 0 2) (s.cx.greg f.a.toNat) = some ⟨cPrivilege, 0, none⟩ :=
    State.tlbinvCause_of_privileged (hkind ▸ hpl)
  refine (exec_slot rfl).trans (State.run_of_slotCause hissue ?_)
  simp only [meanTlbinv]
  rw [hcause]
  refine slotCause_memOp hroom ht hlegal ?_
  by_cases h1 : f.imm.toNat % 4 = 1
  · have hsmall : (s.cx.greg f.a.toNat).toNat < 2 ^ 16 := hhigh h1
    have hzero : fieldN (s.cx.greg f.a.toNat) 16 48 = 0 := by rw [fieldN_eq, Nat.div_eq_of_lt hsmall, Nat.zero_mod]
    simp [hzero]
  · simp [hkind, h1]

/-- Settles O32: the three privileged instructions by their checks, all others by the shape of their meanings. -/
theorem privilegeTraps : Obligations.PrivilegeTraps := by
  refine ⟨fun s f n hissue hroom ht hn => ⟨fun hlegal hpl => ?_, fun hlegal hpl => ?_, fun hlegal hhigh hpl => ?_⟩,
    fun s t i x hi hx hbell hexec => ?_⟩
  · subst hn
    exact exec_sysw_of_privileged hissue hroom ht hlegal hpl
  · exact exec_tlbsync_of_privileged hissue hroom ht hlegal hpl
  · refine exec_tlbinv_of_privileged hissue hroom ht hlegal hhigh (hpl.imp_right (Or.imp_right ?_))
    rintro ⟨hkind, hlevel, hown, hchild⟩
    have hdom : fieldN (gOf s f.a) 0 16 = (gOf s f.a).toNat := by rw [fieldN_low, Nat.mod_eq_of_lt (hhigh hkind)]
    rw [fieldN_low s.cx.priv, hdom]
    exact ⟨hkind, hlevel, State.ownsDomain_eq_false hown hchild⟩
  · have hrights := exec_rights hi hx hbell hexec
    exact ⟨State.ctxAt_of_rights hrights, fun l la hl => State.launch_of_rights hrights hl⟩

end Sys2Proof.Machine
end

section
/-! SUPPORT. Mask registers (R128, R167, R168), accesses to tower rows (R141, R142), and the statements about them. -/

namespace Sys2Proof.Machine

open Sys2Proof.Claims

variable {s : State} {i : Issue} {f : CForm}

/-! ### Results for mask registers (R128) -/

theorem sameEvents_silent : SameEvents [] [] := ⟨fun _ he => absurd he List.not_mem_nil, Alike.refl []⟩

/-- The bits of a mask register: m0 reads all ones. -/
theorem Cell.mreg_getLsbD (y : Cell) (r : BitVec 5) {l : Nat} (hl : l < 16) :
    (y.mreg r.toNat).getLsbD l = (decide (r.toNat = 0) || (y.mreg r.toNat).getLsbD l) := by
  by_cases h : r.toNat = 0
  · rw [h, Cell.mreg, if_pos rfl, allLanes_getLsbD hl]
    rfl
  · rw [decide_eq_false h, Bool.false_or]

/-- The cell with one result for a mask register. -/
theorem oneM_accept {lat n : Nat} {v bits : BitVec 16} {sel val : Nat → Nat → Bool} (evs : List EvItem)
    (hsel : ∀ l : Nat, l < 16 → bits.getLsbD l = sel n l)
    (hval : ∀ l : Nat, l < 16 → sel n l = true → v.getLsbD l = val n l) :
    OneM s f lat sel val n ((s.cc.cell n).accept { lands := [s.cx.toM f.d.toNat lat v bits], evs := evs }) := by
  have hwide : ∀ (x : BitVec 16) (l : Nat), l < 16 → (x.setWidth 256).getLsbD l = x.getLsbD l := by
    intro x l hl
    rw [BitVec.getLsbD_setWidth, decide_eq_true (by omega), Bool.true_and]
  unfold OneM
  split
  next hd => simp [Cell.accept, Ctx.toM, hd]
  next hd =>
    refine ⟨s.cx.toM f.d.toNat lat v bits, ?_, rfl, rfl, rfl, rfl, rfl, fun l hl => ⟨?_, fun h => ?_⟩⟩
    · simp [Cell.accept, Ctx.toM, gaining, hd]
    · exact (hwide bits l hl).trans (hsel l hl)
    · exact (hwide v l hl).trans (hval l hl h)

/-- What a mask instruction of operation `op` gives a cell. -/
def maskOut (x : Ctx) (f : CForm) (op : BitVec 16 → BitVec 16 → BitVec 16) (k : Core) (c : Nat) : CellOut :=
  { lands := [x.toM f.d.toNat 1 (op ((k.cell c).mreg f.a.toNat) ((k.cell c).mreg f.b.toNat)) 0xFFFF] }

/-- A mask instruction writes every bit of m[D] and records nothing. -/
theorem gives_maskSlot (hi : InIssue s i) (hsound : Sound s f) {x y : Instr} {k : Nat} (op : BitVec 16 → BitVec 16 → BitVec 16)
    {val : Nat → Nat → Bool} (hx : slotMeaning x s = some (maskSlot y f k op s))
    (hval : ∀ n l : Nat, l < 16 → (op ((s.cc.cell n).mreg f.a.toNat) ((s.cc.cell n).mreg f.b.toNat)).getLsbD l = val n l) :
    Gives s i f x (OneM s f 1 (fun _ _ => true) val) silent :=
  gives_of_registers hi hsound (out := maskOut s.cx f op) hx rfl rfl (fun _ _ => rfl)
    (fun _ _ h => by simp only [maskOut, h.mreg])
    (fun n => oneM_accept _ (fun _ hl => allLanes_getLsbD hl) fun l hl _ => hval n l hl) fun _ => sameEvents_silent

/-- What a KPOP gives a cell. -/
def popOut (x : Ctx) (f : CForm) (k : Core) (c : Nat) : CellOut :=
  { lands := [x.toV f.d.toNat 2 (BitVec.ofNat 256 (popCount ((k.cell c).mreg f.a.toNat))) (BitVec.allOnes 256)] }

/-- Settles O39: the two logic operations, the complement, the copy and the count, bit by bit. -/
theorem maskResults : Obligations.MaskResults := by
  intro s i f hi hsound A B R
  have hA : ∀ n l, l < 16 → ((s.cc.cell n).mreg f.a.toNat).getLsbD l = A n l := fun n l hl => Cell.mreg_getLsbD _ _ hl
  have hB : ∀ n l, l < 16 → ((s.cc.cell n).mreg f.b.toNat).getLsbD l = B n l := fun n l hl => Cell.mreg_getLsbD _ _ hl
  refine ⟨?_, ?_, ?_, ?_, ?_⟩
  · refine gives_maskSlot hi hsound (fun a b => a &&& b) (x := .kand f) rfl fun n l hl => ?_
    rw [BitVec.getLsbD_and, hA n l hl, hB n l hl]
  · refine gives_maskSlot hi hsound (fun a b => a ||| b) (x := .kor f) rfl fun n l hl => ?_
    rw [BitVec.getLsbD_or, hA n l hl, hB n l hl]
  · refine gives_maskSlot hi hsound (fun a _ => ~~~a) (x := .knot f) rfl fun n l hl => ?_
    rw [BitVec.getLsbD_not, decide_eq_true hl, Bool.true_and, hA n l hl]
  · exact gives_maskSlot hi hsound (fun a _ => a) (x := .kmov f) rfl hA
  · refine gives_of_registers hi hsound (x := .kpop f) (y := .kpop f) (out := popOut s.cx f) rfl rfl rfl (fun _ _ => rfl)
      (fun _ _ h => by simp only [popOut, h.mreg]) (fun n => ?_) fun _ => sameEvents_silent
    have hcount : popCount ((s.cc.cell n).mreg f.a.toNat) = ((List.range 16).filter fun l => A n l).length := by
      rw [popCount_eq]
      exact congrArg List.length (List.filter_congr fun l hl => hA n l (List.mem_range.1 hl))
    rw [← hcount]
    refine Cell.accept_lands _ _ fun e he => ?_
    obtain rfl := List.mem_singleton.1 he
    rfl

/-! ### Tower rows (R141, R142) -/

/-- What a TLD gives a cell. -/
def tldOut (x : Ctx) (f : CForm) (k : Core) (c : Nat) : CellOut :=
  { lands := [x.toV f.d.toNat 3 (k.towerRow c f.ta.toNat) (laneBits 16 ((k.cell c).lane f))] }

theorem gives_tld (hi : InIssue s i) (hsound : Sound s f) :
    Gives s i f (.tld f) (OneV s f 3 16 fun n j => elemN (s.cc.towerRow n f.ta.toNat) 16 j) silent :=
  gives_of_registers hi hsound (x := .tld f) (y := .tld f) (out := tldOut s.cx f) rfl rfl rfl (fun _ _ => rfl)
    (fun _ _ h => by simp only [tldOut, h.row, h.lane])
    (fun _ => oneV_accept (.inr (.inl rfl)) _ fun j _ _ => (Nat.mod_eq_of_lt (elemN_lt _ 16 j)).symm) fun _ => sameEvents_silent

/-- What a TST gives a cell. -/
def tstOut (x : Ctx) (f : CForm) (k : Core) (c : Nat) : CellOut :=
  { writes := [x.toRow f.td.toNat 2 ((k.cell c).vreg f.a.toNat) (laneBits 16 ((k.cell c).lane f)) []]
    evs := (k.cell c).gatedReads [f.a.toNat] 16 ((k.cell c).lane f) }

theorem sameEvents_gatedReads {w : Nat} (hw : LaneWidth w) (regs : List Nat) (n : Nat) :
    SameEvents ((s.cc.cell n).gatedReads regs w (maskIn s f n)) (elementEvents s f w regs (fun _ _ => noKind) n) := by
  obtain ⟨-, halike⟩ := sameEvents_reads (s := s) (f := f) (n := n) hw regs
  exact ⟨itemsValid_gatedReads hw _ _ _, (alike_mergeItems _).symm.trans halike⟩

theorem gives_tst (hi : InIssue s i) (hsound : Sound s f) :
    Gives s i f (.tst f) (fun n y => y = { s.cc.cell n with writes := (s.cc.cell n).writes ++
      [s.cx.toRow f.td.toNat 2 ((s.cc.cell n).vreg f.a.toNat) (laneBits 16 (maskIn s f n)) []] })
      (elementEvents s f 16 [f.a.toNat] fun _ _ => noKind) :=
  gives_of_registers hi hsound (x := .tst f) (y := .tst f) (out := tstOut s.cx f) rfl rfl rfl (fun _ _ => rfl)
    (fun _ _ h => by simp only [tstOut, h.vreg, h.lane, h.gatedReads]) (fun _ => Cell.accept_writes _ _ _)
    fun n => sameEvents_gatedReads (.inr (.inl rfl)) _ n

/-- Settles O40: the row that TLD lands, and the granules that TST writes. -/
theorem towerAccessResults : Obligations.TowerAccessResults := by
  refine fun s i f hi hsound => ⟨gives_tld hi hsound, gives_mono (gives_tst hi hsound) fun n y hy => ?_⟩
  refine ⟨_, hy, rfl, rfl, rfl, rfl, rfl, rfl, fun j hj => ?_⟩
  exact elemN_laneBits (w := 16) (.inr (.inl rfl)) (maskIn s f n) hj

end Sys2Proof.Machine
end

section
/-! SUPPORT. Integers of an element's width (R103, R154), and the statement of the integer cell instructions (R155). -/

namespace Sys2Proof.Machine

open Sys2Proof.Claims

variable {s : State} {i : Issue} {f : CForm} {g : Fmt}

/-! ### Values of integer elements -/

theorem Fmt.laneWidth_of_isInt (h : g.isInt = true) : LaneWidth g.width := by
  cases g with
  | i8 => exact .inl rfl
  | n8 => exact .inl rfl
  | i16 => exact .inr (.inl rfl)
  | i32 => exact .inr (.inr rfl)
  | _ => cases h

/-- The number that an integer element stands for. -/
theorem Fmt.intValue_eq (g : Fmt) {x : Nat} (hx : x < 2 ^ g.width) :
    g.intValue x = if g = .n8 then (x : Int) else (x : Int).bmod (2 ^ g.width) := by
  by_cases h : g = .n8
  · subst h
    rw [if_pos rfl]
    exact congrArg Int.ofNat (Nat.mod_eq_of_lt hx)
  · rw [if_neg h, Fmt.intValue, BitVec.toInt_ofNat']
    exact h

theorem Fmt.intValue_emod (g : Fmt) {x : Nat} (hx : x < 2 ^ g.width) : g.intValue x % (2 : Int) ^ g.width = (x : Int) % 2 ^ g.width := by
  rw [g.intValue_eq hx]
  split
  · rfl
  · have := Int.bmod_emod (x := (x : Int)) (m := 2 ^ g.width)
    rwa [Nat.cast_pow, Nat.cast_ofNat] at this

/-- An arithmetic shift of an element, modulo its width. -/
theorem sshiftRight_emod (w a k : Nat) :
    (((BitVec.ofNat w a).sshiftRight k).toNat : Int) % 2 ^ w = ((a : Int).bmod (2 ^ w) / 2 ^ k) % 2 ^ w := by
  have hmod := Int.bmod_emod (x := (((BitVec.ofNat w a).sshiftRight k).toNat : Int)) (m := 2 ^ w)
  rw [← BitVec.toInt_eq_toNat_bmod, BitVec.toInt_sshiftRight, BitVec.toInt_ofNat', Int.shiftRight_eq_div_pow] at hmod
  push_cast at hmod
  exact hmod.symm

/-! ### The integer instructions -/

/-- An integer instruction gives each element what its operation computes, modulo the width. -/
theorem givesV_of_intV (hi : InIssue s i) (hsound : Sound s f) (hfmt : s.plainFmt f = some g) (hw : LaneWidth g.width) {x y : Instr}
    {k lat : Nat} (op : Fmt → Nat → Nat → Nat → Nat) {val : Nat → Nat → Int}
    (hx : slotMeaning x s = some (intV y f k lat op s))
    (hval : ∀ n j : Nat, (op g (srcA s f g n j) (srcB s f g n j) (srcC s f g n j) : Int) % 2 ^ g.width = val n j % 2 ^ g.width) :
    GivesV s i f x lat g.width k fun n j => ((val n j % (2 : Int) ^ g.width).toNat, noKind) := by
  rw [intV, hfmt] at hx
  refine givesV_of_vecV hi hsound hw hx fun n j => ⟨?_, rfl⟩
  have hnat : (val n j % (2 : Int) ^ g.width).toNat = op g (srcA s f g n j) (srcB s f g n j) (srcC s f g n j) % 2 ^ g.width := by
    rw [← hval n j]
    exact_mod_cast Int.toNat_natCast _
  rw [hnat]

/-- Settles O35: each operation on naturals is the integers' modulo the width. -/
theorem cellIntegerResults : Obligations.CellIntegerResults := by
  rintro s i f g hi hsound hfmt A B C rfl rfl rfl sg value R hint
  have hw := Fmt.laneWidth_of_isInt hint
  have hvalue : ∀ x, x < 2 ^ g.width → g.intValue x = value x := fun x hx => g.intValue_eq hx
  have hlt : ∀ {n j}, srcA s f g n j < 2 ^ g.width ∧ srcB s f g n j < 2 ^ g.width := ⟨elemN_lt _ _ _, elemN_lt _ _ _⟩
  have hpick : ∀ {x : Nat}, x < 2 ^ g.width → (x : Int) % 2 ^ g.width = value x % 2 ^ g.width := fun hx => by
    rw [← hvalue _ hx, g.intValue_emod hx]
  refine ⟨?_, ?_, ?_, ?_, ?_, ?_, ?_, ?_, ?_, ?_, ?_, ?_⟩
  · exact givesV_of_intV hi hsound hfmt hw (fun _ a b _ => a + b) rfl fun n j => by push_cast; rfl
  · refine givesV_of_intV hi hsound hfmt hw (fun g a b _ => a + (2 ^ g.width - b)) rfl fun n j => ?_
    obtain ⟨-, hb⟩ := hlt (n := n) (j := j)
    push_cast [Nat.cast_sub hb.le]
    rw [show (srcA s f g n j : Int) + (2 ^ g.width - srcB s f g n j) = srcA s f g n j - srcB s f g n j + 2 ^ g.width by ring,
      Int.add_emod_right]
  · exact givesV_of_intV hi hsound hfmt hw (fun _ a b _ => a * b) rfl fun n j => by push_cast; rfl
  · have hthree : (if Instr.vimad f = .vimad f then 3 else 2) = 3 := if_pos rfl
    change GivesV s i f (.vimad f) 4 g.width (if Instr.vimad f = .vimad f then 3 else 2) _
    rw [hthree]
    exact givesV_of_intV hi hsound hfmt hw (fun _ a b c => a * b + c) rfl fun n j => by push_cast; rfl
  · exact givesV_of_intV hi hsound hfmt hw (fun _ a b _ => a &&& b) rfl fun _ _ => rfl
  · exact givesV_of_intV hi hsound hfmt hw (fun _ a b _ => a ||| b) rfl fun _ _ => rfl
  · exact givesV_of_intV hi hsound hfmt hw (fun _ a b _ => a ^^^ b) rfl fun _ _ => rfl
  · exact givesV_of_intV hi hsound hfmt hw (fun g a b _ => a <<< (b % g.width)) rfl fun n j => by
      rw [Nat.shiftLeft_eq]
      push_cast
      rfl
  · exact givesV_of_intV hi hsound hfmt hw (fun g a b _ => a >>> (b % g.width)) rfl fun n j => by rw [Nat.shiftRight_eq_div_pow]
  · exact givesV_of_intV hi hsound hfmt hw (fun g a b _ => ((BitVec.ofNat g.width a).sshiftRight (b % g.width)).toNat) rfl fun n j =>
      sshiftRight_emod _ _ _
  · refine givesV_of_intV hi hsound hfmt hw (fun g a b _ => if g.intValue b < g.intValue a then b else a) rfl fun n j => ?_
    obtain ⟨ha, hb⟩ := hlt (n := n) (j := j)
    rw [hvalue _ ha, hvalue _ hb, apply_ite Nat.cast]
    split
    next h => rw [min_eq_right h.le, hpick hb]
    next h => rw [min_eq_left (not_lt.1 h), hpick ha]
  · refine givesV_of_intV hi hsound hfmt hw (fun g a b _ => if g.intValue a < g.intValue b then b else a) rfl fun n j => ?_
    obtain ⟨ha, hb⟩ := hlt (n := n) (j := j)
    rw [hvalue _ ha, hvalue _ hb, apply_ite Nat.cast]
    split
    next h => rw [max_eq_right h.le, hpick hb]
    next h => rw [max_eq_left (not_lt.1 h), hpick ha]

end Sys2Proof.Machine
end

section
/-! SUPPORT. Refresh deferral, layer power and register-group power (R138, R238, R334, R335), and the statement about them. -/

namespace Sys2Proof.Machine

open Sys2Proof.Claims

variable {s : State} {i : Issue}

/-! ### M-slot instructions that change their core -/

/-- One that changes its core and leaves the contexts. -/
theorem exec_of_modCore (hi : InIssue s i) {x : Instr} {m : Meaning} (hx : slotMeaning x s = some m) (ht : m.taken = true)
    {g : Core → Core} (he : m.effect s = s.modCore g) (hctxs : (g s.cc).ctxs = s.cc.ctxs) :
    exec x s = .next (changed (s.modCore g) i id) := by
  have hissue : (s.modCore g).cx.issue = some i := by
    rw [State.cx_modCore, Core.ctx, hctxs]
    exact hi.1
  rw [exec_of_taken hi hx ht, State.act_of he hissue hi.2.2]
  rfl

/-! ### Register groups (R138) -/

theorem get_filter {β : Type} (d : β) (p : Nat → Bool) (m : SMap β) (n : Nat) :
    get d (m.filter fun q => p q.1) n = if p n then get d m n else d := by
  induction m with
  | nil => exact (ite_self d).symm
  | cons q m ih =>
    obtain ⟨a, v⟩ := q
    rw [List.filter_cons]
    by_cases han : a = n
    · subst han
      by_cases hp : p a = true
      · simp [hp, get]
      · simp [hp, ih]
    · by_cases hp : p a = true <;> simp [hp, get, han, ih]

theorem Cell.group_setGroup (y : Cell) (g h : Nat) (p : GroupPower) : (y.setGroup g p).group h = if h = g then p else y.group h := by
  unfold Cell.setGroup
  split <;> exact get_set _ _ _ _ _

/-- A group that is gated loses its registers. -/
theorem Cell.vreg_setGroup (y : Cell) (g r : Nat) (p : GroupPower) :
    (y.setGroup g p).vreg r = if r / 8 = g ∧ p = .gated then 0 else y.vreg r := by
  unfold Cell.setGroup
  split
  next hp =>
    have hget := get_filter (0 : Row) (fun q => q / 8 != g) y.v r
    simp only [bne_iff_ne, ne_eq, ite_not] at hget
    simp only [hp, and_true]
    exact hget
  next hp =>
    rw [if_neg fun h => hp h.2]
    rfl

/-- Register groups of a cell take a power state, one after another (R335). -/
def Cell.powerGroups (p : GroupPower) (gs : List Nat) (y : Cell) : Cell :=
  gs.foldl (fun y g => { y.setGroup g p with groupWakes := y.groupWakes.filter fun w => w != g }) y

theorem Cell.group_powerGroups (p : GroupPower) (gs : List Nat) (y : Cell) (h : Nat) :
    (y.powerGroups p gs).group h = if h ∈ gs then p else y.group h := by
  induction gs generalizing y with
  | nil => rfl
  | cons g gs ih =>
    refine (ih _).trans ?_
    have hone : ({ y.setGroup g p with groupWakes := y.groupWakes.filter fun w => w != g } : Cell).group h =
        if h = g then p else y.group h := y.group_setGroup g h p
    rw [hone]
    by_cases hg : h = g <;> simp [hg]

theorem Cell.vreg_powerGroups (p : GroupPower) (gs : List Nat) (y : Cell) (r : Nat) :
    (y.powerGroups p gs).vreg r = if r / 8 ∈ gs ∧ p = .gated then 0 else y.vreg r := by
  induction gs generalizing y with
  | nil => simp [Cell.powerGroups]
  | cons g gs ih =>
    refine (ih _).trans ?_
    have hone : ({ y.setGroup g p with groupWakes := y.groupWakes.filter fun w => w != g } : Cell).vreg r =
        if r / 8 = g ∧ p = .gated then 0 else y.vreg r := y.vreg_setGroup g r p
    rw [hone]
    by_cases hg : r / 8 = g <;> by_cases hp : p = .gated <;> simp [hg, hp]

/-- What a change of groups' power keeps of a cell. -/
theorem Cell.powerGroups_keeps {α : Type} {w : Cell → α} (p : GroupPower)
    (h : ∀ (y : Cell) (g : Nat), w { y.setGroup g p with groupWakes := y.groupWakes.filter fun w => w != g } = w y) (gs : List Nat)
    (y : Cell) : w (y.powerGroups p gs) = w y := foldl_keeps (r := w) h gs y

@[simp] theorem Cell.setGroup_m (y : Cell) (g : Nat) (p : GroupPower) : (y.setGroup g p).m = y.m := by
  unfold Cell.setGroup
  split <;> rfl

@[simp] theorem Cell.setGroup_land (y : Cell) (g : Nat) (p : GroupPower) : (y.setGroup g p).land = y.land := by
  unfold Cell.setGroup
  split <;> rfl

@[simp] theorem Cell.setGroup_a0 (y : Cell) (g : Nat) (p : GroupPower) : (y.setGroup g p).a0 = y.a0 := by
  unfold Cell.setGroup
  split <;> rfl

@[simp] theorem Cell.setGroup_a1 (y : Cell) (g : Nat) (p : GroupPower) : (y.setGroup g p).a1 = y.a1 := by
  unfold Cell.setGroup
  split <;> rfl

@[simp] theorem Cell.setGroup_tower (y : Cell) (g : Nat) (p : GroupPower) : (y.setGroup g p).tower = y.tower := by
  unfold Cell.setGroup
  split <;> rfl

/-- A change of cells that keeps their towers keeps every row. -/
theorem Core.towerRow_modCells {k : Core} {g : Nat → Cell → Cell} (h : ∀ n y, (g n y).tower = y.tower) (sq : BitVec 4) (n r : Nat) :
    (k.modCells sq g).towerRow n r = k.towerRow n r := by
  refine foldl_keeps (r := fun k : Core => k.towerRow n r) (fun (k : Core) c => ?_) (cellsOf sq) k
  have hspare : (k.setCell c (g c (k.cell c))).usesSpare n = k.usesSpare n := rfl
  simp only [Core.towerRow, Core.tower, hspare, Core.cell_setCell]
  split
  · rfl
  · split
    next hn => rw [hn, h]
    next => rfl

theorem mem_maskList_field {w : Nat} (x : BitVec w) (lo n g : Nat) :
    g ∈ maskList (field x lo n : BitVec n) ↔ g < n ∧ x.getLsbD (lo + g) = true := by
  rw [maskList, List.mem_filter, List.mem_range]
  refine and_congr_right fun hg => ?_
  rw [bit, field, BitVec.getLsbD_extractLsb', decide_eq_true hg, Bool.true_and]

/-! ### The instructions -/

/-- The cells of a VPWR's squads with their groups in the state that it names. -/
def vpwrCells (f : MForm) (k : Core) : Core :=
  k.modCells (mSquads f) fun _ y => y.powerGroups (groupCode (fieldN f.imm 8 2)) (maskList (field f.imm 4 4 : BitVec 4))

theorem exec_vpwr (hi : InIssue s i) {f : MForm} (ht : Taken s f.pr f.pn) :
    exec (.vpwr f) s = .next (changed (s.modCore (vpwrCells f)) i id) :=
  exec_of_modCore hi (x := .vpwr f) (m := meanVpwr f s) rfl ht rfl (Core.ctxs_modCells _ _ _)

theorem vpwrCells_cell (f : MForm) (k : Core) {n : Nat} (hn : n < 256) : (vpwrCells f k).cell n =
    if bit (mSquads f) (squadOf n) then
      (k.cell n).powerGroups (groupCode (f.imm.toNat / 2 ^ 8 % 4)) (maskList (field f.imm 4 4 : BitVec 4))
    else k.cell n := by
  rw [vpwrCells, Core.cell_modCells, fieldN_eq]
  simp only [mem_cellsOf, hn, true_and]
  rfl

/-- What stays where a context's core changes and the slot is complete. -/
theorem changed_modCore {g : Core → Core} (hctxs : (g s.cc).ctxs = s.cc.ctxs) :
    (changed (s.modCore g) i id).cx = { s.cx with issue := some (ticked s i) } ∧
    (∀ c : Nat, c ≠ s.turn.core → (changed (s.modCore g) i id).core c = s.core c) ∧
    ∃ xs, (changed (s.modCore g) i id).cc = { g s.cc with ctxs := xs } := by
  have hcx : (s.modCore g).cx = s.cx := by
    rw [State.cx_modCore, Core.ctx, hctxs]
    rfl
  refine ⟨?_, fun c hc => ?_,
    ⟨_, (State.cc_modCx (s.modCore g) fun _ => _).trans (by rw [State.cc_modCore])⟩⟩
  · rw [changed, State.cx_setCx, hcx]
    rfl
  · exact (State.core_modCx_other (s.modCore g) hc fun _ => _).trans (State.core_setCore_other s hc _)

/-- Settles O29: each instruction by its effect on its squads' towers and cells; a VPWR group by group. -/
theorem powerResults : Obligations.PowerResults := by
  intro s i f hi ht
  have hcode : fieldN f.imm 12 2 = f.imm.toNat / 2 ^ 12 % 4 := fieldN_eq f.imm 12 2
  refine ⟨exec_of_modCore hi (x := .tdefer f) (m := meanTdefer f s) rfl ht rfl (Core.ctxs_modTowers _ _ _), ?_, ?_⟩
  · rw [← hcode]
    refine exec_of_modCore hi (x := .tpwr f) (m := meanTpwr f s) rfl ht rfl ?_
    exact foldl_keeps (r := Core.ctxs) (fun (k : Core) l =>
      foldl_keeps (r := Core.ctxs) (fun (q : Core) n => q.ctxs_powerLayer s.cx n l _ _) (cellsOf (mSquads f)) k) _ s.cc
  · obtain ⟨hcx, hothers, xs, hcc⟩ := changed_modCore (s := s) (i := i) (g := vpwrCells f) (Core.ctxs_modCells _ _ _)
    refine ⟨_, exec_vpwr hi ht, hcx, rfl, ?_, hothers, fun n hn => ?_⟩
    · rw [hcc]
      exact foldl_keeps (r := Core.cmem) (by intros; rfl) (cellsOf (mSquads f)) s.cc
    · generalize hp : groupCode (f.imm.toNat / 2 ^ 8 % 4) = p
      have hcell : (changed (s.modCore (vpwrCells f)) i id).cc.cell n = if bit (mSquads f) (squadOf n) then
          (s.cc.cell n).powerGroups p (maskList (field f.imm 4 4 : BitVec 4)) else s.cc.cell n := by
        rw [hcc, ← hp]
        exact vpwrCells_cell f s.cc hn
      have hkeeps : ∀ {α : Type} {w : Cell → α}, (∀ (y : Cell) (g : Nat),
          w { y.setGroup g p with groupWakes := y.groupWakes.filter fun w => w != g } = w y) →
          w ((changed (s.modCore (vpwrCells f)) i id).cc.cell n) = w (s.cc.cell n) := by
        intro α w h
        rw [hcell]
        split
        · exact Cell.powerGroups_keeps p h _ _
        · rfl
      refine ⟨fun r => ?_, hkeeps fun y g => y.setGroup_m g p, hkeeps fun y g => y.setGroup_land g p, fun a => ?_,
        fun g hg => ?_, fun r hr => ?_⟩
      · rw [hcc]
        exact Core.towerRow_modCells (fun _ y => Cell.powerGroups_keeps _ (fun y g => y.setGroup_tower g _) _ y) _ n r
      · refine hkeeps (w := fun y => y.acc a) fun y g => ?_
        simp only [Cell.acc, Cell.setGroup_a0, Cell.setGroup_a1]
      · rw [hcell]
        by_cases hsq : bit (mSquads f) (squadOf n) = true
        · simp [hsq, Cell.group_powerGroups, mem_maskList_field, hg]
        · simp [hsq]
      · rw [hcell]
        have hr8 : r / 8 < 4 := by omega
        by_cases hsq : bit (mSquads f) (squadOf n) = true
        · simp [hsq, Cell.vreg_powerGroups, mem_maskList_field, hr8]
        · simp [hsq]

end Sys2Proof.Machine
end

section
/-! SUPPORT. The streams that cell instructions start, with their first steps (R143, R179, R190, R194, R212), and the statement about
them. -/

namespace Sys2Proof.Machine

open Sys2Proof.Claims

variable {s v : State} {i : Issue} {f : CForm}

/-! ### Performing a first step -/

theorem State.turn_sendExpress (v : State) (c : Nat) (w : Word) (cell : Nat) (e : Express) :
    (v.sendExpress c w cell e).turn = v.turn := by
  unfold State.sendExpress
  split <;> rfl

/-- Messages that leave with a step do not change the turn. -/
theorem State.turn_foldl_sends (c : Nat) (w : Word) (ps : List (Nat × Express)) (v : State) :
    (ps.foldl (fun v p => v.sendExpress c w p.1 p.2) v).turn = v.turn := by
  induction ps generalizing v with
  | nil => rfl
  | cons p ps ih => rw [List.foldl_cons, ih, State.turn_sendExpress]

/-- A step performed in a cell instruction: its stream goes on, and of the context, memory and the turn nothing changes. -/
theorem State.performStep_own (st : Stream) (before : List Stream) {step : Core → Stream → StepOut}
    (hstep : ∀ k, (step k st).core.ctxs = k.ctxs) :
    (∃ q, (v.performStep v.turn.core st before step).2.1 = st.stepped (step q st)) ∧
    (v.performStep v.turn.core st before step).1.mem = v.mem ∧ (v.performStep v.turn.core st before step).1.turn = v.turn ∧
    (v.performStep v.turn.core st before step).1.cx = v.cx := by
  obtain ⟨q, -, hctxs, hcore, hst⟩ := v.performStep_spec v.turn.core st before step
  have hturn : (v.performStep v.turn.core st before step).1.turn = v.turn := by
    rw [State.performStep]
    exact State.turn_foldl_sends _ _ _ _
  refine ⟨⟨q, hst⟩, v.performStep_mem _ _ _ _, hturn, ?_⟩
  rw [State.cx, State.ctxAt, hturn, hcore, Core.ctx, hstep, hctxs]
  rfl

/-! ### Starting a stream -/

/-- A stream that has done nothing: the kind, the level and the steps that it starts with. -/
def Stream.Fresh (st : Stream) (s : State) (f : CForm) (kind : StreamKind) (steps : Nat) : Prop :=
  st.kind = kind ∧ st.form = f ∧ st.level = s.cx.depth ∧ st.start = (s.cx.vt : Int) ∧ st.done = 0 ∧ st.left = steps

/-- A step that keeps the contexts and of its stream what it is. -/
def Keeping (step : Core → Stream → StepOut) (st : Stream) : Prop :=
  ∀ k, (step k st).core.ctxs = k.ctxs ∧ (step k st).st.SameStream st ∧ (step k st).st.level = st.level

/-- Executing `x` completes its slot and leaves one more stream, whose first step is done. -/
def StartsStream (s : State) (i : Issue) (f : CForm) (x : Instr) (kind : StreamKind) (steps : Nat) : Prop :=
  ∃ t j, ∃ st : Stream, exec x s = .next t ∧ t.cx.issue = some j ∧ j.done = setField i.done s.turn.slot 1 1 ∧ j.late = none ∧
    j.raises = i.raises ∧ t.mem = s.mem ∧ t.cx.streams = s.cx.streams ++ [st] ∧ st.kind = kind ∧ st.form = f ∧ st.level = s.cx.depth ∧
    st.start = (s.cx.vt : Int) ∧ st.done = 1 ∧ st.left = steps - 1

theorem exec_cellSlot (hi : InIssue s i) {x y : Instr} {u : CellUse} {early : Bool → Option StepCause} {effect : State → State}
    (hx : slotMeaning x s = some (cellSlot y u early effect s)) (hu : u.consumed s.cc = none) :
    exec x s = .next (effect s).completeUnless := by
  rw [exec_slot hx, State.run_checked hi.1 hi.2.1]
  simp only [cellSlot, if_true, State.act, hu]

/-- An instruction that takes nothing from latches and receive buffers. -/
theorem consumed_of_entryless (hsound : Sound s f) {u : CellUse} (hform : u.form = f) (hentries : u.entries = fun _ => []) :
    u.consumed s.cc = none := by
  refine consumed_of_sound hsound hform fun n _ p h => ?_
  rw [hentries] at h
  exact absurd h List.not_mem_nil

/-- A cell instruction whose effect starts a stream in a state that differs from its own by notes and cells. -/
theorem startsStream_of_effect (hi : InIssue s i) {x y : Instr} {u : CellUse} {early : Bool → Option StepCause}
    {effect : State → State} (hx : slotMeaning x s = some (cellSlot y u early effect s)) (hu : u.consumed s.cc = none)
    {st : Stream} {step : Core → Stream → StepOut} (heffect : effect s = v.startStream st step) (hfrom : v.NotedFrom s i)
    (hnoted : v.noted = some i.raises) {kind : StreamKind} {steps : Nat} (hfresh : st.Fresh s f kind steps)
    (hstep : Keeping step st) : StartsStream s i f x kind steps := by
  obtain ⟨j, ⟨r, w, hj⟩, hcx⟩ := hfrom.cx
  have hissue : v.cx.issue = some j := by rw [hcx]
  have hraises : j.raises = i.raises := Option.some.inj ((State.noted_of hissue).symm.trans hnoted)
  obtain ⟨⟨q, hst⟩, hmem, hturn, hcx'⟩ := State.performStep_own (v := v) st (v.cx.streams.filter fun b => b.level == st.level)
    fun k => (hstep k).1
  generalize hp : v.performStep v.turn.core st (v.cx.streams.filter fun b => b.level == st.level) step = p at hst hmem hturn hcx'
  have hstart : effect s = p.1.modCx fun x => { x with streams := x.streams ++ [p.2.1] } := by
    rw [heffect, State.startStream, hp]
    simp only [hcx', hissue, Option.isSome_some, if_true]
  have hissue' : (effect s).cx.issue = some j := by rw [hstart, State.cx_modCx, hcx', hissue]
  have hlate : j.late = none := by rw [hj]; exact hi.2.2
  have hcomplete : (effect s).completeUnless = (effect s).complete := by
    rw [State.completeUnless, hissue']
    simp only [hlate]
  obtain ⟨-, ⟨hkind, hform, hbegin⟩, hlevel⟩ := hstep q
  obtain ⟨hkind', hform', hlevel', hbegin', hdone', hleft'⟩ := hfresh
  refine ⟨_, { j with done := setField j.done (effect s).turn.slot 1 1 }, st.stepped (step q st),
    (exec_cellSlot hi hx hu).trans (by rw [hcomplete, State.complete_of hissue']), by rw [State.cx_setCx], ?_, hlate, hraises, ?_, ?_,
    hkind.trans hkind', hform.trans hform', hlevel.trans hlevel', hbegin.trans hbegin', ?_, ?_⟩
  · rw [hstart, hj]
    exact congrArg (fun t : Turn => setField i.done t.slot 1 1) (hturn.trans hfrom.turn)
  · rw [hstart]
    exact hmem.trans hfrom.mem
  · rw [State.cx_setCx, hstart, State.cx_modCx, hcx', hcx, hst]
  · rw [Stream.stepped, hdone']
  · rw [Stream.stepped, hleft']

/-- A cell instruction whose effect is none only completes its slot. -/
theorem exec_cellSlot_id (hi : InIssue s i) {x y : Instr} {u : CellUse} {early : Bool → Option StepCause} {effect : State → State}
    (hx : slotMeaning x s = some (cellSlot y u early effect s)) (hu : u.consumed s.cc = none) (heffect : effect s = s) :
    exec x s = .next (changed s i id) := by
  refine exec_of_id hi hx rfl ?_
  simp only [cellSlot, hu]
  exact heffect

/-! ### What the instructions start from -/

theorem noted_cellsDo_silent (hfrom : v.NotedFrom s i) (hnoted : v.noted = some i.raises) (sq : BitVec 4) {out : Core → Nat → CellOut}
    (hnow : ∀ k c y, ((out k c).now y).tower = y.tower) (hevs : ∀ k c, (out k c).evs = []) :
    (v.cellsDo (cellsOf sq) out).NotedFrom s i ∧ (v.cellsDo (cellsOf sq) out).noted = some i.raises := by
  obtain ⟨j, -, hcx⟩ := hfrom.cx
  have hissue : v.cx.issue = some j := by rw [hcx]
  have hraises : j.raises = i.raises := Option.some.inj ((State.noted_of hissue).symm.trans hnoted)
  have hsilent : slotEvs (cellsOf sq) (fun c => (out v.cc c).evs) = [] := by
    rw [slotEvs, List.flatten_eq_nil_iff]
    intro l hl
    obtain ⟨c, -, rfl⟩ := List.mem_map.1 hl
    rw [hevs]
    rfl
  refine ⟨(hfrom.cellsDo sq hnow).1, ?_⟩
  rw [State.noted_cellsDo hissue sq hnow, if_pos hsilent, hraises]

theorem keeping_stepTldm (st : Stream) : Keeping stepTldm st := fun k => ⟨stepTldm_ctxs k st, ⟨rfl, rfl, rfl⟩, rfl⟩

theorem Stream.level_keepCells (st : Stream) (k : Core) (rows : Nat → List Nat) (base : Nat) (cs : List Nat) :
    (cs.foldl (fun t c => (rows c).foldl (fun (t : Stream) r => t.keepRow c (r - base) (k.towerRow c r)) t) st).level = st.level :=
  foldl_keeps (r := Stream.level) (fun t c => foldl_keeps (r := Stream.level) (by intros; rfl) (rows c) t) cs st

theorem keeping_stepMload (st : Stream) : Keeping stepMload st := fun k => ⟨rfl, stepMload_sameStream k st,
  st.level_keepCells k (fun c => (st.rowsAt c st.done).map fun r : RowRead => r.row) st.form.ta.toNat (cellsOf st.form.sq)⟩

theorem keeping_stepLattice (st : Stream) : Keeping stepLattice st := fun k => by
  obtain ⟨hctxs, hsame⟩ := stepLattice_keeps k st
  refine ⟨hctxs, hsame, ?_⟩
  have hlevel := st.level_keepCells k (fun c => (st.rowsAt c st.done).map fun r : RowRead => r.row) st.form.ta.toNat
    (cellsOf st.form.sq)
  unfold stepLattice
  generalize (cellsOf st.form.sq).foldl _ st = kept at hlevel ⊢
  dsimp only
  split
  · rw [(latticeDone_keeps k kept).2]
    exact hlevel
  · exact hlevel

/-- Events that a first step has besides its own do not matter to what it keeps. -/
theorem keeping_stepMma (evs : List CellEv) (st : Stream) :
    Keeping (fun k st => { stepMma k st with evs := evs ++ (stepMma k st).evs }) st :=
  fun k => ⟨stepMma_ctxs k st, ⟨rfl, rfl, rfl⟩, rfl⟩

theorem updateAcc_tower (y : Cell) (a level vt : Nat) (g : Acc → Acc) : (y.updateAcc a level vt g).tower = y.tower := by
  unfold Cell.updateAcc
  dsimp only
  split <;> rfl

theorem startsStream_tldm (hi : InIssue s i) (hu : Sound s f) (hsq : f.sq ≠ 0) :
    StartsStream s i f (.tldm f) .tldm ((f.cn.toNat + 1) / 2) := by
  obtain ⟨hfrom, hnoted⟩ := noted_cellsDo_silent (State.noted_refl hi.1) (State.noted_of hi.1) f.sq
    (out := fun _ _ => { lands := (List.range f.cn.toNat).map fun i => { s.cx.toV (f.d.toNat + i) (3 + i / 2) 0 0 with await := true } })
    (fun _ _ _ => rfl) fun _ _ => rfl
  exact startsStream_of_effect hi (x := .tldm f) rfl (consumed_of_entryless hu rfl rfl) (if_neg hsq)
    hfrom hnoted ⟨rfl, rfl, rfl, rfl, rfl, rfl⟩ (keeping_stepTldm _)

theorem startsStream_mma (hi : InIssue s i) (hu : Sound s f) (hsq : f.sq ≠ 0) : StartsStream s i f (.mma f) .mma f.cn.toNat := by
  have hfrom (tag : AccTag) : (s.modCore fun k => k.modCells f.sq fun _ y =>
      y.updateAcc (f.d.toNat % 2) s.cx.depth s.cx.vt fun a => { a with tag := tag }).NotedFrom s i :=
    (State.noted_refl hi.1).modCore (Core.ctxs_modCells _ _ _) (foldl_keeps (r := Core.cmem) (by intros; rfl) (cellsOf f.sq) s.cc)
      fun n r => Core.towerRow_modCells (fun _ y => updateAcc_tower y _ _ _ _) f.sq n r
  have hnoted (tag : AccTag) : (s.modCore fun k => k.modCells f.sq fun _ y =>
      y.updateAcc (f.d.toNat % 2) s.cx.depth s.cx.vt fun a => { a with tag := tag }).noted = some i.raises := by
    rw [← State.noted_of hi.1, State.noted, State.noted, State.cx_modCore, Core.ctx, Core.ctxs_modCells]
    rfl
  exact startsStream_of_effect hi (x := .mma f) rfl (consumed_of_entryless hu rfl rfl) (if_neg hsq)
    (hfrom _) (hnoted _) ⟨rfl, rfl, rfl, rfl, rfl, rfl⟩ (keeping_stepMma _ _)

theorem startsStream_mload (hi : InIssue s i) (hu : Sound s f) (hsq : f.sq ≠ 0) {g : Fmt} (hfmt : Fmt.ofCode f.fp1.toNat = some g) :
    StartsStream s i f (.mload f) .mload ((drainRows g f.cn.toNat + 1) / 2) := by
  have hleft : ceilDiv (drainRows ((Fmt.ofCode f.fp1.toNat).getD .fp32) f.cn.toNat) 2 = (drainRows g f.cn.toNat + 1) / 2 := by
    rw [hfmt]
    rfl
  exact startsStream_of_effect hi (x := .mload f) rfl (consumed_of_entryless hu rfl rfl) (if_neg hsq)
    (State.noted_refl hi.1) (State.noted_of hi.1) ⟨rfl, rfl, rfl, rfl, rfl, hleft⟩ (keeping_stepMload _)

/-- LQNEAR and LQSCALE of a tower source. -/
theorem startsStream_lqSlot (hi : InIssue s i) (hu : Sound s f) (hsq : f.sq ≠ 0) (htower : f.as_ = 1) {code : Nat}
    (hcode : s.lqCode f = some code) {x y : Instr} {u : CellUse} {writes : Bool} {waiting : Ctx → Cell → CellOut}
    (hx : slotMeaning x s = some (lqSlot y f u writes waiting s)) (hform : u.form = f) (hentries : u.entries = fun _ => [])
    (hnow : ∀ x y z, ((waiting x y).now z).tower = z.tower) (hevs : ∀ x y, (waiting x y).evs = []) :
    StartsStream s i f x .lattice ((if code = 0 then 8 else 4) / 2) := by
  subst hform
  have hconsumed := consumed_of_entryless hu rfl hentries
  obtain ⟨hwatch, -, -⟩ := (State.noted_refl hi.1).watchCells watchWr (u.accesses fun c => (u.writes c).map fun w => w.2)
  obtain ⟨hfrom, hnoted⟩ := noted_cellsDo_silent hwatch ((State.noted_watchCells _ _ _).trans (State.noted_of hi.1)) u.form.sq
    (out := fun k c => waiting s.cx (k.cell c)) (fun _ _ _ => hnow _ _ _) fun _ _ => hevs _ _
  have hleft : ceilDiv (lqUnits ((s.lqCode u.form).getD 0)) 2 = (if code = 0 then 8 else 4) / 2 := by
    rw [hcode, Option.getD_some, lqUnits]
    by_cases h : code = 0
    · simp [h, ceilDiv]
    · simp [h, ceilDiv]
  exact startsStream_of_effect hi hx hconsumed ((if_neg hsq).trans (if_pos htower)) hfrom hnoted
    ⟨rfl, rfl, rfl, rfl, rfl, hleft⟩ (keeping_stepLattice _)

/-- Settles O41: each of the five by the stream that its effect starts; with no squad selected the effect is none. -/
theorem streamStarts : Obligations.StreamStarts := by
  intro s i f hi hu starts units
  refine ⟨fun hsq => ?_, fun hsq => ⟨startsStream_tldm hi hu hsq, startsStream_mma hi hu hsq,
    fun g hfmt => startsStream_mload hi hu hsq hfmt, fun code htower hcode _ => ⟨?_, ?_⟩⟩⟩
  · have hidle {x y : Instr} {u : CellUse} {early : Bool → Option StepCause} {effect : State → State}
        (hx : slotMeaning x s = some (cellSlot y u early effect s)) (hform : u.form = f) (hentries : u.entries = fun _ => [])
        (heffect : effect s = s) : exec x s = .next (changed s i id) :=
      exec_cellSlot_id hi hx (consumed_of_entryless hu hform hentries) heffect
    simp only [List.forall_mem_cons, List.not_mem_nil, false_imp_iff, implies_true, and_true]
    exact ⟨hidle (x := .tldm f) rfl rfl rfl (if_pos hsq), hidle (x := .mma f) rfl rfl rfl (if_pos hsq),
      hidle (x := .mload f) rfl rfl rfl (if_pos hsq), hidle (x := .lqnear f) rfl rfl rfl (if_pos hsq),
      hidle (x := .lqscale f) rfl rfl rfl (if_pos hsq)⟩
  · have hx : slotMeaning (.lqnear f) s = some (meanLqnear f s) := rfl
    unfold meanLqnear at hx
    exact startsStream_lqSlot hi hu hsq htower hcode hx rfl rfl (fun _ _ _ => rfl) fun _ _ => rfl
  · have hx : slotMeaning (.lqscale f) s = some (meanLqscale f s) := rfl
    unfold meanLqscale at hx
    exact startsStream_lqSlot hi hu hsq htower hcode hx rfl rfl (fun _ _ _ => rfl) fun _ _ => rfl

end Sys2Proof.Machine
end

section
/-! SUPPORT. Shifts and the express network (R181, R187, R197 to R199), and the statement about them. -/

namespace Sys2Proof.Machine

open Sys2Proof.Claims

variable {s : State} {i : Issue} {f : CForm}

/-! ### Reads of whole registers -/

theorem sameEvents_gatedRead_whole (n r : Nat) :
    SameEvents ((s.cc.cell n).gatedRead r 0xFFFF 16) (itemsOf (gatedBy s 16 n r (List.range 16))) := by
  refine ⟨itemsValid_gatedRead _ _ fun _ => by decide, ?_⟩
  rw [itemsOf_gatedBy, Cell.gatedRead]
  split
  · exact alike_gatedItem (js := List.range 16) fun l hl => by interval_cases l <;> decide
  · exact Alike.refl []

theorem sameEvents_gatedReads_whole (n : Nat) (regs : List Nat) :
    SameEvents (mergeItems ((s.cc.cell n).gatedReads regs 16 0xFFFF))
      (itemsOf (regs.map fun r => gatedBy s 16 n r (List.range 16)).flatten) := by
  have hreads : (s.cc.cell n).gatedReads regs 16 0xFFFF = (regs.map fun r => (s.cc.cell n).gatedRead r 0xFFFF 16).flatten := rfl
  rw [hreads]
  refine ⟨itemsValid_mergeItems (itemsValid_flatten fun xs hxs => ?_), (alike_mergeItems _).trans ?_⟩
  · obtain ⟨r, -, rfl⟩ := List.mem_map.1 hxs
    exact (sameEvents_gatedRead_whole n r).1
  · rw [itemsOf_flatten, List.map_map]
    exact Alike.flatten_map fun r _ => (sameEvents_gatedRead_whole n r).2

/-! ### Shifts (R197) -/

/-- What a shift moves into its receiver's latch. -/
def shiftFrag (x : Ctx) (f : CForm) (d : Side) (v : Row) : FragMove :=
  ⟨x.depth, x.vt + shiftLatency x.sqgeom f d, d.facing.latch, { bits := v.setWidth 512, fmt := f.fp1.toNat }⟩

/-- What a shift gives a cell. -/
def shiftOut (x : Ctx) (f : CForm) (d : Side) (k : Core) (c : Nat) : CellOut :=
  let evs := (k.cell c).gatedRead f.a.toNat 0xFFFF 16
  match (shiftMoves x.sqgeom f d).find? fun m => m.2 == c with
  | none => { evs := evs }
  | some m =>
    { lands := [x.toV f.d.toNat (shiftLatency x.sqgeom f d) ((k.cell m.1).vreg f.a.toNat) (laneBits 16 ((k.cell c).lane f))]
      frags := [shiftFrag x f d ((k.cell m.1).vreg f.a.toNat)]
      evs := evs }

/-- The cell after a shift: unless it receives, as it was. -/
def Shifted (s : State) (f : CForm) (d : Side) (n : Nat) (y : Cell) : Prop :=
  match (shiftMoves s.cx.sqgeom f d).find? fun m => m.2 == n with
  | none => y = s.cc.cell n
  | some m => ∃ (e : CellLanding) (r : FragMove),
      y = { s.cc.cell n with land := (s.cc.cell n).land ++ [e], frags := (s.cc.cell n).frags ++ [r] } ∧
      ToV s f.d.toNat (shiftLatency s.cx.sqgeom f d) 16 (maskIn s f n) (fun j => elemN ((s.cc.cell m.1).vreg f.a.toNat) 16 j) e ∧
      r.level = s.cx.depth ∧ r.due = s.cx.vt + shiftLatency s.cx.sqgeom f d ∧ r.side = d.facing.latch ∧
      r.val.bits = ((s.cc.cell m.1).vreg f.a.toNat).setWidth 512 ∧ r.val.fmt = f.fp1.toNat

theorem shiftOut_now (x : Ctx) (f : CForm) (d : Side) (k : Core) (c : Nat) : (shiftOut x f d k c).now = id := by
  unfold shiftOut
  dsimp only
  split <;> rfl

theorem shiftOut_evs (x : Ctx) (f : CForm) (d : Side) (k : Core) (c : Nat) :
    (shiftOut x f d k c).evs = (k.cell c).gatedRead f.a.toNat 0xFFFF 16 := by
  unfold shiftOut
  dsimp only
  split <;> rfl

theorem shifted_accept (f : CForm) (d : Side) (n : Nat) : Shifted s f d n ((s.cc.cell n).accept (shiftOut s.cx f d s.cc n)) := by
  unfold Shifted shiftOut
  dsimp only
  cases (shiftMoves s.cx.sqgeom f d).find? fun m => m.2 == n with
  | none => exact Cell.accept_now _ id _
  | some m =>
    refine ⟨_, shiftFrag s.cx f d ((s.cc.cell m.1).vreg f.a.toNat), ?_,
      toV_masked (w := 16) (.inr (.inl rfl)) fun j _ _ => (Nat.mod_eq_of_lt (elemN_lt _ 16 j)).symm, rfl, rfl, rfl, rfl, rfl⟩
    simp [Cell.accept, Ctx.toV, maskIn, Cell.lane]

theorem gives_shift (hi : InIssue s i) (hsound : Sound s f) (d : Side) {x y : Instr} (hx : slotMeaning x s = some (shiftSlot y f d s)) :
    Gives s i f x (Shifted s f d) fun n => itemsOf ([f.a.toNat].map fun r => gatedBy s 16 n r (List.range 16)).flatten := by
  refine gives_of_registers hi hsound (out := shiftOut s.cx f d) hx rfl rfl (shiftOut_now _ _ _) (fun k n h => ?_)
    (fun n => shifted_accept f d n) fun n => ?_
  · simp only [shiftOut, h.gatedRead, h.vreg, h.lane]
  · rw [shiftOut_evs, List.map_singleton, List.flatten_singleton]
    exact sameEvents_gatedRead_whole n _

/-! ### Receiving (R199) -/

/-- The registers of an entry, on their way. -/
def xrcvLands (x : Ctx) (f : CForm) (k : Core) (c : Nat) (e : Express) : List CellLanding :=
  (List.range (if routePair f then 2 else 1)).map fun i =>
    x.toV (f.d.toNat + i) 2 (elem e.val.bits 256 i) (laneBits 16 ((k.cell c).lane f))

/-- What an XRCV gives a cell. -/
def xrcvOut (x : Ctx) (f : CForm) (k : Core) (c : Nat) : CellOut :=
  match takeChannel (routeChannel f) (k.cell c).rx with
  | none => {}
  | some (e, rest) => { lands := xrcvLands x f k c e, now := fun y => { y with rx := rest } }

/-- An entry that leaves a receive buffer was in it. -/
theorem mem_of_takeChannel {ch : Nat} {es : List Express} {p : Express × List Express} (h : takeChannel ch es = some p) : p.1 ∈ es := by
  induction es generalizing p with
  | nil => exact absurd h (by simp [takeChannel])
  | cons e es ih =>
    rw [takeChannel] at h
    split at h
    · obtain rfl := Option.some.inj h
      exact List.mem_cons_self
    · obtain ⟨q, hq, rfl⟩ := Option.map_eq_some_iff.1 h
      exact List.mem_cons_of_mem _ (ih (p := q) hq)

theorem xrcvOut_now (x : Ctx) (f : CForm) (k : Core) (c : Nat) (y : Cell) (t : Tower) :
    (xrcvOut x f k c).now { y with tower := t } = { (xrcvOut x f k c).now y with tower := t } := by
  unfold xrcvOut
  split <;> rfl

theorem xrcvOut_evs (x : Ctx) (f : CForm) (k : Core) (c : Nat) : (xrcvOut x f k c).evs = [] := by
  unfold xrcvOut
  split <;> rfl

/-- The cell after an XRCV: the entry's registers on their way, the entry gone. -/
def Received (s : State) (f : CForm) (n : Nat) (y : Cell) : Prop :=
  ∃ (e : Express) (rest : List Express) (es : List CellLanding), takeChannel (routeChannel f) (s.cc.cell n).rx = some (e, rest) ∧
    y = { gaining s n es with rx := rest } ∧ es.length = (if routePair f then 2 else 1) ∧
    ∀ q r, es[q]? = some r → ToV s (f.d.toNat + q) 2 16 (maskIn s f n) (fun j => elemN (elem e.val.bits 256 q) 16 j) r

theorem received_accept {n : Nat} (h : takeChannel (routeChannel f) (s.cc.cell n).rx ≠ none) :
    Received s f n ((s.cc.cell n).accept (xrcvOut s.cx f s.cc n)) := by
  obtain ⟨⟨e, rest⟩, htake⟩ := Option.ne_none_iff_exists'.1 h
  have hout : xrcvOut s.cx f s.cc n = { lands := xrcvLands s.cx f s.cc n e, now := fun y => { y with rx := rest } } := by
    rw [xrcvOut, htake]
  have hplain : (xrcvLands s.cx f s.cc n e).filter (fun l => !(l.isMask && l.idx == 0)) = xrcvLands s.cx f s.cc n e := by
    refine List.filter_eq_self.2 fun l hl => ?_
    obtain ⟨q, -, rfl⟩ := List.mem_map.1 hl
    rfl
  refine ⟨e, rest, xrcvLands s.cx f s.cc n e, htake, ?_, (List.length_map _).trans List.length_range, fun q r hr => ?_⟩
  · rw [hout, Cell.accept]
    dsimp only
    rw [hplain, List.append_nil, List.append_nil]
    rfl
  · obtain ⟨q', hq', rfl⟩ := Option.map_eq_some_iff.1 (List.getElem?_map.symm.trans hr)
    obtain ⟨hlt, hq⟩ := List.getElem?_eq_some_iff.1 hq'
    rw [List.getElem_range] at hq
    subst hq
    exact toV_masked (w := 16) (.inr (.inl rfl)) fun j _ _ => (Nat.mod_eq_of_lt (elemN_lt _ 16 j)).symm

theorem gives_xrcv (hi : InIssue s i) (hsound : Sound s f)
    (hentry : ∀ n : Nat, Sel f n → takeChannel (routeChannel f) (s.cc.cell n).rx ≠ none) :
    Gives s i f (.xrcv f) (Received s f) silent := by
  refine gives_plain hi (x := .xrcv f) (y := .xrcv f) (out := xrcvOut s.cx f) rfl rfl (consumed_of_sound hsound rfl fun n hn p hp => ?_)
    (xrcvOut_now _ _) (fun k n h => ?_) (fun n hn => received_accept (hentry n hn)) fun n _ => ?_
  · obtain ⟨-, -, -, hrx⟩ := hsound n hn
    dsimp only at hp
    split at hp
    next e rest htake =>
      obtain rfl := List.mem_singleton.1 hp
      have hclean : e.val.bad = [] := hrx e (mem_of_takeChannel htake)
      rw [FragVal.badIn, hclean]
      rfl
    next => exact absurd hp List.not_mem_nil
  · have hrx : (k.cell n).rx = (s.cc.cell n).rx := by rw [h.cell n]
    simp only [xrcvOut, xrcvLands, hrx, h.lane]
  · rw [xrcvOut_evs]
    exact ⟨fun e he => absurd he List.not_mem_nil, Alike.refl []⟩

/-! ### Sending (R186, R198) -/

/-- What leaves a cell under a channel's word. -/
def State.expressFrom (s : State) (c : Nat) (w : Word) (l n : Nat) (e : Express) : ExpressMsg :=
  ⟨l, ((s.channelTo c w n).getD (0, 0)).1, ((s.channelTo c w n).getD (0, 0)).2, c, n, e⟩

/-- Cells that all have a destination send in their order. -/
theorem foldl_sendExpress {v : State} {c : Nat} {w : Word} {e : Nat → Express} {l : Nat} (hlaunch : (v.core c).launch = some l)
    {cs : List Nat} (hto : ∀ n ∈ cs, v.channelTo c w n ≠ none) (ms : List ExpressMsg) :
    cs.foldl (fun v n => v.sendExpress c w n (e n)) { v with express := ms } =
      { v with express := ms ++ cs.map fun n => v.expressFrom c w l n (e n) } := by
  induction cs generalizing ms with
  | nil => rw [List.foldl_nil, List.map_nil, List.append_nil]
  | cons n cs ih =>
    obtain ⟨hn, hcs⟩ := List.forall_mem_cons.1 hto
    obtain ⟨⟨dc, dn⟩, hdst⟩ := Option.ne_none_iff_exists'.1 hn
    have hsend : State.sendExpress { v with express := ms } c w n (e n) =
        { v with express := ms ++ [v.expressFrom c w l n (e n)] } := by
      have hdst' : State.channelTo { v with express := ms } c w n = some (dc, dn) := hdst
      have hlaunch' : (State.core { v with express := ms } c).launch = some l := hlaunch
      rw [State.sendExpress, hdst', hlaunch', State.expressFrom, hdst]
      rfl
    rw [List.foldl_cons, hsend, ih hcs, List.map_cons, List.append_assoc]
    rfl

/-- The destinations of a channel come from the cores and the launches alone. -/
theorem State.channelTo_congr {v : State} (hcore : ∀ c, v.core c = s.core c) (hlaunches : v.launches = s.launches) (c : Nat) (w : Word)
    (n : Nat) : v.channelTo c w n = s.channelTo c w n := by
  have hctx : v.ctxAt = s.ctxAt := funext fun a => funext fun b => by rw [State.ctxAt, hcore]; rfl
  have hlaunch : v.launchOf c = s.launchOf c := by
    rw [State.launchOf, hcore]
    simp only [State.launch?, hlaunches]
    rfl
  rw [State.channelTo, hlaunch, hctx]
  rfl

/-- An instruction that reads and writes no tower row. -/
theorem served_rowless {u : CellUse} (hreads : u.reads = fun _ => []) (hwrites : u.writes = fun _ => []) :
    s.served u = s.modCore id := by
  have hnone (kind : Nat) (rows : Nat → List Nat) (h : ∀ c, rows c = []) (v : State) : v.watchCells kind (u.accesses rows) = v := by
    have hacc : u.accesses rows = [] := by
      rw [CellUse.accesses, List.flatten_eq_nil_iff]
      intro xs hxs
      obtain ⟨c, -, rfl⟩ := List.mem_map.1 hxs
      rw [h]
      rfl
    rw [hacc]
    rfl
  have hrows (c : Nat) : ((u.reads c).map fun r => r.2.row) = [] := by rw [hreads]; rfl
  have htargets (c : Nat) : ((u.writes c).map fun w => w.2) = [] := by rw [hwrites]; rfl
  rw [State.served, hnone _ _ hrows, hnone _ _ htargets, State.serveUse]
  refine congrArg (s.setCore s.turn.core) ?_
  exact foldl_keeps (r := id) (fun k c => by rw [hreads]; rfl) u.cells s.cc

/-- What an instruction gives cells beside which messages leave. -/
theorem givesWith_express (hi : InIssue s i) {x : Instr} {v : State} {ms : List ExpressMsg} {out : Core → Nat → CellOut}
    {P : Nat → Cell → Prop} {I : Nat → List EvItem}
    (hexec : exec x s = .next (State.cellsDo { v with express := ms } (cellsOf f.sq) out).completeUnless)
    (hfrom : v.NotedFrom s i) (hcc : v.cc = s.cc) (hnoted : v.noted = some i.raises) (hnow : ∀ k c, (out k c).now = id)
    (hP : ∀ n : Nat, Sel f n → P n ((s.cc.cell n).accept (out s.cc n)))
    (hI : ∀ n : Nat, Sel f n → SameEvents (out s.cc n).evs (I n)) : GivesWith s i f x P I fun t => t.express = ms := by
  obtain ⟨j0, -, hcx0⟩ := hfrom.cx
  have hissue0 : v.cx.issue = some j0 := by rw [hcx0]
  have hraises0 : j0.raises = i.raises := Option.some.inj ((State.noted_of hissue0).symm.trans hnoted)
  have hkeep : ∀ (k : Core) (c : Nat) (y : Cell), ((out k c).now y).tower = y.tower := fun k c y => by rw [hnow]; rfl
  have hsent : State.NotedFrom { v with express := ms } { s with express := ms } i :=
    ⟨hfrom.cx, hfrom.mem, rfl, hfrom.turn, hfrom.cmem, hfrom.row⟩
  obtain ⟨hto, hcell⟩ := hsent.cellsDo f.sq hkeep
  have hraises := (State.noted_completeUnless _).trans (State.noted_cellsDo (s := { v with express := ms }) hissue0 f.sq hkeep)
  obtain ⟨⟨j, hcx, hdone, hlate⟩, hmem, hexpress, hcmem, hrow, hcells⟩ := hto.completes hi.2.2
  have hcc' : State.cc { v with express := ms } = s.cc := hcc
  rw [State.noted_of (by rw [hcx]), hcc', hraises0] at hraises
  refine ⟨_, hexec, hexpress, ⟨j, hcx, hdone, hlate, slotEvs (cellsOf f.sq) (fun c => (out s.cc c).evs), ?_, fun e he => ?_,
    fun n hn => ?_⟩, hmem, hcmem, hrow, fun n hn => ?_⟩
  · exact (Option.some.inj hraises).trans (congrArg (fun t : Turn => if slotEvs (cellsOf f.sq) (fun c => (out s.cc c).evs) = [] then
      i.raises else i.raises ++ [⟨t.slot, slotEvs (cellsOf f.sq) fun c => (out s.cc c).evs⟩]) hfrom.turn)
  · exact mem_cellsOf.1 (mem_slotEvs he)
  · rw [slotEvs_of_cell (cellsOf_nodup _) _ (mem_cellsOf.2 hn)]
    exact hI n hn
  · have hn' := (hcells n).trans (hcell n)
    rw [hcc'] at hn'
    split
    next hsq => exact ⟨_, hP n ⟨hn, hsq⟩, by rw [hn', if_pos (mem_cellsOf.2 ⟨hn, hsq⟩)]⟩
    next hsq => exact hn'.trans (if_neg fun h => hsq (mem_cellsOf.1 h).2)

/-- The registers that XSND sends. -/
def xsndRegs (f : CForm) : List Nat := (List.range (if routePair f then 2 else 1)).map fun i => f.a.toNat + i

/-- The entry that XSND sends from a cell. -/
def xsndEntry (f : CForm) (k : Core) (n : Nat) : Express :=
  let values := (List.range (if routePair f then 2 else 1)).map fun i => ((k.cell n).vreg (f.a.toNat + i)).toNat
  ⟨routeChannel f, false, { bits := joinElems 512 256 values }⟩

/-- The messages of an XSND, in the order of its cells. -/
def xsndMessages (s : State) (f : CForm) (l : Nat) : List ExpressMsg :=
  (cellsOf f.sq).map fun n => s.expressFrom s.turn.core (s.cx.xchan (routeChannel f)) l n (xsndEntry f s.cc n)

theorem xsndRegs_eq (f : CForm) : xsndRegs f = if bit f.rt 7 then [f.a.toNat, f.a.toNat + 1] else [f.a.toNat] := by
  unfold xsndRegs
  change (List.range (if bit f.rt 7 then 2 else 1)).map (fun i => f.a.toNat + i) = _
  split <;> rfl

/-- Register `i` of the entry. -/
theorem elem_xsndEntry (f : CForm) (k : Core) (n : Nat) {i : Nat} (hi : i < if routePair f then 2 else 1) :
    elem (xsndEntry f k n).val.bits 256 i = (k.cell n).vreg (f.a.toNat + i) := by
  have hfit : 256 * i + 256 ≤ 512 := by split at hi <;> omega
  refine BitVec.eq_of_toNat_eq ?_
  change elemN (xsndEntry f k n).val.bits 256 i = _
  rw [xsndEntry, elemN_joinElems hfit, getD_map_range 0 _ hi, Nat.mod_eq_of_lt (BitVec.isLt _)]

theorem exec_xsnd (hi : InIssue s i) (hsound : Sound s f) {l : Nat} (hlaunch : s.cc.launch = some l)
    (hto : ∀ n : Nat, Sel f n → s.channelTo s.turn.core (s.cx.xchan (routeChannel f)) n ≠ none) :
    exec (.xsnd f) s = .next (State.cellsDo { s.modCore id with express := s.express ++ xsndMessages s f l } (cellsOf f.sq)
      fun k n => { evs := mergeItems ((k.cell n).gatedReads (xsndRegs f) 16 0xFFFF) }).completeUnless := by
  have hx : slotMeaning (.xsnd f) s = some (meanXsnd f s) := rfl
  unfold meanXsnd at hx
  have hexec := exec_plain hi _ hx (consumed_of_entryless hsound rfl rfl)
  rw [served_rowless rfl rfl] at hexec
  have hcore (c : Nat) : (s.modCore id).core c = s.core c := by
    by_cases hc : c = s.turn.core
    · subst hc
      exact State.core_setCore_same s _ _
    · exact State.core_setCore_other s hc _
  have hcc : (s.modCore id).cc = s.cc := hcore _
  have hchan := State.channelTo_congr hcore rfl s.turn.core (s.cx.xchan (routeChannel f))
  have hsends := foldl_sendExpress (v := s.modCore id) (c := s.turn.core) (e := xsndEntry f s.cc) ((congrArg Core.launch hcc).trans hlaunch)
    (fun n hn => (hchan n).symm ▸ hto n (mem_cellsOf.1 hn)) s.express
  simp only [State.expressFrom, hchan] at hsends
  refine hexec.trans (congrArg (fun v => Host.Outcome.next (State.cellsDo v (cellsOf f.sq) _).completeUnless) (Eq.trans ?_ hsends))
  rw [hcc]
  rfl

/-- XSND's messages, and the reads that they take. -/
theorem givesWith_xsnd (hi : InIssue s i) (hsound : Sound s f) {l : Nat} (hlaunch : s.cc.launch = some l)
    (hto : ∀ n : Nat, Sel f n → s.channelTo s.turn.core (s.cx.xchan (routeChannel f)) n ≠ none) :
    GivesWith s i f (.xsnd f) (fun n y => y = s.cc.cell n)
      (fun n => itemsOf ((xsndRegs f).map fun r => gatedBy s 16 n r (List.range 16)).flatten)
      fun t => t.express = s.express ++ xsndMessages s f l := by
  have hfrom : (s.modCore id).NotedFrom s i := (State.noted_refl hi.1).modCore rfl rfl fun _ _ => rfl
  have hcx : (s.modCore id).cx = s.cx := by
    rw [State.cx_modCore]
    rfl
  have hnoted : (s.modCore id).noted = some i.raises := State.noted_of (hcx ▸ hi.1)
  exact givesWith_express hi (exec_xsnd hi hsound hlaunch hto) hfrom (State.cc_modCore s id) hnoted (fun _ _ => rfl)
    (fun n _ => Cell.accept_now _ id _) fun n _ => sameEvents_gatedReads_whole n _

/-- Settles O44: shifts by what they give their receivers, XSND by the messages that leave, XRCV by the entry that it takes. -/
theorem cellMoveResults : Obligations.CellMoveResults := by
  intro s i f hi hsound sent shift
  have hchannel : routeChannel f = f.rt.toNat % 16 := fieldN_low f.rt 4
  refine ⟨gives_shift hi hsound .n (x := .shn f) rfl, gives_shift hi hsound .e (x := .she f) rfl,
    gives_shift hi hsound .s (x := .shs f) rfl, gives_shift hi hsound .w (x := .shw f) rfl, ?_, fun hentry => ?_⟩
  · intro l ch hch hlaunch hto
    rw [← hchannel] at hch
    subst hch
    obtain ⟨t, hexec, hexpress, hrest⟩ := givesWith_xsnd hi hsound hlaunch hto
    rw [xsndRegs_eq] at hrest
    refine ⟨t, hexec, ⟨_, hexpress, ?_, fun m hm => ?_⟩, hrest⟩
    · rw [xsndMessages, List.map_map]
      exact List.map_id _
    · obtain ⟨n, hn, rfl⟩ := List.mem_map.1 hm
      obtain ⟨dst, hdst⟩ := Option.ne_none_iff_exists'.1 (hto n (mem_cellsOf.1 hn))
      refine ⟨?_, rfl, rfl, rfl, elem_xsndEntry f s.cc n (by split <;> decide), fun hpair => elem_xsndEntry f s.cc n ?_⟩
      · simp only [State.expressFrom, hdst, Option.getD_some]
      · rw [routePair, if_pos hpair]
        decide
  · rw [← hchannel] at hentry ⊢
    exact gives_xrcv hi hsound hentry

end Sys2Proof.Machine
end

section
/-! SUPPORT. What clock time leaves alone: memory, CMEM, contexts and clusters; and the occurrences that only touch cells, clusters
or the network (R139, R187, R232, R235, R238, R378, R383). -/

namespace Sys2Proof.Machine

open Sys2Proof.Claims

variable {s t v : State} {c : Nat}

/-! ### What stays -/

/-- Memory, the clusters, and every core's CMEM and contexts are as before. -/
structure State.Calm (t s : State) : Prop where
  mem : t.mem = s.mem
  clusters : t.clusters = s.clusters
  cmem : ∀ c, (t.core c).cmem = (s.core c).cmem
  ctxs : ∀ c, (t.core c).ctxs = (s.core c).ctxs

theorem State.Calm.refl (s : State) : s.Calm s := ⟨rfl, rfl, fun _ => rfl, fun _ => rfl⟩

theorem State.Calm.trans {a b d : State} (h : a.Calm b) (h' : b.Calm d) : a.Calm d :=
  ⟨h.mem.trans h'.mem, h.clusters.trans h'.clusters, fun c => (h.cmem c).trans (h'.cmem c), fun c => (h.ctxs c).trans (h'.ctxs c)⟩

theorem State.calm_of_cores (hmem : t.mem = s.mem) (hclusters : t.clusters = s.clusters) (hcores : t.cores = s.cores) : t.Calm s :=
  ⟨hmem, hclusters, fun _ => by rw [State.core, hcores]; rfl, fun _ => by rw [State.core, hcores]; rfl⟩

/-- What a core that is put back shares with the one before, all cores keep. -/
theorem State.core_setCore_part {α : Type} (part : Core → α) {k : Core} (h : part k = part (t.core c)) (d : Nat) :
    part ((t.setCore c k).core d) = part (t.core d) := by
  by_cases hd : d = c
  · rw [hd, State.core_setCore_same, h]
  · rw [State.core_setCore_other t hd]

/-- A core with the CMEM and the contexts of the one before. -/
theorem State.Calm.setCore (h : t.Calm s) {k : Core} (hcmem : k.cmem = (t.core c).cmem) (hctxs : k.ctxs = (t.core c).ctxs) :
    (t.setCore c k).Calm s := by
  exact ⟨h.mem, h.clusters, fun d => (State.core_setCore_part Core.cmem hcmem d).trans (h.cmem d),
    fun d => (State.core_setCore_part Core.ctxs hctxs d).trans (h.ctxs d)⟩

theorem quiet_of_parts (hmem : t.mem = s.mem) (hcmem : ∀ c, (t.core c).cmem = (s.core c).cmem)
    (hctxs : ∀ c, (t.core c).ctxs = (s.core c).ctxs) : Quiet s t :=
  ⟨hmem, fun c k => ⟨hcmem c, by rw [State.ctxAt, Core.ctx, hctxs]; rfl⟩⟩

theorem State.Calm.quiet (h : t.Calm s) : Quiet s t := quiet_of_parts h.mem h.cmem h.ctxs

/-- A change of clusters stays quiet. -/
theorem State.Calm.quiet_setCluster (h : t.Calm s) (cl : Nat) (x : Cluster) : Quiet s (t.setCluster cl x) :=
  quiet_of_parts h.mem h.cmem h.ctxs

theorem State.calm_tick (s : State) (time : Nat) : (s.tick time).Calm s := State.calm_of_cores rfl rfl rfl

theorem State.calm_foldl {α : Type} {f : State → α → State} (h : ∀ t a, (f t a).Calm t) (as : List α) (s : State) :
    (as.foldl f s).Calm s := by
  induction as generalizing s with
  | nil => exact State.Calm.refl s
  | cons a as ih => exact (ih _).trans (h s a)

theorem State.cluster_setCluster (t : State) (n m : Nat) (x : Cluster) :
    (t.setCluster n x).cluster m = if m = n then x else t.cluster m := get_set _ _ _ _ _

theorem State.Calm.cluster (h : t.Calm s) (n : Nat) : t.cluster n = s.cluster n := by rw [State.cluster, h.clusters]; rfl

/-- A core with another tower. -/
theorem State.Calm.setTower (h : t.Calm s) (n : Nat) (w : Tower) : (t.setCore c ((t.core c).setTower n w)).Calm s :=
  h.setCore (Core.rowsOf_setTower _ _ _).cmem (Core.rowsOf_setTower _ _ _).ctxs

/-- A core with another cell. -/
theorem State.Calm.setCell (h : t.Calm s) (n : Nat) (y : Cell) : (t.setCore c ((t.core c).setCell n y)).Calm s := by
  refine h.setCore ?_ ?_
  · rfl
  · rfl

/-! ### Express arrivals (R187) -/

theorem expressArrives_of {n : Nat} {m : ExpressMsg} (hm : s.express[n]? = some m) (hlaunch : (s.core m.core).launch = some m.launch)
    (hruns : s.unitsRun m.core = true) (hroom : ((s.core m.core).cell m.cell).rx.length < 4)
    (hfirst : ∀ e ∈ s.express.take n, ¬ (e.core = m.core ∧ e.cell = m.cell ∧ e.fromCore = m.fromCore ∧ e.fromCell = m.fromCell ∧
      e.val.chan = m.val.chan)) : s.expressArrives n = true := by
  have hnone : ((s.express.take n).any fun e => e.core == m.core && e.cell == m.cell && e.fromCore == m.fromCore &&
      e.fromCell == m.fromCell && e.val.chan == m.val.chan) = false := by
    rw [List.any_eq_false]
    intro e he hsame
    simp only [Bool.and_eq_true, beq_iff_eq, and_assoc] at hsame
    exact hfirst e he hsame
  simp [State.expressArrives, hm, hlaunch, hruns, hroom, hnone]

theorem exec_expressArrival {n : Nat} {m : ExpressMsg} (hm : s.express[n]? = some m) (harrives : s.expressArrives n = true) :
    ∃ t, exec (.expressArrival n) s = .next t ∧ t.express = s.express.eraseIdx n ∧ Quiet s t ∧
      ((t.core m.core).cell m.cell).rx = ((s.core m.core).cell m.cell).rx ++ [m.val] := by
  refine ⟨State.setCore { s with express := s.express.eraseIdx n } m.core ((s.core m.core).setCell m.cell
    { (s.core m.core).cell m.cell with rx := ((s.core m.core).cell m.cell).rx ++ [m.val] }), ?_, rfl, ?_, ?_⟩
  · change Host.Outcome.next _ = _
    simp only [harrives, hm, if_true]
  · have hsent : State.Calm { s with express := s.express.eraseIdx n } s := State.calm_of_cores rfl rfl rfl
    exact (hsent.setCell m.cell _).quiet
  · rw [State.core_setCore_same, Core.cell_setCell, if_pos rfl]

/-! ### Ends of wakes (R139, R232) -/

theorem Tower.layer_setLayer (w : Tower) (l : Nat) (p : LayerPower) : (w.setLayer l p).layer l = p := get_set_same _ _ _ _

theorem Tower.layer_endWake (w : Tower) (l : Nat) : (w.endWake l).layer l =
    match w.wakes.find? fun w => w.layer == l with
    | some w => w.restore.getD .on
    | none => w.layer l := by
  unfold Tower.endWake
  cases w.wakes.find? fun w => w.layer == l with
  | none => rfl
  | some w => exact Tower.layer_setLayer _ _ _

theorem exec_layerWakeDone {cell layer : Nat} (hc : c < 128) (hcell : cell < 256) (hlayer : layer < 8) :
    exec (.layerWakeDone c cell layer) s =
      .next (s.setCore c ((s.core c).setTower cell (((s.core c).tower cell).endWake layer))) :=
  if_neg (by simp only [Config.cores, Config.cells]; omega)

theorem Cell.group_endGroupWake (y : Cell) (g : Nat) :
    (y.endGroupWake g).group g = if y.groupWakes.contains g then .on else y.group g := by
  unfold Cell.endGroupWake
  split
  · exact (Cell.group_setGroup y g g .on).trans (if_pos rfl)
  · rfl

theorem exec_groupWakeDone {cell g : Nat} (hc : c < 128) (hcell : cell < 256) (hg : g < 4) :
    exec (.groupWakeDone c cell g) s = .next (s.setCore c ((s.core c).setCell cell (((s.core c).cell cell).endGroupWake g))) :=
  if_neg (by simp only [Config.cores, Config.cells]; omega)

/-! ### Temperature and the ends of deferrals (R235, R238) -/

theorem exec_tempReading {cl celsius time : Nat} (hcl : cl < 32) :
    exec (.tempReading cl celsius time) s =
      .next ((s.tick time).setCluster cl { (s.tick time).cluster cl with temp := celsius }) :=
  if_neg (Nat.not_le.2 hcl)

/-- A core whose deferrals up to a clock time are over. -/
def Core.expire (clk : Nat) (k : Core) : Core :=
  { k with
    cells := k.cells.map fun (p : Nat × Cell) => (p.1, { p.2 with tower := p.2.tower.expire clk })
    spares := k.spares.map fun (p : Nat × Tower) => (p.1, p.2.expire clk) }

theorem State.Calm.expire (h : t.Calm s) (clk : Nat) : (t.setCore c ((t.core c).expire clk)).Calm s := by
  refine h.setCore ?_ ?_
  · rfl
  · rfl

theorem exec_deferralExpiry {time : Nat} (hc : c < 128) :
    exec (.deferralExpiry c time) s = .next ((s.tick time).setCore c (((s.tick time).core c).expire (s.tick time).clock)) :=
  if_neg (by simp only [Config.cores]; omega)

theorem get_map {α : Type} (d : α) (f : α → α) (hd : f d = d) (m : SMap α) (n : Nat) :
    get d (m.map fun p => (p.1, f p.2)) n = f (get d m n) := by
  induction m with
  | nil => exact hd.symm
  | cons p m ih =>
    obtain ⟨a, x⟩ := p
    rw [List.map_cons, get, get]
    split
    · rfl
    · exact ih

theorem Core.tower_expire (clk : Nat) (k : Core) (n : Nat) : (k.expire clk).tower n = (k.tower n).expire clk := by
  have hcell := get_map (α := Cell) {} (fun y => { y with tower := y.tower.expire clk }) rfl k.cells n
  have hspare := get_map (α := Tower) .offSpare (fun w => w.expire clk) rfl k.spares (n / 16)
  have huses : (k.expire clk).usesSpare n = k.usesSpare n := rfl
  rw [Core.tower, Core.tower, huses]
  split
  · exact hspare
  · exact congrArg Cell.tower hcell

/-! ### Rail changes and the network's clock (R378, R383) -/

theorem State.calm_sendFlit {g n : Nat} {op : RemoteOp} {owner : Option (Nat × Nat)} (h : s.sendFlit g op owner = some (n, t)) :
    t.Calm s := by
  unfold State.sendFlit at h
  dsimp only at h
  split at h
  · exact absurd h (by simp)
  · obtain ⟨-, rfl⟩ := Prod.mk.inj (Option.some.inj h)
    exact State.calm_of_cores rfl rfl rfl

theorem State.calm_sendPackets (c e group : Nat) (ps : List (List (Word × Byte) × Nat)) (s : State) :
    (s.sendPackets c e group ps).Calm s := by
  induction ps generalizing s with
  | nil => exact State.Calm.refl s
  | cons p ps ih =>
    unfold State.sendPackets
    dsimp only
    split
    · exact State.Calm.refl s
    · split
      next => exact State.Calm.refl s
      next hsend => exact (ih _).trans ((State.calm_sendFlit hsend).setCore rfl rfl)

theorem State.calm_sendRun (s : State) (c e : Nat) : (s.sendRun c e).Calm s := by
  unfold State.sendRun
  split
  · exact State.Calm.refl s
  · split
    · split
      · exact State.calm_sendPackets _ _ _ _ _
      · exact State.Calm.refl s
    · exact State.Calm.refl s

theorem State.calm_sendRuns (s : State) (cs : List Nat) : (s.sendRuns cs).Calm s :=
  State.calm_foldl (fun t c => State.calm_foldl (fun t e => t.calm_sendRun c e) (List.range 8) t) cs s

/-- The cluster after its rail change. -/
def Cluster.railed (x : Cluster) : Cluster := { x with switching := false, rail := x.toRail, changes := x.changes + 1 }

theorem exec_railChangeEnd {cl : Nat} (hcl : cl < 32) : exec (.railChangeEnd cl) s = .next (if (s.cluster cl).switching then
    (s.setCluster cl (s.cluster cl).railed).sendRuns ((List.range 4).map fun i => 4 * cl + i) else s) :=
  if_neg (Nat.not_le.2 hcl)

theorem railChangeEnd_result {cl : Nat} {x : Cluster} (hcl : cl < 32) (hx : x = s.cluster cl) :
    ∃ t, exec (.railChangeEnd cl) s = .next t ∧ Quiet s t ∧ t.cluster cl = if x.switching then x.railed else x := by
  subst hx
  refine ⟨_, exec_railChangeEnd hcl, ?_⟩
  split
  · have hsent := State.calm_sendRuns (s.setCluster cl (s.cluster cl).railed) ((List.range 4).map fun i => 4 * cl + i)
    refine ⟨quiet_of_parts hsent.mem hsent.cmem hsent.ctxs, (hsent.cluster cl).trans ?_⟩
    exact (State.cluster_setCluster _ _ _ _).trans (if_pos rfl)
  · exact ⟨(State.Calm.refl s).quiet, rfl⟩

/-- A die's network after a step toward a frequency. -/
def nocStep (f want : Nat) : Nat := if f < min want 4 then f + 1 else if min want 4 < f then f - 1 else f

theorem exec_nocFreqStep {die want : Nat} (hdie : die < 3) :
    exec (.nocFreqStep die want) s = .next { s with noc := set 0 die (nocStep (get 0 s.noc die) want) s.noc } :=
  if_neg (Nat.not_le.2 hdie)

end Sys2Proof.Machine
end

section
/-! SUPPORT. Refresh and the retention guard (R234, R236, R238 to R240, R434, R435). -/

namespace Sys2Proof.Machine

open Sys2Proof.Claims

variable {s : State} {c clk : Nat}

/-! ### What a refresh keeps -/

/-- A tower with the rows and the deferrals of one before, and no group touched but at `clk`. -/
structure Tower.Refreshed (clk : Nat) (w w₀ : Tower) : Prop where
  rows : w.rows = w₀.rows
  defer : w.defer = w₀.defer
  touch : ∀ g, get 0 w.touch g = clk ∨ get 0 w.touch g = get 0 w₀.touch g

theorem Tower.Refreshed.refl (w : Tower) : w.Refreshed clk w := ⟨rfl, rfl, fun _ => .inr rfl⟩

theorem Tower.Refreshed.trans {a b d : Tower} (h : a.Refreshed clk b) (h' : b.Refreshed clk d) : a.Refreshed clk d where
  rows := h.rows.trans h'.rows
  defer := h.defer.trans h'.defer
  touch g := (h.touch g).elim .inl fun e => e ▸ h'.touch g

theorem Tower.touch_touchAll (w : Tower) (clk : Nat) (gs : List Nat) (g : Nat) :
    get 0 (w.touchAll clk gs).touch g = if g ∈ gs then clk else get 0 w.touch g := by
  unfold Tower.touchAll
  dsimp only
  generalize w.touch = m
  induction gs generalizing m with
  | nil => simp
  | cons a gs ih =>
    rw [List.foldl_cons, ih, get_set]
    by_cases hg : g = a <;> by_cases hgs : g ∈ gs <;> simp [hg, hgs]

theorem Tower.refreshed_touchAll (w : Tower) (gs : List Nat) : (w.touchAll clk gs).Refreshed clk w := by
  refine ⟨rfl, rfl, fun g => ?_⟩
  rw [w.touch_touchAll]
  split
  · exact .inl rfl
  · exact .inr rfl

theorem Tower.refreshed_serve (w : Tower) (r : Nat) : (w.serve clk r).Refreshed clk w := by
  unfold Tower.serve
  split
  · exact ({ w with bad := w.bad.filter fun q => q != r } : Tower).refreshed_touchAll _ |>.trans ⟨rfl, rfl, fun _ => .inr rfl⟩
  · exact w.refreshed_touchAll _

theorem Tower.refreshed_settleXor (w : Tower) (r : Nat) : (w.settleXor r).Refreshed clk w := by
  unfold Tower.settleXor
  split
  · exact Tower.Refreshed.refl w
  · exact ⟨rfl, rfl, fun _ => .inr rfl⟩

/-- A core with the contexts and the CMEM of one before, and refreshed towers. -/
structure Core.Refreshed (clk : Nat) (k k₀ : Core) : Prop where
  ctxs : k.ctxs = k₀.ctxs
  cmem : k.cmem = k₀.cmem
  towers : ∀ n, (k.tower n).Refreshed clk (k₀.tower n)

theorem Core.Refreshed.refl (k : Core) : k.Refreshed clk k := ⟨rfl, rfl, fun n => Tower.Refreshed.refl (k.tower n)⟩

theorem Core.Refreshed.trans {a b d : Core} (h : a.Refreshed clk b) (h' : b.Refreshed clk d) : a.Refreshed clk d :=
  ⟨h.ctxs.trans h'.ctxs, h.cmem.trans h'.cmem, fun n => (h.towers n).trans (h'.towers n)⟩

/-- A tower that is put back serves its cell, and those that share it. -/
theorem Core.tower_setTower_cases (k : Core) (n m : Nat) (w : Tower) :
    (k.setTower n w).tower m = k.tower m ∨ (k.setTower n w).tower m = w ∧ k.tower m = k.tower n := by
  have huses := Core.usesSpare_of_remap (k.remap_setTower n w) m
  rw [Core.tower, huses, Core.tower, Core.tower, Core.setTower]
  by_cases hn : k.usesSpare n = true
  · by_cases hm : k.usesSpare m = true
    · by_cases hrow : m / 16 = n / 16
      · right
        simp [hn, hm, hrow, Core.spare]
      · left
        simp [hn, hm, hrow, Core.spare, get_set]
    · left
      simp [hn, hm, Core.cell]
  · by_cases hm : k.usesSpare m = true
    · left
      simp [hn, hm, Core.setCell, Core.spare]
    · by_cases hmn : m = n
      · right
        subst hmn
        simp [hn]
      · left
        simp [hn, hm, hmn, Core.cell_setCell]

theorem Core.refreshed_setTower {k : Core} {n : Nat} {w : Tower} (h : w.Refreshed clk (k.tower n)) :
    (k.setTower n w).Refreshed clk k := by
  obtain ⟨hctxs, hcmem, -, -, -⟩ := k.rowsOf_setTower n w
  refine ⟨hctxs, hcmem, fun m => ?_⟩
  rcases k.tower_setTower_cases n m w with hm | ⟨hm, hshared⟩
  · rw [hm]
    exact Tower.Refreshed.refl _
  · rw [hm, hshared]
    exact h

theorem Core.Counted.refreshed {k k₀ : Core} (h : k.Counted k₀) : k.Refreshed clk k₀ := by
  obtain ⟨w, es, ts, rfl⟩ := h
  exact ⟨rfl, rfl, fun n => Tower.Refreshed.refl (k₀.tower n)⟩

theorem Core.refreshed_serveRow (k : Core) (cell r : Nat) : (k.serveRow clk cell r).Refreshed clk k := by
  have hserve := Core.refreshed_setTower ((k.tower cell).refreshed_serve (clk := clk) r)
  unfold Core.serveRow
  dsimp only
  split
  · exact (Core.Counted.refreshed (Core.countCorr_eq _ _ _)).trans hserve
  · exact hserve

theorem Core.refreshed_refreshRow (k : Core) (cell r : Nat) : (k.refreshRow clk cell r).Refreshed clk k := by
  unfold Core.refreshRow
  split
  · exact Core.Counted.refreshed (Core.countUncorr_eq _ _ _)
  · exact k.refreshed_serveRow cell r

theorem Core.refreshed_refreshXor (k : Core) (cell r : Nat) : (k.refreshXor clk cell r).Refreshed clk k := by
  unfold Core.refreshXor
  dsimp only
  split
  · exact Core.Refreshed.refl k
  · split
    · exact Core.Counted.refreshed (Core.countUncorr_eq _ _ _)
    · exact (Core.Counted.refreshed (Core.countCorr_eq _ _ _)).trans (Core.refreshed_setTower ((k.tower cell).refreshed_settleXor r))

theorem Core.refreshed_foldl {α : Type} {f : Core → α → Core} (h : ∀ k a, (f k a).Refreshed clk k) (as : List α) (k : Core) :
    (as.foldl f k).Refreshed clk k :=
  foldl_inv (fun q : Core => q.Refreshed clk k) f (fun q a hq => (h q a).trans hq) as k (Core.Refreshed.refl k)

/-- A refresh keeps rows and deferrals, and its group is touched. -/
theorem Core.refresh_spec (k : Core) (clk cell g : Nat) :
    (k.refresh clk cell g).Refreshed clk k ∧ get 0 ((k.refresh clk cell g).tower cell).touch g = clk := by
  unfold Core.refresh
  dsimp only
  have hrows : Core.Refreshed clk (if g % 9 = 8 then (bankRows (g / 9) 0).foldl (fun k r => k.refreshXor clk cell r) k
      else ((bankRows (g / 9) (g % 9)).filter (k.tower cell).isBad).foldl (fun k r => k.refreshRow clk cell r) k) k := by
    split
    · exact Core.refreshed_foldl (fun q r => q.refreshed_refreshXor cell r) _ k
    · exact Core.refreshed_foldl (fun q r => q.refreshed_refreshRow cell r) _ k
  generalize (if g % 9 = 8 then _ else _ : Core) = q at hrows ⊢
  refine ⟨(Core.refreshed_setTower ((q.tower cell).refreshed_touchAll [g])).trans hrows, ?_⟩
  rw [Core.tower_setTower, Tower.touch_touchAll, if_pos (List.mem_singleton.2 rfl)]

/-! ### REFRESH (R236, R378) -/

theorem exec_refresh {cell g : Nat} (hc : c < 128) (hcell : cell < 256) (hg : g < 72) : exec (.refresh c cell g) s =
    .next (if s.refreshDue c cell g then s.setCore c ((s.core c).refresh s.clock cell g) else s) :=
  if_neg (by simp only [Config.cores, Config.cells]; omega)

theorem refreshDue_iff {cell g : Nat} : s.refreshDue c cell g = true ↔
    (s.cluster (clusterOf c)).switching = false ∧ ((s.core c).tower cell).layer (g / 9) ≠ .off ∧
      get 0 ((s.core c).tower cell).defer (g / 9) ≤ s.clock ∧ retention (s.cluster (clusterOf c)).temp * cyclesPerMs ≤
        2 * (s.clock - get 0 ((s.core c).tower cell).touch g + cyclesPerMs) := by
  simp [State.refreshDue, Tower.refreshDue, Tower.deferred, and_assoc]

theorem refresh_result {cell g : Nat} (hc : c < 128) (hcell : cell < 256) (hg : g < 72) :
    ∃ t, exec (.refresh c cell g) s = .next t ∧ Quiet s t ∧ (∀ r : Nat, (t.core c).towerRow cell r = (s.core c).towerRow cell r) ∧
      (s.refreshDue c cell g = true → get 0 ((t.core c).tower cell).touch g = s.clock) ∧ (s.refreshDue c cell g = false → t = s) := by
  obtain ⟨hkept, htouch⟩ := (s.core c).refresh_spec s.clock cell g
  refine ⟨_, exec_refresh hc hcell hg, ?_⟩
  split
  next hdue =>
    refine ⟨((State.Calm.refl s).setCore hkept.cmem hkept.ctxs).quiet, fun r => ?_, fun _ => ?_, fun h => ?_⟩
    · rw [State.core_setCore_same, Core.towerRow, Core.towerRow, Tower.row, Tower.row, (hkept.towers cell).rows]
    · rw [State.core_setCore_same, htouch]
    · exact absurd (hdue.symm.trans h) (by decide)
  next hnot => exact ⟨(State.Calm.refl s).quiet, fun _ => rfl, fun h => absurd h hnot, fun _ => rfl⟩

/-! ### The guard fires (R239) -/

/-- A core after the deferrals of some cells have ended. -/
def Core.endDeferrals (cs : List Nat) (k : Core) : Core := cs.foldl (fun q n => q.setTower n { q.tower n with defer := [] }) k

/-- A core after refreshes of some groups. -/
def Core.refreshAll (clk : Nat) (gs : List (Nat × Nat)) (k : Core) : Core := gs.foldl (fun q r => q.refresh clk r.1 r.2) k

theorem Core.ctxs_endDeferrals (cs : List Nat) (k : Core) : (k.endDeferrals cs).ctxs = k.ctxs :=
  foldl_keeps (r := Core.ctxs) (fun q n => q.ctxs_setTower n _) cs k

theorem Core.defer_endDeferrals (cs : List Nat) (k : Core) {n : Nat} (h : n ∈ cs ∨ (k.tower n).defer = []) :
    ((k.endDeferrals cs).tower n).defer = [] := by
  induction cs generalizing k with
  | nil => exact h.resolve_left List.not_mem_nil
  | cons m cs ih =>
    refine ih (k.setTower m { k.tower m with defer := [] }) ?_
    rcases k.tower_setTower_cases m n { k.tower m with defer := [] } with hn | ⟨hn, -⟩
    · rcases h with hmem | hdefer
      · rcases List.mem_cons.1 hmem with rfl | hcs
        · exact .inr (congrArg Tower.defer (k.tower_setTower n _))
        · exact .inl hcs
      · exact .inr ((congrArg Tower.defer hn).trans hdefer)
    · exact .inr (congrArg Tower.defer hn)

theorem Core.refreshed_refreshAll (gs : List (Nat × Nat)) (k : Core) : (k.refreshAll clk gs).Refreshed clk k := by
  unfold Core.refreshAll
  exact Core.refreshed_foldl (f := fun q (r : Nat × Nat) => q.refresh clk r.1 r.2) (fun q r => (q.refresh_spec clk r.1 r.2).1) gs k

/-- Every group that is refreshed is touched. -/
theorem Core.touch_refreshAll (gs : List (Nat × Nat)) (k : Core) {g : Nat × Nat} (hg : g ∈ gs) :
    get 0 ((k.refreshAll clk gs).tower g.1).touch g.2 = clk := by
  induction gs generalizing k with
  | nil => exact absurd hg List.not_mem_nil
  | cons r gs ih =>
    rcases List.mem_cons.1 hg with rfl | hgs
    · obtain ⟨-, htouch⟩ := k.refresh_spec clk g.1 g.2
      obtain ⟨-, -, htowers⟩ := Core.refreshed_refreshAll gs (k.refresh clk g.1 g.2)
      exact ((htowers g.1).touch g.2).elim id fun h => h.trans htouch
    · exact ih _ hgs

/-- The other groups of a context's deferred layers. -/
def State.guardRest (s : State) (c k : Nat) (risk : List (Nat × Nat × Nat)) : List (Nat × Nat) :=
  (((s.core c).deferringCells ((s.core c).ctx k) s.clock).map fun n =>
    ((((s.core c).tower n).deferredGroups s.clock).filter fun g => !risk.any fun r => r.1 == n && r.2.1 == g.1).map
      fun g => (n, g.1)).flatten

/-- The core after the guard has fired. -/
def State.guardedCore (s : State) (c k : Nat) (risk : List (Nat × Nat × Nat)) : Core :=
  ((s.core c).endDeferrals (cellsOf ((s.core c).ctx k).sqm)).refreshAll s.clock
    (risk.map (fun r => (r.1, r.2.1)) ++ s.guardRest c k risk)

theorem guardFires_eq (k : Nat) (risk : List (Nat × Nat × Nat)) :
    s.guardFires c k risk = ((s.setCore c (s.guardedCore c k risk)).modCtxAt c k fun x =>
      { x with retrisk := retriskMerge x.retrisk risk (s.cluster (clusterOf c)).temp }).pendCause c k
        ⟨cRetentionLimit, 0, none, 0, false, false⟩ := rfl

theorem ctxs_guardedCore (k : Nat) (risk : List (Nat × Nat × Nat)) : (s.guardedCore c k risk).ctxs = (s.core c).ctxs := by
  obtain ⟨hctxs, -, -⟩ := Core.refreshed_refreshAll (clk := s.clock) (risk.map (fun r => (r.1, r.2.1)) ++ s.guardRest c k risk)
    ((s.core c).endDeferrals (cellsOf ((s.core c).ctx k).sqm))
  exact hctxs.trans (Core.ctxs_endDeferrals _ _)

theorem State.tower_modCtxAt (v : State) (c k : Nat) (f : Ctx → Ctx) (n : Nat) :
    ((v.modCtxAt c k f).core c).tower n = (v.core c).tower n := by
  rw [State.modCtxAt, State.setCtxAt, State.core_setCore_same]
  rfl

theorem tower_guardFires (k : Nat) (risk : List (Nat × Nat × Nat)) (n : Nat) :
    ((s.guardFires c k risk).core c).tower n = (s.guardedCore c k risk).tower n := by
  rw [guardFires_eq, State.pendCause, State.tower_modCtxAt, State.tower_modCtxAt, State.core_setCore_same]

theorem ctxAt_guardFires (k : Nat) (risk : List (Nat × Nat × Nat)) : ∃ latched, (s.guardFires c k risk).ctxAt c k =
    Ctx.pending { s.ctxAt c k with retrisk := retriskMerge (s.ctxAt c k).retrisk risk (s.cluster (clusterOf c)).temp }
      ⟨cRetentionLimit, 0, none, 0, false, latched⟩ := by
  have hctx : (s.setCore c (s.guardedCore c k risk)).ctxAt c k = s.ctxAt c k := by
    rw [State.ctxAt, State.core_setCore_same, Core.ctx, ctxs_guardedCore]
    rfl
  rw [guardFires_eq, State.pendCause, State.ctxAt_modCtxAt_same, State.ctxAt_modCtxAt_same, hctx]
  exact ⟨_, rfl⟩

/-- A cause that waits, alone or merged. -/
theorem Ctx.exists_pending (x : Ctx) (p : Pending) : ∃ q ∈ (x.pending p).pend, q.cause = p.cause := by
  unfold Ctx.pending
  split
  next h =>
    obtain ⟨q, hq, hcause⟩ := List.any_eq_true.1 h
    exact ⟨q, hq, beq_iff_eq.1 hcause⟩
  next => exact ⟨p, List.mem_append_right _ (List.mem_singleton.2 rfl), rfl⟩

theorem Ctx.pending_retrisk (x : Ctx) (p : Pending) : (x.pending p).retrisk = x.retrisk := by
  unfold Ctx.pending
  split <;> rfl

end Sys2Proof.Machine
end

section
/-! SUPPORT. What the guard leaves in SYS.RETRISK (R240), and its occurrence (R239). -/

namespace Sys2Proof.Machine

open Sys2Proof.Claims

variable {s : State} {c : Nat}

/-! ### SYS.RETRISK -/

/-- Bits that are set one after another. -/
theorem testBit_foldl_or {α : Type} (f : α → Nat) (as : List α) (m i : Nat) :
    (as.foldl (fun m a => m ||| 1 <<< f a) m).testBit i = (m.testBit i || as.any fun a => f a == i) := by
  induction as generalizing m with
  | nil => simp
  | cons a as ih =>
    have hbit : (1 <<< f a).testBit i = (f a == i) := by
      rw [Nat.one_shiftLeft, Nat.testBit_two_pow, Bool.beq_eq_decide_eq]
    rw [List.foldl_cons, ih, Nat.testBit_or, hbit, List.any_cons, Bool.or_assoc]

theorem foldl_or_lt {α : Type} {f : α → Nat} {w m : Nat} {as : List α} (hm : m < 2 ^ w) (has : ∀ a ∈ as, f a < w) :
    as.foldl (fun m a => m ||| 1 <<< f a) m < 2 ^ w := by
  induction as generalizing m with
  | nil => exact hm
  | cons a as ih =>
    obtain ⟨ha, has⟩ := List.forall_mem_cons.1 has
    refine ih (Nat.or_lt_two_pow hm ?_) has
    rw [Nat.one_shiftLeft]
    exact Nat.pow_lt_pow_right Nat.one_lt_two ha

theorem foldl_max_lt {b m : Nat} {xs : List Nat} (hm : m < b) (hxs : ∀ x ∈ xs, x < b) : xs.foldl max m < b := by
  induction xs generalizing m with
  | nil => exact hm
  | cons x xs ih =>
    obtain ⟨hx, hxs⟩ := List.forall_mem_cons.1 hxs
    exact ih (Nat.max_lt.2 ⟨hm, hx⟩) hxs

theorem fieldN_lt {n : Nat} (x : BitVec n) (lo w : Nat) : fieldN x lo w < 2 ^ w := by
  rw [fieldN_eq]
  exact Nat.mod_lt _ (Nat.two_pow_pos w)

theorem testBit_fieldN {n lo w i : Nat} (x : BitVec n) (hi : i < w) : (fieldN x lo w).testBit i = x.getLsbD (lo + i) := by
  rw [fieldN_eq, Nat.testBit_mod_two_pow, decide_eq_true hi, Bool.true_and, Nat.testBit_div_two_pow, Nat.add_comm]
  rfl

/-- The word of SYS.RETRISK from its fields. -/
theorem retriskWord {l q t a g : Nat} (hl : l < 2 ^ 8) (hq : q < 2 ^ 4) (ht : t < 2 ^ 8) (ha : a < 2 ^ 12) (hg : g < 2 ^ 16) {w : Word}
    (hw : w = BitVec.ofNat 64 ((l <<< 40) + (q <<< 36) + (t <<< 28) + (a <<< 16) + g)) :
    w.toNat / 2 ^ 48 = 0 ∧ fieldN w 40 8 = l ∧ fieldN w 36 4 = q ∧ w.toNat / 2 ^ 28 % 2 ^ 8 = t ∧ w.toNat / 2 ^ 16 % 2 ^ 12 = a ∧
      w.toNat % 2 ^ 16 = g := by
  have hval : w.toNat = l * 2 ^ 40 + q * 2 ^ 36 + t * 2 ^ 28 + a * 2 ^ 16 + g := by
    rw [hw, BitVec.toNat_ofNat]
    simp only [Nat.shiftLeft_eq]
    omega
  rw [fieldN_eq, fieldN_eq, hval]
  omega

/-- What the guard finds at risk lies in the towers of the cells. -/
theorem mem_atRisk {k : Core} {x : Ctx} {clk limit : Nat} {r : Nat × Nat × Nat} (h : r ∈ k.atRisk x clk limit) :
    r.1 < 256 ∧ r.2.1 < 72 := by
  obtain ⟨rs, hrs, hr⟩ := List.mem_flatten.1 h
  obtain ⟨n, hn, rfl⟩ := List.mem_map.1 hrs
  obtain ⟨g, hg, rfl⟩ := List.mem_map.1 hr
  obtain ⟨hcell, -⟩ := mem_cellsOf.1 (List.mem_of_mem_filter hn)
  obtain ⟨a, ha, rfl⟩ := List.mem_map.1 (List.mem_of_mem_filter hg)
  exact ⟨hcell, List.mem_range.1 (List.mem_of_mem_filter ha)⟩

/-- What SYS.RETRISK holds after a firing: layers and squads are added, the greatest age and the count kept. -/
theorem retriskMerge_spec (old : Word) {risk : List (Nat × Nat × Nat)} (celsius : Nat) (hrisk : ∀ r ∈ risk, r.1 < 256 ∧ r.2.1 < 72)
    {new : Word} (hnew : new = retriskMerge old risk celsius) : new.toNat / 2 ^ 48 = 0 ∧
      (∀ l : Nat, l < 8 → new.getLsbD (40 + l) = (old.getLsbD (40 + l) || risk.any fun r => r.2.1 / 9 == l)) ∧
      (∀ q : Nat, q < 4 → new.getLsbD (36 + q) = (old.getLsbD (36 + q) || risk.any fun r => squadOf r.1 == q)) ∧
      new.toNat / 2 ^ 28 % 2 ^ 8 = min 255 celsius ∧
      new.toNat / 2 ^ 16 % 2 ^ 12 = (risk.map fun r => min 4095 (r.2.2 / cyclesPerMs)).foldl max (old.toNat / 2 ^ 16 % 2 ^ 12) ∧
      new.toNat % 2 ^ 16 = min (old.toNat % 2 ^ 16 + risk.length) 0xFFFF := by
  have hlayers := foldl_or_lt (f := fun r : Nat × Nat × Nat => r.2.1 / 9) (fieldN_lt old 40 8) fun r hr => by
    have := (hrisk r hr).2
    omega
  have hsquads := foldl_or_lt (f := fun r : Nat × Nat × Nat => squadOf r.1) (fieldN_lt old 36 4) fun r hr => by
    have := (hrisk r hr).1
    unfold squadOf
    omega
  have hage : risk.foldl (fun m r => max m (min 4095 (r.2.2 / cyclesPerMs))) (fieldN old 16 12) =
      (risk.map fun r => min 4095 (r.2.2 / cyclesPerMs)).foldl max (old.toNat / 2 ^ 16 % 2 ^ 12) := by
    rw [List.foldl_map, fieldN_eq]
  have hages : (risk.map fun r => min 4095 (r.2.2 / cyclesPerMs)).foldl max (old.toNat / 2 ^ 16 % 2 ^ 12) < 2 ^ 12 := by
    refine foldl_max_lt (Nat.mod_lt _ (Nat.two_pow_pos 12)) fun x hx => ?_
    obtain ⟨r, -, rfl⟩ := List.mem_map.1 hx
    omega
  have hcount : satAdd 16 (fieldN old 0 16) risk.length = min (old.toNat % 2 ^ 16 + risk.length) 0xFFFF := by
    rw [satAdd, fieldN_low]
    rfl
  rw [retriskMerge, hage, hcount] at hnew
  obtain ⟨htop, hl, hq, ht, ha, hg⟩ := retriskWord hlayers hsquads (by omega) hages (by omega) hnew
  refine ⟨htop, fun l hlt => ?_, fun q hlt => ?_, ht, ha, hg⟩
  · rw [← testBit_fieldN new (w := 8) hlt, hl, testBit_foldl_or, testBit_fieldN old hlt]
  · rw [← testBit_fieldN new (w := 4) hlt, hq, testBit_foldl_or, testBit_fieldN old hlt]

/-! ### RETENTION_GUARD (R239) -/

theorem exec_retentionGuard {k time : Nat} (hc : c < 128) (hk : k < 4) {risk : List (Nat × Nat × Nat)}
    (hrisk : risk = (s.core c).atRisk (s.ctxAt c k) (max s.clock time) (retention (s.cluster (clusterOf c)).temp)) :
    exec (.retentionGuard c k time) s = .next (if risk.isEmpty then s.tick time else (s.tick time).guardFires c k risk) := by
  subst hrisk
  exact if_neg (by simp only [Config.cores, Config.contexts]; omega)

theorem touch_guardFires (k : Nat) {risk : List (Nat × Nat × Nat)} {r : Nat × Nat × Nat} (hr : r ∈ risk) :
    get 0 (((s.guardFires c k risk).core c).tower r.1).touch r.2.1 = s.clock := by
  rw [tower_guardFires, State.guardedCore]
  exact Core.touch_refreshAll _ _ (g := (r.1, r.2.1)) (List.mem_append_left _ (List.mem_map.2 ⟨r, hr, rfl⟩))

theorem defer_guardFires (k : Nat) (risk : List (Nat × Nat × Nat)) {n : Nat} (hn : n ∈ cellsOf (s.ctxAt c k).sqm) :
    (((s.guardFires c k risk).core c).tower n).defer = [] := by
  obtain ⟨-, -, htowers⟩ := Core.refreshed_refreshAll (clk := s.clock) (risk.map (fun r => (r.1, r.2.1)) ++ s.guardRest c k risk)
    ((s.core c).endDeferrals (cellsOf ((s.core c).ctx k).sqm))
  rw [tower_guardFires, State.guardedCore, (htowers n).defer]
  exact Core.defer_endDeferrals _ _ (.inl hn)

end Sys2Proof.Machine
end

section
/-! SUPPORT. Errors that are met or arise, and what a self-test's end makes of its unit (R433, R437, R439, R440). -/

namespace Sys2Proof.Machine

open Sys2Proof.Claims

variable {s : State} {c : Nat}

/-! ### An error that is corrected (R433, R439) -/

/-- The field at the top of a word, written. -/
theorem fieldN_setField_top (x : Word) (v : Nat) : fieldN (setField x 48 16 v) 48 16 = v % 2 ^ 16 := by
  have hlow : x.toNat % 2 ^ 48 < 2 ^ 48 := Nat.mod_lt _ (Nat.two_pow_pos 48)
  rw [fieldN_top (n := 64) (lo := 48) (w := 16) _ rfl, setField_eq, BitVec.toNat_ofNat]
  omega

theorem Core.errcnt_setTower (k : Core) (n : Nat) (w : Tower) : (k.setTower n w).errcnt = k.errcnt := by
  unfold Core.setTower
  split <;> rfl

theorem Core.tests_setTower (k : Core) (n : Nat) (w : Tower) : (k.setTower n w).tests = k.tests := by
  unfold Core.setTower
  split <;> rfl

/-- A corrected error of a tower's bank counts, and its bank's test waits. -/
theorem Core.countCorr_towerBank (k : Core) (clk cell layer bank : Nat) :
    fieldN (k.countCorr (.towerBank 0 cell layer bank) clk).errcnt 48 16 = min (fieldN k.errcnt 48 16 + 1) 0xFFFF ∧
      .towerBank 0 cell layer bank ∈ (k.countCorr (.towerBank 0 cell layer bank) clk).tests ∧
      (k.countCorr (.towerBank 0 cell layer bank) clk).tower cell = k.tower cell := by
  refine ⟨?_, ?_, rfl⟩
  · have hcount : satAdd 16 (fieldN k.errcnt 48 16) 1 = min (fieldN k.errcnt 48 16 + 1) 0xFFFF := rfl
    refine (fieldN_setField_top _ _).trans ?_
    rw [hcount]
    omega
  · change _ ∈ if k.tests.contains (.towerBank 0 cell layer bank) then k.tests else k.tests ++ [.towerBank 0 cell layer bank]
    split
    next h => exact List.contains_iff_mem.1 h
    next => exact List.mem_append_right _ (List.mem_singleton.2 rfl)

theorem exec_corrected {cell layer bank time : Nat} {failed : Bool} (hunit : unitExists (.towerBank c cell layer bank) = true)
    (hon : ((s.core c).tower cell).layer layer ≠ .off) :
    ∃ t, exec (.selfTest (.corrected (.towerBank c cell layer bank)) failed time) s = .next t ∧ t.clock = max s.clock time ∧
      Quiet s t ∧ fieldN (t.core c).errcnt 48 16 = min (fieldN (s.core c).errcnt 48 16 + 1) 0xFFFF ∧
      get 0 ((t.core c).tower cell).touch (layer * 9 + bank) = t.clock ∧ .towerBank 0 cell layer bank ∈ (t.core c).tests := by
  obtain ⟨hcount, htests, htower⟩ := (s.core c).countCorr_towerBank (s.tick time).clock cell layer bank
  obtain ⟨w, es, ts, heq⟩ := (s.core c).countCorr_eq (.towerBank 0 cell layer bank) (s.tick time).clock
  generalize hk : (s.core c).countCorr (.towerBank 0 cell layer bank) (s.tick time).clock = k at hcount htests htower heq
  have hexec : exec (.selfTest (.corrected (.towerBank c cell layer bank)) failed time) s =
      .next ((s.tick time).setCore c (k.setTower cell ((k.tower cell).touchAll (s.tick time).clock [layer * 9 + bank]))) := by
    have hcorrected : (s.tick time).corrected (.towerBank c cell layer bank) = if (k.tower cell).layer layer = .off then s.tick time
        else (s.tick time).setCore c (k.setTower cell ((k.tower cell).touchAll (s.tick time).clock [layer * 9 + bank])) := by
      rw [← hk]
      rfl
    rw [htower, if_neg hon, ← htower] at hcorrected
    rw [← hcorrected]
    change (if !unitExists _ then _ else _) = _
    rw [hunit]
    rfl
  refine ⟨_, hexec, rfl, ?_, ?_, ?_, ?_⟩
  · obtain ⟨hctxs, hcmem, -, -, -⟩ := k.rowsOf_setTower cell ((k.tower cell).touchAll (s.tick time).clock [layer * 9 + bank])
    refine State.Calm.quiet ((State.calm_tick s time).setCore (hcmem.trans ?_) (hctxs.trans ?_))
    · rw [heq]
      rfl
    · rw [heq]
      rfl
  · rw [State.core_setCore_same, Core.errcnt_setTower, hcount]
  · rw [State.core_setCore_same, Core.tower_setTower, Tower.touch_touchAll, if_pos (List.mem_singleton.2 rfl)]
    rfl
  · rw [State.core_setCore_same, Core.tests_setTower]
    exact htests

/-! ### An error that its code does not correct (R433) -/

theorem mem_withMarks {α : Type} [BEq α] [LawfulBEq α] {old new : List α} {a : α} : a ∈ withMarks old new ↔ a ∈ old ∨ a ∈ new := by
  rw [withMarks, List.mem_append, List.mem_filter]
  by_cases h : a ∈ old
  · simp [h]
  · simp [h]

theorem exec_upset_towerRow {cell r time : Nat} {failed : Bool} (hc : c < 128) (hcell : cell < 256) (hr : r < 1024)
    (hon : ((s.core c).tower cell).layer (rowLayer r) ≠ .off) :
    exec (.selfTest (.upset (.towerRow c cell r)) failed time) s = .next ((s.tick time).setCore c ((s.core c).setTower cell
      { (s.core c).tower cell with bad := withMarks ((s.core c).tower cell).bad [r] })) := by
  refine congrArg Host.Outcome.next (if_neg ?_)
  rintro (h | h | h | h)
  · exact absurd h (by simp only [Config.cores]; omega)
  · exact absurd h (by simp only [Config.cells]; omega)
  · omega
  · exact hon h

theorem upset_result {cell r time : Nat} {failed : Bool} (hc : c < 128) (hcell : cell < 256) (hr : r < 1024)
    (hon : ((s.core c).tower cell).layer (rowLayer r) ≠ .off) :
    ∃ t, exec (.selfTest (.upset (.towerRow c cell r)) failed time) s = .next t ∧ t.clock = max s.clock time ∧ Quiet s t ∧
      ((t.core c).tower cell).isBad r = true ∧ ∀ q : Nat, q ≠ r → ((t.core c).tower cell).isBad q = ((s.core c).tower cell).isBad q := by
  have hmark (q : Nat) : (withMarks ((s.core c).tower cell).bad [r]).contains q = true ↔
      ((s.core c).tower cell).isBad q = true ∨ q = r := by
    rw [List.contains_iff_mem, mem_withMarks, List.mem_singleton, Tower.isBad, List.contains_iff_mem]
  refine ⟨_, exec_upset_towerRow hc hcell hr hon, rfl, ((State.calm_tick s time).setTower cell _).quiet, ?_, fun q hq => ?_⟩
  · rw [State.core_setCore_same, Core.tower_setTower]
    exact (hmark r).2 (.inr rfl)
  · rw [State.core_setCore_same, Core.tower_setTower, Bool.eq_iff_iff]
    exact (hmark q).trans (or_iff_left hq)

/-! ### Verdicts (R439, R440) -/

theorem exec_verdict {u : ErrUnit} {failed : Bool} {time : Nat} (hunit : unitExists u = true) (hcore : unitCore u = some c) :
    exec (.selfTest (.verdict u) failed time) s = .next ((s.tick time).coreVerdict c u failed) := by
  change (if !unitExists u then _ else _) = _
  rw [hunit]
  cases u with
  | relayLane p l => exact absurd hcore (by simp [unitCore])
  | towerBank d cell layer bank =>
    obtain rfl := Option.some.inj hcore
    rfl
  | cellUnit d cell n =>
    obtain rfl := Option.some.inj hcore
    rfl
  | cmemWord d w =>
    obtain rfl := Option.some.inj hcore
    rfl

/-- A unit whose test does not wait, or waits for a launch boundary, is not classified. -/
theorem coreVerdict_idle {u : ErrUnit} {failed : Bool}
    (h : unitAt 0 u ∉ (s.core c).tests ∨ isCellUnit u = true ∧ (s.core c).launch ≠ none) : s.coreVerdict c u failed = s := by
  refine if_pos ?_
  rcases h with h | ⟨hunit, hlaunch⟩
  · simp [h]
  · simp [hunit, Option.isSome_iff_ne_none.2 hlaunch]

theorem coreVerdict_classify {u : ErrUnit} {failed : Bool} (htest : unitAt 0 u ∈ (s.core c).tests)
    (hunit : isCellUnit u = true → (s.core c).launch = none) : s.coreVerdict c u failed = s.classify c u failed := by
  refine if_neg ?_
  by_cases h : isCellUnit u = true
  · simp [htest, hunit h]
  · simp [htest, h]

/-- How many errors of a unit were met within 24 hours. -/
def Core.metErrors (k : Core) (v : ErrUnit) (clk : Nat) : Nat :=
  (k.errs.filter fun p => p.1 == v && decide (clk < p.2 + dayCycles)).length

/-- Whether a self-test's end makes its unit's fault lasting. -/
def Core.findsLasting (k : Core) (v : ErrUnit) (clk : Nat) (failed : Bool) : Bool :=
  failed || k.testFinds v || decide (3 ≤ k.metErrors v clk)

/-- A core after a test of one of its units is over. -/
def Core.tested (k : Core) (v : ErrUnit) (clk : Nat) : Core :=
  { k with tests := k.tests.erase v, errs := k.errs.filter fun p => decide (clk < p.2 + dayCycles) }

/-- The state in which a core's unit has been tested. -/
def State.unitTested (s : State) (c : Nat) (v : ErrUnit) : State := s.setCore c ((s.core c).tested v s.clock)

/-- What the health log says of a verdict. -/
def State.verdictEntry (s : State) (c : Nat) (u : ErrUnit) (failed : Bool) : HealthEntry :=
  let lasting := (s.core c).findsLasting (unitAt 0 u) s.clock failed
  ⟨s.clock / 1024, u, lasting, if lasting then (s.unitTested c (unitAt 0 u)).lastingAction u else 0⟩

/-- The state in which a verdict has been counted. -/
def State.verdictCounted (s : State) (c : Nat) (u : ErrUnit) (failed : Bool) : State :=
  (s.unitTested c (unitAt 0 u)).modMgmt fun m => m.countVerdict (s.verdictEntry c u failed)

theorem classify_eq {u : ErrUnit} {failed : Bool} (hlasting : unitAt 0 u ∉ (s.core c).lasting)
    (hwithdrawn : (s.core c).withdrawn = false) :
    s.classify c u failed = if (s.core c).findsLasting (unitAt 0 u) s.clock failed then
      (s.verdictCounted c u failed).setCore c (((s.core c).tested (unitAt 0 u) s.clock).lastingFault s.clock (unitAt 0 u))
      else s.verdictCounted c u failed := by
  have hskip : ¬ ((((s.core c).tested (unitAt 0 u) s.clock).lasting.contains (unitAt 0 u) ||
      ((s.core c).tested (unitAt 0 u) s.clock).withdrawn) = true) := by
    simp [Core.tested, hlasting, hwithdrawn]
  have hmet : (((s.core c).tested (unitAt 0 u) s.clock).errs.filter fun p => p.1 == unitAt 0 u).length =
      (s.core c).metErrors (unitAt 0 u) s.clock := by
    rw [Core.tested, List.filter_filter]
    rfl
  have hfinds : ((s.core c).tested (unitAt 0 u) s.clock).testFinds (unitAt 0 u) = (s.core c).testFinds (unitAt 0 u) := by
    cases u <;> rfl
  unfold State.verdictCounted State.verdictEntry Core.findsLasting
  rw [← hmet, ← hfinds]
  exact if_neg hskip

/-- The totals that a verdict counts in. -/
theorem Mgmt.countVerdict_totals (m : Mgmt) (e : HealthEntry) : (m.countVerdict e).healthNext = m.healthNext + 1 ∧
    (e.lasting = true → (m.countVerdict e).lasting.toNat = min (m.lasting.toNat + 1) 0xFFFF ∧
      (m.countVerdict e).transient = m.transient) ∧
    (e.lasting = false → (m.countVerdict e).transient.toNat = min (m.transient.toNat + 1) 0xFFFF ∧
      (m.countVerdict e).lasting = m.lasting) := by
  have hcount (x : BitVec 16) : (BitVec.ofNat 16 (satAdd 16 x.toNat 1)).toNat = min (x.toNat + 1) 0xFFFF := by
    rw [BitVec.toNat_ofNat, satAdd]
    omega
  unfold Mgmt.countVerdict
  refine ⟨rfl, fun h => ?_, fun h => ?_⟩
  · rw [h]
    exact ⟨hcount m.lasting, rfl⟩
  · rw [h]
    exact ⟨hcount m.transient, rfl⟩

theorem Core.lasting_lastingFault {k : Core} (clk : Nat) (v : ErrUnit) (h : k.launch ≠ none) :
    (k.lastingFault clk v).lasting = k.lasting ++ [v] := by
  obtain ⟨l, hl⟩ := Option.ne_none_iff_exists'.1 h
  unfold Core.lastingFault
  have hlaunch : ({ k.countErr 0 1 with lasting := k.lasting ++ [v] } : Core).launch.isNone = false := by
    change k.launch.isNone = false
    rw [hl]
    rfl
  dsimp only at hlaunch ⊢
  rw [hlaunch]
  rfl

/-- A test that ends: its verdict is counted, and a lasting fault waits where the core holds a launch. -/
theorem classify_result {u : ErrUnit} {failed : Bool} (hlasting : unitAt 0 u ∉ (s.core c).lasting)
    (hwithdrawn : (s.core c).withdrawn = false) :
    (s.classify c u failed).clock = s.clock ∧
      (s.classify c u failed).mgmt = s.mgmt.countVerdict (s.verdictEntry c u failed) ∧
      ((s.core c).findsLasting (unitAt 0 u) s.clock failed = true → (s.core c).launch ≠ none →
        ((s.classify c u failed).core c).lasting = (s.core c).lasting ++ [unitAt 0 u]) := by
  rw [classify_eq hlasting hwithdrawn]
  split
  · refine ⟨rfl, rfl, fun _ hlaunch => ?_⟩
    rw [State.core_setCore_same]
    exact Core.lasting_lastingFault (k := (s.core c).tested (unitAt 0 u) s.clock) s.clock (unitAt 0 u) hlaunch
  next h => exact ⟨rfl, rfl, fun hfinds => absurd hfinds h⟩

theorem verdict_result {u v : ErrUnit} {failed : Bool} {time : Nat} {k : Core} (hunit : unitExists u = true)
    (hcore : unitCore u = some c) (hv : v = unitAt 0 u) (hk : k = s.core c) (htest : v ∈ k.tests) (hlasting : v ∉ k.lasting)
    (hwithdrawn : k.withdrawn = false) (hcell : isCellUnit u = true → k.launch = none) :
    ∃ t, exec (.selfTest (.verdict u) failed time) s = .next t ∧ t.clock = max s.clock time ∧
      t.mgmt.healthNext = s.mgmt.healthNext + 1 ∧
      ∀ met : Nat, met = k.metErrors v t.clock →
      ((failed = true ∨ k.testFinds v = true ∨ 3 ≤ met) → t.mgmt.lasting.toNat = min (s.mgmt.lasting.toNat + 1) 0xFFFF ∧
        t.mgmt.transient = s.mgmt.transient ∧ (k.launch ≠ none → (t.core c).lasting = k.lasting ++ [v])) ∧
      (failed = false → k.testFinds v = false → met < 3 → t.mgmt.transient.toNat = min (s.mgmt.transient.toNat + 1) 0xFFFF ∧
        t.mgmt.lasting = s.mgmt.lasting) := by
  subst hv hk
  have hclassify : (s.tick time).coreVerdict c u failed = (s.tick time).classify c u failed := coreVerdict_classify htest hcell
  obtain ⟨hclock, hmgmt, hwaits⟩ := classify_result (s := s.tick time) (u := u) (failed := failed) hlasting hwithdrawn
  obtain ⟨hnext, hlast, htransient⟩ := s.mgmt.countVerdict_totals ((s.tick time).verdictEntry c u failed)
  refine ⟨_, (exec_verdict hunit hcore).trans (congrArg Host.Outcome.next hclassify), hclock, ?_, fun met hmet => ⟨fun h => ?_,
    fun hfailed hfinds hless => ?_⟩⟩
  · rw [hmgmt]
    exact hnext
  · have hfinds : (s.core c).findsLasting (unitAt 0 u) (s.tick time).clock failed = true := by
      rw [hclock] at hmet
      simp only [Core.findsLasting, Bool.or_eq_true, decide_eq_true_eq, or_assoc]
      rw [← hmet]
      exact h
    rw [hmgmt]
    exact ⟨(hlast hfinds).1, (hlast hfinds).2, hwaits hfinds⟩
  · have hnot : (s.core c).findsLasting (unitAt 0 u) (s.tick time).clock failed = false := by
      rw [hclock] at hmet
      rw [Core.findsLasting, ← hmet, hfailed, hfinds, decide_eq_false (Nat.not_le.2 hless)]
      rfl
    rw [hmgmt]
    exact htransient hnot

end Sys2Proof.Machine
end

section
/-! SUPPORT. The control interval (R380, R381), turns of the issue slot (R362, R375), and the statement about clock time. -/

namespace Sys2Proof.Machine

open Sys2Proof.Claims

variable {s : State} {c : Nat}

/-! ### The most restrictive of the limits' requests (R380) -/

theorem foldl_outcome_stop (xs : List LimitRequest) (m : RailRequest) :
    xs.foldl (fun (m : RailRequest) (x : LimitRequest) => if railRank x.rail < railRank m then x.rail else m) m = .stop ↔
      m = .stop ∨ ∃ x ∈ xs, x.rail = .stop := by
  induction xs generalizing m with
  | nil => simp
  | cons x xs ih =>
    rw [List.foldl_cons, ih]
    cases m <;> cases hx : x.rail <;> simp [railRank, hx]

theorem foldl_outcome_high (xs : List LimitRequest) (m : RailRequest) :
    xs.foldl (fun (m : RailRequest) (x : LimitRequest) => if railRank x.rail < railRank m then x.rail else m) m = .high ↔
      m = .high ∧ ∀ x ∈ xs, x.rail = .high := by
  induction xs generalizing m with
  | nil => simp
  | cons x xs ih =>
    rw [List.foldl_cons, ih]
    cases m <;> cases hx : x.rail <;> simp [railRank, hx]

theorem outcomeOf_stop (xs : List LimitRequest) : outcomeOf xs = .stop ↔ ∃ x ∈ xs, x.rail = .stop :=
  (foldl_outcome_stop xs .high).trans (or_iff_right (by decide))

/-- Where none asks for a stop, the low rail is the outcome where one asks for it. -/
theorem outcomeOf_low {xs : List LimitRequest} (hstop : ¬ ∃ x ∈ xs, x.rail = .stop) :
    outcomeOf xs = if decide (∃ x ∈ xs, x.rail = .low) then .low else .high := by
  have hnot := mt (outcomeOf_stop xs).1 hstop
  have hhigh : outcomeOf xs = .high ↔ ∀ x ∈ xs, x.rail = .high := (foldl_outcome_high xs .high).trans (and_iff_right rfl)
  split
  next h =>
    obtain ⟨x, hx, hlow⟩ := of_decide_eq_true h
    cases houtcome : outcomeOf xs with
    | stop => exact absurd houtcome hnot
    | low => rfl
    | high => exact absurd ((hhigh.1 houtcome x hx).symm.trans hlow) (by decide)
  next h =>
    refine hhigh.2 fun x hx => ?_
    cases hrail : x.rail with
    | stop => exact absurd ⟨x, hx, hrail⟩ hstop
    | low => exact absurd (decide_eq_true ⟨x, hx, hrail⟩) h
    | high => rfl

/-! ### A cluster after its interval (R378, R380) -/

theorem Cluster.stopped_settle (x : Cluster) (o : RailRequest) (cause : Nat) : (x.settle o cause).stopped = (o == .stop) := by
  unfold Cluster.settle
  dsimp only
  rw [apply_ite Cluster.stopped]
  exact ite_self _

/-- A stop leaves the rail. -/
theorem Cluster.switching_settle_stop {x : Cluster} (cause : Nat) (h : x.switching = false) :
    (x.settle .stop cause).switching = false := by
  unfold Cluster.settle
  dsimp only
  rw [if_pos]
  · exact h
  · rw [beq_self_eq_true, Bool.or_true]

/-- A request for a rail begins a change where the cluster is on the other. -/
theorem Cluster.switching_settle {x : Cluster} (cause : Nat) {want : Bool} (h : x.switching = false) :
    (x.settle (if !want then .low else .high) cause).switching = (want != x.rail) ∧
      ((x.settle (if !want then .low else .high) cause).switching = true →
        (x.settle (if !want then .low else .high) cause).toRail = want) := by
  obtain ⟨rail, stopped, switching, toRail⟩ := x
  subst h
  cases want <;> cases rail <;> simp [Cluster.settle]

/-! ### All clusters in turn (R380) -/

/-- A cluster after its requests. -/
def Cluster.asked (x : Cluster) (xs : List LimitRequest) : Cluster := x.settle (outcomeOf xs) (causeOf xs)

/-- What stays of the device beside clusters and grants. -/
def State.Paced (t s : State) : Prop := t.clock = s.clock ∧ t.mgmt.meanW = s.mgmt.meanW

/-- The grants of a cluster's cores, one after another. -/
def State.granted (xs : List LimitRequest) (cl : Nat) (n : Nat) (s : State) : State :=
  (List.range n).foldl (fun s i => s.setCore (4 * cl + i) { s.core (4 * cl + i) with ewgrant := grantOf xs i }) s

theorem State.granted_spec (xs : List LimitRequest) (cl n : Nat) (s : State) :
    (s.granted xs cl n).clusters = s.clusters ∧ (s.granted xs cl n).Paced s ∧
    (∀ d, ((s.granted xs cl n).core d).ewgrant =
      if 4 * cl ≤ d ∧ d < 4 * cl + n then grantOf xs (d - 4 * cl) else (s.core d).ewgrant) := by
  induction n with
  | zero =>
    refine ⟨rfl, ⟨rfl, rfl⟩, fun d => (if_neg ?_).symm⟩
    omega
  | succ n ih =>
    obtain ⟨hclusters, hpaced, hgrants⟩ := ih
    have hstep : s.granted xs cl (n + 1) = (s.granted xs cl n).setCore (4 * cl + n)
        { (s.granted xs cl n).core (4 * cl + n) with ewgrant := grantOf xs n } := by
      rw [State.granted, List.range_succ, List.foldl_append]
      rfl
    rw [hstep]
    refine ⟨hclusters, hpaced, fun d => ?_⟩
    by_cases hd : d = 4 * cl + n
    · subst hd
      rw [State.core_setCore_same, if_pos (by omega), Nat.add_sub_cancel_left]
    · rw [State.core_setCore_other _ hd, hgrants]
      exact if_congr (by omega) rfl rfl

/-- One cluster's requests: its own state and its cores' grants. -/
theorem State.applyRequest_spec (s : State) {r : PowerRequest} (hr : r.cluster < 32) {xs : List LimitRequest}
    (hxs : xs = limitsOf r (s.cluster r.cluster).temp) : (s.applyRequest r).Paced s ∧
    (∀ n, (s.applyRequest r).cluster n = if n = r.cluster then (s.cluster n).asked xs else s.cluster n) ∧
    ∀ d, ((s.applyRequest r).core d).ewgrant =
      if 4 * r.cluster ≤ d ∧ d < 4 * r.cluster + 4 then grantOf xs (d - 4 * r.cluster) else (s.core d).ewgrant := by
  subst hxs
  generalize hxs : limitsOf r (s.cluster r.cluster).temp = xs
  obtain ⟨hclusters, hpaced, hgrants⟩ := s.granted_spec xs r.cluster 4
  have happly : s.applyRequest r =
      let t := (s.granted xs r.cluster 4).setCluster r.cluster (((s.granted xs r.cluster 4).cluster r.cluster).asked xs)
      { t with mgmt := { t.mgmt with capLimits := t.mgmt.capLimits ||| bindingBits xs } } := by
    rw [← hxs]
    exact if_neg (Nat.not_le.2 hr)
  have hcluster (n : Nat) : (s.granted xs r.cluster 4).cluster n = s.cluster n := by
    rw [State.cluster, hclusters]
    rfl
  rw [happly]
  refine ⟨hpaced, fun n => ?_, hgrants⟩
  refine (State.cluster_setCluster _ _ _ _).trans ?_
  rw [hcluster, hcluster]
  split
  next h => rw [h]
  next => rfl

theorem cluster_requestOf (reqs : List PowerRequest) (n : Nat) : (requestOf reqs n).cluster = n := by
  unfold requestOf
  cases h : reqs.find? fun r => r.cluster == n with
  | none => rfl
  | some r => exact beq_iff_eq.1 (List.find?_some (p := fun r : PowerRequest => r.cluster == n) h)

/-- The limits' requests for a cluster in an interval. -/
def State.limitsAt (s : State) (reqs : List PowerRequest) (n : Nat) : List LimitRequest := limitsOf (requestOf reqs n) (s.cluster n).temp

theorem applyRequests_spec (reqs : List PowerRequest) {m : Nat} (hm : m ≤ 32) (s : State) :
    (((List.range m).map (requestOf reqs)).foldl State.applyRequest s).Paced s ∧
    (∀ n, (((List.range m).map (requestOf reqs)).foldl State.applyRequest s).cluster n =
      if n < m then (s.cluster n).asked (s.limitsAt reqs n) else s.cluster n) ∧
    ∀ d, ((((List.range m).map (requestOf reqs)).foldl State.applyRequest s).core d).ewgrant =
      if d < 4 * m then grantOf (s.limitsAt reqs (d / 4)) (d % 4) else (s.core d).ewgrant := by
  induction m with
  | zero => exact ⟨⟨rfl, rfl⟩, fun _ => rfl, fun _ => rfl⟩
  | succ m ih =>
    obtain ⟨⟨hclock, hmean⟩, hclusters, hgrants⟩ := ih (Nat.le_of_succ_le hm)
    rw [List.range_succ, List.map_append, List.foldl_append, List.map_singleton, List.foldl_cons, List.foldl_nil]
    generalize ((List.range m).map (requestOf reqs)).foldl State.applyRequest s = t at hclock hmean hclusters hgrants ⊢
    have hcl := cluster_requestOf reqs m
    have hsame : t.cluster m = s.cluster m := (hclusters m).trans (if_neg (Nat.lt_irrefl m))
    obtain ⟨⟨hclock', hmean'⟩, hclusters', hgrants'⟩ := t.applyRequest_spec (r := requestOf reqs m) (xs := s.limitsAt reqs m) (by omega)
      (by rw [hcl, hsame]; rfl)
    rw [hcl] at hclusters' hgrants'
    refine ⟨⟨hclock'.trans hclock, hmean'.trans hmean⟩, fun n => ?_, fun d => ?_⟩
    · rw [hclusters']
      split
      next hn =>
        subst hn
        rw [hsame, if_pos (Nat.lt_succ_self n)]
      next hn =>
        rw [hclusters]
        exact if_congr (by omega) rfl rfl
    · rw [hgrants', hgrants]
      split
      next hd =>
        have hdiv : d / 4 = m := by omega
        have hmod : d - 4 * m = d % 4 := by omega
        rw [if_pos (by omega), hdiv, hmod]
      next hd => exact if_congr (by omega) rfl rfl

/-- A device at the start of a control interval. -/
def State.intervalStart (s : State) (watts time : Nat) : State :=
  { s.tick time with mgmt := { (s.tick time).mgmt with meanW := watts, capLimits := 0 } }

theorem exec_controlInterval {reqs : List PowerRequest} {watts time : Nat} (hfatal : s.mgmt.fatal = false) :
    exec (.controlInterval reqs watts time) s =
      .next (((List.range 32).map (requestOf reqs)).foldl State.applyRequest (s.intervalStart watts time)) := by
  have hgoes : ¬ ((s.intervalStart watts time).mgmt.fatal = true) := by
    change ¬ (s.mgmt.fatal = true)
    rw [hfatal]
    exact Bool.false_ne_true
  exact congrArg Host.Outcome.next (if_neg hgoes)

theorem requestOf_own (r : PowerRequest) : requestOf [r] r.cluster = r := by
  rw [requestOf, List.find?_cons_of_pos (p := fun q : PowerRequest => q.cluster == r.cluster) (beq_self_eq_true r.cluster)]
  rfl

theorem outcomeOf_unasked {r : PowerRequest} {n : Nat} (hn : n ≠ r.cluster) :
    outcomeOf (s.limitsAt [r] n) = .stop ↔ 110 < (s.cluster n).temp := by
  have hreq : requestOf [r] n = ⟨n, [], ⟨.high, []⟩, ⟨.high, []⟩, ⟨.high, []⟩⟩ := by
    rw [requestOf, List.find?_cons_of_neg (p := fun q : PowerRequest => q.cluster == n) fun h => hn (beq_iff_eq.1 h).symm]
    rfl
  have hthermal : thermalRequest (s.cluster n).temp = .stop ↔ 110 < (s.cluster n).temp := by
    unfold thermalRequest
    split
    · simp [*]
    · split <;> simp [*]
  rw [outcomeOf_stop, State.limitsAt, hreq, ← hthermal]
  simp [limitsOf]

theorem controlInterval_result {r : PowerRequest} {watts time : Nat} (hr : r.cluster < 32) (hfatal : s.mgmt.fatal = false)
    {xs : List LimitRequest} (hxs : xs = limitsOf r (s.cluster r.cluster).temp) :
    ∃ t, exec (.controlInterval [r] watts time) s = .next t ∧ t.clock = max s.clock time ∧ t.mgmt.meanW = watts ∧
      (t.cluster r.cluster).stopped = decide (∃ x ∈ xs, x.rail = .stop) ∧
      ((s.cluster r.cluster).switching = false →
        ((∃ x ∈ xs, x.rail = .stop) → (t.cluster r.cluster).switching = false) ∧
        (¬ (∃ x ∈ xs, x.rail = .stop) → ∀ want, want = !decide (∃ x ∈ xs, x.rail = .low) →
          (t.cluster r.cluster).switching = (want != (s.cluster r.cluster).rail) ∧
          ((t.cluster r.cluster).switching = true → (t.cluster r.cluster).toRail = want))) ∧
      (∀ n : Nat, n < 32 → n ≠ r.cluster → (t.cluster n).stopped = decide (110 < (s.cluster n).temp)) ∧
      ∀ n : Nat, n < 4 → (t.core (4 * r.cluster + n)).ewgrant = grantOf xs n := by
  obtain ⟨⟨hclock, hmean⟩, hclusters, hgrants⟩ := applyRequests_spec [r] (Nat.le_refl 32) (s.intervalStart watts time)
  have hlimits : (s.intervalStart watts time).limitsAt [r] r.cluster = xs := by
    rw [State.limitsAt, requestOf_own, hxs]
    rfl
  have hown := (hclusters r.cluster).trans (if_pos hr)
  rw [hlimits] at hown
  have hsettled : (((List.range 32).map (requestOf [r])).foldl State.applyRequest (s.intervalStart watts time)).cluster r.cluster =
      (s.cluster r.cluster).asked xs := hown
  refine ⟨_, exec_controlInterval hfatal, hclock, hmean, ?_, fun hstill => ⟨fun hstop => ?_, fun hstop want hwant => ?_⟩,
    fun n hn hne => ?_, fun n hn => ?_⟩
  · rw [hsettled, Cluster.asked, Cluster.stopped_settle, Bool.beq_eq_decide_eq]
    exact decide_eq_decide.2 (outcomeOf_stop xs)
  · rw [hsettled, Cluster.asked, (outcomeOf_stop xs).2 hstop]
    exact Cluster.switching_settle_stop _ hstill
  · have houtcome : outcomeOf xs = if !want then .low else .high := by
      rw [outcomeOf_low hstop, hwant, Bool.not_not]
    rw [hsettled, Cluster.asked, houtcome]
    exact Cluster.switching_settle _ hstill
  · rw [hclusters, if_pos hn, Cluster.asked, Cluster.stopped_settle, Bool.beq_eq_decide_eq]
    exact decide_eq_decide.2 (outcomeOf_unasked hne)
  · have hdiv : (4 * r.cluster + n) / 4 = r.cluster := by omega
    have hmod : (4 * r.cluster + n) % 4 = n := by omega
    rw [hgrants, if_pos (by omega), hdiv, hmod, hlimits]

/-! ### Turns of the issue slot (R362, R375) -/

theorem exec_governorStall (hc : c < 128) : exec (.governorStall c) s = .next (if s.governed c then s.stall c else s) :=
  if_neg (by simp only [Config.cores]; omega)

theorem slotOver_iff : s.slotOver c = true ↔ s.coreRuns c = true ∧ 4096 ≤ (s.core c).held ∧
    ((s.ctxAt c (s.core c).holder).run ≠ .running ∨ (s.ctxAt c (s.core c).holder).skip = 0) ∧ s.otherReady c = true := by
  simp [State.slotOver, and_assoc]

theorem exec_issueSlotTimeout (hc : c < 128) : exec (.issueSlotTimeout c) s = .next (if s.slotOver c then s.passSlot c else s) :=
  if_neg (by simp only [Config.cores]; omega)

/-- A context that is ready has not started anything. -/
theorem tryTurn_ready {k : Nat} (h : (s.tryTurn c k).2 ≠ none) : ∃ r, s.tryTurn c k = (s, some r) := by
  unfold State.tryTurn at h ⊢
  split at h
  · exact absurd rfl h
  next hactive =>
    rw [if_neg hactive]
    split at h
    next => exact absurd rfl h
    next r hr => exact ⟨_, rfl⟩

/-- The slot passes to the context after its holder where that is ready. -/
theorem passSlot_next (h : (s.tryTurn c (((s.core c).holder + 1) % 4)).2 ≠ none) :
    s.passSlot c = s.setCore c { s.core c with holder := ((s.core c).holder + 1) % 4, held := 0 } := by
  obtain ⟨r, hr⟩ := tryTurn_ready h
  simp [State.passSlot, Core.others, hr]

/-- Whoever holds the slot after a pass, the count of its cycles starts anew. -/
theorem passSlot_held (s : State) (c : Nat) : ((s.passSlot c).core c).held = 0 := by
  unfold State.passSlot
  generalize hacc : (s.core c).others.foldl _ (s, false) = acc
  have hheld : acc.2 = true → (acc.1.core c).held = 0 := by
    rw [← hacc]
    refine foldl_inv (fun acc : State × Bool => acc.2 = true → (acc.1.core c).held = 0) _ (fun acc k hinv => ?_) _ _
      fun h => absurd h Bool.false_ne_true
    dsimp only
    split
    · exact hinv
    · split
      next => exact fun _ => by rw [State.core_setCore_same]
      next => exact fun h => absurd h Bool.false_ne_true
  dsimp only
  split
  next hpassed => exact hheld hpassed
  next => rw [State.core_setCore_same]

/-- A cycle that may be charged counts toward the holder's where another context was ready. -/
theorem settleTurn_held {n : Nat} (t : State) (hcharge : s.mayCharge c n = true) :
    ∀ u ∈ [s.settleTurn c (.passed t n), s.settleTurn c (.stopped t n)],
      (u.core c).held = if s.otherReady c then (t.core c).held + 1 else 0 := by
  have hsettle (u : State) (hu : u = t.setCore c ((t.core c).heldCycle (s.otherReady c) n)) :
      (u.core c).held = if s.otherReady c then (t.core c).held + 1 else 0 := by
    rw [hu, State.core_setCore_same]
    rfl
  simp only [List.forall_mem_cons, List.not_mem_nil, false_imp_iff, implies_true, and_true]
  exact ⟨hsettle _ (if_pos hcharge), hsettle _ (if_pos hcharge)⟩

/-! ### What clock time does -/

/-- The guard at a clock time: what it finds at risk, and where it finds something all that its firing does. -/
theorem retentionGuard_result {k time : Nat} (hc : c < 128) (hk : k < 4) {risk : List (Nat × Nat × Nat)}
    (hrisk : risk = (s.core c).atRisk (s.ctxAt c k) (max s.clock time) (retention (s.cluster (clusterOf c)).temp)) :
    ∃ t, exec (.retentionGuard c k time) s = .next t ∧ t.clock = max s.clock time ∧
      (risk = [] → t = s.tick time) ∧ (∀ r ∈ risk, get 0 ((t.core c).tower r.1).touch r.2.1 = t.clock) ∧
      (risk ≠ [] → (t.ctxAt c k).retrisk = retriskMerge (s.ctxAt c k).retrisk risk (s.cluster (clusterOf c)).temp ∧
        (∃ p ∈ (t.ctxAt c k).pend, p.cause = cRetentionLimit) ∧
        ∀ n : Nat, n < 256 → bit (s.ctxAt c k).sqm (squadOf n) = true → ((t.core c).tower n).defer = []) := by
  refine ⟨_, exec_retentionGuard hc hk hrisk, ?_⟩
  cases hempty : risk.isEmpty with
  | true =>
    obtain rfl := List.isEmpty_iff.1 hempty
    exact ⟨rfl, fun _ => rfl, fun r hr => absurd hr List.not_mem_nil, fun h => absurd rfl h⟩
  | false =>
    obtain ⟨latched, hctx⟩ := ctxAt_guardFires (s := s.tick time) (c := c) k risk
    refine ⟨rfl, fun h => ?_, fun r hr => touch_guardFires k hr, fun _ => ⟨?_, ?_, fun n hn hsq => ?_⟩⟩
    · rw [h] at hempty
      exact absurd hempty.symm Bool.false_ne_true
    · exact (congrArg Ctx.retrisk hctx).trans (Ctx.pending_retrisk _ _)
    · exact hctx.symm ▸ Ctx.exists_pending _ _
    · exact defer_guardFires k risk (mem_cellsOf.2 ⟨hn, hsq⟩)

/-- Settles O47: each occurrence by what it does to the state, in the order of the statement. -/
theorem clockEvents : Obligations.ClockEvents := by
  intro s c time hc
  refine ⟨?_, ?_, ?_, ?_, ?_, ?_, ?_, ?_, ?_, ?_, ?_, ?_, ?_, ?_, ?_, ?_, passSlot_held s c, fun t n => settleTurn_held t⟩
  · exact fun n m hm hlaunch hruns hroom hfirst => exec_expressArrival hm (expressArrives_of hm hlaunch hruns hroom hfirst)
  · intro cell layer hcell hlayer
    refine ⟨_, exec_layerWakeDone hc hcell hlayer, ((State.Calm.refl s).setTower cell _).quiet, ?_⟩
    rw [State.core_setCore_same, Core.tower_setTower]
    exact Tower.layer_endWake _ _
  · intro cell g hcell hg
    refine ⟨_, exec_groupWakeDone hc hcell hg, ((State.Calm.refl s).setCell cell _).quiet, ?_⟩
    rw [State.core_setCore_same, Core.cell_setCell, if_pos rfl, Cell.group_endGroupWake]
  · intro cell g hcell hg
    obtain ⟨t, hexec, hquiet, hrows, hdue, hnot⟩ := refresh_result (s := s) hc hcell hg
    refine ⟨t, hexec, hquiet, hrows, fun hstill hon hover hage => hdue (refreshDue_iff.2 ⟨hstill, hon, hover, hage⟩), fun h => hnot ?_⟩
    rw [Bool.eq_false_iff, ne_eq, refreshDue_iff]
    rintro ⟨hstill, hon, hover, -⟩
    rcases h with h | h | h
    · exact absurd (hstill.symm.trans h) Bool.false_ne_true
    · exact hon h
    · exact Nat.not_lt.2 hover h
  · intro cl celsius hcl
    refine ⟨_, exec_tempReading hcl, rfl, (State.calm_tick s time).quiet_setCluster _ _, ?_, fun d hd => ?_⟩
    · exact (State.cluster_setCluster _ _ _ _).trans (if_pos rfl)
    · exact (State.cluster_setCluster _ _ _ _).trans (if_neg hd)
  · intro k risk hk hrisk
    obtain ⟨t, hexec, hclock, hidle, htouch, hfires⟩ := retentionGuard_result (time := time) hc hk hrisk
    refine ⟨t, hexec, hclock, hidle, htouch, fun old new hold hnew hne => ?_, fun hne => ?_⟩
    · obtain ⟨hretrisk, -, -⟩ := hfires hne
      subst hold
      exact retriskMerge_spec _ _ (fun r hr => mem_atRisk (hrisk ▸ hr)) (hnew.trans hretrisk)
    · obtain ⟨-, hpend, hdefer⟩ := hfires hne
      exact ⟨hpend, hdefer⟩
  · refine ⟨_, exec_deferralExpiry hc, rfl, ((State.calm_tick s time).expire _).quiet, fun n => ?_⟩
    rw [State.core_setCore_same, Core.tower_expire]
    rfl
  · rintro cell layer bank failed k hunit rfl hon
    exact exec_corrected hunit hon
  · exact fun cell r failed hcell hr hon => upset_result hc hcell hr hon
  · rintro u v failed k hunit hcore rfl rfl
    refine ⟨fun htest => ?_, fun hcell hlaunch => ?_, fun htest hlasting hwithdrawn hcell => ?_⟩
    · rw [exec_verdict hunit hcore, coreVerdict_idle (s := s.tick time) (.inl htest)]
    · rw [exec_verdict hunit hcore, coreVerdict_idle (s := s.tick time) (.inr ⟨hcell, hlaunch⟩)]
    · exact verdict_result hunit hcore rfl rfl htest hlasting hwithdrawn hcell
  · exact fun r watts hr hfatal xs hxs => controlInterval_result hr hfatal hxs
  · exact fun cl x hcl hx => railChangeEnd_result hcl hx
  · intro die want hdie
    exact ⟨_, exec_nocFreqStep hdie, (State.calm_of_cores rfl rfl rfl).quiet, get_set_same _ _ _ _⟩
  · exact exec_governorStall hc
  · rw [exec_issueSlotTimeout hc]
    exact congrArg Host.Outcome.next (if_congr slotOver_iff rfl rfl)
  · rintro k rfl h
    exact passSlot_next h

end Sys2Proof.Machine
end

section
/-! SUPPORT. What 4-bit elements refute (R149, R212): the statements about VSEL and about LQSCALE name every format, and for the one of
4 bits, which no well-formed slot of either has (R58), elements past the sixteenth have no lane of the mask. -/

namespace Sys2Proof.Machine

open Sys2Proof.Claims

/-! ### A checked bundle over a gated register -/

/-- A checked bundle of five NOPs. -/
def nopsInIssue : Issue := fresh 0 0 25 ⟨1, false, 0, 1, 0⟩ .nop .nop .nop .nop .nop

/-- A cell whose first register group is gated and whose mask m1 selects lane 2. -/
def gatedCell : Cell := { m := [(1, 4)], groups := [(0, .gated)] }

/-- A core with the bundle in issue whose cell 0 is that cell. -/
def gatedCore : Core := { cells := [(0, gatedCell)], ctxs := [(0, { issue := some nopsInIssue })] }

def gatedState : State := State.reset.setCore 0 gatedCore

/-- A slot of squad 0 of a 4-bit format, under a lane mask. -/
def fourBit (lm : BitVec 3) : CForm := { cPlain with sq := 1, lm := lm, fp1 := 5 }

theorem gatedState_cc : gatedState.cc = gatedCore := State.core_setCore_same _ _ _

theorem inIssue_gatedState : InIssue gatedState nopsInIssue := by
  have hctx : gatedState.cx = { issue := some nopsInIssue } := by
    show gatedState.cc.ctx 0 = _
    rw [gatedState_cc]
    rfl
  exact ⟨by rw [hctx], rfl, rfl⟩

theorem gatedState_cell (n : Nat) : gatedState.cc.cell n = gatedCell ∨ gatedState.cc.cell n = {} := by
  rw [gatedState_cc]
  by_cases hn : n = 0
  · exact .inl (by rw [hn]; rfl)
  · exact .inr (if_neg (Ne.symm hn))

theorem sound_gatedState (f : CForm) : Sound gatedState f := by
  intro n _
  have hcell := gatedState_cell n
  have htower : gatedState.cc.tower n = {} := by
    have hspare : gatedState.cc.usesSpare n = false := by
      rw [gatedState_cc]
      exact BitVec.getLsbD_zero
    rw [Core.tower, hspare, if_neg Bool.false_ne_true]
    exact hcell.elim (fun h => congrArg Cell.tower h) fun h => congrArg Cell.tower h
  rw [htower]
  rcases hcell with h | h <;>
  · rw [h]
    exact ⟨rfl, fun _ => rfl, fun _ => rfl, fun _ he => absurd he List.not_mem_nil⟩

/-! ### VSEL -/

theorem vsel_fourBit : ∃ t, exec (.vsel (fourBit 0)) gatedState = .next t ∧
    (t.cc.cell 0).land.map (fun e => elemN e.bits 4 16) = [15] := by
  have hrun : (match exec (.vsel (fourBit 0)) gatedState with
      | .next t => decide ((t.cc.cell 0).land.map (fun e => elemN e.bits 4 16) = [15])
      | _ => false) = true := by decide +kernel
  split at hrun
  next t h => exact ⟨t, h, of_decide_eq_true hrun⟩
  next => cases hrun

/-- Refutes O36: a VSEL of MXFP4, which is ill-formed (R149), under m0 writes element 16, of which the statement says that no lane
governs it. -/
theorem not_cellCompareResults : ¬ Obligations.CellCompareResults := by
  intro h
  obtain ⟨-, -, hsel⟩ := h gatedState nopsInIssue (fourBit 0) inIssue_gatedState (sound_gatedState _)
  obtain ⟨t, hexec, -, -, -, -, -, hcells⟩ := hsel .mxfp4 (by decide +kernel)
  obtain ⟨u, hu, hbits⟩ := vsel_fourBit
  obtain rfl : t = u := by injection hexec.symm.trans hu
  obtain ⟨y, ⟨e, ⟨-, -, -, -, -, helem⟩, rfl⟩, hcell⟩ := hcells 0 (by decide)
  have hland : (t.cc.cell 0).land = [e] := by
    rw [hcell, gatedState_cc]
    rfl
  rw [hland] at hbits
  have h16 : elemN e.bits 4 16 = 0 := helem 16 (by decide)
  simp [h16] at hbits

/-! ### LQSCALE -/

theorem lqscale_fourBit : ∃ t, exec (.lqscale (fourBit 1)) gatedState = .next t ∧
    t.cx.issue.map (fun i => i.raises) = some [⟨0, [⟨0, ⟨7, 0, 8⟩⟩]⟩] := by
  have hrun : (match exec (.lqscale (fourBit 1)) gatedState with
      | .next t => decide (t.cx.issue.map (fun i => i.raises) = some [⟨0, [⟨0, ⟨7, 0, 8⟩⟩]⟩])
      | _ => false) = true := by decide +kernel
  split at hrun
  next t h => exact ⟨t, h, of_decide_eq_true hrun⟩
  next => cases hrun

/-- Refutes O45: an LQSCALE of MXFP4, which is ill-formed (R58, R212), whose mask selects one group of eight elements past the sixteenth
records that it read them from a gated register, and names no lane, where the statement has every record name one. -/
theorem not_latticeResults : ¬ Obligations.LatticeResults := by
  intro h
  obtain ⟨hscale, -⟩ := h gatedState nopsInIssue (fourBit 1) inIssue_gatedState (sound_gatedState _)
  have hidle : ∀ n : Nat, Sel (fourBit 1) n → (∀ e ∈ (gatedState.cc.cell n).land, e.await = false) ∧
      ∀ e ∈ (gatedState.cc.cell n).writes, e.await = false := by
    intro n _
    rcases gatedState_cell n with hn | hn <;>
    · rw [hn]
      exact ⟨fun _ he => absurd he List.not_mem_nil, fun _ he => absurd he List.not_mem_nil⟩
  obtain ⟨⟨t, hexec, -, ⟨j, hcx, -, -, evs, hraises, -, hrecords⟩, -⟩, -⟩ :=
    hscale .mxfp4 (by decide) (by decide) rfl hidle
  obtain ⟨u, hu, hnoted⟩ := lqscale_fourBit
  obtain rfl : t = u := by injection hexec.symm.trans hu
  obtain ⟨hvalid, -⟩ := hrecords 0 ⟨by decide, by decide⟩
  have hevs : evs = [⟨0, ⟨7, 0, 8⟩⟩] := by
    rw [hcx, Option.map_some, hraises] at hnoted
    split at hnoted
    · cases hnoted
    · injection hnoted with hone
      injection hone with hraise
      injection hraise
  subst hevs
  exact (hvalid ⟨7, 0, 8⟩ List.mem_cons_self).2 rfl

end Sys2Proof.Machine
end

section
/-! SUPPORT. One element of a matrix step (R172, R173, R175 to R177), and the statement about it. -/

namespace Sys2Proof.Machine

open Sys2Proof.Claims

/-! ### Integer steps (R176) -/

theorem intStep_nil (co : Nat) (x : BitVec 32) : intStep co x [] = (x, noKind) := rfl

/-- An integer step adds the exact sum of its terms, or under CO = 2 keeps the greater. -/
theorem intStep_value (co : Nat) (x : BitVec 32) {ps : List (Int × Int)} (hps : ps ≠ []) {t : Int}
    (ht : (ps.map fun p => if co = 1 then ((p.1 - p.2).natAbs : Int) else p.1 * p.2).sum = t) :
    (intStep co x ps).1 =
      if co = 2 then (if x.toInt < t then BitVec.ofInt 32 t else x) else BitVec.ofInt 32 (x.toInt + t) := by
  rw [List.sum_eq_foldl] at ht
  rw [intStep, if_neg (by rwa [List.isEmpty_iff]), ht]
  split <;> rfl

/-! ### Sums with infinite terms (R145) -/

theorem any_infinite (n : Bool) (ts : List FVal) : (ts.any fun t => t.isInf && (t.isNeg == n)) = true ↔ .inf n ∈ ts := by
  rw [List.any_eq_true]
  refine ⟨fun ⟨t, ht, hinf⟩ => ?_, fun h => ⟨_, h, by simp [FVal.isInf, FVal.isNeg]⟩⟩
  cases t with
  | inf n' =>
    obtain rfl : n' = n := by simpa [FVal.isInf, FVal.isNeg] using hinf
    exact ht
  | nan => cases hinf
  | fin => cases hinf

/-- A sum by the infinities among its terms. -/
theorem sumRound_eq (q : FloatSpec) (M : RMode) (ts : List FVal) : sumRound q M ts =
    if .inf false ∈ ts ∧ .inf true ∈ ts then invalidNan q
    else if .inf false ∈ ts ∨ .inf true ∈ ts then (q.signed (decide (.inf true ∈ ts)) q.infCode, noKind)
    else q.roundDy M (ts.all FVal.isZero && zeroSign M ts || !ts.all FVal.isZero && M == .rdn) (Dy.sum (ts.map FVal.dy)) := by
  have hpos : (ts.any fun t => t.isInf && !t.isNeg) = decide (.inf false ∈ ts) := by
    rw [Bool.eq_iff_iff, decide_eq_true_iff, ← any_infinite]
    simp
  have hneg : (ts.any fun t => t.isInf && t.isNeg) = decide (.inf true ∈ ts) := by
    rw [Bool.eq_iff_iff, decide_eq_true_iff, ← any_infinite]
    simp
  unfold sumRound
  simp only [hpos, hneg, Bool.and_eq_true, Bool.or_eq_true, decide_eq_true_eq]

theorem sumRound_invalid (q : FloatSpec) (M : RMode) {ts : List FVal} (hneg : .inf true ∈ ts) (hpos : .inf false ∈ ts) :
    sumRound q M ts = invalidNan q := by
  rw [sumRound_eq, if_pos ⟨hpos, hneg⟩]

theorem sumRound_infinity (q : FloatSpec) (M : RMode) {ts : List FVal} (hopp : ¬ (.inf true ∈ ts ∧ .inf false ∈ ts)) {neg : Bool}
    (h : .inf neg ∈ ts) : sumRound q M ts = (q.signed neg q.infCode, noKind) := by
  have hsign : decide (.inf true ∈ ts) = neg := by
    cases neg with
    | true => exact decide_eq_true h
    | false => exact decide_eq_false fun htrue => hopp ⟨htrue, h⟩
  rw [sumRound_eq, if_neg fun hb => hopp hb.symm, if_pos, hsign]
  cases neg with
  | true => exact .inr h
  | false => exact .inl h

/-- An infinity opposes the terms of the other infinity, a number none. -/
theorem any_opposes (v : FVal) (ts : List FVal) : ts.any v.opposes = true ↔ ∃ n, v = .inf n ∧ .inf (!n) ∈ ts := by
  rw [List.any_eq_true]
  constructor
  · rintro ⟨t, ht, hopp⟩
    cases v with
    | inf n =>
      cases t with
      | inf n' =>
        obtain rfl : n' = !n := by
          revert hopp
          cases n <;> cases n' <;> simp [FVal.opposes]
        exact ⟨n, rfl, ht⟩
      | nan => cases hopp
      | fin => cases hopp
    | nan => cases hopp
    | fin => cases hopp
  · rintro ⟨n, rfl, ht⟩
    exact ⟨_, ht, by simp [FVal.opposes]⟩

/-! ### Floating-point steps (R175, R176) -/

theorem allSome_map_some {α : Type} (xs : List α) : allSome (xs.map some) = some xs := by
  induction xs with
  | nil => rfl
  | cons x xs ih => rw [List.map_cons, allSome, ih, Option.map_some]

theorem allSome_of_none_mem {α : Type} {xs : List (Option α)} (h : none ∈ xs) : allSome xs = none := by
  induction xs with
  | nil => exact absurd h List.not_mem_nil
  | cons x xs ih =>
    cases x with
    | none => rfl
    | some x => rw [allSome, ih (by simpa using h), Option.map_none]

/-- What the terms of a step make of an element, none of the operands being a NaN. -/
def termsStep (co : Nat) (x : BitVec 32) (ts : List FVal) : BitVec 32 × Kinds :=
  let q := Fmt.fp32.spec
  let v := q.decode x.toNat
  let ret (r : Nat × Kinds) : BitVec 32 × Kinds := (BitVec.ofNat 32 r.1, r.2)
  if co = 2 then
    if ts.any v.opposes then ret (invalidNan q)
    else if (q.decode (sumRound q .rne ts).1).isNan || v.below (q.decode (sumRound q .rne ts).1) then ret (sumRound q .rne ts)
    else (x, (sumRound q .rne ts).2)
  else ret (sumRound q .rne (v :: ts))

/-- The operands of an element: its value and the two sides of every position. -/
def stepOperands (x : BitVec 32) (ps : List (FVal × FVal)) : List FVal :=
  Fmt.fp32.spec.decode x.toNat :: (ps.map fun p => [p.1, p.2]).flatten

/-- The terms of the positions: products, or under CO = 1 absolute differences. -/
def stepTerms (co : Nat) (ps : List (FVal × FVal)) : List (Option FVal) :=
  ps.map fun p => if co = 1 then p.1.absDiff p.2 else p.1.times p.2

theorem fpStep_nil (co : Nat) (x : BitVec 32) : fpStep co x [] = (x, noKind) := rfl

variable {co : Nat} {x : BitVec 32} {ps : List (FVal × FVal)}

/-- The first NaN of the operands, and an event for a signalling one among them all (R113). -/
theorem nanOf_append (q : FloatSpec) {pre post : List FVal} (hpre : ∀ w ∈ pre, w.isNan = false) (neg quiet : Bool) (pay bits : Nat) :
    nanOf q (pre ++ .nan neg quiet pay bits :: post) = some (q.nanResult neg pay bits,
      if (pre ++ .nan neg quiet pay bits :: post).any FVal.isSnan then kInvalid else noKind) := by
  have hfind : (pre ++ .nan neg quiet pay bits :: post).find? FVal.isNan = some (.nan neg quiet pay bits) :=
    List.find?_eq_some_iff_append.2 ⟨rfl, pre, post, rfl, fun w hw => by rw [hpre w hw]; rfl⟩
  rw [nanOf, hfind]

theorem fpStep_of_nan (hps : ps ≠ []) {r : Nat × Kinds} (h : nanOf Fmt.fp32.spec (stepOperands x ps) = some r) :
    fpStep co x ps = (BitVec.ofNat 32 r.1, r.2) := by
  unfold stepOperands at h
  simp only [fpStep, h, List.isEmpty_iff, hps, if_false]

theorem fpStep_of_numbers (hps : ps ≠ []) (h : ∀ w ∈ stepOperands x ps, w.isNan = false) :
    fpStep co x ps = (allSome (stepTerms co ps)).elim (0x7FC00000, kInvalid) (termsStep co x) := by
  have hnan := nanOf_none Fmt.fp32.spec h
  unfold stepOperands at hnan
  simp only [fpStep, hnan, List.isEmpty_iff, hps, if_false]
  unfold stepTerms
  cases allSome (ps.map fun p => if co = 1 then p.1.absDiff p.2 else p.1.times p.2) <;> rfl

theorem fpStep_of_noTerm (hps : ps ≠ []) (h : ∀ w ∈ stepOperands x ps, w.isNan = false) (hterm : none ∈ stepTerms co ps) :
    fpStep co x ps = (0x7FC00000, kInvalid) := by
  rw [fpStep_of_numbers hps h, allSome_of_none_mem hterm, Option.elim_none]

theorem fpStep_of_terms (hps : ps ≠ []) (h : ∀ w ∈ stepOperands x ps, w.isNan = false) {ts : List FVal}
    (hterms : stepTerms co ps = ts.map some) : fpStep co x ps = termsStep co x ts := by
  rw [fpStep_of_numbers hps h, hterms, allSome_map_some, Option.elim_some]

theorem termsStep_sum (hco : co ≠ 2) (x : BitVec 32) (ts : List FVal) : termsStep co x ts =
    (BitVec.ofNat 32 (sumRound Fmt.fp32.spec .rne (Fmt.fp32.spec.decode x.toNat :: ts)).1,
      (sumRound Fmt.fp32.spec .rne (Fmt.fp32.spec.decode x.toNat :: ts)).2) := by
  rw [termsStep, if_neg hco]

/-- Infinities of opposite sign among x and the terms give the default NaN. -/
theorem termsStep_invalid (co : Nat) {v : FVal} (hv : v = Fmt.fp32.spec.decode x.toNat) {ts : List FVal}
    (hneg : .inf true ∈ v :: ts) (hpos : .inf false ∈ v :: ts) : termsStep co x ts = (0x7FC00000, kInvalid) := by
  by_cases hco : co = 2
  · by_cases hopp : ts.any v.opposes = true
    · rw [termsStep, if_pos hco, if_pos (hv ▸ hopp)]
      rfl
    · have hnot : ∀ n, v = .inf n → .inf (!n) ∉ ts := fun n hn h => hopp ((any_opposes v ts).2 ⟨n, hn, h⟩)
      have hterms : .inf true ∈ ts ∧ .inf false ∈ ts := by
        rcases List.mem_cons.1 hneg with hn | hn
        · exact absurd ((List.mem_cons.1 hpos).resolve_left (by rw [← hn]; simp)) (hnot true hn.symm)
        · exact ⟨hn, (List.mem_cons.1 hpos).resolve_left fun hp => hnot false hp.symm hn⟩
      rw [termsStep, if_pos hco, if_neg (hv ▸ hopp), sumRound_invalid _ _ hterms.1 hterms.2]
      rfl
  · rw [termsStep_sum hco, ← hv, sumRound_invalid _ _ hneg hpos]
    rfl

/-- Under CO = 2 the sum of the terms replaces x where it is greater. -/
theorem termsStep_greater (hco : co = 2) {v : FVal} (hv : v = Fmt.fp32.spec.decode x.toNat) {ts : List FVal}
    (hopp : ¬ (.inf true ∈ v :: ts ∧ .inf false ∈ v :: ts)) {y : Nat × Kinds} (hy : y = sumRound Fmt.fp32.spec .rne ts)
    (hnan : (Fmt.fp32.spec.decode y.1).isNan = false) :
    termsStep co x ts = (if v.below (Fmt.fp32.spec.decode y.1) then BitVec.ofNat 32 y.1 else x, y.2) := by
  have hnone : ¬ ts.any v.opposes = true := by
    rw [any_opposes]
    rintro ⟨n, rfl, hn⟩
    cases n with
    | true => exact hopp ⟨List.mem_cons_self, List.mem_cons_of_mem _ hn⟩
    | false => exact hopp ⟨List.mem_cons_of_mem _ hn, List.mem_cons_self⟩
  rw [termsStep, if_pos hco, ← hv, if_neg hnone, ← hy, hnan, Bool.false_or]
  split <;> rfl

/-! ### The values of fragments (R173, R205, R207) -/

theorem getElem?_flatten_of_length {α : Type} {k : Nat} (hk : 0 < k) {xss : List (List α)} (h : ∀ xs ∈ xss, xs.length = k) (e : Nat) :
    xss.flatten[e]? = xss[e / k]?.bind fun xs => xs[e % k]? := by
  induction xss generalizing e with
  | nil => simp
  | cons xs xss ih =>
    have hlen : xs.length = k := h xs List.mem_cons_self
    rw [List.flatten_cons]
    by_cases he : e < k
    · rw [List.getElem?_append_left (hlen ▸ he), Nat.div_eq_of_lt he, Nat.mod_eq_of_lt he]
      rfl
    · have hge : k ≤ e := Nat.le_of_not_lt he
      rw [List.getElem?_append_right (hlen ▸ hge), hlen, ih (fun ys hys => h ys (List.mem_cons_of_mem _ hys)),
        Nat.div_eq_sub_div hk hge, List.getElem?_cons_succ, Nat.mod_eq_sub_mod hge]

theorem indexed_length {α : Type} (n : Nat) (xs : List α) : (indexed n xs).length = xs.length := by
  induction xs generalizing n with
  | nil => rfl
  | cons x xs ih => rw [indexed, List.length_cons, List.length_cons, ih]

theorem lqDecode_length (w : BitVec 16) : (lqDecode w).length = 8 := by
  unfold lqDecode
  split <;> simp [indexed_length]

theorem nth_fragInts {g : Fmt} (hg : g.width = 8) (v : FragVal) {rows e : Nat} (he : e < fragElems g rows) :
    nth 0 (fragInts g rows v) e = fragInt g v e := by
  rw [fragInts, nth_map_range _ _ he, g.intValue_eq (elemN_lt _ _ _), hg, fragInt]

/-- Element `e` of a fragment of codewords is element `e % 8` of codeword `e / 8`. -/
theorem nth_fragValues_lq8 (d : FVal) (v : FragVal) {rows e : Nat} (he : e < 128 * rows) :
    nth d (fragValues .lq8 rows v) e = fragAt .lq8 v e := by
  have hlen : ∀ xs ∈ (List.range (16 * rows)).map fun c =>
      (lqDecode (elem v.bits 16 c)).map fun h => lqValue (nth 0 v.scales (c / 8)) h, xs.length = 8 := by
    intro xs hxs
    obtain ⟨c, -, rfl⟩ := List.mem_map.1 hxs
    rw [List.length_map, lqDecode_length]
  have hc : e / 8 < 16 * rows := by omega
  have hj : e % 8 < (lqDecode (elem v.bits 16 (e / 8))).length := by
    rw [lqDecode_length]
    exact Nat.mod_lt _ (by decide)
  rw [nth_eq_getD, fragValues, List.getD_eq_getElem?_getD, getElem?_flatten_of_length (by decide) hlen]
  simp only [List.getElem?_map, List.getElem?_range hc, Option.map_some, Option.bind_some, List.getElem?_eq_getElem hj,
    Option.getD_some, fragAt, nth_eq_getD, Nat.div_div_eq_div_mul, List.getD_eq_getElem _ _ hj]

theorem nth_fragValues {g : Fmt} (hg : g.isInt = false) (d : FVal) (v : FragVal) {rows e : Nat} (he : e < fragElems g rows) :
    nth d (fragValues g rows v) e = fragAt g v e := by
  cases g with
  | lq8 => exact nth_fragValues_lq8 d v he
  | bf16 =>
    have h16 : e < 16 * rows := by
      rw [fragElems, if_neg (by decide), Fmt.width] at he
      omega
    rw [fragValues, nth_map_range _ _ h16]
    rfl
  | mxfp8 | mxfp4 =>
    rw [fragValues, nth_map_range _ _ he, nth_eq_getD]
    · rfl
    all_goals simp
  | fp32 | fp16 | e4m3 | e5m2 =>
    rw [fragValues, nth_map_range _ _ he]
    · rfl
    all_goals simp
  | i8 | n8 | i16 | i32 => cases hg

/-! ### A step of a pair of formats (R172, R175, R177) -/

/-- What the table of R172 gives a pair of formats: elements of one kind, and room in the fragments for sixteen rows and
thirty-two columns of k positions. -/
structure PairShape (ga gb : Fmt) (p : MmaPair) : Prop where
  int : p.int = true → ga.width = 8 ∧ gb.width = 8
  float : p.int = false → ga.isInt = false ∧ gb.isInt = false
  aRoom : 16 * p.k ≤ fragElems ga p.aw
  bRoom : 32 * p.k ≤ fragElems gb p.bw

theorem mmaPair_shape {ga gb : Fmt} {p : MmaPair} (h : mmaPair ga gb = some p) : PairShape ga gb p := by
  unfold mmaPair at h
  split at h
  all_goals cases h
  all_goals exact ⟨by decide, by decide, by decide, by decide⟩

/-- Element `n` of an accumulator after a step of a pair of formats: positions `l` of row `n / 32` and column `n % 32`. -/
def pairElem (p : MmaPair) (ga gb : Fmt) (co lim : Nat) (a b : FragVal) (old : Acc) (n : Nat) : BitVec 32 × Kinds :=
  if p.int then intStep co (old.at_ n)
    ((List.range lim).map fun l => (fragInt ga a (n / 32 * p.k + l), fragInt gb b (l * 32 + n % 32)))
  else fpStep co (old.at_ n)
    ((List.range lim).map fun l => (fragAt ga a (n / 32 * p.k + l), fragAt gb b (l * 32 + n % 32)))

/-- What gathering makes of elements that name lanes of a cell. -/
theorem sameEvents_gatherEvents {lane : Nat → Nat} (hlane : ∀ n, lane n < 16) {kinds : Nat → Kinds} {ns : List Nat} :
    SameEvents (gatherEvents (ns.map fun n => (lane n, kinds n))) (itemsOf (ns.map fun n => (lane n, kinds n))) := by
  refine (sameEvents_iff _ _).2 ⟨gatherEvents_valid fun e he => ?_, alike_gatherEvents _⟩
  obtain ⟨n, -, rfl⟩ := List.mem_map.1 he
  exact hlane n

theorem stepAcc_masked (p : MmaPair) (ga gb : Fmt) (co : Nat) (a b : FragVal) (old : Acc) :
    stepAcc p ga gb co 0 a b old = (old, []) := rfl

/-- The element that the model's step computes, from the lists of the fragments' values. -/
def stepAccElem (p : MmaPair) (ga gb : Fmt) (co lim : Nat) (a b : FragVal) (old : Acc) (n : Nat) : BitVec 32 × Kinds :=
  if p.int then intStep co (old.at_ n) ((List.range lim).map fun l =>
    (nth 0 (fragInts ga p.aw a) (n / 32 * p.k + l), nth 0 (fragInts gb p.bw b) (l * 32 + n % 32)))
  else fpStep co (old.at_ n) ((List.range lim).map fun l =>
    (nth (.fin false 0 0) (fragValues ga p.aw a) (n / 32 * p.k + l), nth (.fin false 0 0) (fragValues gb p.bw b) (l * 32 + n % 32)))

theorem stepAcc_elems (p : MmaPair) (ga gb : Fmt) (co : Nat) {lim : Nat} (hlim : lim ≠ 0) (a b : FragVal) (old : Acc) :
    stepAcc p ga gb co lim a b old =
      (accOf (if p.int then .int else .fp) fun n => (stepAccElem p ga gb co lim a b old n).1,
        gatherEvents ((List.range 512).map fun n => (n % 32 % 16, (stepAccElem p ga gb co lim a b old n).2))) := by
  unfold stepAcc accOf stepAccElem
  generalize List.range 512 = ns
  rw [if_neg hlim]
  cases p.int <;> simp only [List.map_map] <;> rfl

/-- Every position that a step takes lies within its fragments. -/
theorem stepAccElem_eq {p : MmaPair} {ga gb : Fmt} (hp : mmaPair ga gb = some p) (co : Nat) {lim : Nat} (hlim : lim ≤ p.k)
    (a b : FragVal) (old : Acc) {n : Nat} (hn : n < 512) :
    stepAccElem p ga gb co lim a b old n = pairElem p ga gb co lim a b old n := by
  obtain ⟨hint, hfloat, haRoom, hbRoom⟩ := mmaPair_shape hp
  have ha : ∀ l ∈ List.range lim, n / 32 * p.k + l < fragElems ga p.aw := fun l hl => by
    have hrow : n / 32 * p.k ≤ 15 * p.k := Nat.mul_le_mul_right _ (by omega)
    have hl := List.mem_range.1 hl
    omega
  have hb : ∀ l ∈ List.range lim, l * 32 + n % 32 < fragElems gb p.bw := fun l hl => by
    have hl := List.mem_range.1 hl
    omega
  unfold stepAccElem pairElem
  cases hk : p.int with
  | true =>
    simp only [if_true]
    refine congrArg _ (List.map_congr_left fun l hl => ?_)
    rw [nth_fragInts (hint hk).1 a (ha l hl), nth_fragInts (hint hk).2 b (hb l hl)]
  | false =>
    simp only [Bool.false_eq_true, if_false]
    refine congrArg _ (List.map_congr_left fun l hl => ?_)
    rw [nth_fragValues (hfloat hk).1 _ a (ha l hl), nth_fragValues (hfloat hk).2 _ b (hb l hl)]

theorem stepAcc_eq {p : MmaPair} {ga gb : Fmt} (hp : mmaPair ga gb = some p) (co : Nat) {lim : Nat} (hpos : 0 < lim) (hlim : lim ≤ p.k)
    (a b : FragVal) (old : Acc) : stepAcc p ga gb co lim a b old =
      (accOf (if p.int then .int else .fp) fun n => (pairElem p ga gb co lim a b old n).1,
        gatherEvents ((List.range 512).map fun n => (n % 32 % 16, (pairElem p ga gb co lim a b old n).2))) := by
  have helem : ∀ n ∈ List.range 512, stepAccElem p ga gb co lim a b old n = pairElem p ga gb co lim a b old n := fun n hn =>
    stepAccElem_eq hp co hlim a b old (List.mem_range.1 hn)
  rw [stepAcc_elems p ga gb co hpos.ne', accOf, accOf]
  refine congrArg₂ Prod.mk (congrArg _ (congrArg _ ?_)) (congrArg gatherEvents ?_) <;>
    exact List.map_congr_left fun n hn => by rw [helem n hn]

/-! ### The positions of a step (R175) -/

theorem Stream.lt_limit (st : Stream) (num l : Nat) : l < st.limit num ↔ l < st.pair.k ∧ num * st.pair.k + l < st.kx := by
  rw [Stream.limit, lt_min_iff]
  exact and_congr_right fun _ => by omega

theorem Stream.kx_eq (st : Stream) :
    st.kx = if st.form.im.toNat % 2048 = 0 then st.form.cn.toNat * st.pair.k else st.form.im.toNat % 2048 := by
  rw [Stream.kx, mmaKx, fieldN_low]
  simp only [beq_iff_eq, Nat.reducePow]

theorem Stream.pair_eq {st : Stream} {ga gb : Fmt} {p : MmaPair} (ha : Fmt.ofCode st.fa = some ga) (hb : Fmt.ofCode st.fb = some gb)
    (hp : mmaPair ga gb = some p) : st.pair = p := by
  rw [Stream.pair, ha, hb, Option.bind_some, Option.bind_some, hp, Option.getD_some]

/-- Settles O42: an element of an integer and of a floating-point step, and the elements and positions of a step of a pair. -/
theorem matrixElement : Obligations.MatrixElement := by
  intro x
  refine ⟨fun ps hps => ⟨?_, ?_, ?_⟩, fun co => ⟨intStep_nil co x, fpStep_nil co x⟩, ?_, ?_, fun st num l =>
    ⟨st.lt_limit num l, st.kx_eq, fun ga gb p ha hb hp => Stream.pair_eq ha hb hp⟩⟩
  · exact intStep_value 0 x hps rfl
  · exact intStep_value 1 x hps rfl
  · exact intStep_value 2 x hps rfl
  · rintro co ps q v ops hps rfl hv hops
    have hops' : ops = stepOperands x ps := by rw [hops, hv]; rfl
    refine ⟨fun pre post neg quiet pay bits hsplit hpre => ?_, fun hnan terms hterms => ⟨fun hnone => ?_, fun ts hts => ⟨?_, ?_⟩⟩⟩
    · refine fpStep_of_nan hps (r := (_, _)) ?_
      rw [← hops', hsplit]
      exact nanOf_append _ hpre neg quiet pay bits
    · exact fpStep_of_noTerm hps (hops' ▸ hnan) (by rw [hterms] at hnone; exact hnone)
    all_goals rw [fpStep_of_terms hps (hops' ▸ hnan) (hterms.symm.trans hts)]
    · exact termsStep_invalid co hv
    · refine fun hopp => ⟨fun hco => ?_, fun hco y hy hy' => termsStep_greater hco hv hopp hy hy'⟩
      rw [termsStep_sum hco, ← hv]
      exact ⟨fun neg hneg => by rw [sumRound_infinity _ _ hopp hneg], fun y hy => by rw [← hy]⟩
  · intro ga gb p co lim a b old hp
    refine ⟨stepAcc_masked p ga gb co a b old, fun hpos hlim => ?_⟩
    intro at_ r hr
    have hat : at_ = pairElem p ga gb co lim a b old := rfl
    clear_value at_
    subst hat hr
    rw [stepAcc_eq hp co hpos hlim]
    dsimp only
    exact ⟨rfl, fun n hn => accOf_at _ _ hn, sameEvents_gatherEvents fun n => Nat.mod_lt _ (by decide)⟩

end Sys2Proof.Machine
end

section
/-! SUPPORT. Reads of system registers (R240, R328, R416, R438). -/

namespace Sys2Proof.Machine

/-- A read of a register without an effect on reading leaves its context. -/
theorem Ctx.sysRead_of_ne (x : Ctx) {n : Nat} (hretrisk : n ≠ 0x024) (hengflta : n ≠ 0x0B8) (hengfltb : n ≠ 0x0B9)
    (htcause : n ≠ 0x200) (herrlast : n ≠ 0x2E1) : x.sysRead n = x := by
  unfold Ctx.sysRead
  split
  · exact absurd rfl hretrisk
  · exact absurd rfl hengflta
  · exact absurd rfl hengfltb
  · exact absurd rfl htcause
  · exact absurd rfl herrlast
  · rfl

/-- Settles O31: the five registers by their cases, every other by having none. -/
theorem clearingReads : Obligations.ClearingReads := by
  intro x
  exact ⟨rfl, rfl, rfl, rfl, rfl, rfl, rfl, fun _ => x.sysRead_of_ne⟩

end Sys2Proof.Machine
end

section
/-! SUPPORT. A column's row in every cell that it names (R243, R244, R322). -/

namespace Sys2Proof.Machine

open Sys2Proof.Claims

theorem merged_zero {n : Nat} (old new : BitVec n) : merged old new 0 = old := by simp [merged]

/-- A write of the same bits a second time changes nothing. -/
theorem merged_merged {n : Nat} (old new bits : BitVec n) : merged (merged old new bits) new bits = merged old new bits := by
  ext i
  simp only [merged, BitVec.getElem_or, BitVec.getElem_and, BitVec.getElem_not]
  cases bits[i] <;> simp

theorem Tower.row_writeBits (w : Tower) (clk r : Nat) (v bits : Row) : (w.writeBits clk r v bits).row r = merged (w.row r) v bits := by
  by_cases hbits : bits = 0
  · rw [Tower.writeBits, if_pos hbits, hbits, merged_zero]
  · rw [Tower.row, w.writeBits_rows clk r v hbits, get_set_same]
    rfl

theorem Core.Counted.tower {k' k : Core} (h : k'.Counted k) (n : Nat) : k'.tower n = k.tower n := by
  obtain ⟨w, es, ts, rfl⟩ := h
  rfl

theorem Core.towerRow_writeRow (k : Core) (clk n r : Nat) (v bits : Row) :
    (k.writeRow clk n r v bits).towerRow n r = merged (k.towerRow n r) v bits := by
  obtain ⟨k', -, hwrite⟩ := k.writeRow_eq clk n r v bits
  rw [hwrite, Core.towerRow, Core.tower_setTower]
  exact (k.tower n).row_writeBits clk r v bits

/-- A row that is written in another cell's tower is written in this one's too where the two share a spare (R242), and else
stays. -/
theorem Core.towerRow_writeRow_cases (k : Core) (clk m n r : Nat) (v bits : Row) :
    (k.writeRow clk m r v bits).towerRow n r = k.towerRow n r ∨
      (k.writeRow clk m r v bits).towerRow n r = merged (k.towerRow n r) v bits := by
  obtain ⟨k', hcounted, hwrite⟩ := k.writeRow_eq clk m r v bits
  rw [hwrite, Core.towerRow, Core.towerRow]
  rcases k'.tower_setTower_cases m n ((k.tower m).writeBits clk r v bits) with hother | ⟨hshared, hsame⟩
  · exact .inl (by rw [hother, hcounted.tower])
  · rw [hcounted.tower, hcounted.tower] at hsame
    exact .inr (by rw [hshared, hsame, Tower.row_writeBits])

theorem Core.towerRow_columnWrite_of (clk : Nat) (q : ColRow) (n : Nat) (x : Row) (cs : List Nat) (k : Core)
    (hrow : k.towerRow n q.row = merged x q.val q.bits ∨ n ∈ cs ∧ k.towerRow n q.row = x) :
    (cs.foldl (fun k m => k.writeRow clk m q.row q.val q.bits) k).towerRow n q.row = merged x q.val q.bits := by
  induction cs generalizing k with
  | nil => exact hrow.resolve_right fun h => List.not_mem_nil h.1
  | cons m cs ih =>
    refine ih (k.writeRow clk m q.row q.val q.bits) ?_
    rcases hrow with hdone | ⟨hmem, hold⟩
    · rcases k.towerRow_writeRow_cases clk m n q.row q.val q.bits with h | h
      · exact .inl (h.trans hdone)
      · exact .inl (by rw [h, hdone, merged_merged])
    · rcases List.mem_cons.1 hmem with rfl | hcs
      · exact .inl (by rw [k.towerRow_writeRow, hold])
      · rcases k.towerRow_writeRow_cases clk m n q.row q.val q.bits with h | h
        · exact .inr ⟨hcs, h.trans hold⟩
        · exact .inl (by rw [h, hold])

/-- Every cell that a column's row names has it, once or more. -/
theorem Core.towerRow_columnWrite (k : Core) (clk : Nat) (q : ColRow) {n : Nat} (hn : n ∈ q.cells) :
    (k.columnWrite clk q).towerRow n q.row = merged (k.towerRow n q.row) q.val q.bits :=
  Core.towerRow_columnWrite_of clk q n _ q.cells k (.inr ⟨hn, rfl⟩)

end Sys2Proof.Machine
end

section
/-! SUPPORT. The steps of an engine context (R243, R244, R268, R269, R318 to R328, R333). -/

namespace Sys2Proof.Machine

open Sys2Proof.Claims

variable {s t : State} {c e : Nat}

@[simp] theorem Core.engine_setEngine_same (k : Core) (e : Nat) (x : Engine) : (k.setEngine e x).engine e = x := get_set_same _ _ _ _

theorem launchOf_some {l : Nat} {la : Launch} (h : s.launchOf c = some (l, la)) : (s.core c).launch = some l ∧ s.launch? l = some la := by
  unfold State.launchOf at h
  split at h
  next => cases h
  next l' hlaunch =>
    obtain ⟨la', hla, hpair⟩ := Option.map_eq_some_iff.1 h
    obtain ⟨rfl, rfl⟩ := Prod.mk.inj hpair
    exact ⟨hlaunch, hla⟩

/-! ### The start of an operation (R318) -/

/-- An engine context at work on an operation, with the rest of its queue. -/
def Engine.Serves (x : Engine) (op : EngineOp) (rest : List EngineOp) : Prop := x.queue = rest ∧ ∃ r, x.run = some r ∧ r.op = op

theorem State.sendFlit_cores {g n : Nat} {op : RemoteOp} {owner : Option (Nat × Nat)} (h : s.sendFlit g op owner = some (n, t)) :
    t.cores = s.cores := by
  unfold State.sendFlit at h
  dsimp only at h
  split at h
  · cases h
  · obtain ⟨-, rfl⟩ := Prod.mk.inj (Option.some.inj h)
    rfl

variable {op : EngineOp} {rest : List EngineOp}

theorem State.sendPackets_serves (group : Nat) (ps : List (List (Word × Byte) × Nat)) (h : ((s.core c).engine e).Serves op rest) :
    (((s.sendPackets c e group ps).core c).engine e).Serves op rest := by
  induction ps generalizing s with
  | nil => exact h
  | cons p ps ih =>
    unfold State.sendPackets
    dsimp only
    split
    · exact h
    next r hrun =>
      split
      · exact h
      next n u hsend =>
        obtain ⟨hqueue, r', hrun', hop⟩ := h
        obtain rfl : r = r' := Option.some.inj (hrun.symm.trans hrun')
        refine ih ?_
        rw [State.core_setCore_same, Core.engine_setEngine_same]
        exact ⟨hqueue, _, rfl, hop⟩

theorem State.sendRun_serves (h : ((s.core c).engine e).Serves op rest) : (((s.sendRun c e).core c).engine e).Serves op rest := by
  unfold State.sendRun
  split
  · exact h
  · split
    · split
      · exact State.sendPackets_serves _ _ h
      · exact h
    · exact h

theorem State.setEngine_serves (x : Engine) (r : EngineRun) (hop : r.op = op) :
    (((s.setCore c ((s.core c).setEngine e { x with queue := rest, run := some r })).core c).engine e).Serves op rest := by
  rw [State.core_setCore_same, Core.engine_setEngine_same]
  exact ⟨rfl, r, rfl, hop⟩

/-- An operation starts as a run of its own whatever it moves; what goes to another package is sent at once. -/
theorem State.startCopy_serves (s : State) (c e l : Nat) (la : Launch) (op : EngineOp) (rest : List EngineOp) :
    (((s.startCopy c e l la op rest).core c).engine e).Serves op rest := by
  unfold State.startCopy
  dsimp only
  split
  · exact State.setEngine_serves _ _ rfl
  · split
    · exact State.sendRun_serves (State.setEngine_serves _ _ rfl)
    · split
      · exact State.sendRun_serves (State.setEngine_serves _ _ rfl)
      · exact State.setEngine_serves _ _ rfl

theorem exec_copyOpStart (hc : c < 128) (he : e < 8) {l : Nat} {la : Launch} (hready : s.copyReady c e = some (op, rest))
    (hlaunch : s.launchOf c = some (l, la)) : exec (.copyOpStart c e) s = .next (s.startCopy c e l la op rest) := by
  refine (if_neg (by simp only [Config.cores]; omega)).trans ?_
  rw [hready, hlaunch]

theorem copyOpStart_result (hc : c < 128) (he : e < 8) {l : Nat} {la : Launch} (hready : s.copyReady c e = some (op, rest))
    (hlaunch : s.launchOf c = some (l, la)) : ∃ t r, exec (.copyOpStart c e) s = .next t ∧ ((t.core c).engine e).queue = rest ∧
      ((t.core c).engine e).run = some r ∧ r.op = op := by
  obtain ⟨hqueue, r, hrun, hop⟩ := s.startCopy_serves c e l la op rest
  exact ⟨_, r, exec_copyOpStart hc he hready hlaunch, hqueue, hrun, hop⟩

/-! ### A column's row (R243, R244, R322) -/

variable {r : EngineRun}

theorem exec_columnRowWrite (hc : c < 128) (he : e < 8) (hrun : ((s.core c).engine e).run = some r) (hruns : s.unitsRun c = true)
    {q : ColRow} {rows : List ColRow} (hrows : r.rows = q :: rows) :
    exec (.columnRowWrite c e) s = .next (s.columnRow c e r q rows) := by
  refine (if_neg (by simp only [Config.cores]; omega)).trans ?_
  simp only [hrun, hrows, hruns, if_true]

/-- The core whose layers a row's cells need are awake. -/
def Core.wakeFor (k : Core) (q : ColRow) : Core := q.cells.foldl (fun k n => k.wakeLayer n q.row) k

/-- A row lands in every cell where all its layers are there and no cell would keep bits in error. -/
theorem State.columnRow_eq {q : ColRow} (rows : List ColRow)
    (hcells : ∀ n ∈ q.cells, (((s.core c).wakeFor q).tower n).layer (rowLayer q.row) ≠ .off ∧
      (((s.core c).wakeFor q).tower n).uncorrectable q.row = false) :
    s.columnRow c e r q rows = s.setCore c ((((s.core c).wakeFor q).columnWrite s.clock q).withRun e
      { r with rows := rows, pos := rows.foldl (fun m w => min m w.first) r.goal }) := by
  have hon : ¬ (q.cells.any fun n => (((s.core c).wakeFor q).tower n).layer (rowLayer q.row) == .off) = true := by
    rw [List.any_eq_true]
    rintro ⟨n, hn, hoff⟩
    exact (hcells n hn).1 (beq_iff_eq.1 hoff)
  have hgood : (if q.bits = BitVec.allOnes 256 then none
      else q.cells.find? fun n => (((s.core c).wakeFor q).tower n).uncorrectable q.row) = none := by
    split
    · rfl
    · rw [List.find?_eq_none]
      intro n hn hbad
      exact absurd ((hcells n hn).2.symm.trans hbad) (by decide)
  unfold State.columnRow
  dsimp only
  refine (if_neg hon).trans ?_
  split
  next n hbad => cases hgood.symm.trans hbad
  next => rfl

theorem columnRowWrite_result (hc : c < 128) (he : e < 8) (hrun : ((s.core c).engine e).run = some r) (hruns : s.unitsRun c = true)
    {q : ColRow} {rows : List ColRow} (hrows : r.rows = q :: rows)
    (hcells : ∀ n ∈ q.cells, (((s.core c).wakeFor q).tower n).layer (rowLayer q.row) ≠ .off ∧
      (((s.core c).wakeFor q).tower n).uncorrectable q.row = false) :
    ∃ t, exec (.columnRowWrite c e) s = .next t ∧ t.mem = s.mem ∧
      (((t.core c).engine e).run).map (fun r' => (r'.rows, r'.op)) = some (rows, r.op) ∧
      ∀ n ∈ q.cells, (t.core c).towerRow n q.row = merged (((s.core c).wakeFor q).towerRow n q.row) q.val q.bits := by
  refine ⟨_, exec_columnRowWrite hc he hrun hruns hrows, State.columnRow_mem _ _ _ _ _ _, ?_⟩
  rw [State.columnRow_eq rows hcells, State.core_setCore_same]
  refine ⟨?_, fun n hn => ((s.core c).wakeFor q).towerRow_columnWrite s.clock q hn⟩
  rw [Core.withRun, Core.engine_setEngine_same]
  rfl

/-! ### Completion (R268, R269) -/

theorem EngineRun.over_of (hrows : r.rows = []) (hpackets : r.packets = []) (hsent : r.sent = []) : r.over = true := by
  rw [EngineRun.over, hrows, hpackets, hsent]
  rfl

/-- A core with the region entries that an operation has written (R323). -/
def Core.withEntries (k : Core) (entries : List (Nat × Nat × Word)) : Core :=
  entries.foldl (fun k q => k.setCell q.1 { k.cell q.1 with rgn := set 0 q.2.1 q.2.2 (k.cell q.1).rgn }) k

theorem Core.withEntries_launch (k : Core) (entries : List (Nat × Nat × Word)) :
    ((k.withEntries entries).launch, (k.withEntries entries).slot) = (k.launch, k.slot) :=
  foldl_keeps (r := fun k : Core => (k.launch, k.slot)) (by intros; rfl) entries k

/-- A core whose engine context is done with its run. -/
def Core.endRun (k : Core) (e : Nat) (r : EngineRun) : Core :=
  (k.withEntries r.entries).setEngine e { k.engine e with run := none, done := (k.engine e).done + 1 }

theorem State.completeCopy_eq {l : Nat} (hlaunch : (s.core c).launch = some l) :
    s.completeCopy c e r = (s.setCore c ((s.core c).endRun e r)).modLaunch l fun la =>
      la.addCounter (s.core c).slot e (copyInc r.op.desc) := by
  obtain ⟨hkept, hslot⟩ := Prod.mk.inj ((s.core c).withEntries_launch r.entries)
  rw [← hslot]
  rw [← hkept] at hlaunch
  unfold State.completeCopy
  dsimp only
  split
  next l' hl' =>
    obtain rfl : l = l' := Option.some.inj (hlaunch.symm.trans hl')
    rfl
  next hl' => cases hlaunch.symm.trans hl'

theorem exec_copyOpComplete (hc : c < 128) (he : e < 8) (hrun : ((s.core c).engine e).run = some r) (hruns : s.unitsRun c = true)
    (hover : r.over = true) (herr : r.err = none) : exec (.copyOpComplete c e) s = .next (s.completeCopy c e r) := by
  refine (if_neg (by simp only [Config.cores]; omega)).trans ?_
  rw [hrun]
  exact congrArg Host.Outcome.next (if_pos ⟨hruns, hover, herr⟩)

theorem copyOpComplete_result (hc : c < 128) (he : e < 8) (hrun : ((s.core c).engine e).run = some r) (hruns : s.unitsRun c = true)
    (hover : r.over = true) (herr : r.err = none) {l : Nat} {la : Launch} (hlaunch : s.launchOf c = some (l, la)) :
    ∃ t, exec (.copyOpComplete c e) s = .next t ∧ t.mem = s.mem ∧ ((t.core c).engine e).run = none ∧
      ((t.core c).engine e).done = ((s.core c).engine e).done + 1 ∧
      t.launch? l = some (la.addCounter (s.core c).slot e (copyInc r.op.desc)) := by
  obtain ⟨hof, hla⟩ := launchOf_some hlaunch
  refine ⟨_, exec_copyOpComplete hc he hrun hruns hover herr, State.completeCopy_mem _ _ _ _, ?_⟩
  have hcore : ((s.completeCopy c e r).core c) = (s.core c).endRun e r := by
    rw [State.completeCopy_eq hof, State.core, State.modLaunch_cores]
    exact State.core_setCore_same _ _ _
  rw [hcore, Core.endRun, Core.engine_setEngine_same, State.completeCopy_eq hof]
  exact ⟨rfl, rfl, launch?_modLaunch (s := s.setCore c _) hla _⟩

/-! ### An error and its report (R328, R333) -/

theorem launch?_modLaunch_other {a l : Nat} (h : a ≠ l) (f : Launch → Launch) : (s.modLaunch l f).launch? a = s.launch? a := by
  unfold State.modLaunch
  split
  · exact lookup_map_other h _ _
  · rfl

theorem State.engines_modCtxAt (v : State) (c k : Nat) (f : Ctx → Ctx) : ((v.modCtxAt c k f).core c).engines = (v.core c).engines := by
  rw [State.modCtxAt, State.setCtxAt, State.core_setCore_same]
  rfl

/-- A report changes neither an engine context nor a counter of a launch: it reaches a context, or the launch where every
context has stopped. -/
theorem State.reportEngine_keeps (s : State) (c : Nat) (want : Option Nat) (va : Word) (w : Nat) :
    ((s.reportEngine c want va w).core c).engines = (s.core c).engines ∧
      ∀ l la, s.launch? l = some la → ∃ la', (s.reportEngine c want va w).launch? l = some la' ∧ la'.counters = la.counters := by
  unfold State.reportEngine
  dsimp only
  split
  · rw [State.pendCause]
    refine ⟨?_, fun l la hla => ⟨la, (launch?_eq_of_launches ?_ l).trans hla, rfl⟩⟩
    · exact (State.engines_modCtxAt _ _ _ _).trans (State.engines_modCtxAt _ _ _ _)
    · rw [State.modCtxAt_launches, State.modCtxAt_launches]
  · split
    next l hl =>
      refine ⟨by rw [State.core, State.modLaunch_cores]; rfl, fun l' la hla => ?_⟩
      by_cases h : l' = l
      · subst h
        exact ⟨_, launch?_modLaunch hla _, rfl⟩
      · exact ⟨la, (launch?_modLaunch_other h _).trans hla, rfl⟩
    next => exact ⟨rfl, fun l la hla => ⟨la, hla, rfl⟩⟩

theorem exec_copyOpError (hc : c < 128) (he : e < 8) (hrun : ((s.core c).engine e).run = some r) (hruns : s.unitsRun c = true)
    (hover : r.over = true) {err : CopyErr} (herr : r.err = some err) :
    exec (.copyOpError c e) s = .next (s.stopCopy c e r err) := by
  refine (if_neg (by simp only [Config.cores]; omega)).trans ?_
  simp only [hrun, herr, hruns, hover, and_self, if_true]

/-- A core whose engine context has stopped with an error at its committed position. -/
def Core.failRun (k : Core) (e : Nat) (r : EngineRun) (err : CopyErr) : Core :=
  k.setEngine e { k.engine e with
    run := none, done := (k.engine e).done + 1, stopped := true, err := BitVec.ofNat 8 err.1, pos := r.pos }

theorem State.stopCopy_eq (s : State) (c e : Nat) (r : EngineRun) (err : CopyErr) :
    s.stopCopy c e r err = (s.setCore c ((s.core c).failRun e r err)).reportEngine c
      (if r.op.entry.isSome then none else some r.op.ctx) err.2 (engineWord e r.op err.1 r.pos) := rfl

theorem copyOpError_result (hc : c < 128) (he : e < 8) (hrun : ((s.core c).engine e).run = some r) (hruns : s.unitsRun c = true)
    (hover : r.over = true) {err : CopyErr} (herr : r.err = some err) :
    ∃ t, exec (.copyOpError c e) s = .next t ∧ t.mem = s.mem ∧ ((t.core c).engine e).run = none ∧
      ((t.core c).engine e).done = ((s.core c).engine e).done + 1 ∧
      ((t.core c).engine e).stopped = true ∧ ((t.core c).engine e).err = BitVec.ofNat 8 err.1 ∧ ((t.core c).engine e).pos = r.pos ∧
      ∀ l la, s.launchOf c = some (l, la) → ∃ la', t.launch? l = some la' ∧ ∀ a b : Nat, la'.counter a b = la.counter a b := by
  refine ⟨_, exec_copyOpError hc he hrun hruns hover herr, State.stopCopy_mem _ _ _ _ _, ?_⟩
  obtain ⟨hengines, hlaunches⟩ := (s.setCore c ((s.core c).failRun e r err)).reportEngine_keeps c
    (if r.op.entry.isSome then none else some r.op.ctx) err.2 (engineWord e r.op err.1 r.pos)
  rw [State.core_setCore_same] at hengines
  rw [State.stopCopy_eq, Core.engine, hengines, ← Core.engine, Core.failRun, Core.engine_setEngine_same]
  refine ⟨rfl, rfl, rfl, rfl, rfl, fun l la hlaunch => ?_⟩
  obtain ⟨-, hla⟩ := launchOf_some hlaunch
  obtain ⟨la', hla', hcounters⟩ := hlaunches l la hla
  exact ⟨la', hla', fun a b => by rw [Launch.counter, hcounters, ← Launch.counter]⟩

/-! ### A silent link (R324) -/

theorem exec_linkLost (hc : c < 128) (he : e < 8) (hrun : ((s.core c).engine e).run = some r) :
    exec (.linkLost c e) s = .next (if s.linkSilent r then
      s.setCore c ((s.core c).withRun e { r with packets := [], sent := [], err := some (eLinkLost, 0) }) else s) := by
  refine (if_neg (by simp only [Config.cores]; omega)).trans ?_
  rw [hrun]

theorem State.linkSilent_iff : s.linkSilent r = true ↔
    (r.packets ≠ [] ∨ r.sent ≠ []) ∧ max r.since (s.mgmt.group r.via).delivered + 100 * cyclesPerMs ≤ s.clock := by
  simp [State.linkSilent]

end Sys2Proof.Machine
end

section
/-! SUPPORT. Deliveries into the next slot of a handle: the gather unit, XPUT data and batons (R247, R294 to R297, R329 to
R333). -/

namespace Sys2Proof.Machine

variable {s t : State} {c n : Nat}

/-! ### The gather unit (R329, R330) -/

theorem exec_gatherRowFill (hc : c < 128) {g : GatherIdx} {rest : List GatherIdx} (hgather : (s.core c).gather = g :: rest)
    (hruns : s.unitsRun c = true) : exec (.gatherRowFill c) s = .next (s.gatherRow c g rest) := by
  refine (if_neg (Nat.not_le.2 hc)).trans ?_
  simp only [hgather, hruns, if_true]

/-- A row that is read fills the next slot, and its index has been served. -/
theorem State.gatherRow_done {g : GatherIdx} (rest : List GatherIdx) {h : Handle} {bs : List Byte} {u : State}
    (hlive : (s.ctxAt c g.ctx).hasStopped = false) (hindex : g.index.toNat < fieldN (nth 0 g.cfg 1) 32 32)
    (hview : (s.ctxAt c g.ctx).producerView g.handle = some h) (hfree : h.filled < h.count)
    (hread : s.readGlobal (s.gatherClient c g) .read (fieldN (nth 0 g.cfg 0) 0 56 + g.index.toNat * (nth 0 g.cfg 2).toNat)
      (Machine.gatherRow g.cfg) = (.ok bs, t)) (hfill : t.fillSlot c g.ctx g.handle bs = .done u) :
    s.gatherRow c g rest = u.setCore c { u.core c with gather := rest } := by
  simp only [State.gatherRow, hlive, Bool.false_eq_true, if_false, Nat.not_le.2 hindex, hview, Nat.not_le.2 hfree, hread, hfill]

/-! ### XPUT data (R331, R333) -/

theorem exec_xputDelivery {x : Xput} (hx : s.xputs[n]? = some x) (hfirst : overtakesXput (s.xputs.take n) x = false) :
    exec (.xputDelivery n) s = .next (s.deliverXput n x) := by
  change execXputDelivery n s = _
  simp only [execXputDelivery, hx, hfirst, Bool.false_eq_true, if_false]

/-- Data that a slot has room for is in it. -/
theorem State.deliverXput_done {x : Xput} {c' k' : Nat} (hunit : s.unitCtx x.launch x.unit = some (c', k'))
    (hlive : (s.ctxAt c' k').hasStopped = false)
    (hfill : { s with xputs := s.xputs.eraseIdx n }.fillSlot c' k' x.handle x.data = .done t) : s.deliverXput n x = t := by
  simp only [State.deliverXput, hunit, hlive, Bool.false_eq_true, if_false, hfill]

/-- Data that its handle refuses stops its sender. -/
theorem State.deliverXput_refused {x : Xput} {c' k' : Nat} (hunit : s.unitCtx x.launch x.unit = some (c', k'))
    (hlive : (s.ctxAt c' k').hasStopped = false)
    (hfill : { s with xputs := s.xputs.eraseIdx n }.fillSlot c' k' x.handle x.data = .refused) :
    s.deliverXput n x = { s with xputs := s.xputs.eraseIdx n }.senderStopped x.launch x.sender eBufRange := by
  simp only [State.deliverXput, hunit, hlive, Bool.false_eq_true, if_false, hfill]

/-! ### Batons (R295 to R297, R333) -/

theorem exec_batonDelivery {b : Baton} (hb : s.batons[n]? = some b) (hfirst : overtakesBaton (s.batons.take n) b = false) :
    exec (.batonDelivery n) s = .next (s.deliverBaton n b) := by
  change execBatonDelivery n s = _
  simp only [execBatonDelivery, hb, hfirst, Bool.false_eq_true, if_false]

/-- A baton for a stopped context is dropped. -/
theorem State.deliverBaton_stopped {b : Baton} {c' k' : Nat} (hunit : s.unitCtx b.launch b.unit = some (c', k'))
    (hdrop : { s with batons := s.batons.eraseIdx n }.dropBaton b = some t) (hstopped : (s.ctxAt c' k').hasStopped = true) :
    s.deliverBaton n b = t := by
  simp only [State.deliverBaton, hunit, hstopped, if_true, hdrop, Option.getD_some]

/-- A baton that its handle refuses is dropped, and its sender is told. -/
theorem State.deliverBaton_refused {b : Baton} {c' k' : Nat} (hunit : s.unitCtx b.launch b.unit = some (c', k'))
    (hdrop : { s with batons := s.batons.eraseIdx n }.dropBaton b = some t) (hlive : (s.ctxAt c' k').hasStopped = false)
    (hfill : { s with batons := s.batons.eraseIdx n }.fillSlot c' k' b.handle (b.header ++ b.payload) = .refused) :
    s.deliverBaton n b = t.reportBaton b := by
  simp only [State.deliverBaton, hunit, hlive, Bool.false_eq_true, if_false, hfill, hdrop, Option.map_some, Option.getD_some]

/-- A baton for a unit that its launch lacks is dropped. -/
theorem State.deliverBaton_lacking {b : Baton} (hunit : s.unitCtx b.launch b.unit = none)
    (hdrop : { s with batons := s.batons.eraseIdx n }.dropBaton b = some t) {x : Launch} (hx : s.launch? b.launch = some x)
    (hlacks : x.coreN * x.ctxs ≤ b.unit) : s.deliverBaton n b = t := by
  have hlacksUnit : s.lacksUnit b.launch b.unit = true := by
    rw [State.lacksUnit, hx]
    exact decide_eq_true hlacks
  simp only [State.deliverBaton, hunit, hlacksUnit, if_true, hdrop, Option.getD_some]

/-- A baton that a slot has room for is in it, and its handler is woken. -/
theorem State.deliverBaton_done {b : Baton} {c' k' : Nat} (hunit : s.unitCtx b.launch b.unit = some (c', k'))
    (hlive : (s.ctxAt c' k').hasStopped = false)
    (hfill : { s with batons := s.batons.eraseIdx n }.fillSlot c' k' b.handle (b.header ++ b.payload) = .done t) :
    s.deliverBaton n b = t.modCtxAt c' k' fun y => y.queueWake b := by
  simp only [State.deliverBaton, hunit, hlive, Bool.false_eq_true, if_false, hfill]

theorem State.reportBaton_local {b : Baton} (hsource : b.source = none) :
    s.reportBaton b = s.senderStopped b.launch b.sender eBufRange := by
  simp only [State.reportBaton, hsource]

theorem State.reportBaton_remote {b : Baton} {pkg : Nat} {la : Launch} {g : Graph} (hsource : b.source = some pkg)
    (hla : s.launch? b.launch = some la) (hgraph : la.graph = some g) :
    s.reportBaton b = s.post (.stopped pkg (s.crossName la.dom g) b.sender eBufRange) := by
  simp only [State.reportBaton, hsource, hla, hgraph, Option.bind_some, Option.map_some]

/-! ### The report to a sender (R247, R328) -/

theorem Core.reportTo_live {k : Core} {m : Nat} (hlive : (k.ctx m).hasStopped = false) : k.reportTo (some m) = some m := by
  simp only [Core.reportTo, hlive, Bool.false_eq_true, if_false]

/-- The first error that a context is told of is in its registers. -/
theorem Ctx.engineFault_first {x : Ctx} (va : Word) (w : Nat) (h : x.engfltb = 0) :
    x.engineFault va w = { x with engflta := BitVec.ofNat 64 (fieldN va 0 56), engfltb := BitVec.ofNat 64 w } := by
  rw [Ctx.engineFault, h]
  exact if_neg (not_not.2 rfl)

theorem Ctx.pending_engflt (x : Ctx) (p : Pending) : (x.pending p).engflta = x.engflta ∧ (x.pending p).engfltb = x.engfltb := by
  unfold Ctx.pending
  split <;> exact ⟨rfl, rfl⟩

theorem State.senderStopped_placed {l u err : Nat} {la : Launch} {c' : Nat} (hla : s.launch? l = some la)
    (hcore : la.cores[u / la.ctxs]? = some c') :
    s.senderStopped l u err = s.reportEngine c' (some (u % la.ctxs)) 0 (err <<< 56) := by
  simp only [State.senderStopped, hla, hcore]

theorem State.reportEngine_live {m : Nat} (va : Word) (w : Nat) (hlive : (s.ctxAt c m).hasStopped = false) :
    s.reportEngine c (some m) va w =
      (s.modCtxAt c m fun x => x.engineFault va w).pendCause c m ⟨cEngineFault, 0, none, 0, false, false⟩ := by
  simp only [State.reportEngine, Core.reportTo_live hlive]

theorem senderStopped_result {l u err : Nat} {la : Launch} {c' : Nat} (hla : s.launch? l = some la)
    (hcore : la.cores[u / la.ctxs]? = some c') (hlive : (s.ctxAt c' (u % la.ctxs)).hasStopped = false)
    (hfirst : (s.ctxAt c' (u % la.ctxs)).engfltb = 0) :
    ∃ z, z = (s.senderStopped l u err).ctxAt c' (u % la.ctxs) ∧ z.engflta = 0 ∧ z.engfltb = BitVec.ofNat 64 (err * 2 ^ 56) ∧
      ∃ p ∈ z.pend, p.cause = cEngineFault := by
  refine ⟨_, rfl, ?_⟩
  rw [State.senderStopped_placed hla hcore, State.reportEngine_live 0 _ hlive, State.pendCause, State.ctxAt_modCtxAt_same,
    State.ctxAt_modCtxAt_same, Ctx.engineFault_first 0 _ hfirst, Nat.shiftLeft_eq]
  obtain ⟨hengflta, hengfltb⟩ := Ctx.pending_engflt { s.ctxAt c' (u % la.ctxs) with
    engflta := BitVec.ofNat 64 (fieldN 0 0 56), engfltb := BitVec.ofNat 64 (err * 2 ^ 56) } ⟨cEngineFault, 0, none, 0, false, _⟩
  exact ⟨hengflta, hengfltb, Ctx.exists_pending _ _⟩

end Sys2Proof.Machine
end

section
/-! SUPPORT. The judge's steps (R287 to R293, R301 to R303). -/

namespace Sys2Proof.Machine

variable {s : State} {c k l : Nat}

theorem exec_judgeApply (hc : c < 128) (hk : k < 4) {la : Launch} {o : JudgeOp} {os : List JudgeOp} {g : Graph}
    (hlaunch : s.launchOf c = some (l, la)) (hqueue : (s.ctxAt c k).judgeQ = o :: os) (hgraph : la.graph = some g)
    (hfatal : s.mgmt.fatal = false) : exec (.judgeApply c k) s = .next (s.judgeHead c k l la.dom g o) := by
  refine (if_neg (by simp only [Config.cores, Config.contexts]; omega)).trans ?_
  simp only [hlaunch, hqueue, hgraph, hfatal, Bool.false_eq_true, if_false]

section
variable {dom : Nat} {g : Graph} {o : JudgeOp} (hsent : (s.ctxAt c k).judgeSent = false)
include hsent

/-- On a cancelled graph an operation is lost (R301). -/
theorem State.judgeHead_cancelled (hstate : g.state = 2) :
    s.judgeHead c k l dom g o = (s.countLost l o.gone.1 o.gone.2).modCtxAt c k Ctx.dequeueJudge := by
  simp only [State.judgeHead, hsent, Bool.false_eq_true, if_false, hstate, if_true]

/-- A graph of another package's home judge has it forwarded (R303). -/
theorem State.judgeHead_forwarded (hstate : g.state ≠ 2) (hauth : g.auth = 3) : s.judgeHead c k l dom g o =
    (s.forwardDeltas dom g (s.ctxAt c k).unit (o.gone.1 == 0) o.deltas).modCtxAt c k fun x => { x with judgeSent := true } := by
  simp only [State.judgeHead, hsent, Bool.false_eq_true, if_false, hstate, hauth, if_true]

/-- A batch that has to wait for room stays at the head of its queue (R292). -/
theorem State.judgeHead_waits (hstate : g.state ≠ 2) (hauth : g.auth ≠ 3) (hdeltas : s.applyDeltas l o.deltas = none) :
    s.judgeHead c k l dom g o = s := by
  simp only [State.judgeHead, hsent, Bool.false_eq_true, if_false, hstate, hauth, hdeltas]

variable {t : State} {h : Graph}

/-- A batch that is applied sends its baton out (R289). -/
theorem State.judgeHead_applied (hstate : g.state ≠ 2) (hauth : g.auth ≠ 3) (hdeltas : s.applyDeltas l o.deltas = some t)
    (hgraph : ((t.launch? l).bind fun x => x.graph) = some h) (hopen : h.state ≠ 2) :
    s.judgeHead c k l dom g o = (t.releaseBaton l (s.ctxAt c k).unit o).modCtxAt c k Ctx.dequeueJudge := by
  simp only [State.judgeHead, hsent, Bool.false_eq_true, if_false, hstate, hauth, hdeltas, hgraph, beq_eq_false_iff_ne.2 hopen]

/-- A batch that is refused cancels its graph, and no baton goes out (R291). -/
theorem State.judgeHead_refused (hstate : g.state ≠ 2) (hauth : g.auth ≠ 3) (hdeltas : s.applyDeltas l o.deltas = some t)
    (hgraph : ((t.launch? l).bind fun x => x.graph) = some h) (hrefused : h.state = 2) :
    s.judgeHead c k l dom g o = t.modCtxAt c k Ctx.dequeueJudge := by
  simp only [State.judgeHead, hsent, Bool.false_eq_true, if_false, hstate, hauth, hdeltas, hgraph, hrefused, beq_self_eq_true, if_true]

end

theorem exec_graphCancel {la : Launch} {g : Graph} {unit : Nat} (hla : s.launch? l = some la) (hgraph : la.graph = some g)
    (hfatal : s.mgmt.fatal = false) (hreq : g.cancelReq = some unit) : exec (.graphCancel l) s = .next (if g.auth = 3 then
      (s.modGraph l fun g => { g with cancelReq := none }).post (.cancel g.homePackage (s.crossName la.dom g) unit)
    else s.cancelGraph l 0 unit) := by
  change execGraphCancel l s = _
  simp only [execGraphCancel, hla, hgraph, Option.bind_some, Option.map_some, hreq, hfatal, Bool.false_eq_true, if_false]

/-- Settles O49, by the lemma of each event: an engine context's steps, the deliveries into a handle, and the judge's steps. -/
theorem copyDeliveryEvents : Obligations.CopyDeliveryEvents := by
  intro s c e k hc he hk
  refine ⟨fun op rest l la => copyOpStart_result hc he, fun r hrun hruns => ⟨?_, ?_, ?_, ?_⟩, ?_, ?_, ?_, ?_, ?_, ?_, ?_, ?_, ?_⟩
  · rintro q rows k' hrows rfl hcells
    exact columnRowWrite_result hc he hrun hruns hrows hcells
  · intro hrows hpackets hsent
    have hover := EngineRun.over_of hrows hpackets hsent
    exact ⟨fun herr l la => copyOpComplete_result hc he hrun hruns hover herr,
      fun err => copyOpError_result hc he hrun hruns hover⟩
  · intro hremote hsilent
    exact (exec_linkLost hc he hrun).trans (congrArg Host.Outcome.next (if_pos (State.linkSilent_iff.2 ⟨hremote, hsilent⟩)))
  · intro hearly
    refine (exec_linkLost hc he hrun).trans (congrArg Host.Outcome.next (if_neg fun hsilent => ?_))
    exact absurd hearly (Nat.not_lt.2 (State.linkSilent_iff.1 hsilent).2)
  · intro g rest h bs t u hgather hruns hlive hindex hview hfree hread hfill
    rw [exec_gatherRowFill hc hgather hruns, State.gatherRow_done rest hlive hindex hview hfree hread hfill]
  · intro n x c' k' t hx hfirst hunit hlive hfill
    rw [exec_xputDelivery hx hfirst, State.deliverXput_done hunit hlive hfill]
  · intro n x c' k' hx hfirst hunit hlive hfill
    rw [exec_xputDelivery hx hfirst, State.deliverXput_refused hunit hlive hfill]
    rfl
  · intro n b t hb hfirst hdrop
    rw [exec_batonDelivery hb hfirst]
    refine ⟨fun c' k' hunit => ⟨fun hstopped => ?_, fun hlive hfill => ?_⟩, fun hunit x hx hlacks => ?_⟩
    · rw [State.deliverBaton_stopped hunit hdrop hstopped]
    · rw [State.deliverBaton_refused hunit hdrop hlive hfill]
    · rw [State.deliverBaton_lacking hunit hdrop hx hlacks]
  · intro b
    exact ⟨State.reportBaton_local, fun pkg la g => State.reportBaton_remote⟩
  · rintro l u err la c' y hla hcore rfl - hlive hfirst
    exact senderStopped_result hla hcore hlive hfirst
  · intro n b c' k' t hb hfirst hunit hlive hfill
    rw [exec_batonDelivery hb hfirst, State.deliverBaton_done hunit hlive hfill]
    rfl
  · intro l la o os g hlaunch hqueue hgraph hfatal hsent
    rw [exec_judgeApply hc hk hlaunch hqueue hgraph hfatal]
    refine ⟨fun hstate => ?_, fun hstate hauth => ?_, fun hstate hauth => ⟨fun hdeltas => ?_, fun t h hdeltas hgraph' =>
      ⟨fun hopen => ?_, fun hrefused => ?_⟩⟩⟩
    · rw [State.judgeHead_cancelled hsent hstate]
    · rw [State.judgeHead_forwarded hsent hstate hauth]
    · rw [State.judgeHead_waits hsent hstate hauth hdeltas]
    · rw [State.judgeHead_applied hsent hstate hauth hdeltas hgraph' hopen]
    · rw [State.judgeHead_refused hsent hstate hauth hdeltas hgraph' hrefused]
  · intro l la g unit hla hgraph hfatal hreq
    rw [exec_graphCancel hla hgraph hfatal hreq]
    exact ⟨fun hauth => congrArg Host.Outcome.next (if_neg hauth), fun hauth => congrArg Host.Outcome.next (if_pos hauth)⟩

end Sys2Proof.Machine
end
